-- ==== Sys2Proof/Word.lean ====
section
/-! DEFINITION. The word types of the block, and the plain data its commands carry. -/

namespace Sys2Proof

/-- One byte of memory, of a flit payload or of a message (R16). -/
abbrev Byte := BitVec 8

/-- A 64-bit register, descriptor or memory word. -/
abbrev Word := BitVec 64

/-- A one-bit vector from a truth value. -/
def bit (b : Bool) : BitVec 1 := if b then 1 else 0

/-- The agent classes of Table 14.7 (R564). -/
inductive AgentClass where
  | keeper | steward | hostDriver | chipProcessor | diePort | pacing | remote | jtag
  deriving DecidableEq, Repr, Inhabited

/-- The agent that makes a control access: its class, its segment and its context (R564, R152). -/
structure Agent where
  cls : AgentClass
  seg : BitVec 3
  ctx : BitVec 12
  deriving DecidableEq, Repr, Inhabited

/-- The size and half of a control access (R13, R575): a 64-bit access, or a 32-bit access to bits
[31:0] or [63:32] of the register. -/
inductive Sz where
  | w64 | lo32 | hi32
  deriving DecidableEq, Repr, Inhabited

/-- The straps one segment samples (Table 14.1). -/
structure Straps where
  dieCount : BitVec 3
  segId : BitVec 3
  boot : BitVec 2
  laneRate : BitVec 2
  portMask : BitVec 6
  secure : Bool
  rampClass : BitVec 2
  nodeHi : BitVec 7
  deriving DecidableEq, Repr, Inhabited

/-- The fields of a courier instruction word other than the opcode (Table 3.4). -/
structure IFields where
  d : BitVec 5
  a : BitVec 5
  b : BitVec 5
  pred : BitVec 3
  inv : Bool
  imm : BitVec 37
  deriving DecidableEq, Repr, Inhabited

/-- A flit: the 128-bit header of Table 2.2 and 128 payload bytes. -/
structure Flit where
  dstNode : BitVec 15
  dstSeg : BitVec 3
  srcNode : BitVec 15
  srcSeg : BitVec 3
  kind : BitVec 5
  cls : BitVec 2
  epoch : BitVec 1
  hops : BitVec 7
  age : BitVec 10
  ctx : BitVec 12
  tag : BitVec 16
  line : BitVec 39
  payload : List Byte
  deriving DecidableEq, Repr, Inhabited

/-- A link frame: the header of Table 9.1 and two slots of 144 bytes, as received after the decoder of R360. -/
structure Frame where
  typ : BitVec 3
  seq : BitVec 12
  ack : BitVec 12
  credRet : BitVec 4
  credTotal : BitVec 16
  stamp : BitVec 10
  valid : BitVec 2
  key : BitVec 6
  run : BitVec 4
  fidx : BitVec 3
  crc : BitVec 24
  slot0 : List Byte
  slot1 : List Byte
  deriving DecidableEq, Repr, Inhabited

/-- A request on a die-port target channel (Table 1.6): the source kind is REQ_ID[11:10] (R564). -/
structure DptReq where
  ch : Bool
  id : BitVec 12
  ctx : BitVec 12
  addr : BitVec 64
  size : BitVec 3
  data : List Byte
  strb : List Bool
  deriving DecidableEq, Repr, Inhabited

/-- What a receive side has established when a training phase ends (Table 10.2, Table 10.3); `tapsOpen` while some tap request does not
yet read done (R411). -/
structure TrainObs where
  signal : BitVec 9
  inverted : BitVec 9
  order : Nat
  lock : BitVec 9
  skewOk : Bool
  partnerPhase : BitVec 3
  partnerGood : BitVec 9
  partnerWidth : BitVec 4
  partnerCap : BitVec 4
  seeds : List (BitVec 31)
  ownSeeds : List (BitVec 31)
  errs : List (BitVec 32)
  taps : List (BitVec 5 × BitVec 5)
  tapsOpen : Bool
  rtt : BitVec 16
  deriving DecidableEq, Repr, Inhabited

/-- The status a die-port read or write returned to the step that needed it: RSP_STATUS (R38), or none when
the access was retired after the limit of R39. -/
abbrev DpmStatus := Option (BitVec 4)

/-- A hamper line that fails its CRC when it is read (R468): its bank, its row, and the line within the row. -/
structure BadLine where
  bank : Fin 12
  row : BitVec 10
  line : BitVec 6
  deriving DecidableEq, Repr, Inhabited

/-- A flit that arrives over the link of bridge end `b`, with the bits that went bad on the way: each by its run and its place within the
run's 32 (R27). -/
structure BridgeFlit where
  b : Fin 2
  flips : List (Fin 38 × Fin 32) := []
  deriving DecidableEq, Repr, Inhabited

/-- The end of a training of the link of bridge end `b`: whether its modules could be repaired (R26). -/
structure BridgeUp where
  b : Fin 2
  repaired : Bool := true
  deriving DecidableEq, Repr, Inhabited

/-- The end of a reduction step: the low bits of its chunk's number, and a line of the sum where one fails its CRC (R468). -/
structure StepEnd where
  serial : BitVec 16
  bad : Option BadLine := none
  deriving DecidableEq, Repr, Inhabited

/-- The last sync headers of a physical lane, 64 of them (R409). -/
structure LaneHeads where
  lane : Fin 9
  heads : List (BitVec 2)
  deriving DecidableEq, Repr, Inhabited

/-- The scrambler seeds of a port's nine lanes: its own transmitters', and those received (R404). -/
structure LaneSeeds where
  own : List (BitVec 31)
  theirs : List (BitVec 31)
  deriving DecidableEq, Repr, Inhabited

/-- An SPDM request (Table 13.5), once its bytes are read. KEY_EXCHANGE carries the context of a Lototum element of type 0x01 in its
opaque data (R526); GET_MEASUREMENTS a nonce where it requests a signature. -/
inductive SpdmReq where
  | version
  | capabilities
  | algorithms (asym hash : BitVec 32)
  | digests
  | certificate (slot : BitVec 8) (off len : BitVec 16)
  | challenge (slot : BitVec 8) (nonce : List Byte)
  | measurements (idx : BitVec 8) (nonce : Option (List Byte))
  | keyExchange (slot : BitVec 8) (pub : List Byte) (ctx : Option (BitVec 12))
  | finish (mac : List Byte)
  | other (code : BitVec 8)
  deriving DecidableEq, Repr, Inhabited

/-- The answer to an SPDM request, before its bytes are formed: the selected algorithms, digests and chain bytes, measurement
blocks by index, signatures, the responder's data of a key exchange, or an ERROR code. -/
inductive SpdmAns where
  | version
  | capabilities
  | algorithms
  | digests (slot0 slot1 : List Byte)
  | certificate (slot : BitVec 8) (bytes : List Byte)
  | challengeAuth (signature : List Byte)
  | measurements (blocks : List (Nat × List Byte)) (signature : List Byte)
  | keyExchange (id random pub signature : List Byte)
  | finish
  | error (code : BitVec 8)
  deriving DecidableEq, Repr, Inhabited

/-- What the management port answers: an SPDM response, STATUS (R516), the outcome of another Lototum message, or the answer
of an MCTP control command (R515). -/
inductive MgmtAns where
  | silent
  | spdm (a : SpdmAns)
  | status (kprState : Word) (strapError : Bool) (straps : BitVec 32) (retryMs : Nat)
  | message (accepted : Bool)
  | endpoint (accepted : Bool) (eid : BitVec 8)
  | versions (typ : BitVec 8) (isSupported : Bool)
  | types (l : List (BitVec 8))
  | provisional (id : BitVec 48)
  deriving DecidableEq, Repr, Inhabited

end Sys2Proof
end

