-- ==== Sys2Proof/Syntax.lean ====
section
/-! DEFINITION. The commands of the block: one constructor of `Instr` per row of spec/opcode_table.json,
with the operands the row's step takes from outside the block. -/

namespace Sys2Proof

/-- The secured session of the management port (Table 13.5) that a message comes in; none for a message in the clear, and for
SPDM_SESSION_TIMEOUT the session of HOST_SPDM. -/
abbrev Session := Option (Fin 4)

/-- One command per row of spec/opcode_table.json. Unless its docstring says otherwise a command's first
operand is the segment it acts on. -/
inductive Instr where
  -- chapter 14, reset and boot
  | coldReset (straps : List Straps)
  | pllLock (sg : Fin 8)
  | pllLossOfLock (sg : Fin 8)
  | selfTestDone (sg : Fin 8) (rows : List (Fin 12 × BitVec 15)) (badCheckers : List (Fin 12)) (voterBad : Bool)
  | memoryClearDone (sg : Fin 8)
  | bootGo (sg : Fin 8) (ag : Agent)
  | imageWrite (off : BitVec 32) (data : List Byte)
  | imageGo
  | imageLoad (sg : Fin 8) (off : BitVec 32) (data : List Byte) (last : Bool)
  | stewardReady (sg : Fin 8) (ag : Agent)
  | stewardReadyTimeout (sg : Fin 8)
  | segBootAreaWrite (sg : Fin 8) (ag : Agent) (sz : Sz) (v : Word)
  | warmResetRequest (sg : Fin 8)
  | scrubLimitExpiry (sg : Fin 8)
  | segResetWarm (sg : Fin 8) (ag : Agent)
  | partialReset (sg : Fin 8) (ag : Agent) (domain : BitVec 6)
  | stewardUpdate (sg : Fin 8) (ch : Fin 64)
  | prepare (sg : Fin 8)
  | dispatchResumeLimit (sg : Fin 8)
  | keeperUpdate (sg : Fin 8) (ch : Fin 64)
  -- chapter 01
  | segNodeidWrite (sg : Fin 8) (ag : Agent) (sz : Sz) (v : Word)
  | bridgeFlitLand (sg : Fin 8) (x : BridgeFlit)
  | bridgeCredit (sg : Fin 8) (b : Fin 2)
  | bridgeParityError (sg : Fin 8) (b : Fin 2) (lane : Fin 128)
  | bridgeResetMessage (sg : Fin 8) (b : Fin 2)
  | bridgeLinkUp (sg : Fin 8) (x : BridgeUp)
  | bridgeRetry (sg : Fin 8) (b : Fin 2) (ag : Agent)
  -- chapter 02
  | dptWrite (sg : Fin 8) (req : DptReq)
  | dptRead (sg : Fin 8) (req : DptReq)
  | dptControlAccess (sg : Fin 8) (write : Bool) (req : DptReq)
  | dpmResponse (sg : Fin 8) (ch : Fin 6) (id : BitVec 12) (status : BitVec 4)
  | dpmTimeout (sg : Fin 8) (ch : Fin 6) (id : BitVec 12)
  | requestIssue (sg : Fin 8) (req : Nat)
  | homeExecute (sg : Fin 8) (idx : Nat)
  | guardFill (sg : Fin 8) (region : BitVec 17) (st : DpmStatus)
  | atomicExecute (sg : Fin 8) (idx : Nat) (bad : Option BadLine)
  | controlAtomAccess (sg : Fin 8) (idx : Nat)
  | cpyExecute (sg : Fin 8) (idx : Nat) (bad : List (Fin 16 × BadLine × Bool))
  | fwdWrExecute (sg : Fin 8) (idx : Nat)
  | replyLand (sg : Fin 8) (bad : Option BadLine)
  | tagTimeout (sg : Fin 8) (tag : BitVec 16)
  | tagQuarantineEnd (sg : Fin 8) (tag : BitVec 16)
  | busyRetry (sg : Fin 8) (req : Nat)
  | mergeFlushAge (sg : Fin 8) (idx : Nat) (bad : Option BadLine)
  | mergeFlushCmd (sg : Fin 8) (ag : Agent)
  | segFenceRead (sg : Fin 8) (ch : Bool) (id : BitVec 12) (ctx : BitVec 12)
  -- chapter 03: the instruction set. `c` is the core, `f` the instruction word's fields
  | add (sg : Fin 8) (c : Fin 18) (f : IFields)
  | sub (sg : Fin 8) (c : Fin 18) (f : IFields)
  | and (sg : Fin 8) (c : Fin 18) (f : IFields)
  | or (sg : Fin 8) (c : Fin 18) (f : IFields)
  | xor (sg : Fin 8) (c : Fin 18) (f : IFields)
  | shl (sg : Fin 8) (c : Fin 18) (f : IFields)
  | shr (sg : Fin 8) (c : Fin 18) (f : IFields)
  | sra (sg : Fin 8) (c : Fin 18) (f : IFields)
  | mul (sg : Fin 8) (c : Fin 18) (f : IFields)
  | mulh (sg : Fin 8) (c : Fin 18) (f : IFields)
  | mulhu (sg : Fin 8) (c : Fin 18) (f : IFields)
  | div (sg : Fin 8) (c : Fin 18) (f : IFields)
  | divu (sg : Fin 8) (c : Fin 18) (f : IFields)
  | rem (sg : Fin 8) (c : Fin 18) (f : IFields)
  | remu (sg : Fin 8) (c : Fin 18) (f : IFields)
  | min (sg : Fin 8) (c : Fin 18) (f : IFields)
  | max (sg : Fin 8) (c : Fin 18) (f : IFields)
  | minu (sg : Fin 8) (c : Fin 18) (f : IFields)
  | maxu (sg : Fin 8) (c : Fin 18) (f : IFields)
  | movh (sg : Fin 8) (c : Fin 18) (f : IFields)
  | popc (sg : Fin 8) (c : Fin 18) (f : IFields)
  | clz (sg : Fin 8) (c : Fin 18) (f : IFields)
  | ctz (sg : Fin 8) (c : Fin 18) (f : IFields)
  | extu (sg : Fin 8) (c : Fin 18) (f : IFields)
  | ceq (sg : Fin 8) (c : Fin 18) (f : IFields)
  | cne (sg : Fin 8) (c : Fin 18) (f : IFields)
  | clt (sg : Fin 8) (c : Fin 18) (f : IFields)
  | cltu (sg : Fin 8) (c : Fin 18) (f : IFields)
  | cge (sg : Fin 8) (c : Fin 18) (f : IFields)
  | cgeu (sg : Fin 8) (c : Fin 18) (f : IFields)
  | pand (sg : Fin 8) (c : Fin 18) (f : IFields)
  | por (sg : Fin 8) (c : Fin 18) (f : IFields)
  | pxor (sg : Fin 8) (c : Fin 18) (f : IFields)
  | pset (sg : Fin 8) (c : Fin 18) (f : IFields)
  | ld8 (sg : Fin 8) (c : Fin 18) (f : IFields)
  | ld16 (sg : Fin 8) (c : Fin 18) (f : IFields)
  | ld32 (sg : Fin 8) (c : Fin 18) (f : IFields)
  | ld64 (sg : Fin 8) (c : Fin 18) (f : IFields)
  | lds8 (sg : Fin 8) (c : Fin 18) (f : IFields)
  | lds16 (sg : Fin 8) (c : Fin 18) (f : IFields)
  | lds32 (sg : Fin 8) (c : Fin 18) (f : IFields)
  | st8 (sg : Fin 8) (c : Fin 18) (f : IFields)
  | st16 (sg : Fin 8) (c : Fin 18) (f : IFields)
  | st32 (sg : Fin 8) (c : Fin 18) (f : IFields)
  | st64 (sg : Fin 8) (c : Fin 18) (f : IFields)
  | movs (sg : Fin 8) (c : Fin 18) (f : IFields)
  | sets (sg : Fin 8) (c : Fin 18) (f : IFields)
  | cld (sg : Fin 8) (c : Fin 18) (f : IFields)
  | cst (sg : Fin 8) (c : Fin 18) (f : IFields)
  | br (sg : Fin 8) (c : Fin 18) (f : IFields)
  | call (sg : Fin 8) (c : Fin 18) (f : IFields)
  | ret (sg : Fin 8) (c : Fin 18) (f : IFields)
  | yield (sg : Fin 8) (c : Fin 18) (f : IFields)
  | halt (sg : Fin 8) (c : Fin 18) (f : IFields)
  | eret (sg : Fin 8) (c : Fin 18) (f : IFields)
  | get (sg : Fin 8) (c : Fin 18) (f : IFields)
  | put (sg : Fin 8) (c : Fin 18) (f : IFields)
  | copy (sg : Fin 8) (c : Fin 18) (f : IFields)
  | movt (sg : Fin 8) (c : Fin 18) (f : IFields)
  | atom (sg : Fin 8) (c : Fin 18) (f : IFields)
  | atomf (sg : Fin 8) (c : Fin 18) (f : IFields)
  | cjoin (sg : Fin 8) (c : Fin 18) (f : IFields)
  | chunk (sg : Fin 8) (c : Fin 18) (f : IFields)
  | camp (sg : Fin 8) (c : Fin 18) (f : IFields)
  | vote (sg : Fin 8) (c : Fin 18) (f : IFields)
  | ride (sg : Fin 8) (c : Fin 18) (f : IFields)
  | sig (sg : Fin 8) (c : Fin 18) (f : IFields)
  | waits (sg : Fin 8) (c : Fin 18) (f : IFields) (st : DpmStatus)
  | waite (sg : Fin 8) (c : Fin 18) (f : IFields)
  | fence (sg : Fin 8) (c : Fin 18) (f : IFields)
  | rdt (sg : Fin 8) (c : Fin 18) (f : IFields)
  | tkt (sg : Fin 8) (c : Fin 18) (f : IFields)
  | recall (sg : Fin 8) (c : Fin 18) (f : IFields)
  | exWatchdog (sg : Fin 8) (c : Fin 18)
  | waitsPoll (sg : Fin 8) (c : Fin 18) (st : DpmStatus)
  | waitsTimeout (sg : Fin 8) (c : Fin 18)
  | waiteTimeout (sg : Fin 8) (c : Fin 18)
  | lineIssue (sg : Fin 8) (desc : Fin 1024)
  | instructionFetchMiss (sg : Fin 8) (c : Fin 18) (st : DpmStatus)
  | ticketResume (sg : Fin 8) (n : Fin 4096)
  | curLbDataAccess (sg : Fin 8) (c : Fin 18) (ag : Agent) (v : Option Word)
  | icinv (sg : Fin 8) (c : Fin 18) (ag : Agent)
  | curCodeWrite (sg : Fin 8) (c : Fin 18) (ag : Agent) (sz : Sz) (v : Word)
  | coreStop (sg : Fin 8) (c : Fin 18)
  -- chapter 04
  | trailSubmit (sg : Fin 8) (ag : Agent) (v : Word)
  | trailAdmit (sg : Fin 8) (st : DpmStatus)
  | ticketAdmit (sg : Fin 8) (slot : Fin 32) (st : DpmStatus) (gateSt : DpmStatus)
  | gatePoll (sg : Fin 8) (n : Fin 4096) (st : DpmStatus)
  | ticketDispatch (sg : Fin 8) (st : DpmStatus)
  | ticketComplete (sg : Fin 8) (n : Fin 4096)
  | cqHeadPoll (sg : Fin 8) (ring : Nat)
  | cqFullTimeout (sg : Fin 8) (ring : Nat)
  | trlCancelTicket (sg : Fin 8) (ag : Agent) (n : Fin 4096)
  | trlCancelTrail (sg : Fin 8) (ag : Agent) (slot : BitVec 12)
  | trlCancelContext (sg : Fin 8) (ag : Agent) (ctx : BitVec 12)
  | trlSaveBaseWrite (sg : Fin 8) (ag : Agent) (sz : Sz) (v : Word)
  | movtTileStart (sg : Fin 8) (desc : Fin 1024)
  -- chapter 05
  | clvHcBaseWrite (sg : Fin 8) (ag : Agent) (sz : Sz) (v : Word)
  | groupOpen (sg : Fin 8) (ag : Agent) (grp : BitVec 12) (st stList stCtx : DpmStatus)
  | groupOpenDone (sg : Fin 8) (grp : BitVec 12)
  | groupClose (sg : Fin 8) (ag : Agent) (grp : BitVec 12)
  | groupCloseDone (sg : Fin 8) (grp : BitVec 12)
  | groupAbortCommand (sg : Fin 8) (ag : Agent) (grp : BitVec 12)
  | operationStart (sg : Fin 8) (grp : BitVec 12)
  | chunkStart (sg : Fin 8) (grp : BitVec 12) (tree : Fin 64)
  | chunkUp (sg : Fin 8)
  | chunkDown (sg : Fin 8)
  | chunkRel (sg : Fin 8)
  | chunkNak (sg : Fin 8)
  | notReadyRepeat (sg : Fin 8) (grp : BitVec 12)
  | collectiveRepeat (sg : Fin 8) (grp : BitVec 12) (tree : Fin 64)
  | reductionStep (sg : Fin 8) (grp : BitVec 12) (serial : BitVec 16) (bad : List (Nat × BadLine))
  | reductionStepDone (sg : Fin 8) (grp : BitVec 12) (x : StepEnd)
  | chunkResultWrite (sg : Fin 8) (grp : BitVec 12) (serial : BitVec 16) (st : DpmStatus) (bad : Option BadLine)
  | groupCqFullTimeout (sg : Fin 8) (grp : BitVec 12)
  | closingPartSend (sg : Fin 8) (grp : BitVec 12)
  | stragglerEvent (sg : Fin 8) (grp : BitVec 12)
  | hardTimeout (sg : Fin 8) (grp : BitVec 12)
  | groupAbort (sg : Fin 8)
  | abortDecisionTimeout (sg : Fin 8) (grp : BitVec 12)
  -- chapter 06
  | campFlit (sg : Fin 8)
  | voteFlit (sg : Fin 8)
  | stileRelease (sg : Fin 8) (grp : BitVec 12)
  -- chapter 07
  | ctxBaseWrite (sg : Fin 8) (ag : Agent) (sz : Sz) (v : Word) (st : DpmStatus)
  | contextLoad (sg : Fin 8) (ag : Agent) (ctx : BitVec 12) (st : DpmStatus)
  | contextEvict (sg : Fin 8) (ag : Agent) (ctx : BitVec 12)
  | contextEvictDone (sg : Fin 8)
  | contextTeardown (sg : Fin 8) (ag : Agent) (ctx : BitVec 12)
  | rangeMissFill (sg : Fin 8) (c : Fin 18) (st : DpmStatus)
  | guardBaseWrite (sg : Fin 8) (ag : Agent) (sz : Sz) (v : Word)
  | guardSizeWrite (sg : Fin 8) (ag : Agent) (sz : Sz) (v : Word)
  | guardInval (sg : Fin 8) (ag : Agent) (idx : BitVec 17)
  | recallSubmit (sg : Fin 8) (ag : Agent) (v : Word)
  | recallAck (sg : Fin 8)
  | hotDecay (sg : Fin 8)
  | migrateDone (sg : Fin 8) (ag : Agent) (v : Word)
  | migrateTimeout (sg : Fin 8) (req : Fin 16)
  | loadPublish (sg : Fin 8)
  | replicaInstall (sg : Fin 8)
  | replicaFrameReturn (sg : Fin 8)
  | plcReplicateOff (sg : Fin 8) (ag : Agent)
  | fhWindowWrite (sg : Fin 8) (ag : Agent) (sz : Sz) (v : Word)
  | fhDeclare (sg : Fin 8) (ag : Agent) (v : Word)
  | fhRelease (sg : Fin 8) (ag : Agent) (v : Word)
  | movePeriod (sg : Fin 8)
  | movePassDone (sg : Fin 8)
  | moveFlipDone (sg : Fin 8)
  -- chapter 08
  | flitLand (sg : Fin 8) (port : Fin 8)
  | flitInject (sg : Fin 8) (isX : Bool) (idx : Nat)
  | ageClockAlign (sg : Fin 8)
  | throttleUpdate (sg : Fin 8)
  | signpostWrite (sg : Fin 8) (ag : Agent) (table : Fin 2) (idx : BitVec 11) (sz : Sz) (v : Word)
  | signpostSeal (sg : Fin 8) (ag : Agent) (table : Fin 2)
  | signpostOpen (sg : Fin 8) (ag : Agent) (table : Fin 2)
  | epochFlip (sg : Fin 8) (ag : Agent)
  | tableRetired (sg : Fin 8)
  -- chapter 09
  | frameTransmit (sg : Fin 8) (p : Fin 6)
  | dataFrame (sg : Fin 8) (p : Fin 6) (f : Frame) (corr : Fin 5)
  | idleFrame (sg : Fin 8) (p : Fin 6) (f : Frame) (corr : Fin 5)
  | nakFrame (sg : Fin 8) (p : Fin 6) (f : Frame) (corr : Fin 5)
  | trailerFrame (sg : Fin 8) (p : Fin 6) (f : Frame) (corr : Fin 5)
  | badFrame (sg : Fin 8) (p : Fin 6)
  | hushFrame (sg : Fin 8) (p : Fin 6)
  | retrainReq (sg : Fin 8) (p : Fin 6) (f : Frame) (corr : Fin 5)
  | retrainAck (sg : Fin 8) (p : Fin 6) (f : Frame) (corr : Fin 5)
  | widthReq (sg : Fin 8) (p : Fin 6) (f : Frame) (corr : Fin 5)
  | widthAck (sg : Fin 8) (p : Fin 6) (f : Frame) (corr : Fin 5)
  | resume (sg : Fin 8) (p : Fin 6) (f : Frame) (corr : Fin 5)
  | replayTimerExpiry (sg : Fin 8) (p : Fin 6)
  | nakRepeatExpiry (sg : Fin 8) (p : Fin 6)
  | errorWindowEnd (sg : Fin 8) (p : Fin 6)
  | requestRepeatLimit (sg : Fin 8) (p : Fin 6)
  | retrainLimitExpiry (sg : Fin 8) (p : Fin 6)
  | retrainWaitEnd (sg : Fin 8) (p : Fin 6)
  | widthLimitExpiry (sg : Fin 8) (p : Fin 6)
  | trailerDue (sg : Fin 8) (p : Fin 6)
  | linkEnable (sg : Fin 8) (p : Fin 6) (ag : Agent)
  | linkDisable (sg : Fin 8) (p : Fin 6) (ag : Agent)
  | linkRetry (sg : Fin 8) (p : Fin 6) (ag : Agent)
  | linkRetrain (sg : Fin 8) (p : Fin 6) (ag : Agent)
  | linkRelease (sg : Fin 8) (p : Fin 6) (ag : Agent)
  | linkWidthRequest (sg : Fin 8) (p : Fin 6) (ag : Agent) (width : BitVec 4)
  | sealSlotArm (sg : Fin 8) (p : Fin 6) (ag : Agent) (slot : BitVec 6) (ctx : BitVec 12)
  | sealSlotDisarm (sg : Fin 8) (p : Fin 6) (ag : Agent) (slot : BitVec 6)
  -- chapter 10
  | trainingPhaseEnd (sg : Fin 8) (p : Fin 6) (obs : TrainObs)
  | trainingPhaseLimit (sg : Fin 8) (p : Fin 6)
  | blockLockLoss (sg : Fin 8) (p : Fin 6) (x : LaneHeads)
  | shadow (sg : Fin 8) (p : Fin 6) (l : Fin 8)
  | swapped (sg : Fin 8) (p : Fin 6) (l : Fin 8)
  | calDone (sg : Fin 8) (p : Fin 6)
  | calFail (sg : Fin 8) (p : Fin 6)
  | flaskReq (sg : Fin 8) (p : Fin 6)
  | flaskAck (sg : Fin 8) (p : Fin 6)
  | flaskNak (sg : Fin 8) (p : Fin 6)
  | handoverStart (sg : Fin 8) (p : Fin 6)
  | handoverSwap (sg : Fin 8) (p : Fin 6)
  | calibrationCountEnd (sg : Fin 8) (p : Fin 6) (errs : BitVec 32)
  | calLimitExpiry (sg : Fin 8) (p : Fin 6)
  | syncErrorHandover (sg : Fin 8) (p : Fin 6) (lane : Fin 9)
  | kettleEntry (sg : Fin 8) (p : Fin 6)
  | dozeRequest (sg : Fin 8) (p : Fin 6) (ag : Agent)
  | dozeWake (sg : Fin 8) (p : Fin 6)
  | laneWake (sg : Fin 8) (p : Fin 6) (ag : Agent)
  | flaskRequest (sg : Fin 8) (p : Fin 6) (ag : Agent)
  | flaskEntry (sg : Fin 8) (p : Fin 6)
  | signalDetect (sg : Fin 8) (p : Fin 6)
  | relockDone (sg : Fin 8) (p : Fin 6) (seeds : LaneSeeds)
  | relockTimeout (sg : Fin 8) (p : Fin 6)
  | laneRateWrite (sg : Fin 8) (p : Fin 6) (ag : Agent) (sz : Sz) (v : Word)
  -- chapter 11
  | domainWake (sg : Fin 8) (d : Fin 35)
  | pwrAckRise (sg : Fin 8) (d : Fin 35)
  | pwrAckFall (sg : Fin 8) (d : Fin 35)
  | pwrAckTimeout (sg : Fin 8) (d : Fin 35)
  | domainLost (sg : Fin 8) (d : Fin 35)
  | domainSleep (sg : Fin 8) (d : Fin 35)
  | pwrHoldWrite (sg : Fin 8) (ag : Agent) (sz : Sz) (v : Word)
  | keeperTimer (sg : Fin 8)
  | stewardTimer (sg : Fin 8)
  | powerWindowEnd (sg : Fin 8)
  | rampClassWrite (sg : Fin 8) (ag : Agent) (sz : Sz) (v : Word)
  | kettleHoldExpiry (sg : Fin 8) (p : Fin 6)
  | flaskAfterExpiry (sg : Fin 8) (p : Fin 6)
  | stilePortWake (sg : Fin 8) (grp : BitVec 12)
  | coarseningEnd (sg : Fin 8)
  -- chapter 12
  | suspectExpiry (sg : Fin 8) (bank : Fin 12) (row : BitVec 15)
  | bankFence (sg : Fin 8) (ag : Agent) (bank : BitVec 4)
  | bankFenceDrainDone (sg : Fin 8) (bank : Fin 12)
  | bankUnfence (sg : Fin 8) (ag : Agent) (bank : BitVec 4)
  | unfenceTestDone (sg : Fin 8) (bank : Fin 12) (rows : List (BitVec 15))
  | critLatchReload (sg : Fin 8) (word : Fin 72) (odd : Option (Fin 3)) (latchBad : Bool)
  | hmpInval (sg : Fin 8) (ag : Agent) (v : Word)
  | fltHeadWrite (sg : Fin 8) (ag : Agent) (v : Word)
  | fltPost (sg : Fin 8) (ag : Agent) (v : Word)
  | ovfClear (sg : Fin 8) (ag : Agent) (v : Word)
  | suppClear (sg : Fin 8) (ag : Agent)
  | kdAdd (sg : Fin 8) (ag : Agent) (node : BitVec 15)
  | kdRemove (sg : Fin 8) (ag : Agent) (node : BitVec 15)
  | kdClear (sg : Fin 8) (ag : Agent)
  -- chapter 13
  | quote (sg : Fin 8) (ch : Fin 64)
  | sealLoad (sg : Fin 8) (ch : Fin 64)
  | sealTeardown (sg : Fin 8) (ch : Fin 64)
  | guardSet (sg : Fin 8) (ch : Fin 64)
  | sealArmLinks (sg : Fin 8) (ch : Fin 64)
  | hostSpdm (sg : Fin 8) (ch : Fin 64)
  | hostCopy (sg : Fin 8) (ch : Fin 64) (data tags : List Byte)
  | fenceLane (sg : Fin 8) (ch : Fin 64)
  | getVersion (ses : Session)
  | getCapabilities (ses : Session)
  | negotiateAlgorithms (ses : Session) (asym : BitVec 32) (hash : BitVec 32)
  | getDigests (ses : Session)
  | getCertificate (ses : Session) (slot : BitVec 8) (off : BitVec 16) (len : BitVec 16)
  | challenge (ses : Session) (slot : BitVec 8) (nonce : List Byte)
  | getMeasurements (ses : Session) (idx : BitVec 8) (nonce : Option (List Byte))
  | keyExchange (ses : Session) (slot : BitVec 8) (pub : List Byte)
  | finish (ses : Session) (mac : List Byte)
  | unsupportedRequest (ses : Session) (code : BitVec 8)
  | spdmSessionTimeout (ses : Session)
  | status (ses : Session)
  | operatorAuth (ses : Session) (pub sig : List Byte)
  | operatorKeyAdd (ses : Session) (digest : List Byte)
  | operatorKeyRemove (ses : Session) (digest : List Byte)
  | powerSet (ses : Session) (cls : BitVec 2) (stile salt kettle gap : Word)
  | debugUnlock (ses : Session)
  | debugLock (ses : Session)
  | teardown (ses : Session) (ctx : BitVec 12)
  | setEndpointId (op : BitVec 2) (eid : BitVec 8)
  | getEndpointId
  | getMctpVersionSupport (typ : BitVec 8)
  | getMessageTypeSupport
  -- chapter 14, mailboxes
  | mbxPtrWrite (sg : Fin 8) (ch : Fin 64) (ag : Agent) (v : Word)
  | mbxSend (sg : Fin 8) (ch : Fin 64) (ag : Agent) (notice : BitVec 16)
  | mbxRecv (sg : Fin 8) (ch : Fin 64) (ag : Agent)
  | mbxAck (sg : Fin 8) (ch : Fin 64) (ag : Agent) (code : BitVec 16)
  | mailboxTimeout (sg : Fin 8) (ch : Fin 64)
  | mbxCfgWrite (sg : Fin 8) (ch : Fin 64) (ag : Agent) (sz : Sz) (v : Word)
  -- chapter 14, JTAG
  | extest (sg : Fin 8) (scan : List Bool)
  | samplePreload (sg : Fin 8) (pins : List Bool) (scan : List Bool)
  | idcode (sg : Fin 8)
  | bypass (sg : Fin 8) (code : BitVec 8) (tdi : Bool)
  | ctrlAccessPoll (sg : Fin 8) (scan : BitVec 72)
  | ctrlAccessAddress (sg : Fin 8) (scan : BitVec 72)
  | ctrlAccessRead (sg : Fin 8) (scan : BitVec 72)
  | ctrlAccessWrite (sg : Fin 8) (scan : BitVec 72)
  | ctrlAccessDone (sg : Fin 8)
  | trst (sg : Fin 8)
  -- chapter 15
  | telSnap (sg : Fin 8) (ag : Agent)
  | telPeriodicSnap (sg : Fin 8)
  | registerWrite (sg : Fin 8) (ag : Agent) (off : BitVec 21) (sz : Sz) (v : Word)
  | coldResetAssert
  | registerRead (sg : Fin 8) (ag : Agent) (off : BitVec 21) (sz : Sz)
  | preambleDetect (sg : Fin 8) (p : Fin 6)
  | quietPattern (sg : Fin 8) (p : Fin 6)
  | bankClearDone (sg : Fin 8) (bank : Fin 12)
  | dynamicAddressAssignment (addr : BitVec 7)
  deriving DecidableEq, Repr

end Sys2Proof
end

