-- ==== Sys2Proof/Decode.lean ====
section
/-! DEFINITION. Words and commands. No row of spec/opcode_table.json gives its command bits, so no word of that table spells one. The
64-bit instruction words of the cores (R103 to R105, Tables 3.4 and 3.5) are read and written here: the command of an instruction carries
the fields of its word. -/

namespace Sys2Proof

/-- The command that a word of the opcode table spells: the table gives its rows no bits. -/
def decodeTableWord (_nbits _w : Nat) : Option Instr := none

/-- An instruction as a core executes it: the segment, the core, the fields of its word, and for WAITS what the die port answered to
the read of the signal word. -/
structure Fetched where
  sg : Fin 8
  c : Fin 18
  f : IFields
  st : DpmStatus := none
  deriving DecidableEq, Repr

/-- The opcode and the fields of an instruction word (Table 3.4). -/
def courierFields (w : Word) : BitVec 8 × IFields :=
  (w.extractLsb' 56 8,
   { d := w.extractLsb' 51 5, a := w.extractLsb' 46 5, b := w.extractLsb' 41 5, pred := w.extractLsb' 38 3, inv := w.getLsbD 37
     imm := w.extractLsb' 0 37 })

/-- The instruction word of an opcode and fields (Table 3.4). -/
def courierWord (op : BitVec 8) (f : IFields) : Word := op ++ f.d ++ f.a ++ f.b ++ f.pred ++ bit f.inv ++ f.imm

/-- The opcode of an instruction (Table 3.5); none for a command that is no instruction. -/
def Instr.opcode (i : Instr) : Option (BitVec 8 × Fetched) :=
  match i with
  | .add sg c f => some (0x01, { sg := sg, c := c, f := f })
  | .sub sg c f => some (0x02, { sg := sg, c := c, f := f })
  | .and sg c f => some (0x03, { sg := sg, c := c, f := f })
  | .or sg c f => some (0x04, { sg := sg, c := c, f := f })
  | .xor sg c f => some (0x05, { sg := sg, c := c, f := f })
  | .shl sg c f => some (0x06, { sg := sg, c := c, f := f })
  | .shr sg c f => some (0x07, { sg := sg, c := c, f := f })
  | .sra sg c f => some (0x08, { sg := sg, c := c, f := f })
  | .mul sg c f => some (0x09, { sg := sg, c := c, f := f })
  | .mulh sg c f => some (0x0A, { sg := sg, c := c, f := f })
  | .mulhu sg c f => some (0x0B, { sg := sg, c := c, f := f })
  | .div sg c f => some (0x0C, { sg := sg, c := c, f := f })
  | .divu sg c f => some (0x0D, { sg := sg, c := c, f := f })
  | .rem sg c f => some (0x0E, { sg := sg, c := c, f := f })
  | .remu sg c f => some (0x0F, { sg := sg, c := c, f := f })
  | .min sg c f => some (0x10, { sg := sg, c := c, f := f })
  | .max sg c f => some (0x11, { sg := sg, c := c, f := f })
  | .minu sg c f => some (0x12, { sg := sg, c := c, f := f })
  | .maxu sg c f => some (0x13, { sg := sg, c := c, f := f })
  | .movh sg c f => some (0x14, { sg := sg, c := c, f := f })
  | .popc sg c f => some (0x15, { sg := sg, c := c, f := f })
  | .clz sg c f => some (0x16, { sg := sg, c := c, f := f })
  | .ctz sg c f => some (0x17, { sg := sg, c := c, f := f })
  | .extu sg c f => some (0x18, { sg := sg, c := c, f := f })
  | .ceq sg c f => some (0x20, { sg := sg, c := c, f := f })
  | .cne sg c f => some (0x21, { sg := sg, c := c, f := f })
  | .clt sg c f => some (0x22, { sg := sg, c := c, f := f })
  | .cltu sg c f => some (0x23, { sg := sg, c := c, f := f })
  | .cge sg c f => some (0x24, { sg := sg, c := c, f := f })
  | .cgeu sg c f => some (0x25, { sg := sg, c := c, f := f })
  | .pand sg c f => some (0x28, { sg := sg, c := c, f := f })
  | .por sg c f => some (0x29, { sg := sg, c := c, f := f })
  | .pxor sg c f => some (0x2A, { sg := sg, c := c, f := f })
  | .pset sg c f => some (0x2B, { sg := sg, c := c, f := f })
  | .ld8 sg c f => some (0x30, { sg := sg, c := c, f := f })
  | .ld16 sg c f => some (0x31, { sg := sg, c := c, f := f })
  | .ld32 sg c f => some (0x32, { sg := sg, c := c, f := f })
  | .ld64 sg c f => some (0x33, { sg := sg, c := c, f := f })
  | .lds8 sg c f => some (0x34, { sg := sg, c := c, f := f })
  | .lds16 sg c f => some (0x35, { sg := sg, c := c, f := f })
  | .lds32 sg c f => some (0x36, { sg := sg, c := c, f := f })
  | .st8 sg c f => some (0x38, { sg := sg, c := c, f := f })
  | .st16 sg c f => some (0x39, { sg := sg, c := c, f := f })
  | .st32 sg c f => some (0x3A, { sg := sg, c := c, f := f })
  | .st64 sg c f => some (0x3B, { sg := sg, c := c, f := f })
  | .movs sg c f => some (0x40, { sg := sg, c := c, f := f })
  | .sets sg c f => some (0x41, { sg := sg, c := c, f := f })
  | .cld sg c f => some (0x42, { sg := sg, c := c, f := f })
  | .cst sg c f => some (0x43, { sg := sg, c := c, f := f })
  | .br sg c f => some (0x48, { sg := sg, c := c, f := f })
  | .call sg c f => some (0x49, { sg := sg, c := c, f := f })
  | .ret sg c f => some (0x4A, { sg := sg, c := c, f := f })
  | .yield sg c f => some (0x4B, { sg := sg, c := c, f := f })
  | .halt sg c f => some (0x4C, { sg := sg, c := c, f := f })
  | .eret sg c f => some (0x4D, { sg := sg, c := c, f := f })
  | .get sg c f => some (0x50, { sg := sg, c := c, f := f })
  | .put sg c f => some (0x51, { sg := sg, c := c, f := f })
  | .copy sg c f => some (0x52, { sg := sg, c := c, f := f })
  | .movt sg c f => some (0x53, { sg := sg, c := c, f := f })
  | .atom sg c f => some (0x54, { sg := sg, c := c, f := f })
  | .atomf sg c f => some (0x55, { sg := sg, c := c, f := f })
  | .cjoin sg c f => some (0x58, { sg := sg, c := c, f := f })
  | .chunk sg c f => some (0x59, { sg := sg, c := c, f := f })
  | .camp sg c f => some (0x5A, { sg := sg, c := c, f := f })
  | .vote sg c f => some (0x5B, { sg := sg, c := c, f := f })
  | .ride sg c f => some (0x5C, { sg := sg, c := c, f := f })
  | .sig sg c f => some (0x60, { sg := sg, c := c, f := f })
  | .waits sg c f st => some (0x61, { sg := sg, c := c, f := f, st := st })
  | .waite sg c f => some (0x62, { sg := sg, c := c, f := f })
  | .fence sg c f => some (0x63, { sg := sg, c := c, f := f })
  | .rdt sg c f => some (0x64, { sg := sg, c := c, f := f })
  | .tkt sg c f => some (0x65, { sg := sg, c := c, f := f })
  | .recall sg c f => some (0x66, { sg := sg, c := c, f := f })
  | _ => none

/-- The instruction of an opcode (Table 3.5); none for a reserved one. -/
def ofOpcode (op : Nat) (x : Fetched) : Option Instr :=
  match op with
  | 0x01 => some (.add x.sg x.c x.f)
  | 0x02 => some (.sub x.sg x.c x.f)
  | 0x03 => some (.and x.sg x.c x.f)
  | 0x04 => some (.or x.sg x.c x.f)
  | 0x05 => some (.xor x.sg x.c x.f)
  | 0x06 => some (.shl x.sg x.c x.f)
  | 0x07 => some (.shr x.sg x.c x.f)
  | 0x08 => some (.sra x.sg x.c x.f)
  | 0x09 => some (.mul x.sg x.c x.f)
  | 0x0A => some (.mulh x.sg x.c x.f)
  | 0x0B => some (.mulhu x.sg x.c x.f)
  | 0x0C => some (.div x.sg x.c x.f)
  | 0x0D => some (.divu x.sg x.c x.f)
  | 0x0E => some (.rem x.sg x.c x.f)
  | 0x0F => some (.remu x.sg x.c x.f)
  | 0x10 => some (.min x.sg x.c x.f)
  | 0x11 => some (.max x.sg x.c x.f)
  | 0x12 => some (.minu x.sg x.c x.f)
  | 0x13 => some (.maxu x.sg x.c x.f)
  | 0x14 => some (.movh x.sg x.c x.f)
  | 0x15 => some (.popc x.sg x.c x.f)
  | 0x16 => some (.clz x.sg x.c x.f)
  | 0x17 => some (.ctz x.sg x.c x.f)
  | 0x18 => some (.extu x.sg x.c x.f)
  | 0x20 => some (.ceq x.sg x.c x.f)
  | 0x21 => some (.cne x.sg x.c x.f)
  | 0x22 => some (.clt x.sg x.c x.f)
  | 0x23 => some (.cltu x.sg x.c x.f)
  | 0x24 => some (.cge x.sg x.c x.f)
  | 0x25 => some (.cgeu x.sg x.c x.f)
  | 0x28 => some (.pand x.sg x.c x.f)
  | 0x29 => some (.por x.sg x.c x.f)
  | 0x2A => some (.pxor x.sg x.c x.f)
  | 0x2B => some (.pset x.sg x.c x.f)
  | 0x30 => some (.ld8 x.sg x.c x.f)
  | 0x31 => some (.ld16 x.sg x.c x.f)
  | 0x32 => some (.ld32 x.sg x.c x.f)
  | 0x33 => some (.ld64 x.sg x.c x.f)
  | 0x34 => some (.lds8 x.sg x.c x.f)
  | 0x35 => some (.lds16 x.sg x.c x.f)
  | 0x36 => some (.lds32 x.sg x.c x.f)
  | 0x38 => some (.st8 x.sg x.c x.f)
  | 0x39 => some (.st16 x.sg x.c x.f)
  | 0x3A => some (.st32 x.sg x.c x.f)
  | 0x3B => some (.st64 x.sg x.c x.f)
  | 0x40 => some (.movs x.sg x.c x.f)
  | 0x41 => some (.sets x.sg x.c x.f)
  | 0x42 => some (.cld x.sg x.c x.f)
  | 0x43 => some (.cst x.sg x.c x.f)
  | 0x48 => some (.br x.sg x.c x.f)
  | 0x49 => some (.call x.sg x.c x.f)
  | 0x4A => some (.ret x.sg x.c x.f)
  | 0x4B => some (.yield x.sg x.c x.f)
  | 0x4C => some (.halt x.sg x.c x.f)
  | 0x4D => some (.eret x.sg x.c x.f)
  | 0x50 => some (.get x.sg x.c x.f)
  | 0x51 => some (.put x.sg x.c x.f)
  | 0x52 => some (.copy x.sg x.c x.f)
  | 0x53 => some (.movt x.sg x.c x.f)
  | 0x54 => some (.atom x.sg x.c x.f)
  | 0x55 => some (.atomf x.sg x.c x.f)
  | 0x58 => some (.cjoin x.sg x.c x.f)
  | 0x59 => some (.chunk x.sg x.c x.f)
  | 0x5A => some (.camp x.sg x.c x.f)
  | 0x5B => some (.vote x.sg x.c x.f)
  | 0x5C => some (.ride x.sg x.c x.f)
  | 0x60 => some (.sig x.sg x.c x.f)
  | 0x61 => some (.waits x.sg x.c x.f x.st)
  | 0x62 => some (.waite x.sg x.c x.f)
  | 0x63 => some (.fence x.sg x.c x.f)
  | 0x64 => some (.rdt x.sg x.c x.f)
  | 0x65 => some (.tkt x.sg x.c x.f)
  | 0x66 => some (.recall x.sg x.c x.f)
  | _ => none

/-- The word of an instruction. -/
def encodeCourier (i : Instr) : Option Word := i.opcode.map fun x => courierWord x.1 x.2.f

/-- The instruction that a core of a segment executes for a word. -/
def decodeCourier (sg : Fin 8) (c : Fin 18) (st : DpmStatus) (w : Word) : Option Instr :=
  ofOpcode (courierFields w).1.toNat { sg := sg, c := c, f := (courierFields w).2, st := st }

end Sys2Proof
end

