-- ==== Sys2Proof/Config.lean ====
section
/-! DEFINITION. What an implementation fixes and what the spec leaves open: opaque constants, so that nothing
can be proved of one value among the allowed ones. -/

namespace Sys2Proof

/-- A byte the spec leaves unspecified: the content of a line whose write ended in a status other than
CS_OK (Table 2.12), of a failed collective's DST (R229). Applied to the model's own counter of free values. -/
opaque Config.freeByte : Nat → Byte

/-- A word the spec leaves unspecified, applied to the model's own counter of free values. -/
opaque Config.freeWord : Nat → Word

/-- A choice the spec leaves open, applied to the model's own counter of free values. -/
opaque Config.freeBool : Nat → Bool

/-- SHA-384 (chapter 13). -/
opaque Config.sha384 : List Byte → List Byte

/-- AES-256-GCM encryption of a message under a key and a nonce: the ciphertext, one byte for each byte of
the message. Encryption and decryption are the same map. -/
opaque Config.gcmCrypt : List Byte → List Byte → List Byte → List Byte

/-- The AES-256-GCM tag of a ciphertext under a key, a nonce and additional data. -/
opaque Config.gcmTag : List Byte → List Byte → List Byte → List Byte → List Byte

/-- ECDSA P-384 verification: public key, message, signature. -/
opaque Config.ecdsaVerify : List Byte → List Byte → List Byte → Bool

/-- ECDSA P-384 signature by a private key of a message. -/
opaque Config.ecdsaSign : List Byte → List Byte → List Byte

/-- The public point of a private key (P-384). -/
opaque Config.ecPublic : List Byte → List Byte

/-- The ECDH P-384 secret of a private key and a peer's public point; none for a point not on the curve. -/
opaque Config.ecdh : List Byte → List Byte → Option (List Byte)

/-- The fused device secret of a segment's die (R503). -/
opaque Config.fuseSecret : Nat → List Byte

/-- The four digests of image-signing keys that mask ROM holds (R555). -/
opaque Config.signerDigests : List (List Byte)

/-- The digest of mask ROM (Table 13.6). -/
opaque Config.romDigest : List Byte

/-- Random bytes drawn by the keeper: the model's counter and a length. -/
opaque Config.random : Nat → Nat → List Byte

/-- The certificate chain of a certificate slot, as it comes with a boot image (R505): slot number and keeper image digest. -/
opaque Config.certChain : Nat → List Byte → List Byte

/-- The public key in the leaf of a certificate chain (R505). -/
opaque Config.leafKey : List Byte → List Byte

/-- The order of P-384 (R503). -/
opaque Config.curveOrder : Nat

/-- The straps as sampled, as INFO of a STRAP record and as the STATUS message carry them: the spec gives no layout. -/
opaque Config.strapWord : Straps → BitVec 32

/-- The 16-byte configuration block of Table 13.6: straps as sampled, SECURE, DEBUG, TRANSITION, CLASS, keeper SVN, steward SVN. The
spec gives no layout. -/
opaque Config.configBlock : Straps → Bool → Bool → Bool → Nat → Nat → Nat → List Byte

/-- An SPDM request read from its bytes, and its length: the wire format is SPDM's own (R511). -/
opaque Config.spdmDecode : List Byte → SpdmReq × Nat

/-- The bytes of an SPDM answer: the wire format is SPDM's own (R511). -/
opaque Config.spdmEncode : SpdmAns → List Byte

/-- The message that a signature of an SPDM answer covers: a label of the answer and the bytes that SPDM's transcript rules name,
of which the nonce or the responder's random data is part (R511, R514). -/
opaque Config.spdmTranscript : String → List Byte → List (Nat × List Byte) → List Byte

/-- The verify data of FINISH under the SPDM key schedule: the shared secret and the session's identifier and random data (R511). -/
opaque Config.spdmFinished : List Byte → List Byte → List Byte

/-- The export master secret of a session under the SPDM key schedule (R526). -/
opaque Config.spdmExport : List Byte → List Byte → List Byte

end Sys2Proof
end

