-- ==== Sys2Proof/Machine/Numeric.lean ====
section
/-! DEFINITION. The number formats of Table 6.1, exact values, the rounding of R251 to R253, the arithmetic of
R249, R250 and R268, and the block-scaled encodings of R255 to R258. -/

namespace Sys2Proof.Machine

/-- A floating value: a signed exact dyadic number `m × 2^e`, an infinity, or NaN. -/
inductive FVal where
  | fin (neg : Bool) (m : Nat) (e : Int)
  | inf (neg : Bool)
  | nan
  deriving DecidableEq, Repr

/-- What the all-ones exponent of a format means: infinities and NaNs, only the all-ones NaN, or ordinary values. -/
inductive Special where
  | ieee | e4m3 | none
  deriving DecidableEq, Repr

/-- A binary floating format: exponent bits, fraction bits, bias, specials, canonical NaN. -/
structure FFmt where
  eb : Nat
  mb : Nat
  bias : Nat
  sp : Special
  nan : Nat
  deriving DecidableEq, Repr

def FFmt.b32 : FFmt := ⟨8, 23, 127, .ieee, 0x7FC00000⟩
def FFmt.b64 : FFmt := ⟨11, 52, 1023, .ieee, 0x7FF8000000000000⟩
def FFmt.b16 : FFmt := ⟨5, 10, 15, .ieee, 0x7E00⟩
def FFmt.bf16 : FFmt := ⟨8, 7, 127, .ieee, 0x7FC0⟩
def FFmt.e5m2 : FFmt := ⟨5, 2, 15, .ieee, 0x7E⟩
def FFmt.e4m3 : FFmt := ⟨4, 3, 7, .e4m3, 0x7F⟩
def FFmt.e2m3 : FFmt := ⟨2, 3, 1, .none, 0⟩
def FFmt.e3m2 : FFmt := ⟨3, 2, 3, .none, 0⟩
def FFmt.e2m1 : FFmt := ⟨2, 1, 1, .none, 0⟩

/-- The number of bits of a format. -/
def FFmt.width (f : FFmt) : Nat := 1 + f.eb + f.mb

/-- The magnitude code of the largest finite value of a format. -/
def FFmt.maxCode (f : FFmt) : Nat :=
  match f.sp with
  | .ieee => (2 ^ f.eb - 1) * 2 ^ f.mb - 1
  | .e4m3 => 2 ^ (f.eb + f.mb) - 2
  | .none => 2 ^ (f.eb + f.mb) - 1

/-- The value of a bit pattern of a format. -/
def FFmt.decode (f : FFmt) (bits : Nat) : FVal :=
  let neg := bits / 2 ^ (f.eb + f.mb) % 2 == 1
  let code := bits % 2 ^ (f.eb + f.mb)
  let ex := code / 2 ^ f.mb
  let fr := code % 2 ^ f.mb
  if code > f.maxCode then
    match f.sp with
    | .ieee => if fr == 0 then .inf neg else .nan
    | _ => .nan
  else if ex == 0 then .fin neg fr (1 - (f.bias : Int) - f.mb)
  else .fin neg (2 ^ f.mb + fr) ((ex : Int) - f.bias - f.mb)

/-- The rounding modes of Table 6.4; stochastic rounding carries its 16 bits. -/
inductive Round where
  | rne | rtz | sr (r : Nat)
  deriving DecidableEq, Repr

/-- The quotient `m × 2^s` rounded to an integer under a mode (R252). -/
def roundShift (m : Nat) (s : Int) (mode : Round) : Nat :=
  match s with
  | .ofNat k => m * 2 ^ k
  | .negSucc k =>
    let d := 2 ^ (k + 1)
    let q := m / d
    let r := m % d
    match mode with
    | .rne => if 2 * r > d then q + 1 else if 2 * r == d then q + q % 2 else q
    | .rtz => q
    | .sr b => if r * 65536 / d + b ≥ 65536 ∧ r ≠ 0 then q + 1 else q

/-- The magnitude code nearest to `m × 2^e` under a mode, unbounded above: consecutive codes are consecutive
magnitudes of the format. -/
def FFmt.roundCode (f : FFmt) (m : Nat) (e : Int) (mode : Round) : Nat :=
  if m == 0 then 0
  else
    let top : Int := (Nat.log2 m : Int) + e
    let emin : Int := 1 - (f.bias : Int)
    let lead := max top emin
    let n := roundShift m (e - (lead - f.mb)) mode
    (lead - emin).toNat * 2 ^ f.mb + n

/-- Whether rounding a finite value leaves the finite range of the format. -/
def FFmt.overflows (f : FFmt) (v : FVal) (mode : Round) : Bool :=
  match v with
  | .fin _ m e => f.roundCode m e mode > f.maxCode
  | _ => false

/-- The bit pattern of a magnitude code with a sign. -/
def FFmt.pack (f : FFmt) (neg : Bool) (code : Nat) : Nat :=
  (if neg then 2 ^ (f.eb + f.mb) else 0) + code

/-- Conversion of a value to a format under a mode (Table 6.5). -/
def FFmt.encode (f : FFmt) (v : FVal) (mode : Round) : Nat :=
  match v with
  | .nan => f.nan
  | .inf neg =>
    match f.sp with
    | .ieee => f.pack neg (f.maxCode + 1)
    | .e4m3 => f.nan
    | .none => f.pack neg f.maxCode
  | .fin neg m e =>
    let c := f.roundCode m e mode
    if c ≤ f.maxCode then f.pack neg c
    else
      match f.sp, mode with
      | .ieee, .rtz => f.pack neg f.maxCode
      | .ieee, _ => f.pack neg (f.maxCode + 1)
      | _, _ => f.pack neg f.maxCode

/-- The exact sum of two values (IEEE 754 rules for zeros and infinities under rounding to nearest). -/
def FVal.add (a b : FVal) : FVal :=
  match a, b with
  | .nan, _ => .nan
  | _, .nan => .nan
  | .inf s, .inf t => if s == t then .inf s else .nan
  | .inf s, _ => .inf s
  | _, .inf t => .inf t
  | .fin s m e, .fin t n d =>
    let lo := min e d
    let x : Int := (m : Int) * 2 ^ (e - lo).toNat
    let y : Int := (n : Int) * 2 ^ (d - lo).toNat
    let sum := (if s then -x else x) + (if t then -y else y)
    if sum == 0 then .fin (s && t) 0 lo
    else .fin (sum < 0) sum.natAbs lo

/-- Whether `a` is below `b`, with −0 below +0; neither is NaN. -/
def FVal.lt (a b : FVal) : Bool :=
  match a, b with
  | .nan, _ => false
  | _, .nan => false
  | .inf s, .inf t => s && !t
  | .inf s, .fin _ _ _ => s
  | .fin _ _ _, .inf t => !t
  | .fin s m e, .fin t n d =>
    let lo := min e d
    let x : Int := (m : Int) * 2 ^ (e - lo).toNat
    let y : Int := (n : Int) * 2 ^ (d - lo).toNat
    let x' := if s then -x else x
    let y' := if t then -y else y
    if x' == 0 ∧ y' == 0 then s && !t else x' < y'

def FVal.isNan : FVal → Bool
  | .nan => true
  | _ => false

def FVal.isFinite : FVal → Bool
  | .fin _ _ _ => true
  | _ => false

/-- Maximum and minimum with R250: NaN if either operand is NaN. -/
def FVal.max (a b : FVal) : FVal :=
  if a.isNan || b.isNan then .nan else if a.lt b then b else a

def FVal.min (a b : FVal) : FVal :=
  if a.isNan || b.isNan then .nan else if b.lt a then b else a

/-- The exact square of a finite value. -/
def FVal.square : FVal → FVal
  | .fin _ m e => .fin false (m * m) (2 * e)
  | .inf _ => .inf false
  | .nan => .nan

/-- Addition in a format, rounded once to nearest, ties to even (R75, R249, R268). -/
def FFmt.add (f : FFmt) (a b : Nat) : Nat := f.encode ((f.decode a).add (f.decode b)) .rne
def FFmt.max (f : FFmt) (a b : Nat) : Nat := f.encode ((f.decode a).max (f.decode b)) .rne
def FFmt.min (f : FFmt) (a b : Nat) : Nat := f.encode ((f.decode a).min (f.decode b)) .rne

/-- The 16 stochastic bits of an element, rank and site (R252). -/
def srBits (seed : BitVec 32) (elem rank site : Nat) : Nat :=
  let el : BitVec 40 := BitVec.ofNat 40 elem
  let e : BitVec 32 := (el.truncate 32) ^^^ ((el >>> 32).truncate 32 * 0x01000000)
  let x := seed ^^^ (e * 0x9E3779B9) ^^^ (BitVec.ofNat 32 rank * 0x85EBCA6B) ^^^ (BitVec.ofNat 32 site * 0xC2B2AE35)
  let x := x ^^^ (x >>> 16)
  let x := x * 0x7FEB352D
  let x := x ^^^ (x >>> 15)
  let x := x * 0x846CA68B
  let x := x ^^^ (x >>> 16)
  (x.truncate 16 : BitVec 16).toNat

/-- The mode a ROUND code selects at a site for an element (Table 6.4). -/
def roundMode (code : Nat) (seed : BitVec 32) (elem rank site : Nat) : Round :=
  match code with
  | 0 => .rne
  | 1 => .rtz
  | _ => .sr (srBits seed elem rank site)

/-! ## Format codes -/

/-- The scalar floating format of a code of Table 6.1. -/
def fmtOf : Nat → Option FFmt
  | 1 => some .b32
  | 2 => some .b16
  | 3 => some .bf16
  | 4 => some .e4m3
  | 5 => some .e5m2
  | _ => none

/-- The bytes of one element of a scalar code (Table 6.1). -/
def scalarSize : Nat → Nat
  | 1 => 4
  | 2 => 2
  | 3 => 2
  | 4 => 1
  | 5 => 1
  | 6 => 4
  | _ => 0

/-- Whether a code is block-scaled. -/
def isBlock (code : Nat) : Bool := 0x10 ≤ code && code ≤ 0x15

/-- The bytes of a block of a block-scaled code (Table 6.6). -/
def blockSize : Nat → Nat
  | 0x10 => 33
  | 0x11 => 33
  | 0x12 => 25
  | 0x13 => 25
  | 0x14 => 17
  | 0x15 => 33
  | _ => 0

/-- The bytes `n` elements of a code take in memory or on the wire: whole blocks for a block-scaled code. -/
def fmtBytes (code n : Nat) : Nat :=
  if isBlock code then (n + 31) / 32 * blockSize code else n * scalarSize code

/-- emax of R256. -/
def blockEmax : Nat → Int
  | 0x10 => 8
  | 0x11 => 15
  | 0x12 => 2
  | 0x13 => 4
  | 0x14 => 2
  | _ => 0

/-- The element format of a block-scaled code; none for MXINT8. -/
def blockElem : Nat → Option FFmt
  | 0x10 => some .e4m3
  | 0x11 => some .e5m2
  | 0x12 => some .e2m3
  | 0x13 => some .e3m2
  | 0x14 => some .e2m1
  | _ => none

/-- The bits of one element of a block-scaled code. -/
def blockElemBits : Nat → Nat
  | 0x12 => 6
  | 0x13 => 6
  | 0x14 => 4
  | _ => 8

/-! ## Block-scaled encoding and decoding -/

/-- A value divided by 2^k. -/
def FVal.scale (v : FVal) (k : Int) : FVal :=
  match v with
  | .fin s m e => .fin s m (e - k)
  | w => w

/-- One element encoded under a scale exponent, with a mark of saturation (R256 step 4, R253). -/
def encodeElem (code : Nat) (v : FVal) (k : Int) (mode : Round) : Nat × Bool :=
  let w := v.scale k
  match blockElem code with
  | some f =>
    match w with
    | .fin s m e =>
      let c := f.roundCode m e mode
      if c ≤ f.maxCode then (f.pack s c, false) else (f.pack s f.maxCode, true)
    | _ => (0, false)
  | none =>
    match w with
    | .fin s m e =>
      let q := roundShift m (e + 6) mode
      if s then
        if q ≤ 128 then ((256 - q) % 256, false) else (128, true)
      else if q ≤ 127 then (q, false) else (127, true)
    | _ => (0, false)

/-- ⌊log2⌋ of a finite magnitude that is not zero. -/
def FVal.log2 : FVal → Int
  | .fin _ m e => (Nat.log2 m : Int) + e
  | _ => 0

def FVal.isZero : FVal → Bool
  | .fin _ m _ => m == 0
  | _ => false

/-- The shared scale exponent of R256 steps 1 to 3 over the present lanes; none when all are zero or absent. -/
def blockScale (code : Nat) (lanes : List (Option FVal)) : Option Int :=
  let tops := lanes.filterMap fun l =>
    match l with
    | some v => if v.isFinite && !v.isZero then some v.log2 else none
    | none => none
  match tops with
  | [] => none
  | t :: ts => some (max (-127) (min 127 (ts.foldl max t - blockEmax code)))

/-- The elements packed little-endian at `w` bits an element. -/
def packBits (w : Nat) (xs : List Nat) : Nat := xs.foldr (fun x acc => acc * 2 ^ w + x % 2 ^ w) 0

/-- `n` as `k` bytes, little-endian. -/
def natBytes (n : Nat) : Nat → List Byte
  | 0 => []
  | k + 1 => BitVec.ofNat 8 n :: natBytes (n / 256) k

/-- The little-endian value of bytes. -/
def bytesNat (bs : List Byte) : Nat := bs.foldr (fun b acc => acc * 256 + b.toNat) 0

/-- What encoding a block reports beside its bytes: a NaN block, and how many elements saturated. -/
structure BlockOut where
  bytes : List Byte
  nanBlock : Bool
  saturated : Nat
  deriving DecidableEq, Repr

/-- Encode up to 32 lanes (R256, R257); `mode i` is the rounding of lane i at site 1. -/
def encodeBlock (code : Nat) (lanes : List (Option FVal)) (mode : Nat → Round) : BlockOut :=
  let lanes := (lanes ++ List.replicate 32 none).take 32
  let bits := blockElemBits code
  let body (els : List Nat) : List Byte := natBytes (packBits bits els) (4 * bits)
  if lanes.any (fun l => match l with | some v => !v.isFinite | none => false) then
    ⟨0xFF :: body (List.replicate 32 0), true, 0⟩
  else
    match blockScale code lanes with
    | none => ⟨0 :: body (List.replicate 32 0), false, 0⟩
    | some k =>
      let enc := lanes.mapIdx fun i l =>
        match l with
        | some v => encodeElem code v k (mode i)
        | none => (0, false)
      ⟨BitVec.ofInt 8 (k + 127) :: body (enc.map Prod.fst), false, (enc.filter Prod.snd).length⟩

/-- The value of element bits of a block-scaled code. -/
def decodeElem (code bits : Nat) : FVal :=
  match blockElem code with
  | some f => f.decode bits
  | none => if bits ≥ 128 then .fin true (256 - bits) (-6) else .fin false bits (-6)

/-- The 32 values of a block (R258). -/
def decodeBlock (code : Nat) (bs : List Byte) : List FVal :=
  let sc := (bs.headD 0).toNat
  let n := bytesNat bs.tail
  let w := blockElemBits code
  (List.range 32).map fun i =>
    if sc == 255 then .nan
    else (decodeElem code (n / 2 ^ (w * i) % 2 ^ w)).scale (127 - (sc : Int))

end Sys2Proof.Machine
end

