-- ==== Sys2Proof/Machine/RegTable.lean ====
section
/-! DEFINITION. The control-space registers of chapter 15: every register of Tables 15.2 to 15.16 with the
fields, access codes and reset values of the tables they name, and the named fields the model uses. -/

namespace Sys2Proof.Machine

/-- The access codes of Table 0.4. -/
inductive Acc where
  | ro | rw | w1c | w1s | wo | rc | ko
  deriving DecidableEq, Repr

/-- The Sizes column of the index tables (R575). -/
inductive SzRule where
  | any | w64 | a64
  deriving DecidableEq, Repr

/-- A field row of a register table: bits, access code and reset value (a reset value that a strap or a rule
gives is 0 here and set by `resetWord`). -/
structure FieldRow where
  hi : Nat
  lo : Nat
  acc : Acc
  reset : Nat
  deriving DecidableEq, Repr

/-- A register, or an array of `count` registers `stride` apart. -/
structure RegRow where
  name : String
  base : Nat
  stride : Nat
  count : Nat
  size : SzRule
  fields : List FieldRow
  deriving DecidableEq, Repr

/-- A named field of a register at an offset. -/
structure Fld where
  off : Nat
  hi : Nat
  lo : Nat
  deriving DecidableEq, Repr

/-- The field of the register `n` bytes further on. -/
def Fld.add (f : Fld) (n : Nat) : Fld := { f with off := f.off + n }

/-- The field in the window of port `p` (R394). -/
def Fld.port (f : Fld) (p : Nat) : Fld := f.add (p * 0x10000)

/-- The field in the window of core `c` (R143). -/
def Fld.core (f : Fld) (c : Nat) : Fld := f.add (c * 0x1000)

/-- The field of mailbox channel `ch` (R572). -/
def Fld.mbx (f : Fld) (ch : Nat) : Fld := f.add (ch * 64)

/-- The field of hamper bank `b` (Table 12.5). -/
def Fld.bank (f : Fld) (b : Nat) : Fld := f.add (b * 8)

/-- The SEG registers, part 0. -/
def regRowsSeg0 : List RegRow :=
  [
    ⟨"SEG_CONFIG", 0x0, 0x8, 1, .any, [⟨10, 8, .ro, 0⟩, ⟨2, 0, .ro, 0⟩]⟩,
    ⟨"SEG_NODEID", 0x10, 0x8, 1, .any, [⟨14, 8, .rw, 0⟩, ⟨7, 0, .rw, 0⟩]⟩,
    ⟨"SEG_TICK", 0x20, 0x8, 1, .any, [⟨63, 0, .ro, 0⟩]⟩,
    ⟨"SEG_BRG0_STATUS", 0x100, 0x8, 1, .any, [⟨63, 32, .ro, 0⟩, ⟨23, 16, .ro, 0⟩, ⟨15, 8, .ro, 0⟩, ⟨2, 2, .w1c, 0⟩, ⟨1, 0, .ro, 0⟩]⟩,
    ⟨"SEG_BRG1_STATUS", 0x108, 0x8, 1, .any, [⟨63, 32, .ro, 0⟩, ⟨23, 16, .ro, 0⟩, ⟨15, 8, .ro, 0⟩, ⟨2, 2, .w1c, 0⟩, ⟨1, 0, .ro, 0⟩]⟩,
    ⟨"SEG_BRG_CTRL", 0x110, 0x8, 1, .any, [⟨1, 1, .w1s, 0⟩, ⟨0, 0, .w1s, 0⟩]⟩,
    ⟨"SEG_TAG_CTRL", 0x200, 0x8, 1, .any, [⟨51, 32, .rw, 250000⟩, ⟨31, 28, .rw, 8⟩, ⟨27, 16, .rw, 512⟩, ⟨5, 0, .rw, 8⟩]⟩,
    ⟨"SEG_TAG_STATUS", 0x208, 0x8, 1, .any, [⟨50, 34, .rc, 0⟩, ⟨33, 17, .ro, 0⟩, ⟨16, 0, .ro, 0⟩]⟩,
    ⟨"SEG_TXN_COUNT", 0x210, 0x8, 1, .any, [⟨63, 48, .rc, 0⟩, ⟨47, 32, .rc, 0⟩, ⟨31, 16, .rc, 0⟩, ⟨15, 0, .rc, 0⟩]⟩,
    ⟨"SEG_REPLY_POOL", 0x218, 0x8, 1, .any, [⟨16, 0, .rw, 65536⟩]⟩,
    ⟨"SEG_MERGE_CTRL", 0x220, 0x8, 1, .any, [⟨9, 1, .rw, 256⟩, ⟨0, 0, .w1s, 0⟩]⟩,
    ⟨"SEG_MERGE_STATUS", 0x228, 0x8, 1, .any, [⟨63, 48, .rc, 0⟩, ⟨6, 0, .ro, 0⟩]⟩,
    ⟨"SEG_FENCE", 0x230, 0x8, 1, .any, [⟨35, 32, .rc, 0⟩, ⟨31, 0, .rc, 0⟩]⟩,
    ⟨"SEG_HOME_CTRL", 0x238, 0x8, 1, .any, [⟨23, 16, .rw, 32⟩, ⟨12, 0, .rw, 4096⟩]⟩]

/-- The SEG registers, part 1. -/
def regRowsSeg1 : List RegRow :=
  [
    ⟨"SEG_HOME_STATUS", 0x240, 0x8, 1, .any, [⟨63, 48, .rc, 0⟩, ⟨47, 32, .rc, 0⟩, ⟨12, 0, .ro, 0⟩]⟩,
    ⟨"SEG_ATOM_STATUS", 0x248, 0x8, 1, .any, [⟨63, 48, .rc, 0⟩, ⟨8, 0, .ro, 0⟩]⟩,
    ⟨"SEG_BOOT", 0x300, 0x8, 1, .any, [⟨47, 40, .ro, 0⟩, ⟨32, 32, .ko, 0⟩, ⟨31, 31, .w1s, 0⟩, ⟨30, 30, .w1s, 0⟩, ⟨25, 24, .ro, 0⟩, ⟨17, 16, .ro, 0⟩, ⟨3, 0, .ro, 0⟩]⟩,
    ⟨"SEG_BOOT_AREA", 0x308, 0x8, 1, .w64, [⟨43, 24, .rw, 0⟩]⟩,
    ⟨"SEG_RESET", 0x310, 0x8, 1, .any, [⟨63, 32, .ko, 50000000⟩, ⟨13, 8, .wo, 0⟩, ⟨1, 0, .wo, 0⟩]⟩,
    ⟨"SEG_IRQ_STATUS", 0x318, 0x8, 1, .any, [⟨16, 16, .w1c, 0⟩, ⟨15, 0, .w1c, 0⟩]⟩,
    ⟨"SEG_IRQ_MASK", 0x320, 0x8, 1, .any, [⟨15, 0, .rw, 0⟩]⟩]

/-- The CUR registers, part 0. -/
def regRowsCur0 : List RegRow :=
  [
    ⟨"CUR_STATE", 0x180000, 0x1000, 18, .any, [⟨63, 32, .ro, 0⟩, ⟨31, 20, .ro, 0⟩, ⟨19, 8, .ro, 0⟩, ⟨7, 6, .ro, 0⟩, ⟨2, 0, .ro, 0⟩]⟩,
    ⟨"CUR_CTRL", 0x180008, 0x1000, 18, .any, [⟨63, 48, .rw, 0⟩, ⟨2, 2, .w1s, 0⟩, ⟨1, 1, .rw, 0⟩]⟩,
    ⟨"CUR_CODE", 0x180010, 0x1000, 18, .any, [⟨63, 32, .rw, 0⟩, ⟨27, 0, .rw, 0⟩]⟩,
    ⟨"CUR_EXC", 0x180018, 0x1000, 18, .any, [⟨63, 32, .ro, 0⟩, ⟨31, 24, .ro, 0⟩, ⟨3, 0, .w1c, 0⟩]⟩,
    ⟨"CUR_EXC_INFO", 0x180020, 0x1000, 18, .any, [⟨63, 0, .ro, 0⟩]⟩,
    ⟨"CUR_EVEC", 0x180028, 0x1000, 18, .any, [⟨31, 3, .rw, 0⟩]⟩,
    ⟨"CUR_EPC", 0x180030, 0x1000, 18, .any, [⟨31, 0, .ro, 0⟩]⟩,
    ⟨"CUR_LB_ADDR", 0x180038, 0x1000, 18, .any, [⟨15, 3, .rw, 0⟩]⟩,
    ⟨"CUR_LB_DATA", 0x180040, 0x1000, 18, .a64, [⟨63, 0, .rw, 0⟩]⟩,
    ⟨"CUR_COUNT", 0x180048, 0x1000, 18, .any, [⟨63, 32, .rc, 0⟩, ⟨31, 16, .rc, 0⟩, ⟨15, 0, .rc, 0⟩]⟩,
    ⟨"CUR_TALLY", 0x180050, 0x1000, 18, .any, [⟨31, 16, .ro, 0⟩, ⟨15, 0, .ro, 0⟩]⟩]

/-- The TRL registers, part 0. -/
def regRowsTrl0 : List RegRow :=
  [
    ⟨"TRL_SUBMIT", 0x160000, 0x8, 1, .w64, [⟨43, 6, .wo, 0⟩]⟩,
    ⟨"TRL_SUBMIT_STATUS", 0x160008, 0x8, 1, .any, [⟨63, 48, .rc, 0⟩, ⟨47, 32, .rc, 0⟩, ⟨6, 0, .ro, 64⟩]⟩,
    ⟨"TRL_QUOTA", 0x160010, 0x8, 1, .any, [⟨20, 16, .rw, 16⟩, ⟨12, 0, .rw, 4096⟩]⟩,
    ⟨"TRL_SAVE_BASE", 0x160018, 0x8, 1, .w64, [⟨43, 13, .rw, 0⟩]⟩,
    ⟨"TRL_CANCEL", 0x160020, 0x8, 1, .any, [⟨13, 12, .wo, 0⟩, ⟨11, 0, .wo, 0⟩]⟩,
    ⟨"TRL_STATUS", 0x160028, 0x8, 1, .any, [⟨44, 32, .ro, 0⟩, ⟨28, 16, .ro, 0⟩, ⟨12, 0, .ro, 0⟩]⟩,
    ⟨"TRL_TRAILS", 0x160030, 0x8, 1, .any, [⟨31, 0, .ro, 0⟩]⟩,
    ⟨"TRL_COUNT", 0x160038, 0x8, 1, .any, [⟨63, 32, .rc, 0⟩, ⟨31, 16, .rc, 0⟩, ⟨15, 0, .rc, 0⟩]⟩,
    ⟨"TRL_CQ_FULL", 0x160040, 0x8, 1, .any, [⟨31, 0, .ro, 0⟩]⟩]

/-- The CLV registers, part 0. -/
def regRowsClv0 : List RegRow :=
  [
    ⟨"CLV_HC_BASE", 0x120000, 0x8, 1, .w64, [⟨43, 12, .rw, 0⟩]⟩,
    ⟨"CLV_GROUP_CMD", 0x120008, 0x8, 1, .any, [⟨14, 12, .wo, 0⟩, ⟨11, 0, .wo, 0⟩]⟩,
    ⟨"CLV_GROUP_SEL", 0x120010, 0x8, 1, .any, [⟨11, 0, .rw, 0⟩]⟩,
    ⟨"CLV_GROUP_STATE", 0x120018, 0x8, 1, .any, [⟨63, 32, .ro, 0⟩, ⟨31, 28, .ro, 0⟩, ⟨27, 22, .ro, 0⟩, ⟨21, 8, .ro, 0⟩, ⟨7, 3, .ro, 0⟩, ⟨2, 0, .ro, 0⟩]⟩,
    ⟨"CLV_OPEN_RESULT", 0x120020, 0x8, 1, .any, [⟨44, 44, .rc, 0⟩, ⟨43, 32, .rc, 0⟩, ⟨7, 4, .rc, 0⟩, ⟨3, 0, .rc, 0⟩]⟩,
    ⟨"CLV_TIMERS", 0x120028, 0x8, 1, .any, [⟨63, 32, .rw, 3000000000⟩, ⟨31, 0, .rw, 100000000⟩]⟩,
    ⟨"CLV_STAGING", 0x120030, 0x8, 1, .any, [⟨45, 32, .rw, 8192⟩, ⟨13, 0, .ro, 0⟩]⟩,
    ⟨"CLV_COUNT", 0x120038, 0x8, 1, .any, [⟨63, 48, .rc, 0⟩, ⟨47, 32, .rc, 0⟩, ⟨31, 16, .rc, 0⟩, ⟨15, 0, .rc, 0⟩]⟩,
    ⟨"CLV_NAK_COUNT", 0x120040, 0x8, 1, .any, [⟨63, 32, .rc, 0⟩, ⟨31, 0, .rc, 0⟩]⟩]

/-- The RED registers, part 0. -/
def regRowsRed0 : List RegRow :=
  [
    ⟨"RED_STATUS", 0x110000, 0x8, 1, .any, [⟨15, 8, .ro, 0⟩, ⟨7, 0, .ro, 0⟩]⟩,
    ⟨"RED_COUNT", 0x110008, 0x8, 1, .any, [⟨63, 32, .rc, 0⟩, ⟨31, 0, .rc, 0⟩]⟩,
    ⟨"RED_MX_COUNT", 0x110010, 0x8, 1, .any, [⟨63, 32, .rc, 0⟩, ⟨31, 16, .rc, 0⟩, ⟨15, 0, .rc, 0⟩]⟩,
    ⟨"RED_RIDERS", 0x110018, 0x8, 1, .any, [⟨63, 32, .rc, 0⟩, ⟨31, 16, .rc, 0⟩, ⟨15, 0, .rc, 0⟩]⟩]

/-- The XLT registers, part 0. -/
def regRowsXlt0 : List RegRow :=
  [
    ⟨"XLT_CTX_BASE", 0x140000, 0x8, 1, .w64, [⟨43, 12, .rw, 0⟩]⟩,
    ⟨"XLT_CTX_CMD", 0x140008, 0x8, 1, .any, [⟨13, 12, .wo, 0⟩, ⟨11, 0, .wo, 0⟩]⟩,
    ⟨"XLT_CTX_RESULT", 0x140010, 0x8, 1, .any, [⟨44, 44, .rc, 0⟩, ⟨43, 32, .rc, 0⟩, ⟨15, 15, .ro, 0⟩, ⟨14, 8, .ro, 0⟩, ⟨7, 4, .rc, 0⟩, ⟨3, 0, .rc, 0⟩]⟩,
    ⟨"XLT_GUARD_BASE", 0x140018, 0x8, 1, .w64, [⟨43, 12, .ko, 0⟩]⟩,
    ⟨"XLT_GUARD_SIZE", 0x140020, 0x8, 1, .any, [⟨48, 32, .ko, 0⟩, ⟨16, 0, .ko, 0⟩]⟩,
    ⟨"XLT_GUARD_INVAL", 0x140028, 0x8, 1, .any, [⟨17, 17, .ro, 0⟩, ⟨16, 0, .ko, 0⟩]⟩,
    ⟨"XLT_RECALL_SUBMIT", 0x140030, 0x8, 1, .w64, [⟨43, 5, .wo, 0⟩]⟩,
    ⟨"XLT_RECALL_STATUS", 0x140038, 0x8, 1, .any, [⟨63, 32, .ro, 0⟩, ⟨31, 0, .ro, 0⟩]⟩,
    ⟨"XLT_MIGRATE_DONE", 0x140040, 0x8, 1, .any, [⟨7, 4, .wo, 0⟩, ⟨3, 0, .wo, 0⟩]⟩,
    ⟨"XLT_MIGRATE_CTRL", 0x140048, 0x8, 1, .any, [⟨31, 0, .rw, 500000⟩]⟩,
    ⟨"XLT_HOT_CTRL", 0x140050, 0x8, 1, .w64, [⟨39, 8, .rw, 5000000⟩, ⟨7, 0, .rw, 192⟩]⟩,
    ⟨"XLT_COUNT", 0x140058, 0x8, 1, .any, [⟨63, 32, .rc, 0⟩, ⟨31, 24, .rc, 0⟩, ⟨23, 16, .rc, 0⟩, ⟨15, 0, .rc, 0⟩]⟩]

/-- The PLC registers, part 0. -/
def regRowsPlc0 : List RegRow :=
  [
    ⟨"PLC_CTRL", 0x150000, 0x8, 1, .any, [⟨2, 2, .rw, 1⟩, ⟨1, 1, .rw, 1⟩, ⟨0, 0, .rw, 1⟩]⟩,
    ⟨"PLC_EGRESS", 0x150008, 0x8, 1, .any, [⟨15, 8, .rw, 2⟩, ⟨7, 0, .rw, 8⟩]⟩,
    ⟨"PLC_POOL", 0x150010, 0x8, 1, .any, [⟨54, 32, .rw, 0⟩, ⟨15, 0, .rw, 0⟩]⟩,
    ⟨"PLC_POOL_STATUS", 0x150018, 0x8, 1, .any, [⟨31, 16, .ro, 0⟩, ⟨15, 0, .ro, 0⟩]⟩,
    ⟨"PLC_FH_WINDOW", 0x150020, 0x8, 1, .any, [⟨54, 32, .rw, 0⟩, ⟨12, 0, .rw, 0⟩]⟩,
    ⟨"PLC_FH_CMD", 0x150028, 0x8, 1, .w64, [⟨63, 32, .wo, 0⟩, ⟨29, 28, .wo, 0⟩, ⟨27, 16, .wo, 0⟩, ⟨12, 0, .wo, 0⟩]⟩,
    ⟨"PLC_FH_STATUS", 0x150030, 0x8, 1, .any, [⟨63, 63, .ro, 0⟩, ⟨51, 48, .ro, 0⟩, ⟨12, 0, .ro, 0⟩]⟩,
    ⟨"PLC_MOVE", 0x150038, 0x8, 1, .any, [⟨63, 32, .rw, 50000⟩, ⟨31, 24, .rw, 64⟩, ⟨23, 16, .rw, 32⟩, ⟨15, 8, .rw, 32⟩, ⟨7, 4, .rw, 4⟩]⟩,
    ⟨"PLC_REPL", 0x150040, 0x8, 1, .any, [⟨31, 24, .rw, 64⟩, ⟨9, 0, .rw, 256⟩]⟩,
    ⟨"PLC_COUNT", 0x150048, 0x8, 1, .any, [⟨63, 48, .rc, 0⟩, ⟨47, 32, .rc, 0⟩, ⟨31, 16, .rc, 0⟩, ⟨15, 0, .rc, 0⟩]⟩]

/-- The RTE registers, part 0. -/
def regRowsRte0 : List RegRow :=
  [
    ⟨"RTE_EPOCH", 0x100000, 0x8, 1, .any, [⟨0, 0, .ko, 0⟩]⟩,
    ⟨"RTE_EPOCH_STATUS", 0x100008, 0x8, 1, .any, [⟨63, 48, .ro, 0⟩, ⟨44, 32, .ro, 0⟩, ⟨4, 3, .ro, 0⟩, ⟨2, 1, .ro, 0⟩, ⟨0, 0, .ro, 0⟩]⟩,
    ⟨"RTE_TABLE_CMD", 0x100010, 0x8, 1, .any, [⟨2, 1, .wo, 0⟩, ⟨0, 0, .wo, 0⟩]⟩,
    ⟨"RTE_PORT_STATE", 0x100018, 0x8, 1, .any, [⟨15, 8, .ro, 0⟩, ⟨7, 0, .ro, 0⟩]⟩,
    ⟨"RTE_THROTTLE_CTRL", 0x100020, 0x8, 1, .any, [⟨40, 40, .rw, 1⟩, ⟨39, 32, .rw, 16⟩, ⟨31, 24, .rw, 8⟩, ⟨23, 16, .rw, 51⟩, ⟨7, 0, .rw, 192⟩]⟩,
    ⟨"RTE_THROTTLE_STATUS", 0x100028, 0x8, 1, .any, [⟨63, 32, .rc, 0⟩, ⟨8, 0, .ro, 256⟩]⟩,
    ⟨"RTE_COUNT", 0x100030, 0x8, 1, .any, [⟨63, 32, .rc, 0⟩, ⟨31, 0, .rc, 0⟩]⟩,
    ⟨"RTE_DROP_COUNT", 0x100038, 0x8, 1, .any, [⟨63, 48, .rc, 0⟩, ⟨47, 32, .rc, 0⟩, ⟨31, 16, .rc, 0⟩, ⟨15, 0, .rc, 0⟩]⟩,
    ⟨"RTE_LAND_STATUS", 0x100040, 0x8, 1, .any, [⟨53, 0, .ro, 0⟩]⟩,
    ⟨"RTE_AGECLK", 0x100048, 0x8, 1, .any, [⟨9, 0, .ro, 0⟩]⟩,
    ⟨"RTE_SIGNPOST0", 0x104000, 0x8, 1088, .w64, [⟨63, 0, .rw, 1073741823⟩]⟩,
    ⟨"RTE_SIGNPOST1", 0x108000, 0x8, 1088, .w64, [⟨63, 0, .rw, 1073741823⟩]⟩]

/-- The LNK registers, part 0. -/
def regRowsLnk0 : List RegRow :=
  [
    ⟨"LNK_STATE", 0x80000, 0x10000, 6, .any, [⟨19, 16, .ro, 0⟩, ⟨11, 8, .ro, 0⟩, ⟨7, 7, .ro, 0⟩, ⟨2, 0, .ro, 0⟩]⟩,
    ⟨"LNK_CTRL", 0x80008, 0x10000, 6, .any, [⟨11, 8, .rw, 8⟩, ⟨3, 3, .w1s, 0⟩, ⟨2, 2, .w1s, 0⟩, ⟨1, 1, .w1s, 0⟩, ⟨0, 0, .rw, 0⟩]⟩,
    ⟨"LNK_ERR_CTRL", 0x80010, 0x10000, 6, .any, [⟨63, 32, .rw, 10000⟩, ⟨31, 28, .rw, 3⟩, ⟨27, 20, .rw, 16⟩, ⟨19, 0, .rw, 50000⟩]⟩,
    ⟨"LNK_TIMERS", 0x80018, 0x10000, 6, .any, [⟨31, 16, .rw, 100⟩, ⟨15, 0, .rw, 50⟩]⟩,
    ⟨"LNK_SEQ_STATUS", 0x80020, 0x10000, 6, .any, [⟨59, 48, .ro, 0⟩, ⟨47, 36, .ro, 4095⟩, ⟨35, 24, .ro, 0⟩, ⟨9, 0, .ro, 0⟩]⟩,
    ⟨"LNK_CREDIT_STATUS", 0x80028, 0x10000, 6, .any, [⟨63, 48, .ro, 0⟩, ⟨47, 32, .ro, 0⟩, ⟨31, 23, .ro, 256⟩, ⟨22, 14, .ro, 0⟩, ⟨8, 0, .ro, 0⟩]⟩,
    ⟨"LNK_WINDOW_STATUS", 0x80030, 0x10000, 6, .any, [⟨43, 40, .ro, 0⟩, ⟨39, 32, .ro, 0⟩, ⟨31, 20, .ro, 0⟩, ⟨19, 0, .ro, 0⟩]⟩,
    ⟨"LNK_FRAME_COUNT", 0x80038, 0x10000, 6, .any, [⟨63, 32, .rc, 0⟩, ⟨31, 0, .rc, 0⟩]⟩,
    ⟨"LNK_ERR_COUNT", 0x80040, 0x10000, 6, .any, [⟨63, 32, .rc, 0⟩, ⟨31, 16, .rc, 0⟩, ⟨15, 0, .rc, 0⟩]⟩,
    ⟨"LNK_REPLAY_COUNT", 0x80048, 0x10000, 6, .any, [⟨63, 32, .rc, 0⟩, ⟨31, 16, .rc, 0⟩, ⟨15, 0, .rc, 0⟩]⟩,
    ⟨"LNK_VIOL_COUNT", 0x80050, 0x10000, 6, .any, [⟨47, 40, .rc, 0⟩, ⟨39, 32, .rc, 0⟩, ⟨31, 24, .rc, 0⟩, ⟨23, 16, .rc, 0⟩, ⟨15, 8, .rc, 0⟩, ⟨7, 0, .rc, 0⟩]⟩,
    ⟨"LNK_VIOL_LAST", 0x80058, 0x10000, 6, .any, [⟨63, 32, .ro, 0⟩, ⟨2, 0, .ro, 0⟩]⟩,
    ⟨"LNK_RETRAIN_STATUS", 0x80060, 0x10000, 6, .any, [⟨63, 32, .ro, 0⟩, ⟨31, 24, .ro, 0⟩, ⟨23, 16, .ro, 0⟩, ⟨15, 0, .rc, 0⟩]⟩,
    ⟨"LNK_PARTNER", 0x80068, 0x10000, 6, .any, [⟨27, 13, .ro, 0⟩, ⟨12, 10, .ro, 0⟩, ⟨9, 7, .ro, 0⟩]⟩]

/-- The LNK registers, part 1. -/
def regRowsLnk1 : List RegRow :=
  [
    ⟨"LNK_PARTNER_DEV", 0x80070, 0x10000, 6, .any, [⟨63, 0, .ro, 0⟩]⟩,
    ⟨"LNK_TIMING", 0x80078, 0x10000, 6, .any, [⟨23, 8, .ro, 0⟩, ⟨7, 0, .ro, 1⟩]⟩,
    ⟨"LNK_SEAL_CTRL", 0x80080, 0x10000, 6, .any, [⟨19, 18, .ko, 0⟩, ⟨17, 12, .ko, 0⟩, ⟨11, 0, .ko, 0⟩]⟩,
    ⟨"LNK_SEAL_STATUS", 0x80088, 0x10000, 6, .any, [⟨63, 0, .ro, 0⟩]⟩,
    ⟨"LNK_SEAL_COUNT", 0x80090, 0x10000, 6, .any, [⟨63, 32, .rc, 0⟩, ⟨31, 16, .rc, 0⟩, ⟨15, 8, .rc, 0⟩, ⟨7, 0, .rc, 0⟩]⟩,
    ⟨"LNK_DROP_COUNT", 0x80098, 0x10000, 6, .any, [⟨31, 16, .rc, 0⟩, ⟨15, 0, .rc, 0⟩]⟩]

/-- The LNE registers, part 0. -/
def regRowsLne0 : List RegRow :=
  [
    ⟨"LNE_CFG", 0x81000, 0x10000, 6, .any, [⟨7, 7, .rw, 1⟩, ⟨6, 6, .rw, 1⟩, ⟨5, 5, .rw, 1⟩, ⟨1, 0, .rw, 0⟩]⟩,
    ⟨"LNE_TRAIN_CTRL", 0x81008, 0x10000, 6, .any, [⟨47, 32, .rw, 1000⟩, ⟨31, 24, .rw, 3⟩, ⟨11, 0, .rw, 1000⟩]⟩,
    ⟨"LNE_TRAIN_STATUS", 0x81010, 0x10000, 6, .any, [⟨63, 60, .ro, 0⟩, ⟨59, 51, .ro, 0⟩, ⟨50, 42, .ro, 0⟩, ⟨41, 41, .ro, 0⟩, ⟨40, 38, .ro, 0⟩, ⟨37, 32, .rc, 0⟩, ⟨31, 0, .ro, 0⟩]⟩,
    ⟨"LNE_MAP_TX", 0x81018, 0x10000, 6, .any, [⟨39, 36, .ro, 15⟩, ⟨35, 32, .ro, 15⟩, ⟨31, 0, .ro, 4294967295⟩]⟩,
    ⟨"LNE_MAP_RX", 0x81020, 0x10000, 6, .any, [⟨39, 36, .ro, 15⟩, ⟨35, 32, .ro, 15⟩, ⟨31, 0, .ro, 4294967295⟩]⟩,
    ⟨"LNE_ROTATE", 0x81028, 0x10000, 6, .any, [⟨63, 32, .rw, 50000⟩, ⟨31, 16, .rw, 500⟩, ⟨15, 0, .rw, 1000⟩]⟩,
    ⟨"LNE_ROTATE_STATUS", 0x81030, 0x10000, 6, .any, [⟨63, 40, .rc, 0⟩, ⟨39, 32, .rc, 0⟩, ⟨6, 4, .ro, 0⟩, ⟨2, 0, .ro, 0⟩]⟩,
    ⟨"LNE_PWR_STATE", 0x81038, 0x10000, 6, .any, [⟨6, 4, .ro, 0⟩, ⟨2, 0, .ro, 0⟩]⟩,
    ⟨"LNE_PWR_CTRL", 0x81040, 0x10000, 6, .any, [⟨31, 24, .rw, 16⟩, ⟨23, 8, .rw, 1024⟩, ⟨2, 2, .w1s, 0⟩, ⟨1, 1, .w1s, 0⟩, ⟨0, 0, .w1s, 0⟩]⟩,
    ⟨"LNE_PWR_COUNT", 0x81048, 0x10000, 6, .any, [⟨63, 48, .rc, 0⟩, ⟨47, 32, .rc, 0⟩, ⟨31, 16, .rc, 0⟩, ⟨15, 0, .rc, 0⟩]⟩,
    ⟨"LNE_TAPS", 0x81100, 0x10000, 6, .any, [⟨23, 16, .ro, 54⟩, ⟨15, 8, .ro, 8⟩, ⟨7, 0, .ro, 2⟩]⟩,
    ⟨"LNE_TAPS", 0x81108, 0x10000, 6, .any, [⟨23, 16, .ro, 54⟩, ⟨15, 8, .ro, 8⟩, ⟨7, 0, .ro, 2⟩]⟩,
    ⟨"LNE_TAPS", 0x81110, 0x10000, 6, .any, [⟨23, 16, .ro, 54⟩, ⟨15, 8, .ro, 8⟩, ⟨7, 0, .ro, 2⟩]⟩,
    ⟨"LNE_TAPS", 0x81118, 0x10000, 6, .any, [⟨23, 16, .ro, 54⟩, ⟨15, 8, .ro, 8⟩, ⟨7, 0, .ro, 2⟩]⟩]

/-- The LNE registers, part 1. -/
def regRowsLne1 : List RegRow :=
  [
    ⟨"LNE_TAPS", 0x81120, 0x10000, 6, .any, [⟨23, 16, .ro, 54⟩, ⟨15, 8, .ro, 8⟩, ⟨7, 0, .ro, 2⟩]⟩,
    ⟨"LNE_TAPS", 0x81128, 0x10000, 6, .any, [⟨23, 16, .ro, 54⟩, ⟨15, 8, .ro, 8⟩, ⟨7, 0, .ro, 2⟩]⟩,
    ⟨"LNE_TAPS", 0x81130, 0x10000, 6, .any, [⟨23, 16, .ro, 54⟩, ⟨15, 8, .ro, 8⟩, ⟨7, 0, .ro, 2⟩]⟩,
    ⟨"LNE_TAPS", 0x81138, 0x10000, 6, .any, [⟨23, 16, .ro, 54⟩, ⟨15, 8, .ro, 8⟩, ⟨7, 0, .ro, 2⟩]⟩,
    ⟨"LNE_TAPS", 0x81140, 0x10000, 6, .any, [⟨23, 16, .ro, 54⟩, ⟨15, 8, .ro, 8⟩, ⟨7, 0, .ro, 2⟩]⟩,
    ⟨"LNE_LANE_ERR", 0x81200, 0x10000, 6, .any, [⟨63, 32, .rc, 0⟩, ⟨31, 16, .ro, 0⟩, ⟨15, 8, .rc, 0⟩, ⟨0, 0, .ro, 0⟩]⟩,
    ⟨"LNE_LANE_ERR", 0x81208, 0x10000, 6, .any, [⟨63, 32, .rc, 0⟩, ⟨31, 16, .ro, 0⟩, ⟨15, 8, .rc, 0⟩, ⟨0, 0, .ro, 0⟩]⟩,
    ⟨"LNE_LANE_ERR", 0x81210, 0x10000, 6, .any, [⟨63, 32, .rc, 0⟩, ⟨31, 16, .ro, 0⟩, ⟨15, 8, .rc, 0⟩, ⟨0, 0, .ro, 0⟩]⟩,
    ⟨"LNE_LANE_ERR", 0x81218, 0x10000, 6, .any, [⟨63, 32, .rc, 0⟩, ⟨31, 16, .ro, 0⟩, ⟨15, 8, .rc, 0⟩, ⟨0, 0, .ro, 0⟩]⟩,
    ⟨"LNE_LANE_ERR", 0x81220, 0x10000, 6, .any, [⟨63, 32, .rc, 0⟩, ⟨31, 16, .ro, 0⟩, ⟨15, 8, .rc, 0⟩, ⟨0, 0, .ro, 0⟩]⟩,
    ⟨"LNE_LANE_ERR", 0x81228, 0x10000, 6, .any, [⟨63, 32, .rc, 0⟩, ⟨31, 16, .ro, 0⟩, ⟨15, 8, .rc, 0⟩, ⟨0, 0, .ro, 0⟩]⟩,
    ⟨"LNE_LANE_ERR", 0x81230, 0x10000, 6, .any, [⟨63, 32, .rc, 0⟩, ⟨31, 16, .ro, 0⟩, ⟨15, 8, .rc, 0⟩, ⟨0, 0, .ro, 0⟩]⟩,
    ⟨"LNE_LANE_ERR", 0x81238, 0x10000, 6, .any, [⟨63, 32, .rc, 0⟩, ⟨31, 16, .ro, 0⟩, ⟨15, 8, .rc, 0⟩, ⟨0, 0, .ro, 0⟩]⟩,
    ⟨"LNE_LANE_ERR", 0x81240, 0x10000, 6, .any, [⟨63, 32, .rc, 0⟩, ⟨31, 16, .ro, 0⟩, ⟨15, 8, .rc, 0⟩, ⟨0, 0, .ro, 0⟩]⟩]

/-- The PWR registers, part 0. -/
def regRowsPwr0 : List RegRow :=
  [
    ⟨"PWR_DOMAIN_STATE", 0x10000, 0x8, 1, .any, [⟨34, 0, .ro, 1⟩]⟩,
    ⟨"PWR_DOMAIN_REQ", 0x10008, 0x8, 1, .any, [⟨34, 0, .ro, 1⟩]⟩,
    ⟨"PWR_HOLD", 0x10010, 0x8, 1, .w64, [⟨34, 1, .rw, 0⟩]⟩,
    ⟨"PWR_CTRL", 0x10018, 0x8, 1, .any, [⟨63, 32, .rw, 500⟩, ⟨31, 0, .rw, 5000⟩]⟩,
    ⟨"PWR_WAKE_COUNT", 0x10020, 0x8, 1, .any, [⟨63, 32, .rc, 0⟩, ⟨31, 16, .rc, 0⟩, ⟨15, 0, .rc, 0⟩]⟩,
    ⟨"PWR_TIMER_K", 0x10028, 0x8, 1, .w64, [⟨63, 0, .ko, 0⟩]⟩,
    ⟨"PWR_TIMER_S", 0x10030, 0x8, 1, .w64, [⟨63, 0, .rw, 0⟩]⟩,
    ⟨"PWR_EST", 0x10038, 0x8, 1, .any, [⟨31, 16, .ro, 0⟩, ⟨15, 0, .ro, 0⟩]⟩,
    ⟨"PWR_RAMP", 0x10040, 0x8, 1, .any, [⟨31, 16, .ro, 0⟩, ⟨1, 0, .ko, 0⟩]⟩,
    ⟨"PWR_RAMP_STATUS", 0x10048, 0x8, 1, .any, [⟨63, 48, .rc, 0⟩, ⟨47, 32, .rc, 0⟩, ⟨16, 16, .ro, 0⟩, ⟨15, 0, .ro, 0⟩]⟩,
    ⟨"PWR_STILE", 0x10050, 0x8, 1, .any, [⟨18, 0, .ko, 80000⟩]⟩,
    ⟨"PWR_STILE_SALT", 0x10058, 0x8, 1, .any, [⟨31, 0, .ko, 0⟩]⟩,
    ⟨"PWR_STILE_STATUS", 0x10060, 0x8, 1, .any, [⟨63, 32, .ro, 4294967295⟩, ⟨10, 0, .ro, 0⟩]⟩,
    ⟨"PWR_KETTLE", 0x10068, 0x8, 1, .any, [⟨63, 32, .ko, 1000000⟩, ⟨31, 0, .ko, 2500000⟩]⟩]

/-- The PWR registers, part 1. -/
def regRowsPwr1 : List RegRow :=
  [
    ⟨"PWR_KETTLE_GAP", 0x10070, 0x8, 1, .any, [⟨31, 0, .ko, 50000⟩]⟩,
    ⟨"PWR_PACE", 0x10078, 0x8, 1, .any, [⟨23, 16, .ro, 0⟩, ⟨15, 8, .ro, 0⟩, ⟨7, 0, .ro, 0⟩]⟩,
    ⟨"PWR_PACE_CTRL", 0x10080, 0x8, 1, .any, [⟨63, 32, .rw, 5000⟩, ⟨31, 24, .rw, 255⟩, ⟨23, 16, .rw, 16⟩, ⟨7, 7, .rw, 0⟩, ⟨5, 0, .rw, 0⟩]⟩]

/-- The HMP registers, part 0. -/
def regRowsHmp0 : List RegRow :=
  [
    ⟨"HMP_STATUS", 0x130000, 0x8, 1, .any, [⟨35, 24, .ro, 0⟩, ⟨13, 0, .ro, 0⟩]⟩,
    ⟨"HMP_FENCE_CTRL", 0x130008, 0x8, 1, .any, [⟨13, 12, .wo, 0⟩, ⟨3, 0, .wo, 0⟩]⟩,
    ⟨"HMP_INVAL", 0x130010, 0x8, 1, .any, [⟨11, 0, .w1s, 0⟩]⟩,
    ⟨"HMP_CTRL", 0x130018, 0x8, 1, .any, [⟨7, 0, .rw, 2⟩]⟩,
    ⟨"HMP_CRC_COUNT", 0x130020, 0x8, 1, .any, [⟨63, 32, .rc, 0⟩, ⟨31, 16, .rc, 0⟩, ⟨15, 0, .rc, 0⟩]⟩,
    ⟨"HMP_CRIT", 0x130028, 0x8, 1, .any, [⟨47, 32, .rc, 0⟩, ⟨16, 16, .ro, 0⟩, ⟨11, 8, .ro, 8⟩, ⟨7, 4, .ro, 4⟩, ⟨3, 0, .ro, 0⟩]⟩,
    ⟨"HMP_CRIT_WORD", 0x130030, 0x8, 1, .any, [⟨21, 16, .ro, 0⟩, ⟨5, 0, .ro, 0⟩]⟩,
    ⟨"HMP_BIST", 0x130038, 0x8, 1, .any, [⟨63, 63, .ro, 0⟩, ⟨62, 62, .ro, 0⟩, ⟨61, 50, .ro, 0⟩, ⟨49, 38, .ro, 0⟩, ⟨37, 37, .ro, 0⟩, ⟨31, 0, .ro, 0⟩]⟩,
    ⟨"HMP_BANK_STATUS", 0x130100, 0x8, 12, .any, [⟨63, 32, .ro, 0⟩, ⟨31, 22, .ro, 0⟩, ⟨15, 8, .rc, 0⟩, ⟨7, 4, .ro, 0⟩, ⟨2, 0, .ro, 0⟩]⟩,
    ⟨"HMP_REMAP", 0x130200, 0x8, 24, .any, [⟨63, 0, .ro, 0⟩]⟩]

/-- The FLT registers, part 0. -/
def regRowsFlt0 : List RegRow :=
  [
    ⟨"FLT_STATUS", 0x20000, 0x8, 1, .any, [⟨63, 32, .rc, 0⟩, ⟨10, 10, .w1c, 0⟩, ⟨9, 9, .w1c, 0⟩, ⟨8, 0, .ro, 0⟩]⟩,
    ⟨"FLT_HEAD", 0x20008, 0x8, 1, .any, [⟨15, 0, .rw, 0⟩]⟩,
    ⟨"FLT_TAIL", 0x20010, 0x8, 1, .any, [⟨15, 0, .ro, 0⟩]⟩,
    ⟨"FLT_CTRL", 0x20018, 0x8, 1, .any, [⟨15, 12, .rw, 0⟩, ⟨9, 8, .rw, 2⟩]⟩,
    ⟨"FLT_SUPP", 0x20020, 0x8, 1, .any, [⟨16, 16, .w1s, 0⟩, ⟨10, 0, .ro, 0⟩]⟩,
    ⟨"FLT_POST", 0x20028, 0x8, 1, .w64, [⟨33, 32, .wo, 0⟩, ⟨31, 0, .wo, 0⟩]⟩,
    ⟨"FLT_OVF_PENDING", 0x20030, 0x8, 1, .any, [⟨31, 0, .w1c, 0⟩]⟩,
    ⟨"FLT_KD_CMD", 0x20038, 0x8, 1, .any, [⟨17, 16, .wo, 0⟩, ⟨14, 0, .wo, 0⟩]⟩,
    ⟨"FLT_KD_STATUS", 0x20040, 0x8, 1, .any, [⟨63, 32, .ro, 0⟩, ⟨15, 0, .ro, 0⟩]⟩,
    ⟨"FLT_OVF_COUNT", 0x20400, 0x20, 32, .any, [⟨31, 0, .ro, 0⟩]⟩,
    ⟨"FLT_OVF_FIRST", 0x20408, 0x20, 32, .any, [⟨63, 0, .ro, 0⟩]⟩,
    ⟨"FLT_OVF_LAST", 0x20410, 0x20, 32, .any, [⟨63, 0, .ro, 0⟩]⟩,
    ⟨"FLT_REC", 0x21000, 0x8, 1024, .any, [⟨63, 0, .ro, 0⟩]⟩,
    ⟨"FLT_KD_MAP", 0x28000, 0x8, 512, .any, [⟨63, 0, .ro, 0⟩]⟩]

/-- The KPR registers, part 0. -/
def regRowsKpr0 : List RegRow :=
  [
    ⟨"KPR_STATE", 0x40000, 0x8, 1, .any, [⟨47, 32, .ro, 0⟩, ⟨31, 16, .ro, 0⟩, ⟨7, 7, .ro, 0⟩, ⟨6, 6, .ro, 0⟩, ⟨5, 5, .ro, 0⟩, ⟨4, 4, .ro, 0⟩, ⟨3, 3, .ro, 0⟩, ⟨2, 0, .ro, 0⟩]⟩,
    ⟨"KPR_DEVNUM", 0x40008, 0x8, 1, .any, [⟨63, 0, .ro, 0⟩]⟩,
    ⟨"KPR_UPDATE", 0x40010, 0x8, 1, .any, [⟨31, 0, .ko, 1000000⟩]⟩,
    ⟨"KPR_SEAL_SERIAL", 0x40018, 0x8, 1, .w64, [⟨63, 0, .ko, 0⟩]⟩,
    ⟨"KPR_FENCE", 0x40020, 0x8, 1, .any, [⟨31, 28, .ko, 0⟩, ⟨21, 16, .ko, 0⟩, ⟨11, 0, .ko, 0⟩]⟩,
    ⟨"KPR_SLOT_LOST", 0x40028, 0x8, 1, .any, [⟨63, 0, .ro, 0⟩]⟩,
    ⟨"KPR_COUNT", 0x40030, 0x8, 1, .any, [⟨63, 48, .rc, 0⟩, ⟨47, 32, .rc, 0⟩, ⟨31, 16, .rc, 0⟩, ⟨15, 0, .rc, 0⟩]⟩,
    ⟨"KPR_HOST", 0x40038, 0x8, 1, .any, [⟨12, 1, .ro, 0⟩, ⟨0, 0, .ro, 0⟩]⟩,
    ⟨"KPR_SLOT", 0x40100, 0x8, 64, .any, [⟨31, 31, .ro, 0⟩, ⟨27, 16, .ro, 0⟩, ⟨7, 0, .ro, 0⟩]⟩,
    ⟨"KPR_SEAL_MAP", 0x41000, 0x8, 64, .any, [⟨63, 0, .ro, 0⟩]⟩]

/-- The MBX registers, part 0. -/
def regRowsMbx0 : List RegRow :=
  [
    ⟨"MBX_CFG", 0x30000, 0x40, 64, .any, [⟨55, 32, .ko, 50000⟩, ⟨31, 16, .ko, 0⟩, ⟨15, 12, .ko, 0⟩, ⟨11, 11, .ko, 0⟩, ⟨3, 0, .ko, 0⟩]⟩,
    ⟨"MBX_PTR", 0x30008, 0x40, 64, .w64, [⟨63, 0, .rw, 0⟩]⟩,
    ⟨"MBX_SEND", 0x30010, 0x40, 64, .any, [⟨15, 0, .wo, 0⟩]⟩,
    ⟨"MBX_RECV", 0x30018, 0x40, 64, .a64, [⟨39, 16, .rc, 0⟩, ⟨15, 0, .rc, 0⟩]⟩,
    ⟨"MBX_ACK", 0x30020, 0x40, 64, .any, [⟨15, 0, .wo, 0⟩]⟩,
    ⟨"MBX_STATUS", 0x30028, 0x40, 64, .any, [⟨47, 32, .ro, 0⟩, ⟨31, 16, .rc, 0⟩, ⟨2, 0, .ro, 0⟩]⟩]

/-- The TEL registers, part 0. -/
def regRowsTel0 : List RegRow :=
  [
    ⟨"TEL_CTRL", 0x1F0000, 0x8, 1, .any, [⟨63, 32, .rw, 0⟩, ⟨0, 0, .w1s, 0⟩]⟩,
    ⟨"TEL_SNAP_TICK", 0x1F0008, 0x8, 1, .any, [⟨63, 0, .ro, 0⟩]⟩,
    ⟨"TEL_SNAP_SEQ", 0x1F0010, 0x8, 1, .any, [⟨31, 0, .ro, 0⟩]⟩,
    ⟨"TEL_ENERGY", 0x1F0018, 0x8, 1, .any, [⟨63, 0, .ro, 0⟩]⟩,
    ⟨"TEL_INJECT", 0x1F0020, 0x8, 1, .any, [⟨63, 0, .ro, 0⟩]⟩,
    ⟨"TEL_EJECT", 0x1F0028, 0x8, 1, .any, [⟨63, 0, .ro, 0⟩]⟩,
    ⟨"TEL_DEFLECT", 0x1F0030, 0x8, 1, .any, [⟨63, 0, .ro, 0⟩]⟩,
    ⟨"TEL_RED_LINES", 0x1F0038, 0x8, 1, .any, [⟨63, 0, .ro, 0⟩]⟩,
    ⟨"TEL_TICKETS", 0x1F0040, 0x8, 1, .any, [⟨63, 0, .ro, 0⟩]⟩,
    ⟨"TEL_PORT_TX", 0x1F0100, 0x10, 6, .any, [⟨63, 0, .ro, 0⟩]⟩,
    ⟨"TEL_PORT_RX", 0x1F0108, 0x10, 6, .any, [⟨63, 0, .ro, 0⟩]⟩]

/-- Every register of the control space (R578, R579). -/
def regTable : List RegRow :=
  regRowsSeg0 ++ regRowsSeg1 ++ regRowsCur0 ++ regRowsTrl0 ++ regRowsClv0 ++ regRowsRed0 ++ regRowsXlt0 ++ regRowsPlc0 ++ regRowsRte0 ++ regRowsLnk0 ++ regRowsLnk1 ++ regRowsLne0 ++ regRowsLne1 ++ regRowsPwr0 ++ regRowsPwr1 ++ regRowsHmp0 ++ regRowsFlt0 ++ regRowsKpr0 ++ regRowsMbx0 ++ regRowsTel0

/-! ## Named fields -/

def F.SEG_CONFIG_SEGID : Fld := ⟨0x0, 10, 8⟩
def F.SEG_CONFIG_DIECOUNT : Fld := ⟨0x0, 2, 0⟩
def F.SEG_NODEID_NODE_HI : Fld := ⟨0x10, 14, 8⟩
def F.SEG_NODEID_NODE_LO : Fld := ⟨0x10, 7, 0⟩
def F.SEG_TICK_TICK : Fld := ⟨0x20, 63, 0⟩
def F.SEG_BRG0_STATUS_LAST_RESET_TICK : Fld := ⟨0x100, 63, 32⟩
def F.SEG_BRG0_STATUS_FAIL_LANE : Fld := ⟨0x100, 23, 16⟩
def F.SEG_BRG0_STATUS_RESET_COUNT : Fld := ⟨0x100, 15, 8⟩
def F.SEG_BRG0_STATUS_PARITY_ERR : Fld := ⟨0x100, 2, 2⟩
def F.SEG_BRG0_STATUS_STATE : Fld := ⟨0x100, 1, 0⟩
def F.SEG_BRG_CTRL_RETRY1 : Fld := ⟨0x110, 1, 1⟩
def F.SEG_BRG_CTRL_RETRY0 : Fld := ⟨0x110, 0, 0⟩
def F.SEG_TAG_CTRL_TIMEOUT : Fld := ⟨0x200, 51, 32⟩
def F.SEG_TAG_CTRL_BUSY_RETRIES : Fld := ⟨0x200, 31, 28⟩
def F.SEG_TAG_CTRL_COURIER_CAP : Fld := ⟨0x200, 27, 16⟩
def F.SEG_TAG_CTRL_DPT_RESERVE : Fld := ⟨0x200, 5, 0⟩
def F.SEG_TAG_STATUS_HIGH_WATER : Fld := ⟨0x208, 50, 34⟩
def F.SEG_TAG_STATUS_QUARANTINED : Fld := ⟨0x208, 33, 17⟩
def F.SEG_TAG_STATUS_IN_USE : Fld := ⟨0x208, 16, 0⟩
def F.SEG_TXN_COUNT_TIMEOUTS : Fld := ⟨0x210, 63, 48⟩
def F.SEG_TXN_COUNT_LATE_REPLIES : Fld := ⟨0x210, 47, 32⟩
def F.SEG_TXN_COUNT_BUSY_TURNS : Fld := ⟨0x210, 31, 16⟩
def F.SEG_TXN_COUNT_SYNTH_RECEIVED : Fld := ⟨0x210, 15, 0⟩
def F.SEG_REPLY_POOL_LINES : Fld := ⟨0x218, 16, 0⟩
def F.SEG_MERGE_CTRL_FLUSH_CYCLES : Fld := ⟨0x220, 9, 1⟩
def F.SEG_MERGE_CTRL_FLUSH : Fld := ⟨0x220, 0, 0⟩
def F.SEG_MERGE_STATUS_EVICTIONS : Fld := ⟨0x228, 63, 48⟩
def F.SEG_MERGE_STATUS_ENTRIES : Fld := ⟨0x228, 6, 0⟩
def F.SEG_FENCE_FIRST_STATUS : Fld := ⟨0x230, 35, 32⟩
def F.SEG_FENCE_FAILED : Fld := ⟨0x230, 31, 0⟩
def F.SEG_HOME_CTRL_BUSY_HOPS : Fld := ⟨0x238, 23, 16⟩
def F.SEG_HOME_CTRL_QUEUE_LIMIT : Fld := ⟨0x238, 12, 0⟩
def F.SEG_HOME_STATUS_BUSY_SENT : Fld := ⟨0x240, 63, 48⟩
def F.SEG_HOME_STATUS_CTX_DENIED : Fld := ⟨0x240, 47, 32⟩
def F.SEG_HOME_STATUS_QUEUE_USED : Fld := ⟨0x240, 12, 0⟩
def F.SEG_ATOM_STATUS_SPOILED : Fld := ⟨0x248, 63, 48⟩
def F.SEG_ATOM_STATUS_LINES_HELD : Fld := ⟨0x248, 8, 0⟩
def F.CUR_STATE_PC : Fld := ⟨0x180000, 63, 32⟩
def F.CUR_STATE_TICKET : Fld := ⟨0x180000, 31, 20⟩
def F.CUR_STATE_CTX : Fld := ⟨0x180000, 19, 8⟩
def F.CUR_STATE_PRIV : Fld := ⟨0x180000, 7, 6⟩
def F.CUR_STATE_STATE : Fld := ⟨0x180000, 2, 0⟩
def F.CUR_CTRL_RUN_LIMIT : Fld := ⟨0x180008, 63, 48⟩
def F.CUR_CTRL_ICINV : Fld := ⟨0x180008, 2, 2⟩
def F.CUR_CTRL_STOP : Fld := ⟨0x180008, 1, 1⟩
def F.CUR_CODE_LIMIT : Fld := ⟨0x180010, 63, 32⟩
def F.CUR_CODE_BASE : Fld := ⟨0x180010, 27, 0⟩
def F.CUR_EXC_PC : Fld := ⟨0x180018, 63, 32⟩
def F.CUR_EXC_OPCODE : Fld := ⟨0x180018, 31, 24⟩
def F.CUR_EXC_CODE : Fld := ⟨0x180018, 3, 0⟩
def F.CUR_EXC_INFO_INFO : Fld := ⟨0x180020, 63, 0⟩
def F.CUR_EVEC_VEC : Fld := ⟨0x180028, 31, 3⟩
def F.CUR_EPC_EPC : Fld := ⟨0x180030, 31, 0⟩
def F.CUR_LB_ADDR_ADDR : Fld := ⟨0x180038, 15, 3⟩
def F.CUR_LB_DATA_DATA : Fld := ⟨0x180040, 63, 0⟩
def F.CUR_COUNT_RETIRED : Fld := ⟨0x180048, 63, 32⟩
def F.CUR_COUNT_STALLS : Fld := ⟨0x180048, 31, 16⟩
def F.CUR_COUNT_UNTALLIED_FAIL : Fld := ⟨0x180048, 15, 0⟩
def F.CUR_TALLY_DONE : Fld := ⟨0x180050, 31, 16⟩
def F.CUR_TALLY_BUSY : Fld := ⟨0x180050, 15, 0⟩
def F.TRL_SUBMIT_HEADER : Fld := ⟨0x160000, 43, 6⟩
def F.TRL_SUBMIT_STATUS_DROPPED : Fld := ⟨0x160008, 63, 48⟩
def F.TRL_SUBMIT_STATUS_REFUSED : Fld := ⟨0x160008, 47, 32⟩
def F.TRL_SUBMIT_STATUS_FIFO_FREE : Fld := ⟨0x160008, 6, 0⟩
def F.TRL_QUOTA_COURIERS_PER_CTX : Fld := ⟨0x160010, 20, 16⟩
def F.TRL_QUOTA_TICKETS_PER_CTX : Fld := ⟨0x160010, 12, 0⟩
def F.TRL_SAVE_BASE_BASE : Fld := ⟨0x160018, 43, 13⟩
def F.TRL_CANCEL_MODE : Fld := ⟨0x160020, 13, 12⟩
def F.TRL_CANCEL_TARGET : Fld := ⟨0x160020, 11, 0⟩
def F.TRL_STATUS_SAVED : Fld := ⟨0x160028, 44, 32⟩
def F.TRL_STATUS_READY : Fld := ⟨0x160028, 28, 16⟩
def F.TRL_STATUS_LIVE : Fld := ⟨0x160028, 12, 0⟩
def F.TRL_TRAILS_ACTIVE : Fld := ⟨0x160030, 31, 0⟩
def F.TRL_COUNT_DISPATCHES : Fld := ⟨0x160038, 63, 32⟩
def F.TRL_COUNT_CANCELLED : Fld := ⟨0x160038, 31, 16⟩
def F.TRL_COUNT_BAD_RECORDS : Fld := ⟨0x160038, 15, 0⟩
def F.TRL_CQ_FULL_FULL : Fld := ⟨0x160040, 31, 0⟩
def F.CLV_HC_BASE_BASE : Fld := ⟨0x120000, 43, 12⟩
def F.CLV_GROUP_CMD_CMD : Fld := ⟨0x120008, 14, 12⟩
def F.CLV_GROUP_CMD_GROUP : Fld := ⟨0x120008, 11, 0⟩
def F.CLV_GROUP_SEL_GROUP : Fld := ⟨0x120010, 11, 0⟩
def F.CLV_GROUP_STATE_OP_SERIAL : Fld := ⟨0x120018, 63, 32⟩
def F.CLV_GROUP_STATE_LAST_STATUS : Fld := ⟨0x120018, 31, 28⟩
def F.CLV_GROUP_STATE_TREES : Fld := ⟨0x120018, 27, 22⟩
def F.CLV_GROUP_STATE_STAGING : Fld := ⟨0x120018, 21, 8⟩
def F.CLV_GROUP_STATE_QUEUED : Fld := ⟨0x120018, 7, 3⟩
def F.CLV_GROUP_STATE_STATE : Fld := ⟨0x120018, 2, 0⟩
def F.CLV_OPEN_RESULT_VALID : Fld := ⟨0x120020, 44, 44⟩
def F.CLV_OPEN_RESULT_GROUP : Fld := ⟨0x120020, 43, 32⟩
def F.CLV_OPEN_RESULT_REASON : Fld := ⟨0x120020, 7, 4⟩
def F.CLV_OPEN_RESULT_STATUS : Fld := ⟨0x120020, 3, 0⟩
def F.CLV_TIMERS_HARD : Fld := ⟨0x120028, 63, 32⟩
def F.CLV_TIMERS_STRAGGLER : Fld := ⟨0x120028, 31, 0⟩
def F.CLV_STAGING_LIMIT : Fld := ⟨0x120030, 45, 32⟩
def F.CLV_STAGING_USED : Fld := ⟨0x120030, 13, 0⟩
def F.CLV_COUNT_STRAGGLERS : Fld := ⟨0x120038, 63, 48⟩
def F.CLV_COUNT_ABORTS : Fld := ⟨0x120038, 47, 32⟩
def F.CLV_COUNT_STALE : Fld := ⟨0x120038, 31, 16⟩
def F.CLV_COUNT_REFUSED_CMDS : Fld := ⟨0x120038, 15, 0⟩
def F.CLV_NAK_COUNT_CRC_NAKS : Fld := ⟨0x120040, 63, 32⟩
def F.CLV_NAK_COUNT_NOT_READY_NAKS : Fld := ⟨0x120040, 31, 0⟩
def F.RED_STATUS_STEPS_WAITING : Fld := ⟨0x110000, 15, 8⟩
def F.RED_STATUS_LANES_BUSY : Fld := ⟨0x110000, 7, 0⟩
def F.RED_COUNT_LINES : Fld := ⟨0x110008, 63, 32⟩
def F.RED_COUNT_STEPS : Fld := ⟨0x110008, 31, 0⟩
def F.RED_MX_COUNT_BLOCKS : Fld := ⟨0x110010, 63, 32⟩
def F.RED_MX_COUNT_NAN_BLOCKS : Fld := ⟨0x110010, 31, 16⟩
def F.RED_MX_COUNT_SATURATED : Fld := ⟨0x110010, 15, 0⟩
def F.RED_RIDERS_SPOILED : Fld := ⟨0x110018, 63, 32⟩
def F.RED_RIDERS_NORM_INF : Fld := ⟨0x110018, 31, 16⟩
def F.RED_RIDERS_SPOILED_RIDES : Fld := ⟨0x110018, 15, 0⟩
def F.XLT_CTX_BASE_BASE : Fld := ⟨0x140000, 43, 12⟩
def F.XLT_CTX_CMD_CMD : Fld := ⟨0x140008, 13, 12⟩
def F.XLT_CTX_CMD_CTX : Fld := ⟨0x140008, 11, 0⟩
def F.XLT_CTX_RESULT_VALID : Fld := ⟨0x140010, 44, 44⟩
def F.XLT_CTX_RESULT_CTX : Fld := ⟨0x140010, 43, 32⟩
def F.XLT_CTX_RESULT_BUSY : Fld := ⟨0x140010, 15, 15⟩
def F.XLT_CTX_RESULT_RESIDENT : Fld := ⟨0x140010, 14, 8⟩
def F.XLT_CTX_RESULT_REASON : Fld := ⟨0x140010, 7, 4⟩
def F.XLT_CTX_RESULT_STATUS : Fld := ⟨0x140010, 3, 0⟩
def F.XLT_GUARD_BASE_BASE : Fld := ⟨0x140018, 43, 12⟩
def F.XLT_GUARD_SIZE_SP_REGIONS : Fld := ⟨0x140020, 48, 32⟩
def F.XLT_GUARD_SIZE_HBM_REGIONS : Fld := ⟨0x140020, 16, 0⟩
def F.XLT_GUARD_INVAL_BUSY : Fld := ⟨0x140028, 17, 17⟩
def F.XLT_GUARD_INVAL_INDEX : Fld := ⟨0x140028, 16, 0⟩
def F.XLT_RECALL_SUBMIT_RECORD : Fld := ⟨0x140030, 43, 5⟩
def F.XLT_RECALL_STATUS_ACKED : Fld := ⟨0x140038, 63, 32⟩
def F.XLT_RECALL_STATUS_SUBMITTED : Fld := ⟨0x140038, 31, 0⟩
def F.XLT_MIGRATE_DONE_STATUS : Fld := ⟨0x140040, 7, 4⟩
def F.XLT_MIGRATE_DONE_REQ : Fld := ⟨0x140040, 3, 0⟩
def F.XLT_MIGRATE_CTRL_TIMEOUT : Fld := ⟨0x140048, 31, 0⟩
def F.XLT_HOT_CTRL_DECAY : Fld := ⟨0x140050, 39, 8⟩
def F.XLT_HOT_CTRL_THRESHOLD : Fld := ⟨0x140050, 7, 0⟩
def F.XLT_COUNT_MISSES : Fld := ⟨0x140058, 63, 32⟩
def F.XLT_COUNT_BAD_ENTRIES : Fld := ⟨0x140058, 31, 24⟩
def F.XLT_COUNT_HOT_DROPPED : Fld := ⟨0x140058, 23, 16⟩
def F.XLT_COUNT_REFUSED : Fld := ⟨0x140058, 15, 0⟩
def F.PLC_CTRL_HOMING_MOVE : Fld := ⟨0x150000, 2, 2⟩
def F.PLC_CTRL_REPLICATE : Fld := ⟨0x150000, 1, 1⟩
def F.PLC_CTRL_BALANCE : Fld := ⟨0x150000, 0, 0⟩
def F.PLC_EGRESS_LOAD_WEIGHT : Fld := ⟨0x150008, 15, 8⟩
def F.PLC_EGRESS_BRIDGE_COST : Fld := ⟨0x150008, 7, 0⟩
def F.PLC_POOL_BASE : Fld := ⟨0x150010, 54, 32⟩
def F.PLC_POOL_FRAMES : Fld := ⟨0x150010, 15, 0⟩
def F.PLC_POOL_STATUS_REPLICA : Fld := ⟨0x150018, 31, 16⟩
def F.PLC_POOL_STATUS_FREE : Fld := ⟨0x150018, 15, 0⟩
def F.PLC_FH_WINDOW_BASE : Fld := ⟨0x150020, 54, 32⟩
def F.PLC_FH_WINDOW_REGIONS : Fld := ⟨0x150020, 12, 0⟩
def F.PLC_FH_CMD_GUARD : Fld := ⟨0x150028, 63, 32⟩
def F.PLC_FH_CMD_CMD : Fld := ⟨0x150028, 29, 28⟩
def F.PLC_FH_CMD_FIRST : Fld := ⟨0x150028, 27, 16⟩
def F.PLC_FH_CMD_COUNT : Fld := ⟨0x150028, 12, 0⟩
def F.PLC_FH_STATUS_BUSY : Fld := ⟨0x150030, 63, 63⟩
def F.PLC_FH_STATUS_LAST_STATUS : Fld := ⟨0x150030, 51, 48⟩
def F.PLC_FH_STATUS_DECLARED : Fld := ⟨0x150030, 12, 0⟩
def F.PLC_MOVE_PERIOD : Fld := ⟨0x150038, 63, 32⟩
def F.PLC_MOVE_THRESHOLD : Fld := ⟨0x150038, 31, 24⟩
def F.PLC_MOVE_MARGIN : Fld := ⟨0x150038, 23, 16⟩
def F.PLC_MOVE_FINAL_BLOCKS : Fld := ⟨0x150038, 15, 8⟩
def F.PLC_MOVE_MAX_PASSES : Fld := ⟨0x150038, 7, 4⟩
def F.PLC_REPL_THRESHOLD : Fld := ⟨0x150040, 31, 24⟩
def F.PLC_REPL_MAX_REPLICAS : Fld := ⟨0x150040, 9, 0⟩
def F.PLC_COUNT_MOVES : Fld := ⟨0x150048, 63, 48⟩
def F.PLC_COUNT_ABANDONED : Fld := ⟨0x150048, 47, 32⟩
def F.PLC_COUNT_REPLICAS_MADE : Fld := ⟨0x150048, 31, 16⟩
def F.PLC_COUNT_REPLICAS_WITHDRAWN : Fld := ⟨0x150048, 15, 0⟩
def F.RTE_EPOCH_FLIP : Fld := ⟨0x100000, 0, 0⟩
def F.RTE_EPOCH_STATUS_OLD_LIVE : Fld := ⟨0x100008, 63, 48⟩
def F.RTE_EPOCH_STATUS_RETIRE_LEFT : Fld := ⟨0x100008, 44, 32⟩
def F.RTE_EPOCH_STATUS_STATE1 : Fld := ⟨0x100008, 4, 3⟩
def F.RTE_EPOCH_STATUS_STATE0 : Fld := ⟨0x100008, 2, 1⟩
def F.RTE_EPOCH_STATUS_CURRENT : Fld := ⟨0x100008, 0, 0⟩
def F.RTE_TABLE_CMD_CMD : Fld := ⟨0x100010, 2, 1⟩
def F.RTE_TABLE_CMD_TABLE : Fld := ⟨0x100010, 0, 0⟩
def F.RTE_PORT_STATE_DOZING : Fld := ⟨0x100018, 15, 8⟩
def F.RTE_PORT_STATE_DOWN : Fld := ⟨0x100018, 7, 0⟩
def F.RTE_THROTTLE_CTRL_ENABLE : Fld := ⟨0x100020, 40, 40⟩
def F.RTE_THROTTLE_CTRL_AI : Fld := ⟨0x100020, 39, 32⟩
def F.RTE_THROTTLE_CTRL_MIN_RATE : Fld := ⟨0x100020, 31, 24⟩
def F.RTE_THROTTLE_CTRL_DEFL_LIMIT : Fld := ⟨0x100020, 23, 16⟩
def F.RTE_THROTTLE_CTRL_OCC_LIMIT : Fld := ⟨0x100020, 7, 0⟩
def F.RTE_THROTTLE_STATUS_DECREASES : Fld := ⟨0x100028, 63, 32⟩
def F.RTE_THROTTLE_STATUS_RATE : Fld := ⟨0x100028, 8, 0⟩
def F.RTE_COUNT_ASSIGNED : Fld := ⟨0x100030, 63, 32⟩
def F.RTE_COUNT_DEFLECTED : Fld := ⟨0x100030, 31, 0⟩
def F.RTE_DROP_COUNT_HOP_BUDGET : Fld := ⟨0x100038, 63, 48⟩
def F.RTE_DROP_COUNT_AGE_LIMIT : Fld := ⟨0x100038, 47, 32⟩
def F.RTE_DROP_COUNT_NO_ROUTE : Fld := ⟨0x100038, 31, 16⟩
def F.RTE_DROP_COUNT_EPOCH_MISS : Fld := ⟨0x100038, 15, 0⟩
def F.RTE_LAND_STATUS_OCC5_to_OCC0 : Fld := ⟨0x100040, 53, 0⟩
def F.RTE_AGECLK_AGECLK : Fld := ⟨0x100048, 9, 0⟩
def F.RTE_SIGNPOST0_ENTRY : Fld := ⟨0x104000, 63, 0⟩
def F.RTE_SIGNPOST1_ENTRY : Fld := ⟨0x108000, 63, 0⟩
def F.LNK_STATE_LAST_CAUSE : Fld := ⟨0x80000, 19, 16⟩
def F.LNK_STATE_WIDTH : Fld := ⟨0x80000, 11, 8⟩
def F.LNK_STATE_LEADER : Fld := ⟨0x80000, 7, 7⟩
def F.LNK_STATE_STATE : Fld := ⟨0x80000, 2, 0⟩
def F.LNK_CTRL_WIDTH_REQ : Fld := ⟨0x80008, 11, 8⟩
def F.LNK_CTRL_RELEASE : Fld := ⟨0x80008, 3, 3⟩
def F.LNK_CTRL_RETRY : Fld := ⟨0x80008, 2, 2⟩
def F.LNK_CTRL_RETRAIN : Fld := ⟨0x80008, 1, 1⟩
def F.LNK_CTRL_ENABLE : Fld := ⟨0x80008, 0, 0⟩
def F.LNK_ERR_CTRL_REPLAY_PPB : Fld := ⟨0x80010, 63, 32⟩
def F.LNK_ERR_CTRL_HOT_WINDOWS : Fld := ⟨0x80010, 31, 28⟩
def F.LNK_ERR_CTRL_VIOL_LIMIT : Fld := ⟨0x80010, 27, 20⟩
def F.LNK_ERR_CTRL_RETRAIN_LIMIT : Fld := ⟨0x80010, 19, 0⟩
def F.LNK_TIMERS_REPLAY_TIMER : Fld := ⟨0x80018, 31, 16⟩
def F.LNK_TIMERS_NAK_REPEAT : Fld := ⟨0x80018, 15, 0⟩
def F.LNK_SEQ_STATUS_NEXT_SEQ : Fld := ⟨0x80020, 59, 48⟩
def F.LNK_SEQ_STATUS_ACKED : Fld := ⟨0x80020, 47, 36⟩
def F.LNK_SEQ_STATUS_EXPECTED : Fld := ⟨0x80020, 35, 24⟩
def F.LNK_SEQ_STATUS_UNACKED : Fld := ⟨0x80020, 9, 0⟩
def F.LNK_CREDIT_STATUS_CRED_TOTAL : Fld := ⟨0x80028, 63, 48⟩
def F.LNK_CREDIT_STATUS_SEEN : Fld := ⟨0x80028, 47, 32⟩
def F.LNK_CREDIT_STATUS_WINDOW : Fld := ⟨0x80028, 31, 23⟩
def F.LNK_CREDIT_STATUS_OUT : Fld := ⟨0x80028, 22, 14⟩
def F.LNK_CREDIT_STATUS_LEAKED : Fld := ⟨0x80028, 8, 0⟩
def F.LNK_WINDOW_STATUS_HOT_RUN : Fld := ⟨0x80030, 43, 40⟩
def F.LNK_WINDOW_STATUS_VIOLS : Fld := ⟨0x80030, 39, 32⟩
def F.LNK_WINDOW_STATUS_REPLAYS : Fld := ⟨0x80030, 31, 20⟩
def F.LNK_WINDOW_STATUS_SENT : Fld := ⟨0x80030, 19, 0⟩
def F.LNK_FRAME_COUNT_FRAMES_TX : Fld := ⟨0x80038, 63, 32⟩
def F.LNK_FRAME_COUNT_FRAMES_RX : Fld := ⟨0x80038, 31, 0⟩
def F.LNK_ERR_COUNT_CORRECTED : Fld := ⟨0x80040, 63, 32⟩
def F.LNK_ERR_COUNT_REPLAY_EVENTS : Fld := ⟨0x80040, 31, 16⟩
def F.LNK_ERR_COUNT_BAD_FRAMES : Fld := ⟨0x80040, 15, 0⟩
def F.LNK_REPLAY_COUNT_FRAMES_REPLAYED : Fld := ⟨0x80048, 63, 32⟩
def F.LNK_REPLAY_COUNT_DUPLICATES : Fld := ⟨0x80048, 31, 16⟩
def F.LNK_REPLAY_COUNT_NAKS_SENT : Fld := ⟨0x80048, 15, 0⟩
def F.LNK_VIOL_COUNT_CLASS5_to_CLASS0 : Fld := ⟨0x80050, 47, 0⟩
def F.LNK_VIOL_LAST_TICK : Fld := ⟨0x80058, 63, 32⟩
def F.LNK_VIOL_LAST_CLASS : Fld := ⟨0x80058, 2, 0⟩
def F.LNK_RETRAIN_STATUS_LAST_TICK : Fld := ⟨0x80060, 63, 32⟩
def F.LNK_RETRAIN_STATUS_FAILS : Fld := ⟨0x80060, 31, 24⟩
def F.LNK_RETRAIN_STATUS_VIOL_RETRAINS : Fld := ⟨0x80060, 23, 16⟩
def F.LNK_RETRAIN_STATUS_RETRAINS : Fld := ⟨0x80060, 15, 0⟩
def F.LNK_PARTNER_NODE : Fld := ⟨0x80068, 27, 13⟩
def F.LNK_PARTNER_SEG : Fld := ⟨0x80068, 12, 10⟩
def F.LNK_PARTNER_PORT : Fld := ⟨0x80068, 9, 7⟩
def F.LNK_PARTNER_DEV_DEVNUM : Fld := ⟨0x80070, 63, 0⟩
def F.LNK_TIMING_RTT : Fld := ⟨0x80078, 23, 8⟩
def F.LNK_TIMING_LINK_UNITS : Fld := ⟨0x80078, 7, 0⟩
def F.LNK_SEAL_CTRL_CMD : Fld := ⟨0x80080, 19, 18⟩
def F.LNK_SEAL_CTRL_SLOT : Fld := ⟨0x80080, 17, 12⟩
def F.LNK_SEAL_CTRL_CTX : Fld := ⟨0x80080, 11, 0⟩
def F.LNK_SEAL_STATUS_ARMED : Fld := ⟨0x80088, 63, 0⟩
def F.LNK_SEAL_COUNT_RUNS : Fld := ⟨0x80090, 63, 32⟩
def F.LNK_SEAL_COUNT_TRAILERS : Fld := ⟨0x80090, 31, 16⟩
def F.LNK_SEAL_COUNT_NO_SLOT_DROPS : Fld := ⟨0x80090, 15, 8⟩
def F.LNK_SEAL_COUNT_TAG_FAILS : Fld := ⟨0x80090, 7, 0⟩
def F.LNK_DROP_COUNT_SYNTH_SENT : Fld := ⟨0x80098, 31, 16⟩
def F.LNK_DROP_COUNT_COLLECTIVE_DROPPED : Fld := ⟨0x80098, 15, 0⟩
def F.LNE_CFG_FLASK_EN : Fld := ⟨0x81000, 7, 7⟩
def F.LNE_CFG_HUSH_EN : Fld := ⟨0x81000, 6, 6⟩
def F.LNE_CFG_ROTATE_EN : Fld := ⟨0x81000, 5, 5⟩
def F.LNE_CFG_RATE : Fld := ⟨0x81000, 1, 0⟩
def F.LNE_TRAIN_CTRL_PRBS_TICKS : Fld := ⟨0x81008, 47, 32⟩
def F.LNE_TRAIN_CTRL_PRBS_LIMIT : Fld := ⟨0x81008, 31, 24⟩
def F.LNE_TRAIN_CTRL_TAP_TICKS : Fld := ⟨0x81008, 11, 0⟩
def F.LNE_TRAIN_STATUS_FAIL : Fld := ⟨0x81010, 63, 60⟩
def F.LNE_TRAIN_STATUS_GOOD : Fld := ⟨0x81010, 59, 51⟩
def F.LNE_TRAIN_STATUS_INVERTED : Fld := ⟨0x81010, 50, 42⟩
def F.LNE_TRAIN_STATUS_REVERSED : Fld := ⟨0x81010, 41, 41⟩
def F.LNE_TRAIN_STATUS_PHASE : Fld := ⟨0x81010, 40, 38⟩
def F.LNE_TRAIN_STATUS_RESTARTS : Fld := ⟨0x81010, 37, 32⟩
def F.LNE_TRAIN_STATUS_LAST_TICK : Fld := ⟨0x81010, 31, 0⟩
def F.LNE_MAP_TX_CAL : Fld := ⟨0x81018, 39, 36⟩
def F.LNE_MAP_TX_SPARE : Fld := ⟨0x81018, 35, 32⟩
def F.LNE_MAP_TX_LOGICAL7_to_LOGICAL0 : Fld := ⟨0x81018, 31, 0⟩
def F.LNE_ROTATE_PERIOD : Fld := ⟨0x81028, 63, 32⟩
def F.LNE_ROTATE_CAL_PRBS_TICKS : Fld := ⟨0x81028, 31, 16⟩
def F.LNE_ROTATE_CAL_LIMIT : Fld := ⟨0x81028, 15, 0⟩
def F.LNE_ROTATE_STATUS_HANDOVERS : Fld := ⟨0x81030, 63, 40⟩
def F.LNE_ROTATE_STATUS_CAL_FAILS : Fld := ⟨0x81030, 39, 32⟩
def F.LNE_ROTATE_STATUS_STEP_RX : Fld := ⟨0x81030, 6, 4⟩
def F.LNE_ROTATE_STATUS_STEP_TX : Fld := ⟨0x81030, 2, 0⟩
def F.LNE_PWR_STATE_RX_STATE : Fld := ⟨0x81038, 6, 4⟩
def F.LNE_PWR_STATE_TX_STATE : Fld := ⟨0x81038, 2, 0⟩
def F.LNE_PWR_CTRL_KETTLE_PACE : Fld := ⟨0x81040, 31, 24⟩
def F.LNE_PWR_CTRL_KETTLE_ENTRY : Fld := ⟨0x81040, 23, 8⟩
def F.LNE_PWR_CTRL_WAKE : Fld := ⟨0x81040, 2, 2⟩
def F.LNE_PWR_CTRL_FLASK : Fld := ⟨0x81040, 1, 1⟩
def F.LNE_PWR_CTRL_DOZE : Fld := ⟨0x81040, 0, 0⟩
def F.LNE_PWR_COUNT_DOZE_ENTRIES : Fld := ⟨0x81048, 63, 48⟩
def F.LNE_PWR_COUNT_FLASK_ENTRIES : Fld := ⟨0x81048, 47, 32⟩
def F.LNE_PWR_COUNT_FLASK_REFUSED : Fld := ⟨0x81048, 31, 16⟩
def F.LNE_PWR_COUNT_RELOCK_FAILS : Fld := ⟨0x81048, 15, 0⟩
def F.LNE_TAPS_MAIN : Fld := ⟨0x81100, 23, 16⟩
def F.LNE_TAPS_POST : Fld := ⟨0x81100, 15, 8⟩
def F.LNE_TAPS_PRE : Fld := ⟨0x81100, 7, 0⟩
def F.LNE_LANE_ERR_SYNC_BAD : Fld := ⟨0x81200, 63, 32⟩
def F.LNE_LANE_ERR_PRBS_ERR : Fld := ⟨0x81200, 31, 16⟩
def F.LNE_LANE_ERR_CAL_FAILS : Fld := ⟨0x81200, 15, 8⟩
def F.LNE_LANE_ERR_FAILED : Fld := ⟨0x81200, 0, 0⟩
def F.PWR_DOMAIN_STATE_AWAKE : Fld := ⟨0x10000, 34, 0⟩
def F.PWR_DOMAIN_REQ_REQ : Fld := ⟨0x10008, 34, 0⟩
def F.PWR_HOLD_HOLD : Fld := ⟨0x10010, 34, 1⟩
def F.PWR_CTRL_WAKE_LIMIT : Fld := ⟨0x10018, 63, 32⟩
def F.PWR_CTRL_SLEEP_IDLE : Fld := ⟨0x10018, 31, 0⟩
def F.PWR_WAKE_COUNT_WAKES : Fld := ⟨0x10020, 63, 32⟩
def F.PWR_WAKE_COUNT_ACK_TIMEOUTS : Fld := ⟨0x10020, 31, 16⟩
def F.PWR_WAKE_COUNT_LOST : Fld := ⟨0x10020, 15, 0⟩
def F.PWR_TIMER_K_TICK : Fld := ⟨0x10028, 63, 0⟩
def F.PWR_TIMER_S_TICK : Fld := ⟨0x10030, 63, 0⟩
def F.PWR_EST_AVG : Fld := ⟨0x10038, 31, 16⟩
def F.PWR_EST_NOW : Fld := ⟨0x10038, 15, 0⟩
def F.PWR_RAMP_SLOPE : Fld := ⟨0x10040, 31, 16⟩
def F.PWR_RAMP_CLASS : Fld := ⟨0x10040, 1, 0⟩
def F.PWR_RAMP_STATUS_FORCED : Fld := ⟨0x10048, 63, 48⟩
def F.PWR_RAMP_STATUS_LIMITED : Fld := ⟨0x10048, 47, 32⟩
def F.PWR_RAMP_STATUS_LIMITING : Fld := ⟨0x10048, 16, 16⟩
def F.PWR_RAMP_STATUS_CEILING : Fld := ⟨0x10048, 15, 0⟩
def F.PWR_STILE_SPREAD : Fld := ⟨0x10050, 18, 0⟩
def F.PWR_STILE_SALT_SALT : Fld := ⟨0x10058, 31, 0⟩
def F.PWR_STILE_STATUS_NEXT_RELEASE : Fld := ⟨0x10060, 63, 32⟩
def F.PWR_STILE_STATUS_PENDING : Fld := ⟨0x10060, 10, 0⟩
def F.PWR_KETTLE_HOLD : Fld := ⟨0x10068, 63, 32⟩
def F.PWR_KETTLE_FLASK_AFTER : Fld := ⟨0x10068, 31, 0⟩
def F.PWR_KETTLE_GAP_STEP_GAP : Fld := ⟨0x10070, 31, 0⟩
def F.PWR_PACE_LEAD : Fld := ⟨0x10078, 23, 16⟩
def F.PWR_PACE_OWN : Fld := ⟨0x10078, 15, 8⟩
def F.PWR_PACE_HINT : Fld := ⟨0x10078, 7, 0⟩
def F.PWR_PACE_CTRL_HORIZON : Fld := ⟨0x10080, 63, 32⟩
def F.PWR_PACE_CTRL_RELEASE_LEVEL : Fld := ⟨0x10080, 31, 24⟩
def F.PWR_PACE_CTRL_DELTA : Fld := ⟨0x10080, 23, 16⟩
def F.PWR_PACE_CTRL_ENABLE : Fld := ⟨0x10080, 7, 7⟩
def F.PWR_PACE_CTRL_CHANNEL : Fld := ⟨0x10080, 5, 0⟩
def F.HMP_STATUS_FENCED : Fld := ⟨0x130000, 35, 24⟩
def F.HMP_STATUS_FREE_BLOCKS : Fld := ⟨0x130000, 13, 0⟩
def F.HMP_FENCE_CTRL_CMD : Fld := ⟨0x130008, 13, 12⟩
def F.HMP_FENCE_CTRL_BANK : Fld := ⟨0x130008, 3, 0⟩
def F.HMP_INVAL_BANKS : Fld := ⟨0x130010, 11, 0⟩
def F.HMP_CTRL_ROW_LIMIT : Fld := ⟨0x130018, 7, 0⟩
def F.HMP_CRC_COUNT_FAILS : Fld := ⟨0x130020, 63, 32⟩
def F.HMP_CRC_COUNT_REFETCHED : Fld := ⟨0x130020, 31, 16⟩
def F.HMP_CRC_COUNT_POISONED : Fld := ⟨0x130020, 15, 0⟩
def F.HMP_CRIT_CORRECTED : Fld := ⟨0x130028, 47, 32⟩
def F.HMP_CRIT_LOST : Fld := ⟨0x130028, 16, 16⟩
def F.HMP_CRIT_BANK_C : Fld := ⟨0x130028, 11, 8⟩
def F.HMP_CRIT_BANK_B : Fld := ⟨0x130028, 7, 4⟩
def F.HMP_CRIT_BANK_A : Fld := ⟨0x130028, 3, 0⟩
def F.HMP_CRIT_WORD_LOST : Fld := ⟨0x130030, 21, 16⟩
def F.HMP_CRIT_WORD_DISAGREE : Fld := ⟨0x130030, 5, 0⟩
def F.HMP_BIST_DONE : Fld := ⟨0x130038, 63, 63⟩
def F.HMP_BIST_PASS : Fld := ⟨0x130038, 62, 62⟩
def F.HMP_BIST_BANK_FAIL : Fld := ⟨0x130038, 61, 50⟩
def F.HMP_BIST_CHECKER_FAIL : Fld := ⟨0x130038, 49, 38⟩
def F.HMP_BIST_VOTER_FAIL : Fld := ⟨0x130038, 37, 37⟩
def F.HMP_BIST_TICKS : Fld := ⟨0x130038, 31, 0⟩
def F.HMP_BANK_STATUS_LAST_FAIL_TICK : Fld := ⟨0x130100, 63, 32⟩
def F.HMP_BANK_STATUS_LAST_ROW : Fld := ⟨0x130100, 31, 22⟩
def F.HMP_BANK_STATUS_CRC_FAILS : Fld := ⟨0x130100, 15, 8⟩
def F.HMP_BANK_STATUS_SPARES_USED : Fld := ⟨0x130100, 7, 4⟩
def F.HMP_BANK_STATUS_STATE : Fld := ⟨0x130100, 2, 0⟩
def F.HMP_REMAP_SPARE3_to_SPARE0_SPARE7_to_SPARE4 : Fld := ⟨0x130200, 63, 0⟩
def F.FLT_STATUS_RAISED : Fld := ⟨0x20000, 63, 32⟩
def F.FLT_STATUS_SUPP_FULL : Fld := ⟨0x20000, 10, 10⟩
def F.FLT_STATUS_OVERFLOW : Fld := ⟨0x20000, 9, 9⟩
def F.FLT_STATUS_PENDING : Fld := ⟨0x20000, 8, 0⟩
def F.FLT_HEAD_HEAD : Fld := ⟨0x20008, 15, 0⟩
def F.FLT_TAIL_TAIL : Fld := ⟨0x20010, 15, 0⟩
def F.FLT_CTRL_IRQ_LINE : Fld := ⟨0x20018, 15, 12⟩
def F.FLT_CTRL_IRQ_SEV : Fld := ⟨0x20018, 9, 8⟩
def F.FLT_SUPP_CLEAR : Fld := ⟨0x20020, 16, 16⟩
def F.FLT_SUPP_ENTRIES : Fld := ⟨0x20020, 10, 0⟩
def F.FLT_POST_SEV : Fld := ⟨0x20028, 33, 32⟩
def F.FLT_POST_INFO : Fld := ⟨0x20028, 31, 0⟩
def F.FLT_OVF_PENDING_CLASSES : Fld := ⟨0x20030, 31, 0⟩
def F.FLT_KD_CMD_CMD : Fld := ⟨0x20038, 17, 16⟩
def F.FLT_KD_CMD_NODE : Fld := ⟨0x20038, 14, 0⟩
def F.FLT_KD_STATUS_VERSION : Fld := ⟨0x20040, 63, 32⟩
def F.FLT_KD_STATUS_COUNT : Fld := ⟨0x20040, 15, 0⟩
def F.FLT_OVF_COUNT_COUNT : Fld := ⟨0x20400, 31, 0⟩
def F.FLT_OVF_FIRST_TICK : Fld := ⟨0x20408, 63, 0⟩
def F.FLT_OVF_LAST_TICK : Fld := ⟨0x20410, 63, 0⟩
def F.FLT_REC_RECORD : Fld := ⟨0x21000, 63, 0⟩
def F.FLT_KD_MAP_BITS : Fld := ⟨0x28000, 63, 0⟩
def F.KPR_STATE_STEWARD_SVN : Fld := ⟨0x40000, 47, 32⟩
def F.KPR_STATE_KEEPER_SVN : Fld := ⟨0x40000, 31, 16⟩
def F.KPR_STATE_SECURE : Fld := ⟨0x40000, 7, 7⟩
def F.KPR_STATE_DEBUG : Fld := ⟨0x40000, 6, 6⟩
def F.KPR_STATE_TRANSITION : Fld := ⟨0x40000, 5, 5⟩
def F.KPR_STATE_UPDATING : Fld := ⟨0x40000, 4, 4⟩
def F.KPR_STATE_STRAP_ERR : Fld := ⟨0x40000, 3, 3⟩
def F.KPR_STATE_STATE : Fld := ⟨0x40000, 2, 0⟩
def F.KPR_DEVNUM_DEVNUM : Fld := ⟨0x40008, 63, 0⟩
def F.KPR_UPDATE_EST : Fld := ⟨0x40010, 31, 0⟩
def F.KPR_SEAL_SERIAL_SERIAL : Fld := ⟨0x40018, 63, 0⟩
def F.KPR_FENCE_SHARE : Fld := ⟨0x40020, 31, 28⟩
def F.KPR_FENCE_PORTS : Fld := ⟨0x40020, 21, 16⟩
def F.KPR_FENCE_CTX : Fld := ⟨0x40020, 11, 0⟩
def F.KPR_SLOT_LOST_LOST : Fld := ⟨0x40028, 63, 0⟩
def F.KPR_COUNT_QUOTES : Fld := ⟨0x40030, 63, 48⟩
def F.KPR_COUNT_LOADS : Fld := ⟨0x40030, 47, 32⟩
def F.KPR_COUNT_REFUSED : Fld := ⟨0x40030, 31, 16⟩
def F.KPR_COUNT_ERR_DROPPED : Fld := ⟨0x40030, 15, 0⟩
def F.KPR_HOST_CTX : Fld := ⟨0x40038, 12, 1⟩
def F.KPR_HOST_OPEN : Fld := ⟨0x40038, 0, 0⟩
def F.KPR_SLOT_LOST : Fld := ⟨0x40100, 31, 31⟩
def F.KPR_SLOT_CTX : Fld := ⟨0x40100, 27, 16⟩
def F.KPR_SLOT_KIND : Fld := ⟨0x40100, 7, 0⟩
def F.KPR_SEAL_MAP_BITS : Fld := ⟨0x41000, 63, 0⟩
def F.SEG_BOOT_FAIL : Fld := ⟨0x300, 47, 40⟩
def F.SEG_BOOT_KEEPER_NEXT : Fld := ⟨0x300, 32, 32⟩
def F.SEG_BOOT_STEWARD_READY : Fld := ⟨0x300, 31, 31⟩
def F.SEG_BOOT_GO : Fld := ⟨0x300, 30, 30⟩
def F.SEG_BOOT_ACTIVE : Fld := ⟨0x300, 25, 24⟩
def F.SEG_BOOT_SOURCE : Fld := ⟨0x300, 17, 16⟩
def F.SEG_BOOT_STAGE : Fld := ⟨0x300, 3, 0⟩
def F.SEG_BOOT_AREA_BASE : Fld := ⟨0x308, 43, 24⟩
def F.SEG_RESET_SCRUB_LIMIT : Fld := ⟨0x310, 63, 32⟩
def F.SEG_RESET_DOMAIN : Fld := ⟨0x310, 13, 8⟩
def F.SEG_RESET_CMD : Fld := ⟨0x310, 1, 0⟩
def F.SEG_IRQ_STATUS_FATAL : Fld := ⟨0x318, 16, 16⟩
def F.SEG_IRQ_STATUS_LINES : Fld := ⟨0x318, 15, 0⟩
def F.SEG_IRQ_MASK_MASK : Fld := ⟨0x320, 15, 0⟩
def F.MBX_CFG_TIMEOUT : Fld := ⟨0x30000, 55, 32⟩
def F.MBX_CFG_SEND_MASK : Fld := ⟨0x30000, 31, 16⟩
def F.MBX_CFG_IRQ_LINE : Fld := ⟨0x30000, 15, 12⟩
def F.MBX_CFG_IRQ_EN : Fld := ⟨0x30000, 11, 11⟩
def F.MBX_CFG_RECV_CLASS : Fld := ⟨0x30000, 3, 0⟩
def F.MBX_PTR_PTR : Fld := ⟨0x30008, 63, 0⟩
def F.MBX_SEND_NOTICE : Fld := ⟨0x30010, 15, 0⟩
def F.MBX_RECV_SENDER : Fld := ⟨0x30018, 39, 16⟩
def F.MBX_RECV_NOTICE : Fld := ⟨0x30018, 15, 0⟩
def F.MBX_ACK_CODE : Fld := ⟨0x30020, 15, 0⟩
def F.MBX_STATUS_ACK_CODE : Fld := ⟨0x30028, 47, 32⟩
def F.MBX_STATUS_REFUSED : Fld := ⟨0x30028, 31, 16⟩
def F.MBX_STATUS_STATE : Fld := ⟨0x30028, 2, 0⟩
def F.TEL_CTRL_PERIOD : Fld := ⟨0x1F0000, 63, 32⟩
def F.TEL_CTRL_SNAP : Fld := ⟨0x1F0000, 0, 0⟩
def F.TEL_SNAP_TICK_TICK : Fld := ⟨0x1F0008, 63, 0⟩
def F.TEL_SNAP_SEQ_SEQ : Fld := ⟨0x1F0010, 31, 0⟩
def F.TEL_ENERGY_ENERGY : Fld := ⟨0x1F0018, 63, 0⟩
def F.TEL_INJECT_FLITS : Fld := ⟨0x1F0020, 63, 0⟩
def F.TEL_EJECT_FLITS : Fld := ⟨0x1F0028, 63, 0⟩
def F.TEL_DEFLECT_FLITS : Fld := ⟨0x1F0030, 63, 0⟩
def F.TEL_RED_LINES_LINES : Fld := ⟨0x1F0038, 63, 0⟩
def F.TEL_TICKETS_TICKETS : Fld := ⟨0x1F0040, 63, 0⟩
def F.TEL_PORT_TX_FLITS : Fld := ⟨0x1F0100, 63, 0⟩
def F.TEL_PORT_RX_FLITS : Fld := ⟨0x1F0108, 63, 0⟩

end Sys2Proof.Machine
end

