-- ==== Sys2Proof/Machine/State.lean ====
section
/-! DEFINITION. The state of the block: one package of segments, as plain data. -/

namespace Sys2Proof.Machine

open Sys2Proof

/-! ## Memories and registers -/

/-- A byte memory: addresses strictly rising, no entry equal to what an unlisted address reads as. -/
abbrev Memory := List Host.Cell

/-- The writable register fields that differ from their reset values: offset and 64-bit word, one entry an offset. -/
abbrev RegMap := List (Nat × Word)

/-- What the last control access of an agent returned: a completion status and the data of a read (R13, R575). -/
structure Access where
  status : BitVec 4
  data : Word
  deriving DecidableEq, Repr, Inhabited

/-- The bits [63:32] captured by an agent's 32-bit read of bits [31:0] (R575). -/
structure Capture where
  agent : Agent
  off : Nat
  high : BitVec 32
  cycle : Nat
  deriving DecidableEq, Repr, Inhabited

/-- A record that a ring of R167 takes: its 16 bytes, the line raised once it is written, whether it ends a trail. -/
structure RingRec where
  bytes : List Byte
  irq : Option Nat := none
  last : Bool := false
  deriving DecidableEq, Repr, Inhabited

/-- A part of a ring that lies elsewhere: first byte of the ring, length, and its place (space and offset). -/
structure RingPart where
  off : Nat
  len : Nat
  space : Nat
  at_ : Nat
  deriving DecidableEq, Repr, Inhabited

/-- A completion ring (R166, R167): base (or the parts it is made of, through the ranges of its context), consumer index address, log2 of its records, records written, the consumer
index last read, records that wait for space, and the episode of a full ring. -/
structure Ring where
  base : Nat := 0
  parts : List RingPart := []
  head : Nat := 0
  headSpace : Nat := 0
  log2 : Nat := 4
  written : Nat := 0
  headSeen : Nat := 0
  waiting : List RingRec := []
  fullSince : Option Nat := none
  fullFault : Bool := false
  pollAt : Option Nat := none
  deriving DecidableEq, Repr, Inhabited

/-! ## Chapter 01: bridge and die port -/

/-- The states of a bridge link (Table 1.5). -/
inductive BridgeState where
  | training | up | contained | down
  deriving DecidableEq, Repr, Inhabited

/-- A flit within a segment's queues: the egress port the blanket gave it (R309, R332: segment and port), the
signpost entry its lookup read, the cycle from which it may move, the agent index of its key (R340), the burst or
chunk whose flits leave by one port (R309; 0 for a flit on its own), and whether it has been looked up (not while it crosses a bridge
link, R332). `counted` marks a request that has been counted where it landed (R324). -/
structure BFlit where
  flit : Flit
  egress : Option (Nat × Nat) := none
  entry : Word := 0x3FFFFFFF
  at_ : Nat := 0
  key : Nat := 0
  burst : Nat := 0
  staged : Bool := false
  looked : Bool := true
  counted : Bool := false
  deriving DecidableEq, Repr, Inhabited

/-- One end of one bridge link (R27 to R33): `due` holds the cycles at which credits come back, `partnerLanded` the partner's
reset message with the tick it arrives, `resetStart` the tick the contained reset began, `settled` that R30 has been applied. -/
structure BridgeEnd where
  st : BridgeState := .training
  parityErr : Bool := false
  failLane : BitVec 8 := 0
  lastReset : BitVec 32 := 0
  resetCount : BitVec 8 := 0
  credits : Nat := 64
  sentTotal : BitVec 16 := 0
  landedTotal : BitVec 16 := 0
  sent : List BFlit := []
  landing : List BFlit := []
  due : List Nat := []
  resetTicks : List Nat := []
  partnerLanded : Option (Nat × BitVec 16) := none
  resetStart : Option Nat := none
  settled : Bool := false
  goingDown : Bool := false
  deriving DecidableEq, Repr, Inhabited

/-- The party a reply goes to: node, segment, context and tag of the original requester (R48). -/
structure ReplyTo where
  node : BitVec 15
  seg : BitVec 3
  ctx : BitVec 12
  tag : BitVec 16
  deriving DecidableEq, Repr, Inhabited

/-- What the result of one line of a request is for, at the requester. -/
inductive LineUse where
  | src (job : Nat) (line : Nat)
  | dst (job : Nat)
  | cpy (job : Nat)
  | atomRes (desc : Nat)
  | dptRead (ch : Bool) (id : BitVec 12) (addr : Word) (size : Nat)
  | dptCtl (ch : Bool) (id : BitVec 12) (addr : Word) (size : Nat) (write : Bool)
  | posts (ids : List Nat)
  | ctl (core : Nat)
  deriving DecidableEq, Repr, Inhabited

/-- What a master-channel access of the die port is for. -/
inductive DpmUse where
  | homeRead (r : ReplyTo) (burst : Nat)
  | homeWrite (r : ReplyTo)
  | atomFill
  | atomBack (f : Flit) (old : List Byte) (st : BitVec 4)
  | cpyRead (r : ReplyTo) (dst : Word) (burst : Nat) (bad : Option BadLine)
  | req (id : Nat) (idx : Nat)
  | contrib (grp : BitVec 12) (serial : BitVec 32) (c : Nat)
  deriving DecidableEq, Repr, Inhabited

/-- An access of the die-port master channels (R35 to R39). `space` and `addr` name the line. `out` says that it has transferred: an
access waits while no identifier is free (R37), and a write-back of an atomic behind the one before it to its line (R76). -/
structure DpmReq where
  ch : Nat
  id : BitVec 12
  space : BitVec 2
  addr : Nat
  write : Option (List Bool × List Byte)
  use : DpmUse
  tick : Nat
  out : Bool := true
  since : Nat := 0
  deriving DecidableEq, Repr, Inhabited

/-- A response driven on a target channel: channel, identifier, status and data lanes (Table 1.6). -/
structure DptRsp where
  ch : Bool
  id : BitVec 12
  status : BitVec 4
  data : List Byte
  taken : Bool := false
  deriving DecidableEq, Repr, Inhabited

/-! ## Chapter 02: transactions -/

/-- The state of a tag that is not free (R54 to R60). -/
inductive TagState where
  | held (req : Nat) (idx : Nat) (ctx : BitVec 12) (doubted : Bool) (refetched : Bool)
  | quarantined (until_ : Nat)
  deriving DecidableEq, Repr, Inhabited

/-- The agent a request belongs to for tag allocation (R54, R55). -/
inductive ReqAgent where
  | courier (c : Nat)
  | dpt (ch : Bool)
  deriving DecidableEq, Repr, Inhabited

/-- A request of the segment: waiting to leave, or outstanding (R55 to R58, R90). `line` is the first line's
global address divided by 128, `base` its first tag once it holds tags, `sentTick` the tick it was injected or went to the master
channels; `unguarded` says that it awaits the guard word of its region (R295). -/
structure Req where
  id : Nat
  kind : BitVec 5
  ctx : BitVec 12
  agent : ReqAgent
  line : Nat
  len : Nat
  payload : List Byte
  mask : List Bool := []
  uses : List LineUse
  left : List Nat
  base : Option Nat := none
  sentTick : Option Nat := none
  ord : Nat := 0
  turns : Nat := 0
  retryAt : Option Nat := none
  ready : Nat := 0
  unguarded : Bool := false
  deriving DecidableEq, Repr, Inhabited

/-- A posted target-channel write: the merged writes that still carry its bytes (R71). -/
structure Post where
  id : Nat
  ctx : BitVec 12
  parts : Nat
  status : BitVec 4
  deriving DecidableEq, Repr, Inhabited

/-- An entry of the merge buffer (R69): its line of the hamper among the 64 of the buffer, the offsets written with the posted write
that each came from, and the offsets that DPT1 wrote in a cycle. -/
structure MergeEntry where
  line : Nat
  ctx : BitVec 12
  first : Nat
  slot : Nat := 0
  bytes : List (Nat × Nat)
  late : List Nat := []
  lateAt : Nat := 0
  deriving DecidableEq, Repr, Inhabited

/-- A flush of a target channel's access in its own cycle (R69, R70): the read that made it, or none where a write completed the
entry; the entries flushed, each with the bytes of its line; the request numbers that the flush and the read took; and the cycle. -/
structure DptReading where
  line : Nat
  req : Option DptReq
  entries : List (MergeEntry × List Byte)
  from_ : Nat
  upto : Nat
  at_ : Nat
  deriving DecidableEq, Repr, Inhabited

/-- The fence state of a context (R71). -/
structure FenceSt where
  ctx : BitVec 12
  failed : Nat
  first : BitVec 4
  deriving DecidableEq, Repr, Inhabited

/-- A read of SEG_FENCE that waits for earlier posted writes (R71). -/
structure FenceRead where
  ch : Bool
  id : BitVec 12
  ctx : BitVec 12
  waits : List Nat
  sz : Sz := .w64
  deriving DecidableEq, Repr, Inhabited

/-- A request in the home's queue (R64): with the cycle and ejection slot, and whether a move holds it (R321). -/
structure HomeReq where
  flit : Flit
  cycle : Nat
  slot : Nat
  held : Bool := false
  deriving DecidableEq, Repr, Inhabited

/-- A line of the atomic line cache (R76): its place (space and line of this segment's memory), its data, absent while
the line is read, the cycle in which an atomic was last applied, and a failed hamper line that is read again (R468). -/
structure AtomLine where
  space : Nat
  addr : Nat
  data : Option (List Byte)
  at_ : Option Nat
  bad : Option BadLine
  deriving DecidableEq, Repr, Inhabited

/-! ## Chapter 03: cores, tally slots, descriptors -/

/-- The states of a core (Table 3.13). -/
inductive CoreState where
  | idle | running | waiting | saving | clearing | asleep | stopped
  deriving DecidableEq, Repr, Inhabited

/-- Who owns tally slots: a ticket, the keeper (16) or the steward (17) (R117). -/
inductive Owner where
  | ticket (n : Nat)
  | core (c : Nat)
  deriving DecidableEq, Repr, Inhabited

/-- The states of a tally slot (R117). -/
inductive SlotState where
  | idle | busy | done
  deriving DecidableEq, Repr, Inhabited

/-- What a slot holds. -/
inductive SlotKind where
  | work | cjoin (gated : Bool) (grp : BitVec 12) (opId : Nat) | round (grp : BitVec 12) (opId : Nat)
  deriving DecidableEq, Repr, Inhabited

/-- A tally slot (R117, Table 3.6). -/
structure Slot where
  st : SlotState := .idle
  kind : SlotKind := .work
  status : BitVec 4 := 0
  failed : Nat := 0
  result : Word := 0
  norm : BitVec 32 := 0
  spoil : Word := 0
  lines : Nat := 0
  deriving DecidableEq, Repr, Inhabited

/-- Where a stalled issue stands with fault-and-migrate (R307, R308): a table search is due, a page waits for a request number,
the driver is asked, the driver has answered for a page, or has refused it. -/
inductive MigWait where
  | none | needs (page : Nat) | asked (page req : Nat) | answered (page : Nat) | refused (status : BitVec 4)
  deriving DecidableEq, Repr, Inhabited

/-- An issue that stalls (R118, R120, R196, R307): its opcode and fields, where it stands with fault-and-migrate, the context
addresses that searches found uncovered, whether it lacks only room in the descriptor store or in its queue, and the cycle in
which it began. -/
structure Stall where
  op : BitVec 8
  f : IFields
  start : Nat
  mig : MigWait := .none
  unc : List Nat := []
  held : Bool := false
  deriving DecidableEq, Repr, Inhabited

/-- Why a core waits, with what it needs to go on. A FENCE has its selector; `sig` is the issue of a SIG that waits as one (R132). -/
inductive Wait where
  | waits (va : Word) (addr : Nat) (val : Word) (pd : BitVec 5) (deadline : Option Nat) (due : Nat)
  | waite (mask : BitVec 16) (any : Bool) (pd : BitVec 5) (deadline : Option Nat)
  | fence (serials : List Nat) (sel : Nat) (sig : Option Stall)
  | ctl (d : Option (BitVec 5))
  | issue (x : Stall)
  deriving DecidableEq, Repr, Inhabited

/-- The state of a core (Table 3.2), its lunchbox, and its bookkeeping: `stallCycles` are the stall cycles not yet counted in
CUR_COUNT.STALLS. -/
structure Core where
  g : List Word := List.replicate 32 0
  p : BitVec 8 := 1
  pc : BitVec 32 := 0
  rs : List (BitVec 32) := []
  ctx : BitVec 12 := 0
  lb : Memory := []
  lbBad : List Nat := []
  st : CoreState := .idle
  wait : Option Wait := none
  handler : Bool := false
  epc : BitVec 32 := 0
  excPc : BitVec 32 := 0
  excOp : BitVec 8 := 0
  excCode : BitVec 4 := 0
  excInfo : Word := 0
  ticket : Option Nat := none
  lastCtx : Option (BitVec 12) := none
  slots : List Slot := List.replicate 16 {}
  startTick : Nat := 0
  icache : List Nat := []
  icinv : Bool := false
  codeBase : BitVec 28 := 0
  codeLimit : BitVec 32 := 0
  stopPending : Bool := false
  stallCycles : Nat := 0
  deriving DecidableEq, Repr, Inhabited

/-- A piece of a translated side: context address, length, global address (R120), whether its entry has COUNT, and the first
context address and the length of that entry. -/
structure Piece where
  va : Nat
  len : Nat
  ga : Nat
  count : Bool := false
  entVa : Nat := 0
  entLen : Nat := 0
  deriving DecidableEq, Repr, Inhabited

/-- An axis of a shape descriptor (Table 4.10). -/
structure Axis where
  srcExt : Nat
  dstExt : Nat
  win : Nat
  tile : Nat
  srcOrg : Int
  dstOrg : Nat
  srcStride : Int
  dstStride : Int
  deriving DecidableEq, Repr, Inhabited

/-- A shape descriptor (Table 4.9) with its run-time counts (R181). -/
structure Shape where
  elem : Nat
  pad : Nat
  srcBase : Nat
  dstBase : Nat
  sigAddr : Option Nat
  padValue : List Byte
  axes : List Axis
  counts : List Nat
  deriving DecidableEq, Repr, Inhabited

/-- One side of a linear move: a lunchbox offset or a translated context span. -/
inductive Side where
  | lunchbox (off : Nat)
  | span (va : Nat) (pieces : List Piece)
  deriving DecidableEq, Repr, Inhabited

/-- What a busy descriptor does. A linear move carries its opcode: 0x50 GET, 0x51 PUT, 0x52 COPY. -/
inductive Body where
  | move (op : Nat) (src dst : Side) (len : Nat) (relay : Bool)
  | shape (s : Shape) (src dst : List Piece) (sigPieces : List Piece)
  | atom (kind : BitVec 5) (pieces : List Piece) (payload : List Byte) (resAt : Option Nat) (role : Nat)
  deriving DecidableEq, Repr, Inhabited

/-- A busy descriptor of the descriptor store (R118, R119): `serial` is its own for good, `pos` is how far its lines have
issued (bytes of a linear move, tiles of a shape), `gate` the descriptors a RELEASE waits for (R132), `recalls` the
recalls that wait for its issued lines (R299), `nextCycle` the cycle its next line may issue in, `tilesDone` the tiles
whose signals are settled, `badTile` the first tile with a failed line (R180). -/
structure Desc where
  idx : Nat
  serial : Nat
  owner : Owner
  slot : Option Nat
  core : Nat
  ctx : BitVec 12
  body : Body
  pos : Nat := 0
  total : Nat := 0
  recalls : List Nat := []
  nextCycle : Nat := 0
  tilesDone : Nat := 0
  badTile : Option Nat := none
  deriving DecidableEq, Repr, Inhabited

/-- The unit of work behind lines in flight: a span of a linear move, the reads of a tile, one destination line of
a tile, a tile signal, or a single line. -/
inductive JobKind where
  | linear (off len : Nat)
  | tile (k : Nat)
  | tileLine (k : Nat)
  | tileSig (k : Nat)
  | single
  deriving DecidableEq, Repr, Inhabited

/-- A job: source lines still to land, source lines landed, writes outstanding (R126, R178). -/
structure Job where
  id : Nat
  desc : Nat
  kind : JobKind
  waits : List Nat := []
  got : List (Nat × List Byte) := []
  bad : List (Nat × BitVec 4) := []
  writes : Nat := 0
  writing : Bool := false
  status : BitVec 4 := 0
  deriving DecidableEq, Repr, Inhabited

/-! ## Chapter 04: trails and tickets -/

/-- A trail slot in use (R151 to R168): `next` is the array index admitted next, `window` the statuses of the last 512
admitted, `since` the cycle in which the next ticket became admissible. -/
structure Trail where
  slot : Nat
  tickets : List Piece
  ticketsVa : Nat
  count : Nat
  ctx : BitVec 12
  line : BitVec 4
  endIrq : Bool
  cq : Ring
  next : Nat := 0
  window : List (Nat × Option (BitVec 4)) := []
  worst : BitVec 4 := 0
  failed : Nat := 0
  cancelled : Bool := false
  torn : Bool := false
  ended : Bool := false
  since : Option Nat := none
  deriving DecidableEq, Repr, Inhabited

/-- Where a live ticket stands. -/
inductive TicketState where
  | waiting | ready | running | saved (mask : BitVec 16) (any : Bool) | move | ending (status : BitVec 4) (reason exc : Nat)
  | done
  deriving DecidableEq, Repr, Inhabited

/-- A ticket record (Table 4.2). -/
structure TicketRec where
  entry : BitVec 32
  typ : Nat
  mop : BitVec 8
  runAnyway : Bool
  notify : Bool
  quiet : Bool
  lenArg : Bool
  afterParent : Bool
  preds : List Nat
  gateAddr : Nat
  gateValue : Nat
  preloadAddr : Nat
  preloadLen : Nat
  args : List Word
  deriving DecidableEq, Repr, Inhabited

/-- A live ticket (R157 to R172). `predStatus` holds the status of each PRED entry, CS_OK where it is unused and none where its
ticket has not completed; `gateAt` is the cycle the gate word is next read, `disp` the cycle in which the ticket last became
dispatchable. -/
structure Ticket where
  n : Nat
  trail : Nat
  index : Nat
  spawned : Bool
  rec_ : TicketRec
  st : TicketState := .waiting
  gateGa : Option Nat := none
  gateOpen : Bool := true
  gateAt : Nat := 0
  preload : List Piece := []
  parent : Option Nat := none
  parentStatus : Option (BitVec 4) := none
  predStatus : List (Option (BitVec 4)) := []
  readyTick : Nat := 0
  disp : Option Nat := none
  cancel : Option Nat := none
  slots : List Slot := List.replicate 16 {}
  ctx : BitVec 12 := 0
  deriving DecidableEq, Repr, Inhabited

/-! ## Chapter 07: residency, ranges, placement -/

/-- The fields of a context table entry the segment keeps (Table 7.1). -/
structure CtxEntry where
  rangeBase : Nat := 0
  rangeCount : Nat := 0
  privileged : Bool := false
  migrate : Nat := 0
  rucksack : Nat := 0
  ruckLen : Nat := 0
  line : Option (BitVec 4) := none
  hotLog2 : Nat := 0
  hotRing : Nat := 0
  hotHead : Nat := 0
  deriving DecidableEq, Repr, Inhabited

/-- A resident context: its slot, entry, hot table and migration ring cursors (R285, R305, R306), whether it is being evicted, and
whether it is being torn down. -/
structure Resident where
  slot : Nat
  ctx : BitVec 12
  entry : CtxEntry
  hot : List (Nat × Nat) := []
  sample : Nat := 0
  mig : Ring := {}
  evicting : Bool := false
  torn : Bool := false
  deriving DecidableEq, Repr, Inhabited

/-- A cached range entry (R292). -/
structure RangeEntry where
  ctx : BitVec 12
  va : Nat
  len : Nat
  target : Nat
  perm : BitVec 3
  deriving DecidableEq, Repr, Inhabited

/-- A recall in progress (R298 to R301). -/
structure Recall where
  id : Nat
  replica : Bool
  start : Nat
  len : Nat
  ctx : BitVec 12
  segs : List Nat
  submitted : Bool
  owner : Option (Owner × Option Nat)
  deriving DecidableEq, Repr, Inhabited

/-- A range that a recall marked on a segment, and the cycle in which it did (R137). -/
structure RecallMark where
  key : Nat
  ctx : BitVec 12
  start : Nat
  len : Nat
  at_ : Nat
  deriving DecidableEq, Repr, Inhabited

/-- A migration request (R307): the stalled core and the page. -/
structure MigReq where
  n : Nat
  core : Nat
  page : Nat
  tick : Nat
  deriving DecidableEq, Repr, Inhabited

/-- A replica entry (R313 to R316): region, guard word, frame, order of installation, reads being served. -/
structure Replica where
  region : Nat
  home : Nat
  guard : BitVec 32
  frame : Nat
  installed : Nat
  withdrawn : Bool := false
  deriving DecidableEq, Repr, Inhabited

/-- A homing entry that is valid (Table 7.9), with the region's number in its segment's space 00. -/
structure Homing where
  region : Nat
  guard : BitVec 32
  moving : Bool
  holder : Nat
  frame : Nat
  deriving DecidableEq, Repr, Inhabited

/-- A move of a fabric-homed region in progress at its holder (R321): the blocks written since the pass began, the blocks the
pass copies, the cycle it began, whether writes are held, and whether the flip is on its way. -/
structure Move where
  win : Nat
  region : Nat
  target : Nat
  frame : Nat
  dirty : List Nat
  copying : List Nat
  pass : Nat
  start : Nat
  hold : Bool := false
  flipping : Bool := false
  deriving DecidableEq, Repr, Inhabited

/-- A replica copy in progress (R313). -/
structure ReplicaCopy where
  region : Nat
  home : Nat
  guard : BitVec 32
  frame : Nat
  start : Nat
  deriving DecidableEq, Repr, Inhabited

/-! ## Chapter 12: fault reporting -/

/-- A fault record (Table 12.6). -/
structure FaultRec where
  tick : Nat
  cls : Nat
  sev : Nat
  isScoped : Bool
  unit : Nat
  index : Nat
  ctx : Option (BitVec 12)
  node : Option (BitVec 15)
  addr : Word
  info : BitVec 32
  status : BitVec 4
  epoch : BitVec 1
  seq : BitVec 16
  deriving DecidableEq, Repr, Inhabited

/-- An overflow counter (R487), with how many of its faults came at its last tick (R497). -/
structure Overflow where
  count : Nat := 0
  first : Nat := 0
  last : Nat := 0
  atLast : Nat := 0
  deriving DecidableEq, Repr, Inhabited

/-- The fault queue and the lists beside it (R483 to R491); `wake` says that a record was written or OVERFLOW set, which wakes the
steward (R488). -/
structure FaultUnit where
  queue : List (Nat × FaultRec) := []
  head : BitVec 16 := 0
  tail : BitVec 16 := 0
  raised : Nat := 0
  overflow : Bool := false
  suppFull : Bool := false
  ovf : List Overflow := List.replicate 32 {}
  supp : List (BitVec 15 × BitVec 1) := []
  known : List (BitVec 15) := []
  version : BitVec 32 := 0
  tickNow : Nat := 0
  tickCount : Nat := 0
  held : List FaultRec := []
  wake : Bool := false
  deriving DecidableEq, Repr, Inhabited

/-! ## Chapter 13: keeper -/

/-- A key slot (R507, Table 13.2). -/
structure KeySlot where
  kind : Nat := 0
  ctx : BitVec 12 := 0
  serial : Word := 0
  material : List Byte := []
  lost : Bool := false
  deriving DecidableEq, Repr, Inhabited

/-- The error ring of a sealed context (R521, R531). -/
structure ErrRing where
  ctx : BitVec 12
  seg : Nat
  base : Nat
  log2 : Nat
  headSeg : Nat
  head : Nat
  written : Nat := 0
  deriving DecidableEq, Repr, Inhabited

/-- An SPDM session (R511, R516): opened by KEY_EXCHANGE, completed by FINISH, authenticated as an operator or closed to further
messages, the tick of its last message, its identifier, the responder's random data and the shared secret, and the context of a
host session. -/
structure SpdmSes where
  opened : Bool := false
  secured : Bool := false
  operator : Bool := false
  refused : Bool := false
  last : Nat := 0
  id : List Byte := []
  random : List Byte := []
  secret : List Byte := []
  ctx : Option (BitVec 12) := none
  deriving DecidableEq, Repr, Inhabited

/-- The keeper's state on a segment beside its registers (chapter 13): the tick its domain's reset began, the key slots, error
rings and save counts, the contexts whose SEAL_TEARDOWN waits for an eviction here, the teardowns to be answered on a channel of
this segment, and, on segment 0, the channels of the SEAL_LOADs that a reset of the keeper's domain has just broken off, the SPDM
sessions, how far the negotiation of each connection is (1 version, 2 capabilities, 3 algorithms), the last answer of the management
port, and its MCTP endpoint. -/
structure Kpr where
  resetAt : Option Nat := none
  slots : List KeySlot := List.replicate 64 {}
  rings : List ErrRing := []
  saveCounts : List (BitVec 12 × Nat) := []
  tearing : List (BitVec 12) := []
  awaiting : List (BitVec 12 × Option Nat) := []
  sessions : List SpdmSes := List.replicate 4 {}
  host : SpdmSes := {}
  stage : Nat := 0
  hostStage : Nat := 0
  answer : MgmtAns := .silent
  eid : BitVec 8 := 0
  dynAddr : Option (BitVec 7) := none
  outData : List Byte := []
  outTags : List Byte := []
  broken : List Nat := []
  deriving DecidableEq, Repr, Inhabited

/-! ## Chapter 14: boot -/

/-- A steward update in progress (R560): the channel of its request, the image it switches to and the one it leaves (1 A, 2 B),
the channel of PREPARE, and whether the new steward has been started. -/
structure StewardUpd where
  ch : Nat
  image : Nat
  old : Nat
  prepCh : Nat
  started : Bool := false
  deriving DecidableEq, Repr, Inhabited

/-- The boot state of a segment beside SEG_BOOT (chapter 14): the cycle of the PLL's lock and whether it was lost since, the straps
as sampled and whether they are in error, the fuse floors of the two kinds of image, the digests in force, the steward's entry
and the tick it was started while STEWARD_READY is awaited, an update in progress, and the tick a warm scrub began. -/
structure Boot where
  pllAt : Option Nat := none
  pllLost : Bool := false
  sampled : Straps := { dieCount := 0, segId := 0, boot := 0, laneRate := 0, portMask := 0x3F, secure := true, rampClass := 3, nodeHi := 0 }
  strapErr : Bool := false
  floorK : Nat := 0
  floorS : Nat := 0
  keeperDigest : List Byte := []
  stewardDigest : List Byte := []
  incoming : Option (List Byte) := none
  stewardEntry : BitVec 32 := 0
  stewardStart : Option Nat := none
  triedOther : Bool := false
  update : Option StewardUpd := none
  scrub : Option Nat := none
  deriving DecidableEq, Repr, Inhabited


/-- The states of a mailbox channel (Table 14.9). -/
inductive MbxSt where
  | empty | full | taken | acked | timeout
  deriving DecidableEq, Repr, Inhabited

/-- A mailbox channel beside its MBX_CFG (R563 to R568): pointer and the identity recorded with it, message sent,
the tick it became FULL, its place among those TAKEN, whether a reset of the keeper lost it (R539), the code of the last
acknowledgement. -/
structure Mbx where
  st : MbxSt := .empty
  ptr : Word := 0
  writer : Option Agent := none
  sender : Option Agent := none
  msgPtr : Word := 0
  notice : BitVec 16 := 0
  since : Nat := 0
  order : Nat := 0
  lost : Bool := false
  code : BitVec 16 := 0
  deriving DecidableEq, Repr, Inhabited

/-! ## Chapter 08: router -/

/-- A collective flit ejected at X, with the cycle in which it was. -/
structure Ejected where
  flit : Flit
  at_ : Nat
  deriving DecidableEq, Repr, Inhabited

/-- The router of a segment (chapter 08): injection queues, ejected collective flits, and what the present cycle has
used: `cyc` is the cycle that `used` (output slots assigned), `landed` (ports landed from), `ejL` and `ejXn` (flits ejected),
`injUsed` (slots taken by injection), `injLn` and `injXn` (flits injected) speak of. `flipAt` is the cycle of the last FLIP with the
epoch it ended, and `flipWait` the cycle of a FLIP that finds the other table EMPTY, which a SEAL of its cycle still lets pass. -/
structure Rte where
  injL : List BFlit := []
  injX : List BFlit := []
  nextBurst : Nat := 1
  ejX : List Ejected := []
  cyc : Nat := 0
  used : List Nat := []
  landed : List Nat := []
  ejL : Nat := 0
  ejXn : Nat := 0
  injUsed : Nat := 0
  injLn : Nat := 0
  injXn : Nat := 0
  ageOff : Nat := 0
  retireAt : Nat := 0
  flipAt : Option (Nat × BitVec 1) := none
  flipWait : Option Nat := none
  budget : Nat := 0
  budgetAt : Nat := 0
  lastCut : Option Nat := none
  updateAt : Nat := 0
  alignAt : Nat := 0
  occMax : Nat := 0
  defl : Nat := 0
  asgn : Nat := 0
  hist : List (Nat × Nat) := []
  fracA : Nat := 0
  fracD : Nat := 0
  deriving DecidableEq, Repr, Inhabited

/-! ## Chapters 09 and 10: ports -/

/-- The link states (Table 9.4). -/
inductive LinkSt where
  | disabled | down | training | active | retrain | width | quarantined
  deriving DecidableEq, Repr, Inhabited

/-- The lane power states (Table 10.4, Table 10.6). -/
inductive LanePwr where
  | notTrained | active | kettle | doze | flask
  deriving DecidableEq, Repr, Inhabited

/-- A sequenced frame as it was first sent (R364, R368), with the flits its slots carry. -/
structure SFrame where
  typ : BitVec 3
  seq : BitVec 12
  valid : BitVec 2
  key : BitVec 6
  run : BitVec 4
  fidx : BitVec 3
  slot0 : List Byte
  slot1 : List Byte
  flits : List BFlit
  deriving DecidableEq, Repr, Inhabited

/-- An armed seal slot (R388). -/
structure SealSlot where
  n : Nat
  ctx : BitVec 12
  txKey : List Byte
  txSalt : List Byte
  rxKey : List Byte
  rxSalt : List Byte
  txCtr : Nat := 0
  rxCtr : Nat := 0
  deriving DecidableEq, Repr, Inhabited

/-- A run that awaits its tag (R390, R391): the slot, its counter, the first frame's SEQ and frame time, the frames
so far, the additional data and the ciphertext. -/
structure Run where
  slot : Nat
  ctr : Nat
  seq : BitVec 12
  ft : Nat
  frames : Nat
  aad : List Byte
  ct : List Byte
  closed : Bool
  deriving DecidableEq, Repr, Inhabited

/-- A handover of one direction at one end (R416): the step of Table 10.6, the logical lane, the lane retired, the
spare, and the tick the step began. -/
structure Rot where
  step : Nat := 0
  l : Nat := 0
  k : Nat := 0
  s : Nat := 0
  tick : Nat := 0
  deriving DecidableEq, Repr, Inhabited

/-- A fabric port: its link layer and its lanes (chapters 09 and 10). `ft` counts its frame times; `expiredAt` is the tick of the last
expiry of the replay timer; `wokeAt` is the cycle of the last wake event of the transmit side, `dozeAt` that of the last Doze request, and
`flaskAt` that of the last Flask request of R452; `pendingCause` is the cause with which a port on its way to Flask retrains once there. -/
structure Port where
  st : LinkSt := .down
  nextSeq : BitVec 12 := 0
  acked : BitVec 12 := 0xFFF
  expected : BitVec 12 := 0
  replay : List SFrame := []
  replaying : Option (BitVec 12 × BitVec 12) := none
  nakDue : Bool := false
  nakLast : Option (BitVec 12 × Nat) := none
  gap : Bool := false
  ctrlDue : List (Nat × Nat) := []
  out : Nat := 0
  window : Nat := 256
  leaked : Nat := 0
  seen : BitVec 16 := 0
  credTotal : BitVec 16 := 0
  owed : Nat := 0
  ackOwed : Bool := false
  prevTaken : Bool := true
  sent : Nat := 0
  replays : Nat := 0
  viols : Nat := 0
  hotRun : Nat := 0
  windowEnd : Nat := 50000
  closed : Option (Nat × Nat) := none
  timerAt : Nat := 0
  expiredAt : Option Nat := none
  stage : List BFlit := []
  land : List BFlit := []
  frames : List Frame := []
  hushes : Nat := 0
  fails : List Nat := []
  violTicks : List Nat := []
  left : Option Nat := none
  cause : Nat := 0
  start : Nat := 0
  req : Option (Bool × Nat × Nat) := none
  reqFt : Nat := 0
  lanesUp : Bool := false
  resume : Option (BitVec 12 × Nat) := none
  resumed : Bool := false
  resumeFt : Option Nat := none
  wait : Option Nat := none
  wantWidth : Option Nat := none
  isLeader : Bool := false
  leaderWidth : Nat := 8
  partnerKnown : Bool := false
  ft : Nat := 0
  seqFt : Nat := 0
  idleFt : Nat := 0
  seqTick : Nat := 0
  slots : List SealSlot := []
  txRuns : List Run := []
  rxRuns : List Run := []
  trailerDue : Bool := false
  fracTx : Nat := 0
  fracRx : Nat := 0
  fracRuns : Nat := 0
  fracTrailers : Nat := 0
  phase : Nat := 0
  phaseTick : Nat := 0
  width : Nat := 0
  mapTx : List Nat := List.replicate 8 15
  spareTx : Nat := 15
  calTx : Nat := 15
  mapRx : List Nat := List.replicate 8 15
  spareRx : Nat := 15
  calRx : Nat := 15
  good : BitVec 9 := 0
  partnerGood : BitVec 9 := 0
  partnerWidth : Nat := 8
  partnerCap : BitVec 4 := 0
  seeds : List (BitVec 31) := []
  ownSeeds : List (BitVec 31) := []
  genTx : Nat := 0
  genRx : Nat := 0
  rotTx : Rot := {}
  rotRx : Rot := {}
  rotAt : Nat := 0
  retired : Nat := 8
  cmd : Nat := 0
  target : Nat := 0
  txPwr : LanePwr := .notTrained
  rxPwr : LanePwr := .notTrained
  dozeReq : Bool := false
  wokeAt : Option Nat := none
  dozeAt : Option Nat := none
  flaskAt : Option Nat := none
  flask : Nat := 0
  flaskTick : Nat := 0
  flaskReq : Bool := false
  wakeHeld : Bool := false
  pendingCause : Option Nat := none
  relock : Option Nat := none
  dozeUntil : Nat := 0
  stepAt : Nat := 0
  deriving DecidableEq, Repr, Inhabited


/-! ## Chapters 05 and 06: groups -/

/-- The states of an open group (Table 5.3); FREE is the absence of an entry. -/
inductive GrpSt where
  | opening | ready | active | suspended | aborting | failed | closing
  deriving DecidableEq, Repr, Inhabited

/-- A tree as the own member sees it (R311): its parent, children and root, by rank, and which
children have no children. -/
structure Tree where
  parent : Option Nat
  children : List Nat
  root : Nat
  leaves : List Nat := []
  deriving DecidableEq, Repr, Inhabited

/-- The collective descriptor's fields (Table 5.4), zero where an operation has none. -/
structure CDesc where
  op : Nat := 0
  redop : Nat := 0
  inF : Nat := 0
  carryF : Nat := 0
  wireF : Nat := 0
  outF : Nat := 0
  round : Nat := 0
  flags : Nat := 0
  root : Nat := 0
  seed : BitVec 32 := 0
  count : Nat := 0
  deriving DecidableEq, Repr, Inhabited

/-- An operation of a communication queue (R196): its identity, opcode (0x58 CJOIN, 0x5A CAMP, 0x5B VOTE, 0x5C RIDE),
slot, descriptor, run-time count, launch status, spans, ready cursor, and the operand of a vote or ride. -/
structure COp where
  opId : Nat
  code : Nat
  owner : Owner
  slot : Option Nat
  core : Nat
  fp : BitVec 32
  d : CDesc
  raw : List Byte
  n : Nat
  launch : BitVec 4
  shape : Option Shape
  src : List Piece
  dst : List Piece
  srcVa : Nat
  dstVa : Nat
  gated : Bool
  ready : Nat
  rideOp : Nat
  value : Word
  at_ : Nat := 0
  deriving DecidableEq, Repr, Inhabited

/-- A buffer of a chunk or round that comes from one member (R210): serial, tree (0x3F the single tree), chunk (or
0xFFFFFFFF, 0xFFFFFFFE, or the KIND of a CAMP or VOTE above 2^32), whether it comes down, the sender's rank, its header
payload, its data flits, and the order in which it became staged (0: not yet). -/
structure Rx where
  serial : BitVec 32
  tree : Nat
  c : Nat
  down : Bool
  frm : Nat
  hdr : Option (List Byte) := none
  flits : List (Nat × List Byte) := []
  order : Nat := 0
  deriving DecidableEq, Repr, Inhabited

/-- What the member holds for a neighbour until it is answered (R213, R214, R216): the flits are FLIT index and payload. -/
structure Held where
  dst : Nat
  kind : Nat
  serial : BitVec 32
  tree : Nat
  c : Nat
  flits : List (Nat × List Byte)
  last : Nat
  reps : Nat := 0
  naks : Nat := 0
  nrAt : Option Nat := none
  nrs : Nat := 0
  deriving DecidableEq, Repr, Inhabited

/-- A chunk in progress at the member (R209, R221). `frm` is the member that its result came from, `ready` the cycle in which every
operand of its step was staged, and `again` says that the step is formed again from operands that stay staged (Table 12.2). -/
structure Chk where
  tree : Nat
  c : Nat
  frm : Option Nat := none
  ready : Option Nat := none
  again : Bool := false
  reads : List Nat := []
  got : List (Nat × List Byte) := []
  own : Option (List Byte) := none
  order : Nat := 0
  stepEnd : Option Nat := none
  sum : Option (List Byte × Nat × Nat × Nat) := none
  formed : Bool := false
  result : Option (List Byte × List Bool) := none
  written : Bool := false
  stamped : Bool := false
  deriving DecidableEq, Repr, Inhabited

/-- The end of an operation that reached a member while its group was suspended (R224): status, result word and riders. -/
structure HeadEnd where
  status : BitVec 4
  result : Word
  norm : Nat
  spoil : Nat
  deriving DecidableEq, Repr, Inhabited

/-- The head operation of a queue (R198 to R226). `unstamped` are the chunks that ended before the go, whose stamps follow it (R217). -/
structure Head where
  op : COp
  unstamped : List (Nat × Nat) := []
  ended : Option HeadEnd := none
  large : Bool
  chunks : Nat
  per : Nat
  next : List Nat
  go : Bool := false
  launched : Bool := false
  closing : Bool := false
  chk : List Chk := []
  doneList : List Nat := []
  stampHi : Nat := 0
  stampsPosted : Nat := 0
  worst : BitVec 4 := 0
  norm : Nat := 0
  spoil : Nat := 0
  progress : Nat
  straggled : Bool := false
  order : Nat := 0
  sentUp : Bool := false
  deriving DecidableEq, Repr, Inhabited

/-- A completion the stile holds (R448 to R451): its release tick, and whether it has an entry. -/
structure Formed where
  grp : BitVec 12
  op : COp
  serial : BitVec 32
  chunks : Nat
  status : BitVec 4
  result : Word
  norm : BitVec 32
  spoil : Nat
  lines : Nat
  at_ : Nat
  hasEntry : Bool
  notify : Nat
  ring : Ring := {}
  closed : Bool := false
  deriving DecidableEq, Repr, Inhabited

/-- An open group (R185 to R196). Staging is in units of 4 KiB. -/
structure Grp where
  num : BitVec 12
  st : GrpSt
  members : List Nat := []
  rank : Nat := 0
  ctx : BitVec 12 := 0
  hash : BitVec 32 := 0
  chunkLog2 : Nat := 16
  depth : Nat := 4
  threshold : Nat := 0
  notify : Nat := 0
  stamps : Bool := false
  trees : List Tree := []
  single : Tree := { parent := none, children := [], root := 0 }
  staging : Nat := 0
  reason : Nat := 0
  status : BitVec 4 := 0
  reserved : Bool := false
  serial : BitVec 32 := 0
  lastStatus : BitVec 4 := 0
  queue : List COp := []
  nextOp : Nat := 0
  head : Option Head := none
  rx : List Rx := []
  sent : List Held := []
  answers : List Held := []
  ruckAt : Option Nat := none
  held : Option (BitVec 4) := none
  future : List (BitVec 32 × BitVec 4) := []
  closeHeld : Bool := false
  abortAt : Option Nat := none
  ring : Ring := {}
  stamp : Option (Nat × Nat × Nat × BitVec 32) := none
  deriving DecidableEq, Repr, Inhabited

/-- The reduction array beside its registers: operand lines and blocks counted below 1,024 (R273). -/
structure Red where
  fracLines : Nat := 0
  fracBlocks : Nat := 0
  deriving DecidableEq, Repr, Inhabited

/-! ## Chapter 12: the hamper -/

/-- The uses of hamper blocks (Table 12.1). -/
inductive HmpUse where
  | pool | forward | atoms | merge | group (n : BitVec 12)
  deriving DecidableEq, Repr, Inhabited

/-- A line of the hamper (R463): its valid bit, its bytes and their CRC. -/
structure HmpLine where
  valid : Bool := false
  data : List Byte := []
  crc : BitVec 32 := 0
  deriving DecidableEq, Repr, Inhabited

/-- The hamper beside its registers: suspect entries (bank, row, failures, first tick), spares in use by bank, blocks
reserved by use and bank, the bank after the last reservation, which copies of the critical words are held, the
copies found to disagree (word, copy), and the valid lines of the merge buffer. -/
structure Hmp where
  suspects : List (Nat × Nat × Nat × Nat) := []
  spares : List (List Nat) := List.replicate 12 []
  uses : List (HmpUse × List Nat) := []
  cursor : Nat := 0
  critHeld : List Bool := [true, true, true]
  odd : List (Nat × Nat) := []
  mergeLines : List (Nat × HmpLine) := []
  deriving DecidableEq, Repr, Inhabited

/-! ## Chapter 11: power -/

/-- The wake controller, the governor and the pacing logic of a segment (chapter 11). Energies are in pJ, `ceil64` in
1/64 mW, windows of 50 ticks. -/
structure Pwr where
  reqAt : List (Nat × Nat) := []
  timedOut : List Nat := []
  pending : List Nat := []
  restart : List Nat := []
  usable : List (Nat × Nat) := []
  idleSince : List (Nat × Nat) := []
  slept : List (Nat × Nat) := []
  woke : List Nat := []
  windowEnd : Nat := 50
  fresh : Bool := true
  ceil64 : Nat := 0
  budget : Nat := 0
  pj : Nat := 0
  charged : Nat := 0
  closed : Option (Nat × Bool × Bool) := none
  waited : Bool := false
  waitedMs : Bool := false
  limiting : Bool := false
  lastDrop : Nat := 0
  last : Nat := 0
  sumMs : Nat := 0
  sum10 : Nat := 0
  wins10 : Nat := 0
  avg10 : Nat := 0
  lastHint : Option Nat := none
  lastLead : Bool := false
  hintOwed : Bool := false
  hintNext : Option Nat := none
  hintWin : Nat := 0
  limMs : Bool := false
  stepAt : Option Nat := none
  portWakeAt : Option Nat := none
  coarse : Option Nat := none
  oldClass : Nat := 0
  deriving DecidableEq, Repr, Inhabited

/-! ## Chapter 15: telemetry; chapter 14: the test access port -/

/-- The live totals of Table 15.16, by port where they are kept by port. -/
structure Totals where
  energy : Nat := 0
  inject : Nat := 0
  eject : Nat := 0
  deflect : Nat := 0
  redLines : Nat := 0
  tickets : Nat := 0
  tx : List Nat := List.replicate 6 0
  rx : List Nat := List.replicate 6 0
  deriving DecidableEq, Repr, Inhabited

/-- Telemetry (R579, R580): the live totals (energy in 1/64 nJ), the energy at the last 10 ms boundary, the last snapshot with its
tick and number, the cycle it was taken in, and the tick of the last periodic one. -/
structure Tel where
  live : Totals := {}
  energy10 : Nat := 0
  snap : Totals := {}
  snapTick : Nat := 0
  snapSeq : Nat := 0
  snapCycle : Option Nat := none
  periodTick : Option Nat := none
  deriving DecidableEq, Repr, Inhabited

/-- The test access port (R569, R570): the instruction in force, the values preloaded for the pins and whether EXTEST drives them, the
bypass bit, the bits last shifted out (least significant first), and of CTRL_ACCESS the address register, the access in progress
(write, size, increment, value), the data and status of the last one, and the error bit. -/
structure Jtag where
  ir : BitVec 8 := 0x02
  preload : List Bool := []
  driving : Bool := false
  byp : Bool := false
  tdo : List Bool := []
  addr : Nat := 0
  busy : Option (Bool × Bool × Bool × Word) := none
  data : Word := 0
  status : BitVec 4 := 0
  error : Bool := false
  deriving DecidableEq, Repr, Inhabited

/-! ## The segment and the package -/

/-- Transactions and the die port of a segment (chapters 01 and 02): `rspReady` are the RSP_READY pins of DPT0 and DPT1. -/
structure Txn where
  tags : List (Nat × TagState) := []
  reqs : List Req := []
  nextReq : Nat := 0
  merge : List MergeEntry := []
  posts : List Post := []
  nextPost : Nat := 0
  fences : List FenceSt := []
  fenceReads : List FenceRead := []
  poolLines : Nat := 65536
  homeQ : List HomeReq := []
  atoms : List AtomLine := []
  fwdUsed : Nat := 0
  dpm : List DpmReq := []
  retired : List (Nat × BitVec 12) := []
  nextDpm : Nat := 0
  dptOut : List DptRsp := []
  dptBusy : List (Bool × BitVec 12) := []
  rspReady : Bool × Bool := (true, true)
  reads : List DptReading := []
  replies : List Flit := []
  deriving DecidableEq, Repr, Inhabited

/-- The waypoint scoreboard and the descriptor store (chapters 03 and 04). -/
structure Trl where
  fifo : List (Nat × Agent) := []
  trails : List Trail := []
  tickets : List Ticket := []
  descs : List Desc := []
  jobs : List Job := []
  nextJob : Nat := 0
  nextDesc : Nat := 0
  stopUntil : Option Nat := none
  admitAt : Option Nat := none
  dispatchAt : Option Nat := none
  deriving DecidableEq, Repr, Inhabited

/-- The range unit (chapter 07). -/
structure Xlt where
  sys : CtxEntry := {}
  sysValid : Bool := false
  resident : List Resident := []
  reserved : List (BitVec 12 × Nat) := []
  cache : List RangeEntry := []
  guards : List (Nat × BitVec 32) := []
  guardWritten : Bool := false
  recalls : List Recall := []
  nextRecall : Nat := 0
  marks : List RecallMark := []
  migs : List MigReq := []
  decayAt : Nat := 0
  deriving DecidableEq, Repr, Inhabited

/-- The blanket (chapter 07): `published` holds (segment, port, load), `moveCounts` (region, landing segment, count), `freeing` the
frames that return to the pool once the requests executing there have completed, `moveAt` the tick of the last period. `declaring` are
the regions of a DECLARE whose frames are still read as replicas, `releasing` the frames (segment, frame) that a RELEASE waits for
(R314, R319). -/
structure Plc where
  replicas : List Replica := []
  installs : Nat := 0
  copies : List ReplicaCopy := []
  repCount : List (Nat × Nat) := []
  repSample : Nat := 0
  framesUsed : List Nat := []
  homing : List (Nat × Homing) := []
  moves : List Move := []
  landCount : List (Nat × Nat) := []
  landSample : Nat := 0
  published : List (Nat × Nat × Nat) := []
  lastStatus : BitVec 4 := 0
  moveCounts : List (Nat × Nat × Nat) := []
  moveAt : Nat := 0
  freeing : List Nat := []
  declaring : List (Nat × Homing) := []
  releasing : List (Nat × Nat) := []
  deriving DecidableEq, Repr, Inhabited

/-- A register that software wrote in the cycle (R14, R576): its offset, what it held before, what was written, the writer's place in
the order of R576 and the RW and KO bits it wrote. -/
structure SwWrite where
  off : Nat
  old : Word
  v : Word
  rank : Nat := 0
  mask : Word := 0
  deriving DecidableEq, Repr, Inhabited

/-- One segment (one die) of the package: `mbxWas` are the channels that a message of the segment's own has filled in the cycle, as they
were before (R565), `hwSet` are the W1C bits that hardware set in the cycle, by the register's offset, and
`swSet` the registers that software wrote in it (R14). -/
structure Segment where
  straps : Straps := { dieCount := 0, segId := 0, boot := 0, laneRate := 0, portMask := 0x3F, secure := true, rampClass := 3, nodeHi := 0 }
  hbmSize : Nat := 0
  spSize : Nat := 0
  hbm : Memory := []
  sp : Memory := []
  regs : RegMap := []
  acc : Access := { status := 0, data := 0 }
  captures : List Capture := []
  bridge : List BridgeEnd := [{}, {}]
  txn : Txn := {}
  cores : List Core := List.replicate 18 {}
  trl : Trl := {}
  xlt : Xlt := {}
  plc : Plc := {}
  groups : List Grp := []
  stile : List Formed := []
  leftRings : List (BitVec 12 × Ring) := []
  red : Red := {}
  hmp : Hmp := {}
  flt : FaultUnit := {}
  kpr : Kpr := {}
  rte : Rte := {}
  pwr : Pwr := {}
  ports : List Port := List.replicate 6 {}
  boot : Boot := {}
  mbx : List Mbx := List.replicate 64 {}
  tel : Tel := {}
  jtag : Jtag := {}
  levels : RegMap := []
  mbxWas : List (Nat × Mbx) := []
  hwSet : List (Nat × Word) := []
  swSet : List SwWrite := []
  deriving DecidableEq, Repr, Inhabited

/-- The package: its segments, the time in fast-clock cycles since RST_N_COLD rose, whether RST_N_COLD is low,
the model's counter of free values, and the commands that wait, first in, first out. -/
structure State where
  segs : List Segment
  time : Nat
  inColdReset : Bool
  freeCtr : Nat
  pending : List Instr
  deriving DecidableEq, Repr, Inhabited

/-- Why the block stops. -/
inductive Fault where
  /-- Raised by every command whose segment operand is not below the package's die count: no such part exists.
  Safe: the block stops where no command can arrive. -/
  | noSuchSegment (sg : Nat)
  deriving DecidableEq, Repr

/-- Why a command is refused. -/
inductive Refusal where
  /-- Raised by exec for a command without a meaning yet. Safe: the block stops. -/
  | notModelled (mnemonic : String)
  deriving DecidableEq, Repr

/-! ## Reset -/

/-- The straps of segment `k` at reset: a package of two dies, every other strap at the value its pull gives it (Table 14.1). DESIGN
CHOICE (log 3): the straps are the board's. -/
def resetStraps (k : Nat) : Straps :=
  { dieCount := 1, segId := BitVec.ofNat 3 k, boot := 0, laneRate := 0, portMask := 0x3F, secure := true, rampClass := 3, nodeHi := 0 }

/-- The keeper core as the release of RST_N_COLD leaves it: in mask ROM, CTX 0 (R553). -/
def resetCores : List Core := (List.replicate 18 ({} : Core)).set 16 { pc := 0x10000, st := .running }

/-- Segment `k` right after the release of RST_N_COLD (R547, R553), with 32 GiB of HBM and 64 MiB of scratchpad. DESIGN CHOICE (log 3):
the sizes are the package's. -/
def Segment.reset (k : Nat) : Segment :=
  { straps := resetStraps k, hbmSize := 2 ^ 35, spSize := 2 ^ 26, cores := resetCores
    ports := List.replicate 6 { st := .down }, boot := { sampled := resetStraps k } }

/-- The package right after the release of RST_N_COLD: every register at its reset value, no command waiting. -/
def State.reset : State :=
  { segs := [Segment.reset 0, Segment.reset 1], time := 0, inColdReset := false, freeCtr := 0, pending := [] }

end Sys2Proof.Machine
end

