-- ==== Sys2Proof/Machine/Ops.lean ====
section
/-! DEFINITION. The named operations over memories, registers, segments and the fault queue that every command
is written with. -/

namespace Sys2Proof.Machine

open Sys2Proof

/-- The outcome of a command. -/
abbrev Out := Host.Outcome State Fault Refusal

/-! ## Lists as finite maps -/

/-- The value a key has in a list of pairs. -/
def lookupKey {κ α : Type} [DecidableEq κ] (k : κ) : List (κ × α) → Option α
  | [] => none
  | (j, v) :: r => if j = k then some v else lookupKey k r

/-- The list with the pairs of a key removed. -/
def eraseKey {κ α : Type} [DecidableEq κ] (k : κ) (l : List (κ × α)) : List (κ × α) := l.filter fun x => x.1 ≠ k

/-- The list with a key bound to a value. -/
def insertKey {κ α : Type} [DecidableEq κ] (k : κ) (v : α) (l : List (κ × α)) : List (κ × α) := (k, v) :: eraseKey k l

/-- The list with the element at an index changed. -/
def modAt {α : Type} (l : List α) (i : Nat) (f : α → α) : List α :=
  match l, i with
  | [], _ => []
  | x :: r, 0 => f x :: r
  | x :: r, n + 1 => x :: modAt r n f

/-- The elements that satisfy a test, changed. -/
def modWhere {α : Type} (l : List α) (p : α → Bool) (f : α → α) : List α := l.map fun x => if p x then f x else x

/-- The first element that a test selects, changed. -/
def modFirst {α : Type} (l : List α) (p : α → Bool) (f : α → α) : List α :=
  match l with
  | [] => []
  | x :: r => if p x then f x :: r else x :: modFirst r p f

/-- The smallest natural number below `n` that is not in a list. -/
def firstFree (used : List Nat) (n : Nat) : Option Nat := (List.range n).find? fun k => !used.contains k

/-- `n` with a bound above it taken as the bound. -/
def sat (bits n : Nat) : Nat := min n (2 ^ bits - 1)

/-! ## Memory -/

/-- What an unlisted address reads as. DESIGN CHOICE (log 5): zero. -/
def memDefault : Byte := 0

/-- The canonical form: addresses strictly rise and no entry equals what an unlisted address reads as. -/
def memWf : Memory → Bool
  | [] => true
  | [(_, b)] => b != memDefault
  | (a, b) :: (c, d) :: r => b != memDefault && a < c && memWf ((c, d) :: r)

/-- The byte at an address. -/
def memRead (m : Memory) (a : Nat) : Byte :=
  match m with
  | [] => memDefault
  | (k, b) :: r => if k = a then b else if a < k then memDefault else memRead r a

/-- The memory with a byte written. -/
def memWrite (m : Memory) (a : Nat) (v : Byte) : Memory :=
  match m with
  | [] => if v = memDefault then [] else [(a, v)]
  | (k, b) :: r =>
    if a < k then (if v = memDefault then (k, b) :: r else (a, v) :: (k, b) :: r)
    else if a = k then (if v = memDefault then r else (a, v) :: r)
    else (k, b) :: memWrite r a v

/-- `n` bytes from an address. -/
def memBytes (m : Memory) (a n : Nat) : List Byte := (List.range n).map fun i => memRead m (a + i)

/-- Bytes written from an address on. -/
def memPut (m : Memory) (a : Nat) : List Byte → Memory
  | [] => m
  | b :: r => memPut (memWrite m a b) (a + 1) r

/-- Bytes written where a mask is set. -/
def memPutMask (m : Memory) (a : Nat) : List Bool → List Byte → Memory
  | s :: ss, b :: bs => memPutMask (if s then memWrite m a b else m) (a + 1) ss bs
  | _, _ => m

/-- The memory with a range of bytes zeroed. -/
def memZero (m : Memory) (a n : Nat) : Memory := m.filter fun c => c.1 < a || a + n ≤ c.1

/-- The little-endian value of `n` bytes (R16). -/
def memNat (m : Memory) (a n : Nat) : Nat := bytesNat (memBytes m a n)

/-- A slice of a byte list as a little-endian value. -/
def field (bs : List Byte) (off n : Nat) : Nat := bytesNat ((bs.drop off).take n)

/-- Whether a slice of a byte list is zero. -/
def zeros (bs : List Byte) (off n : Nat) : Bool := ((bs.drop off).take n).all fun b => b == 0

/-- A byte list made `n` long with zeros. -/
def padTo (n : Nat) (bs : List Byte) : List Byte := (bs ++ List.replicate n 0).take n

/-- A number's `n` bytes, most significant first. -/
def bigBytes (v n : Nat) : List Byte := (natBytes v n).reverse

/-- The value of bytes, most significant first. -/
def bigNat (bs : List Byte) : Nat := bs.foldl (fun a b => a * 256 + b.toNat) 0

/-- The bytes of a label. -/
def ascii (s : String) : List Byte := s.toList.map fun c => BitVec.ofNat 8 c.toNat

/-! ## Time (R7, R8) -/

/-- The tick a fast-clock cycle lies in: 21 cycles of 1.05 GHz a tick of 20 ns. -/
def tickOf (cycle : Nat) : Nat := cycle / 21

/-- SEG_TICK. -/
def State.tick (s : State) : Nat := tickOf s.time

/-- Whether a limit has run out against which what happens in its own tick wins: the tick of the deadline ends, or is past
(R133, R134, R140, R236). -/
def State.lapsed (s : State) (deadline : Nat) : Bool := deadline < s.tick || (deadline == s.tick && s.time % 21 == 20)

/-! ## Segments -/

/-- The segment at an index; a blank one where there is none. -/
def State.seg (s : State) (i : Nat) : Segment := s.segs.getD i {}

/-- Segment 0, whose package-scope straps apply to the package (R544). -/
def State.first (s : State) : Segment := s.seg 0

/-- The state with a segment replaced. -/
def State.setSeg (s : State) (i : Nat) (g : Segment) : State := { s with segs := s.segs.set i g }

/-- The state with a segment changed. -/
def State.mod (s : State) (i : Nat) (f : Segment → Segment) : State := s.setSeg i (f (s.seg i))

/-- The state with every segment changed. -/
def State.modAll (s : State) (f : Segment → Segment) : State := { s with segs := s.segs.map f }

/-- The die count. -/
def State.n (s : State) : Nat := s.segs.length

/-- Runs an effect on a segment the package has; stops for any other (R1). While RST_N_COLD is low the package is held in reset, and
nothing has an effect (R545). -/
def onSeg (sg : Fin 8) (s : State) (f : State → State) : Out :=
  if sg.val < s.n then .next (if s.inColdReset then s else f s) else .fault (.noSuchSegment sg.val)

/-- Another control access of an agent ends what its last 32-bit read captured (R575). -/
def State.dropCaptures (s : State) (ag : Agent) : State :=
  s.modAll fun g => { g with captures := g.captures.filter fun c => c.agent != ag }

/-- Runs the effect of an agent's control access. -/
def onCtl (sg : Fin 8) (ag : Agent) (s : State) (f : State → State) : Out := onSeg sg s fun s => f (s.dropCaptures ag)

/-- A free value and the counter advanced past it. -/
def State.fresh (s : State) : State := { s with freeCtr := s.freeCtr + 1 }

/-! ## Registers -/

/-- The row of the register table that an offset lies in. -/
def rowAt (off : Nat) : Option RegRow :=
  regTable.find? fun r => r.base ≤ off && (off - r.base) % r.stride == 0 && (off - r.base) / r.stride < r.count

/-- Bits [hi:lo] of a word. -/
def bitsOf (w : Word) (hi lo : Nat) : Nat := w.toNat / 2 ^ lo % 2 ^ (hi + 1 - lo)

/-- A word with bits [hi:lo] replaced. -/
def setBits (w : Word) (hi lo n : Nat) : Word :=
  let width := hi + 1 - lo
  let mask : Nat := (2 ^ width - 1) * 2 ^ lo
  (w &&& ~~~(BitVec.ofNat 64 mask)) ||| BitVec.ofNat 64 (n % 2 ^ width * 2 ^ lo)

/-- PWR_RAMP.SLOPE of a class and a die count (R444, Table 11.3). -/
def slopeOf (cls n : Nat) : Nat :=
  let pkg := if cls == 1 then 50 else if cls == 2 then 10 else if cls == 3 then 2 else 0
  if n == 0 then 0 else 64 * pkg / n

/-- The reset values that straps and rules give (R23, R394, R403, R444, R501, R563, R571). -/
def resetExtra (st : Straps) (off : Nat) : Word :=
  if off == 0 then BitVec.ofNat 64 (st.segId.toNat * 256 + st.dieCount.toNat)
  else if off == 0x10 then BitVec.ofNat 64 (st.nodeHi.toNat * 256)
  else if off == 0x300 then BitVec.ofNat 64 (st.boot.toNat * 65536)
  else if off == 0x10040 then
    BitVec.ofNat 64 (slopeOf st.rampClass.toNat (st.dieCount.toNat + 1) * 65536 + st.rampClass.toNat)
  else if off == 0x40000 then (if st.secure then 0x80 else 0)
  else if 0x80000 ≤ off && off < 0xE0000 then
    let p := (off - 0x80000) / 0x10000
    let o := (off - 0x80000) % 0x10000
    if o == 8 then (if st.portMask.getLsbD p then 1 else 0)
    else if o == 0x1000 then st.laneRate.zeroExtend 64
    else 0
  else if 0x30000 ≤ off && off < 0x31000 && (off - 0x30000) % 64 == 0 then
    let ch := (off - 0x30000) / 64
    if ch < 8 then 0xFFFE0000 else if ch < 16 then 1 else 15
  else 0

/-- The reset value of the register at an offset. -/
def resetWord (st : Straps) (off : Nat) : Word :=
  match rowAt off with
  | none => 0
  | some r => r.fields.foldl (fun w f => setBits w f.hi f.lo f.reset) 0 ||| resetExtra st off

/-- The stored word of a register: what was written, or its reset value. -/
def Segment.reg (g : Segment) (off : Nat) : Word := (lookupKey off g.regs).getD (resetWord g.straps off)

/-- A register's stored word replaced. -/
def Segment.setReg (g : Segment) (off : Nat) (w : Word) : Segment := { g with regs := insertKey off w g.regs }

/-- The W1C bits of a register that hardware has set in this cycle: a clear of the same cycle leaves them (R14). -/
def Segment.hwBits (g : Segment) (off : Nat) : Word := (lookupKey off g.hwSet).getD 0

/-- W1C bits set by hardware. -/
def Segment.hwMark (g : Segment) (off : Nat) (w : Word) : Segment := { g with hwSet := insertKey off (g.hwBits off ||| w) g.hwSet }

/-- The offset of CUR_EXC of a core. -/
def excOff (c : Nat) : Nat := 0x180018 + c * 0x1000

/-- A register written by software, with what it held before. -/
def Segment.swMark (g : Segment) (off : Nat) (old v : Word) (rank : Nat := 0) (mask : Word := 0) : Segment :=
  { g with swSet := g.swSet ++ [{ off := off, old := old, v := v, rank := rank, mask := mask }] }

/-- The first write of a register by software in this cycle: a hardware update of the cycle comes before it (R14). -/
def Segment.swWrote (g : Segment) (off : Nat) : Option SwWrite := g.swSet.find? fun x => x.off == off

/-- A register as it was before the software writes of this cycle: what a read of the cycle returns (R576). -/
def Segment.unwritten (g : Segment) (off : Nat) : Segment :=
  match g.swWrote off with
  | some x => g.setReg off x.old
  | none => g

/-- The bits of a register that an agent later in the order of R576 has already written in this cycle: they prevail. -/
def Segment.prevailing (g : Segment) (off rank : Nat) : Word :=
  g.swSet.foldl (fun (m : Word) x => if x.off == off && rank < x.rank then m ||| x.mask else m) 0

/-- The value of a named field. -/
def Segment.fld (g : Segment) (f : Fld) : Nat := bitsOf (g.reg f.off) f.hi f.lo

/-- A named field replaced. -/
def Segment.setFld (g : Segment) (f : Fld) (n : Nat) : Segment := g.setReg f.off (setBits (g.reg f.off) f.hi f.lo n)

/-- A saturating counter field advanced. -/
def Segment.bumpBy (g : Segment) (f : Fld) (k : Nat) : Segment := g.setFld f (sat (f.hi + 1 - f.lo) (g.fld f + k))

def Segment.bump (g : Segment) (f : Fld) : Segment := g.bumpBy f 1

/-- The package's node identity (R20). -/
def Segment.node (g : Segment) : BitVec 15 := BitVec.ofNat 15 (g.reg 0x10).toNat

/-- The segment's own index. -/
def Segment.segId (g : Segment) : BitVec 3 := g.straps.segId

/-- The current signpost epoch of a segment (R344). -/
def Segment.epoch (g : Segment) : BitVec 1 := BitVec.ofNat 1 (g.fld F.RTE_EPOCH_STATUS_CURRENT)

/-! ## Agents -/

end Sys2Proof.Machine

namespace Sys2Proof

/-- The agents of R284, R190, R394, R490: the keeper, the steward, or an agent whose context is 0. -/
def Agent.admin (a : Agent) : Bool := a.cls == .keeper || a.cls == .steward || a.ctx == 0

def Agent.isKeeper (a : Agent) : Bool := a.cls == .keeper

/-- An agent's place in the order of R576. A target channel's agent stands for DPT1; an access by DPT0 comes one later. -/
def Agent.accessRank (a : Agent) : Nat :=
  match a.cls with
  | .jtag => 0
  | .remote => 1
  | .hostDriver | .chipProcessor | .diePort => 2
  | .pacing => 4
  | .steward => 5
  | .keeper => 6

/-- What a 64- or 32-bit access writes of a word: the bits its half covers. -/
def Sz.covers (sz : Sz) (hi lo : Nat) : Bool :=
  match sz with
  | .w64 => true
  | .lo32 => hi ≤ 31
  | .hi32 => 32 ≤ lo

/-- The value a write of a size puts at its register bits: a 32-bit value in its half (R575). -/
def Sz.place (sz : Sz) (v : Word) : Word :=
  match sz with
  | .w64 => v
  | .lo32 => v &&& 0xFFFFFFFF
  | .hi32 => v <<< 32

end Sys2Proof

namespace Sys2Proof.Machine

open Sys2Proof

/-! ## Sealed contexts and coarsening -/

/-- Whether a context is sealed: its bit of KPR_SEAL_MAP, set while a CONTEXT slot is bound to it (R522). -/
def Segment.sealedCtx (g : Segment) (c : BitVec 12) : Bool := g.kpr.slots.any fun k => k.kind == 4 && k.ctx == c

/-- Whether a context is resident (R282): context 0 always is. -/
def Segment.isResident (g : Segment) (c : BitVec 12) : Bool := c == 0 || g.xlt.resident.any fun r => r.ctx == c && !r.evicting

/-- Whether a sealed context is resident on the segment (R530). -/
def Segment.sealedResident (g : Segment) : Bool := g.xlt.resident.any fun r => g.sealedCtx r.ctx

/-- Whether readings are coarsened: from the residency of a sealed context to the first 10 ms boundary after none is resident (R456,
R530). -/
def Segment.isCoarse (g : Segment) : Bool := g.sealedResident || g.pwr.coarse.isSome

/-- SEG_TICK as records and PL0 see it while readings are coarsened (R95, R166, R530). -/
def Segment.coarseTick (g : Segment) (tick : Nat) : Nat := if g.isCoarse then tick / 50 * 50 else tick

/-- The live totals changed (R580). -/
def Segment.count (g : Segment) (f : Totals → Totals) : Segment := { g with tel := { g.tel with live := f g.tel.live } }

/-- A flit injected at L or X, and one ejected, counted (Table 15.16). -/
def Totals.inject1 (t : Totals) : Totals := { t with inject := t.inject + 1 }
def Totals.eject1 (t : Totals) : Totals := { t with eject := t.eject + 1 }

/-! ## Interrupts (R562) -/

/-- A source that names line `n` sets its status bit. -/
def Segment.irq (g : Segment) (n : Nat) : Segment :=
  (g.setFld F.SEG_IRQ_STATUS_LINES (g.fld F.SEG_IRQ_STATUS_LINES ||| 2 ^ (n % 16))).hwMark 0x318 (BitVec.twoPow 64 (n % 16))

/-- The level of GYN_IRQ[n] (R562, R488). -/
def Segment.irqLine (g : Segment) (n : Nat) : Bool :=
  ((g.fld F.SEG_IRQ_STATUS_LINES &&& g.fld F.SEG_IRQ_MASK_MASK).testBit n) ||
  (g.fld F.SEG_IRQ_STATUS_FATAL == 1 && g.fld F.FLT_CTRL_IRQ_LINE == n)

/-! ## Fault records (R486 to R489) -/

/-- The completion status codes (Table 2.12). -/
def csOk : BitVec 4 := 0
def csUnmapped : BitVec 4 := 1
def csDenied : BitVec 4 := 2
def csLinkDown : BitVec 4 := 3
def csNodeDown : BitVec 4 := 4
def csPoison : BitVec 4 := 5
def csExtent : BitVec 4 := 6
def csTimeout : BitVec 4 := 7
def csMismatch : BitVec 4 := 8
def csAborted : BitVec 4 := 9
def csBusy : BitVec 4 := 10
def csSpoiled : BitVec 4 := 11

/-- The numerically smaller status other than CS_OK (R86). -/
def worse (a b : BitVec 4) : BitVec 4 := if a == 0 then b else if b == 0 then a else if a.toNat ≤ b.toNat then a else b

/-- The first status other than CS_OK of two in order. -/
def firstBad (a b : BitVec 4) : BitVec 4 := if a == 0 then b else a

/-- What a fault says beside its tick and sequence (Table 12.6). -/
structure FaultArgs where
  cls : Nat
  unit : Nat
  sev : Nat := 2
  index : Nat := 0
  ctx : Option (BitVec 12) := none
  node : Option (BitVec 15) := none
  addr : Word := 0
  info : BitVec 32 := 0
  status : BitVec 4 := 0
  deriving DecidableEq, Repr, Inhabited

/-- The suppressible classes (Table 12.7, S). -/
def suppressible (cls : Nat) : Bool := cls == 11 || cls == 13 || cls == 15 || cls == 27

/-- A fault of a class counted in place of a record (R487, R489). -/
def FaultUnit.count (u : FaultUnit) (cls tick : Nat) : FaultUnit :=
  { u with ovf := modAt u.ovf cls fun o =>
      { count := sat 32 (o.count + 1), first := if o.count == 0 then tick else o.first, last := tick
        atLast := if o.count != 0 && o.last == tick then o.atLast + 1 else 1 } }

/-- A counter zeroed by a write (R492); a fault of the same tick counts after it (R497). -/
def Overflow.clear (o : Overflow) (tick : Nat) : Overflow :=
  if o.count != 0 && o.last == tick then { count := sat 32 o.atLast, first := tick, last := tick, atLast := o.atLast } else {}

/-- The line of FLT_CTRL raised for a severity (R488). -/
def Segment.faultIrq (g : Segment) (sev : Nat) : Segment :=
  let g := if sev == 3 then (g.setFld F.SEG_IRQ_STATUS_FATAL 1).hwMark 0x318 (BitVec.twoPow 64 16) else g
  if sev ≥ g.fld F.FLT_CTRL_IRQ_SEV || sev == 3 then g.irq (g.fld F.FLT_CTRL_IRQ_LINE) else g

/-- A fault counted in place of a record, its bit of FLT_OVF_PENDING set. -/
def Segment.faultCount (g : Segment) (cls tick : Nat) : Segment := { g with flt := g.flt.count cls tick }

/-- A fault treated as finding the queue full (R487, R488). -/
def Segment.faultFull (g : Segment) (cls sev tick : Nat) : Segment :=
  let g := (g.faultCount cls tick).hwMark 0x20000 (BitVec.twoPow 64 9)
  { g with flt := { g.flt with overflow := true, wake := true } }.faultIrq sev

/-- The epoch of a suppressible fault that arises in a tick: in the tick of a flip, the one before it (R499). -/
def Segment.epochIn (g : Segment) (tick : Nat) : BitVec 1 :=
  match g.rte.flipAt with
  | some (c, e) => if c / 21 == tick then e else g.epoch
  | none => g.epoch

/-- A fault arises at a tick (R486 to R489): it is counted, or awaits the queue. -/
def Segment.raise (g : Segment) (tick : Nat) (a : FaultArgs) : Segment :=
  let u := { g.flt with raised := sat 32 (g.flt.raised + 1) }
  let sup := suppressible a.cls
  let epoch := if sup then g.epochIn tick else g.epoch
  let known := match a.node with | some n => u.known.contains n | none => false
  let listed := match a.node with | some n => u.supp.contains (n, epoch) | none => false
  let isNew := sup && a.node.isSome && !listed
  if sup && (known || (a.node.isSome && listed)) then { g with flt := u }.faultCount a.cls tick
  else if isNew && u.supp.length ≥ 1024 then
    ({ g with flt := { u with suppFull := true } }.faultCount a.cls tick).hwMark 0x20000 (BitVec.twoPow 64 10)
  else if u.held.any (fun r => r.unit == a.unit && r.index == a.index) then
    { g with flt := u }.faultFull a.cls a.sev tick
  else
    let r : FaultRec :=
      { tick := tick, cls := a.cls, sev := a.sev,
        isScoped := match a.ctx with | some c => g.sealedCtx c | none => false,
        unit := a.unit, index := a.index, ctx := a.ctx, node := a.node, addr := a.addr, info := a.info,
        status := a.status, epoch := epoch, seq := 0 }
    { g with flt := { u with held := u.held ++ [r] } }

/-- Which of two awaiting records is written first (R9, R486): older tick, lower class, then the rotating pointer
over UNIT, which stands at the cycle modulo 16. -/
def recBefore (cycle : Nat) (a b : FaultRec) : Bool :=
  if a.tick ≠ b.tick then a.tick < b.tick
  else if a.cls ≠ b.cls then a.cls < b.cls
  else (a.unit + 16 - cycle % 16) % 16 < (b.unit + 16 - cycle % 16) % 16

/-- The first record to be written, and the others. -/
def pickRec (cycle : Nat) : List FaultRec → Option (FaultRec × List FaultRec)
  | [] => none
  | r :: rs =>
    match pickRec cycle rs with
    | none => some (r, [])
    | some (q, qs) => if recBefore cycle q r then some (q, r :: qs) else some (r, q :: qs)

/-- PENDING of FLT_STATUS. -/
def FaultUnit.pendingCount (u : FaultUnit) : Nat := (u.tail - u.head).toNat

/-- The entry of the suppression table that a record adds (R489). -/
def FaultRec.suppKey (r : FaultRec) : Option (BitVec 15 × BitVec 1) := if suppressible r.cls then r.node.map fun n => (n, r.epoch) else none

/-- Whether the suppression table lists a record. -/
def FaultUnit.lists (u : FaultUnit) (r : FaultRec) : Bool := r.suppKey.any u.supp.contains

/-- Awaiting records that the suppression table lists by now are counted (R489). -/
def Segment.dropListed (g : Segment) : Segment :=
  (g.flt.held.filter g.flt.lists).foldl (fun (g : Segment) r => g.faultCount r.cls r.tick)
    { g with flt := { g.flt with held := g.flt.held.filter fun r => !g.flt.lists r } }

/-- One awaiting record is written, with its entry of the suppression table, or counted when the queue or that table is full (R483, R487,
R489); the record written. -/
def Segment.drainOne (g : Segment) (cycle : Nat) : Segment × Option FaultRec :=
  let g := g.dropListed
  match pickRec cycle g.flt.held with
  | none => (g, none)
  | some (r, rest) =>
    let u : FaultUnit := { g.flt with held := rest }
    if r.suppKey.isSome && u.supp.length ≥ 1024 then
      (({ g with flt := { u with suppFull := true } }.faultCount r.cls r.tick).hwMark 0x20000 (BitVec.twoPow 64 10), none)
    else if u.pendingCount ≥ 256 then ({ g with flt := u }.faultFull r.cls r.sev (tickOf cycle), none)
    else
      let r := { r with seq := u.tail }
      let u := { u with tail := u.tail + 1, queue := insertKey (u.tail.toNat % 256) r u.queue, wake := true, supp := r.suppKey.toList ++ u.supp }
      ({ g with flt := u }.faultIrq r.sev, some r)

/-- Up to four records are written at a tick (R486). -/
def Segment.drain (g : Segment) (cycle : Nat) : Nat → Segment × List FaultRec
  | 0 => (g, [])
  | k + 1 =>
    let (g, r) := g.drainOne cycle
    let (g, rs) := g.drain cycle k
    (g, r.toList ++ rs)

/-- The 32 bytes of a record (Table 12.6). -/
def FaultRec.bytes (r : FaultRec) : List Byte :=
  natBytes r.tick 8 ++ natBytes r.cls 1 ++ natBytes (r.sev + (if r.isScoped then 4 else 0)) 1 ++
  natBytes r.unit 1 ++ natBytes r.index 1 ++
  natBytes (match r.ctx with | some c => c.toNat + 0x8000 | none => 0) 2 ++
  natBytes (match r.node with | some n => n.toNat + 0x8000 | none => 0) 2 ++
  natBytes r.addr.toNat 8 ++ natBytes r.info.toNat 4 ++ natBytes r.status.toNat 1 ++
  natBytes r.epoch.toNat 1 ++ natBytes r.seq.toNat 2

/-- A read that a step needed was retired after the limit of R39: its record. -/
def Segment.dpmLate (g : Segment) (tick : Nat) (st : DpmStatus) : Segment :=
  if st.isNone then g.raise tick { cls := 14, unit := 15, status := csTimeout } else g

/-- The completion status of a read that a step needed (R38, R39). -/
def dpmStatus (st : DpmStatus) : BitVec 4 :=
  match st with
  | none => csTimeout
  | some x => if x == 0 then csOk else csPoison

/-- A write that an agent rule ignores raises a record of class ACCESS (R10, Table 12.7). -/
def Segment.accessFault (g : Segment) (tick : Nat) (unit : Nat) (off : Nat) (v : Word) : Segment :=
  g.raise tick { cls := 0, unit := unit, addr := BitVec.ofNat 64 off, info := v.truncate 32 }

/-- The unit code of the window an offset lies in (Table 12.6). -/
def unitOf (off : Nat) : Nat :=
  let w := off / 0x10000
  if w == 0 then 0 else if w == 1 then 1 else if w == 2 then 2 else if w == 3 then 3 else if w == 4 then 4
  else if 8 ≤ w && w ≤ 13 then 5 else if w == 16 then 6 else if w == 17 then 7 else if w == 18 then 8
  else if w == 19 then 9 else if w == 20 then 10 else if w == 21 then 11 else if w == 22 then 12
  else if w == 24 || w == 25 then 13 else 0

/-! ## Global addresses (Table 2.1) -/

def gaNode (a : Nat) : Nat := a / 2 ^ 49 % 2 ^ 15
def gaSeg (a : Nat) : Nat := a / 2 ^ 46 % 8
def gaSpace (a : Nat) : Nat := a / 2 ^ 44 % 4
def gaOff (a : Nat) : Nat := a % 2 ^ 44
/-- A global address from its fields. -/
def gaMake (node seg space off : Nat) : Nat := node * 2 ^ 49 + seg * 2 ^ 46 + space * 2 ^ 44 + off

/-- Whether a global address lies on the segment itself. -/
def Segment.owns (g : Segment) (a : Nat) : Bool := gaNode a == g.node.toNat && gaSeg a == g.segId.toNat

/-- The bytes present in a space (R46). -/
def Segment.size (g : Segment) (space : Nat) : Nat := if space == 0 then g.hbmSize else if space == 1 then g.spSize else 0

/-- Whether a range of a space is present. -/
def Segment.present (g : Segment) (space off len : Nat) : Bool := off + len ≤ g.size space

def Segment.mem (g : Segment) (space : Nat) : Memory := if space == 0 then g.hbm else g.sp

def Segment.setMem (g : Segment) (space : Nat) (m : Memory) : Segment :=
  if space == 0 then { g with hbm := m } else { g with sp := m }

/-- The 128 bytes of a line of a space, by its index. -/
def Segment.line (g : Segment) (space idx : Nat) : List Byte := memBytes (g.mem space) (idx * 128) 128

/-- Bytes written to a space. -/
def Segment.put (g : Segment) (space off : Nat) (bs : List Byte) : Segment := g.setMem space (memPut (g.mem space) off bs)

/-- Bytes of local HBM. -/
def Segment.hbmBytes (g : Segment) (off n : Nat) : List Byte := memBytes g.hbm off n

/-- The answer of a control access. -/
def Segment.answer (g : Segment) (status : BitVec 4) (data : Word) : Segment := { g with acc := { status := status, data := data } }

end Sys2Proof.Machine
end

