-- ==== Sys2Proof/Machine/Rings.lean ====
section
/-! DEFINITION. Completion rings (R166, R167) and CRC-32. -/

namespace Sys2Proof.Machine

open Sys2Proof

/-! ## CRC-32 of IEEE 802.3 -/

/-- One bit of the reflected CRC-32. -/
def crc32Bit (c : Nat) : Nat := if c % 2 == 1 then Nat.xor (c / 2) 0xEDB88320 else c / 2

/-- One byte of the CRC-32. -/
def crc32Byte (c : Nat) (b : Byte) : Nat :=
  crc32Bit (crc32Bit (crc32Bit (crc32Bit (crc32Bit (crc32Bit (crc32Bit (crc32Bit (Nat.xor c b.toNat))))))))

/-- The CRC-32 of a byte list. -/
def crc32 (bs : List Byte) : BitVec 32 := BitVec.ofNat 32 (Nat.xor (bs.foldl crc32Byte 0xFFFFFFFF) 0xFFFFFFFF)

/-! ## Rings -/

/-- Whether a ring is full under the consumer index last read (R167). -/
def Ring.isFull (r : Ring) : Bool := (r.written + 2 ^ 32 - r.headSeen) % 2 ^ 32 ≥ 2 ^ r.log2

/-- The space and offset of byte `off` of a ring. -/
def Ring.place (r : Ring) (off : Nat) : Nat × Nat :=
  match r.parts.find? fun p => p.off ≤ off && off < p.off + p.len with
  | some p => (p.space, p.at_ + (off - p.off))
  | none => (0, r.base + off)

/-- The consumer index read from memory. -/
def Segment.ringHead (g : Segment) (r : Ring) : Ring := { r with headSeen := memNat (g.mem r.headSpace) r.head 4 }

/-- The consumer index read where the ring appears full for the first time; while it stays full it is read in its turn (R167). -/
def Segment.ringSee (g : Segment) (r : Ring) : Ring := if r.isFull && r.pollAt.isNone then g.ringHead r else r

/-- The consumer index of a ring that stays full, read every 1,024 cycles (R167). -/
def Segment.ringPoll (g : Segment) (cycle : Nat) (r : Ring) : Ring :=
  match r.pollAt with
  | some t => if t ≤ cycle then { g.ringHead r with pollAt := some (cycle + 1024) } else r
  | none => r

/-- A ring that has become full in a cycle is read again 1,024 cycles later (R167). -/
def Ring.pollFrom (r : Ring) (cycle : Nat) : Ring :=
  if r.fullSince.isSome && r.pollAt.isNone then { r with pollAt := some (cycle + 1024) } else r

/-- A ring found full, its episode as it began (R167). -/
def Ring.stuck (r : Ring) (tick : Nat) : Ring := { r with fullSince := some (r.fullSince.getD tick) }

/-- Whether a ring full for 50,000 ticks has its record still to come (R167). -/
def Ring.overdue (r : Ring) (tick : Nat) : Bool := r.fullSince.any fun t => !r.fullFault && t + 50000 ≤ tick

/-- A ring that is full no longer. -/
def Ring.loose (r : Ring) : Ring := { r with fullSince := none, fullFault := false, pollAt := none }

/-- A record written at the ring's place, with PHASE in bit 7 of the byte `ph`, and where `stamp` says so SEG_TICK in
bytes 12 to 15 (R166). -/
def Segment.ringWrite (g : Segment) (tick ph : Nat) (stamp : Bool) (r : Ring) (x : RingRec) : Segment × Ring :=
  let first := r.written / 2 ^ r.log2 % 2 == 0
  let bs := if stamp then x.bytes.take 12 ++ natBytes (g.coarseTick tick) 4 else x.bytes
  let bs := modAt bs ph fun b => if first then b ||| 0x80 else b
  let (sp, at_) := r.place (16 * (r.written % 2 ^ r.log2))
  let g := g.put sp at_ bs
  let g := match x.irq with | some n => g.irq n | none => g
  (g, { r with written := (r.written + 1) % 2 ^ 32 })

/-- The records that wait are written while the ring has space; the consumer index is read when the ring appears full
(R167). Answers also whether a record that ends a trail was written. -/
def Segment.ringDrain (g : Segment) (tick ph : Nat) (stamp : Bool) : Nat → Ring → Segment × Ring × Bool
  | 0, r => (g, r, false)
  | k + 1, r =>
    match r.waiting with
    | [] => (g, r.loose, false)
    | x :: rest =>
      let r := g.ringSee r
      if r.isFull then (g, r.stuck tick, false)
      else
        let (g, r) := g.ringWrite tick ph stamp { r with waiting := rest, pollAt := none } x
        let (g, r, e) := g.ringDrain tick ph stamp k r
        (g, r, e || x.last)

/-- A record offered to a ring (R167). -/
def Segment.ringPush (g : Segment) (tick ph : Nat) (stamp : Bool) (r : Ring) (x : RingRec) : Segment × Ring × Bool :=
  g.ringDrain tick ph stamp (r.waiting.length + 2) { r with waiting := r.waiting ++ [x] }

end Sys2Proof.Machine
end

