-- ==== Sys2Proof/Machine/Crypto.lean ====
section
/-! DEFINITION. Key derivation (R503), over the hash that Config leaves uninterpreted. -/

namespace Sys2Proof.Machine

open Sys2Proof

/-- HMAC-SHA-384: a key longer than the block of 128 bytes is hashed first. -/
def hmac384 (key msg : List Byte) : List Byte :=
  let k := padTo 128 (if key.length > 128 then Config.sha384 key else key)
  Config.sha384 ((k.map fun b => b ^^^ 0x5C) ++ Config.sha384 ((k.map fun b => b ^^^ 0x36) ++ msg))

/-- The blocks T(i), T(i + 1) and so on of the expand step. -/
def hkdfBlocks (prk info : List Byte) : Nat → Nat → List Byte → List Byte
  | 0, _, _ => []
  | k + 1, i, prev =>
    let t := hmac384 prk (prev ++ info ++ [BitVec.ofNat 8 i])
    t ++ hkdfBlocks prk info k (i + 1) t

/-- The key derivation of R503: extract with 48 zero bytes as salt, then expand with the label and the context. -/
def kdf (key label ctx : List Byte) (n : Nat) : List Byte :=
  (hkdfBlocks (hmac384 (List.replicate 48 0) key) (label ++ ctx) ((n + 47) / 48) 1 []).take n

end Sys2Proof.Machine
end

