-- ==== Sys2Proof/Machine/Power.lean ====
section
/-! DEFINITION. Power domains and the energy account (R43, R435 to R446): the operations the other units use. The
steps of the power manager are in PowerSteps. -/

namespace Sys2Proof.Machine

open Sys2Proof

/-! ## Domains (Table 1.8) -/

def domKeeper : Nat := 1
def domSteward : Nat := 2
def domQuad (q : Nat) : Nat := 3 + q
def domRouter : Nat := 7
def domReduction : Nat := 8
def domBank (b : Nat) : Nat := 9 + b
def domTx (p : Nat) : Nat := 21 + p
def domRx (p : Nat) : Nat := 27 + p
def domBridge : Nat := 33
def domRange : Nat := 34

/-- The domain a core lies in (Table 15.1). -/
def coreDomain (c : Nat) : Nat := if c == 16 then domKeeper else if c == 17 then domSteward else domQuad (c / 4)

/-- The domains a domain needs (Table 1.8). -/
def needs (d : Nat) : List Nat :=
  if 3 ≤ d && d ≤ 6 then [7, 34] else if d == 8 || (21 ≤ d && d ≤ 33) then [7] else []

/-- Bit d of PWR_REQ as driven, and of PWR_ACK as sampled. -/
def Segment.pwrReq (g : Segment) (d : Nat) : Bool := (g.fld F.PWR_DOMAIN_REQ_REQ).testBit d
def Segment.pwrAck (g : Segment) (d : Nat) : Bool := (g.fld F.PWR_DOMAIN_STATE_AWAKE).testBit d

/-- A bit of a field set or cleared. -/
def Segment.setBitOf (g : Segment) (f : Fld) (d : Nat) (v : Bool) : Segment :=
  let n := g.fld f
  g.setFld f (if v then n ||| 2 ^ d else if n.testBit d then n - 2 ^ d else n)

/-- Whether a domain is awake: requested and powered. -/
def Segment.awake (g : Segment) (d : Nat) : Bool := g.pwrReq d && g.pwrAck d

/-- The tick from which a domain is usable, 40 ticks before its wake time of Table 11.1 having gone with PWR_ACK (R435, R438). -/
def usableAfter (d : Nat) : Nat :=
  if 3 ≤ d && d ≤ 6 then 35 else if d == 7 || (21 ≤ d && d ≤ 33) then 60 else 10

/-- Whether the fast clock runs, which every domain but AON needs to leave reset (R41, R42). -/
def Segment.clocked (g : Segment) : Bool := g.boot.pllAt.isSome

/-- Whether a domain is awake and its wake time has passed. -/
def Segment.usable (g : Segment) (tick d : Nat) : Bool :=
  (d == 0 || g.clocked) && g.awake d && (match lookupKey d g.pwr.usable with | some t => t ≤ tick | none => true)

/-- Whether the window's remaining budget allows a governed activity (R446). The first window after reset has no budget
in the spec: DESIGN CHOICE (log 23), none is applied. Class 3 applies while the word CLASS is lost (Table 12.3). -/
def Segment.budgetOk (g : Segment) (pj : Nat) : Bool :=
  g.pwr.fresh || (g.fld F.PWR_RAMP_CLASS == 0 && !(g.fld F.HMP_CRIT_WORD_LOST).testBit 5) || g.pwr.pj + g.pwr.charged + pj ≤ g.pwr.budget

/-- Governed work waits (Table 11.4, LIMITING). -/
def Segment.governedWait (g : Segment) : Segment := { g with pwr := { g.pwr with waited := true, waitedMs := true, limiting := true } }

/-- The energy that governs the wake of a courier quad or of the reduction array: one window of its static term (R446). -/
def wakeCost (d : Nat) : Nat := if 3 ≤ d && d ≤ 6 then 600000 else if d == 8 then 300000 else 0

/-- PWR_REQ[d] rises (R435). -/
def Segment.raiseReq (g : Segment) (tick d : Nat) : Segment :=
  let g := (g.setBitOf F.PWR_DOMAIN_REQ_REQ d true).bump F.PWR_WAKE_COUNT_WAKES
  { g with pwr := { g.pwr with reqAt := insertKey d tick g.pwr.reqAt, timedOut := g.pwr.timedOut.erase d,
                               pending := g.pwr.pending.erase d, charged := g.pwr.charged + wakeCost d } }

/-- A wake that waits. -/
def Segment.wakeLater (g : Segment) (d : Nat) : Segment :=
  { g with pwr := { g.pwr with pending := if g.pwr.pending.contains d then g.pwr.pending else g.pwr.pending ++ [d] } }

/-- A sleep decided in this cycle is undone by a wake event (R441): the domain stays awake, and no drop was taken. -/
def Segment.unsleep (g : Segment) (d : Nat) : Segment :=
  { g.setBitOf F.PWR_DOMAIN_REQ_REQ d true with pwr := { g.pwr with
      lastDrop := (lookupKey d g.pwr.slept).getD g.pwr.lastDrop
      slept := eraseKey d g.pwr.slept
      woke := d :: g.pwr.woke } }

/-- A wake event of one domain (R41, R43, R435, R441, R446): its PWR_REQ rises, at once or, where the PLL is not locked, a domain it needs
is not awake, its own PWR_ACK has not fallen or the budget does not allow it, later. The keeper or the steward that halted in a domain
still awake goes on. A fenced bank stays asleep (R472). -/
def Segment.wakeOne (g : Segment) (tick d : Nat) : Segment :=
  if d == 0 || (9 ≤ d && d ≤ 20 && g.fld (F.HMP_BANK_STATUS_STATE.bank (d - 9)) == 3) then g
  else if (lookupKey d g.pwr.slept).isSome && g.pwrAck d then g.unsleep d
  else if g.pwrReq d then
    let g := if g.pwr.woke.contains d then g else { g with pwr := { g.pwr with woke := d :: g.pwr.woke } }
    let c := if d == domKeeper then 16 else 17
    if (d == domKeeper || d == domSteward) && g.pwrAck d then
      { g with cores := modAt g.cores c fun k => if k.st == .asleep then { k with st := .running } else k }
    else g
  else if !g.clocked || g.pwrAck d || !(needs d).all g.awake then g.wakeLater d
  else if wakeCost d != 0 && !g.budgetOk (wakeCost d) then g.governedWait.wakeLater d
  else g.raiseReq tick d

/-- A wake event: the domains a domain needs are woken first (R43). -/
def Segment.wakeDom (g : Segment) (tick d : Nat) : Segment := ((needs d).foldl (fun g e => g.wakeOne tick e) g).wakeOne tick d

/-- The domains of an access are woken, where they sleep (R440). -/
def State.wakeFor (s : State) (sg : Nat) (ds : List Nat) : State :=
  s.mod sg fun g => ds.foldl (fun (g : Segment) d => g.wakeDom s.tick d) g

/-- Runs the effect of an agent's access to a register of some domains: those asleep are woken (R440). The access takes effect at once
(DEDUCED, log 31), but for a fast clock that does not run: its domains are held in reset, and the access waits (R41, R42). -/
def onDoms (sg : Fin 8) (ag : Agent) (ds : List Nat) (s : State) (f : State → State) : Out :=
  onCtl sg ag s fun s =>
    let t := s.wakeFor sg ds
    if ds.isEmpty || (s.seg sg).clocked then f t else t

/-- The wakes that wait are tried again. -/
def Segment.wakePending (g : Segment) (tick : Nat) : Segment := g.pwr.pending.foldl (fun (g : Segment) d => g.wakeOne tick d) g

/-- A domain is isolated, its power lowered and raised (R551): its PWR_REQ falls, rises again once PWR_ACK has fallen, and it
restarts when PWR_ACK has risen. -/
def Segment.cycleDom (g : Segment) (tick d : Nat) : Segment :=
  let g := g.setBitOf F.PWR_DOMAIN_REQ_REQ d false
  let g := { g with pwr := { g.pwr with reqAt := eraseKey d g.pwr.reqAt, timedOut := g.pwr.timedOut.erase d,
                                        usable := eraseKey d g.pwr.usable,
                                        restart := if g.pwr.restart.contains d then g.pwr.restart else g.pwr.restart ++ [d] } }
  if g.pwrAck d || !g.clocked then g.wakeLater d else g.raiseReq tick d

/-! ## Energy (R443, R446) -/

/-- Per-event energy charged to the window, in pJ. -/
def Segment.charge (g : Segment) (pj : Nat) : Segment := { g with pwr := { g.pwr with pj := g.pwr.pj + pj } }

/-- An access to the hamper, with its energy: any bank that sleeps is woken (Table 11.1). DESIGN CHOICE (log 26): the model does not
say which bank an access falls in, since every reservation spans the banks. -/
def Segment.chargeHmp (g : Segment) (pj : Nat) : Segment :=
  let g := g.charge pj
  let asleep := (List.range 12).filter fun b =>
    !g.pwrReq (domBank b) && g.fld (F.HMP_BANK_STATUS_STATE.bank b) < 2 && !g.pwr.pending.contains (domBank b)
  { g with pwr := { g.pwr with pending := g.pwr.pending ++ asleep.map domBank
                               idleSince := g.pwr.idleSince.filter fun x => !(9 ≤ x.1 && x.1 ≤ 20) } }

/-- A governed activity charged at a static term for one window, in pJ. -/
def Segment.chargeHeld (g : Segment) (pj : Nat) : Segment := { g with pwr := { g.pwr with charged := g.pwr.charged + pj } }

end Sys2Proof.Machine
end

