-- ==== Sys2Proof/Machine/Critical.lean ====
section
/-! DEFINITION. The critical words and their writes (R474 to R477). -/

namespace Sys2Proof.Machine

open Sys2Proof

def Segment.modHmp (g : Segment) (f : Hmp → Hmp) : Segment := { g with hmp := f g.hmp }

/-- Whether a critical word is lost: 0 epoch state, 1 CLV_HC_BASE, 2 XLT_CTX_BASE, 3 XLT_GUARD_BASE, 4 XLT_GUARD_SIZE,
5 CLASS, and 8 + n for key slot n. -/
def Segment.critLost (g : Segment) (w : Nat) : Bool :=
  if 8 ≤ w then (g.kpr.slots.getD (w - 8) {}).lost else (g.fld F.HMP_CRIT_WORD_LOST).testBit w

/-- A key slot replaced. -/
def Segment.modKey (g : Segment) (n : Nat) (f : KeySlot → KeySlot) : Segment := { g with kpr := { g.kpr with slots := modAt g.kpr.slots n f } }

/-- A write of a critical word ends its loss and every disagreement, while two copies or more are held; the epoch state stays lost until
warm reset (R475, R477, Table 12.3). -/
def Segment.critWrite (g : Segment) (w : Nat) : Segment :=
  let g := g.modHmp fun h => { h with odd := h.odd.filter fun o => o.1 != w }
  let g := if 8 ≤ w then g else g.setBitOf F.HMP_CRIT_WORD_DISAGREE w false
  if (g.hmp.critHeld.filter id).length ≥ 2 then
    if 8 ≤ w then g.modKey (w - 8) fun k => { k with lost := false }
    else
      let g := if w == 0 then g else g.setBitOf F.HMP_CRIT_WORD_LOST w false
      if g.fld F.HMP_CRIT_WORD_LOST == 0 then g.setFld F.HMP_CRIT_LOST 0 else g
  else g

end Sys2Proof.Machine
end

