-- ==== Sys2Proof/Machine/Mailbox.lean ====
section
/-! DEFINITION. The mailboxes (R563 to R568, R572). -/

namespace Sys2Proof

/-- The number of an agent class (Table 14.7). -/
def AgentClass.code : AgentClass → Nat
  | .keeper => 0 | .steward => 1 | .hostDriver => 2 | .chipProcessor => 3 | .diePort => 4 | .pacing => 5 | .remote => 6 | .jtag => 7

/-- The agents of the host die (Table 14.7): the driver, the chip processor and others of the die port. -/
def Agent.isHost (a : Agent) : Bool := a.cls == .hostDriver || a.cls == .chipProcessor || a.cls == .diePort

/-- Whether an agent's send goes before another's of the same cycle (R565): the lower CLASS, then the lower SEG. -/
def Agent.sendsBefore (a b : Agent) : Bool :=
  a.cls.code < b.cls.code || (a.cls.code == b.cls.code && a.seg.toNat < b.seg.toNat)

/-- The 24-bit sender identity of an agent (R564). -/
def Agent.identity (a : Agent) : Nat := a.cls.code * 2 ^ 20 + a.seg.toNat * 2 ^ 17 + a.ctx.toNat

end Sys2Proof

namespace Sys2Proof.Machine

open Sys2Proof

def Segment.chan (g : Segment) (ch : Nat) : Mbx := g.mbx.getD ch {}

def Segment.modChan (g : Segment) (ch : Nat) (f : Mbx → Mbx) : Segment := { g with mbx := modAt g.mbx ch f }

/-- The receiving class of a channel; channels 0 to 7 are the keeper's (R563). -/
def Segment.recvClass (g : Segment) (ch : Nat) : Nat := if ch < 8 then 0 else g.fld (F.MBX_CFG_RECV_CLASS.mbx ch)

/-- Whether a class may send on a channel (R563, Table 14.9). -/
def Segment.maySend (g : Segment) (ch cls : Nat) : Bool :=
  if ch < 8 then cls != 0 else (g.fld (F.MBX_CFG_SEND_MASK.mbx ch)).testBit cls

/-- The RETRY_AFTER code of a number of milliseconds (Table 13.4). -/
def retryCode (ms : Nat) : BitVec 16 := BitVec.ofNat 16 (0x8000 + ms)

/-- The time of R510: KPR_UPDATE.EST less the ticks since the reset began, in whole ms, 1 to 32,767. -/
def retryMs (est since : Nat) : Nat := min 32767 (max 1 ((est - since + 49999) / 50000))

/-- The answer of the AON unit to a notice to a keeper that is in reset or scrubbing (R510, R549, R568); none while
the keeper accepts notices. -/
def Segment.keeperAway (g : Segment) (tick : Nat) : Option (BitVec 16) :=
  match g.kpr.resetAt with
  | some t => some (retryCode (retryMs (g.fld F.KPR_UPDATE_EST) (tick - t)))
  | none => if g.fld F.SEG_BOOT_STAGE == 10 then some (retryCode (retryMs (g.fld F.KPR_UPDATE_EST) 0)) else none

/-- The line of a channel raised for a host-die agent (Table 14.9). -/
def Segment.mbxIrq (g : Segment) (ch : Nat) : Segment :=
  if g.fld (F.MBX_CFG_IRQ_EN.mbx ch) == 1 then g.irq (g.fld (F.MBX_CFG_IRQ_LINE.mbx ch)) else g

/-- Whether a send succeeds (R565). A channel of receiving class 15 is disabled (R563). -/
def Segment.sendOk (g : Segment) (ch : Nat) (ag : Agent) (notice : BitVec 16) : Bool :=
  let m := g.chan ch
  (m.st == .empty || m.st == .acked || m.st == .timeout) && m.writer == some ag && g.maySend ch ag.cls.code && notice != 0 &&
  g.recvClass ch != 15

/-- A message enters a channel and its receiver wakes (R565); a keeper that is away answers through the AON unit (R568). -/
def Segment.post (g : Segment) (tick ch : Nat) (ag : Agent) (ptr : Word) (notice : BitVec 16) : Segment :=
  let full (m : Mbx) : Mbx := { m with st := .full, sender := some ag, msgPtr := ptr, notice := notice, since := tick, lost := false }
  match if g.recvClass ch == 0 then g.keeperAway tick else none with
  | some code => g.modChan ch fun m => { (full m) with st := .acked, code := code }
  | none =>
    let g := g.modChan ch full
    if g.recvClass ch == 0 then g.wakeDom tick domKeeper
    else if g.recvClass ch == 1 then g.wakeDom tick domSteward
    else g.mbxIrq ch


/-- A channel as a send meets it: where a message of the segment's own filled it in this cycle, and the send goes before that one, as it
was before. -/
def Segment.sendFirst (g : Segment) (ch : Nat) (ag : Agent) : Segment :=
  match lookupKey ch g.mbxWas, (g.chan ch).sender with
  | some m, some a => if ag.sendsBefore a then { (g.modChan ch fun _ => m) with mbxWas := eraseKey ch g.mbxWas } else g
  | _, _ => g

/-- A send (R565): a refused one changes nothing and is counted. Of the sends of one cycle the first by CLASS and SEG succeeds. -/
def Segment.send (g : Segment) (tick ch : Nat) (ag : Agent) (notice : BitVec 16) : Segment :=
  let h := g.sendFirst ch ag
  if g.sendOk ch ag notice then g.post tick ch ag (g.chan ch).ptr notice
  else if h.sendOk ch ag notice then (h.bump (F.MBX_STATUS_REFUSED.mbx ch)).post tick ch ag (h.chan ch).ptr notice
  else g.bump (F.MBX_STATUS_REFUSED.mbx ch)

/-- Pointer and send in one: the segment's own messages. -/
def Segment.notify (g : Segment) (tick ch : Nat) (ag : Agent) (ptr : Word) (notice : BitVec 16) : Segment :=
  let h := g.modChan ch fun m => { m with ptr := ptr, writer := some ag }
  let h := if h.sendOk ch ag notice then { h with mbxWas := insertKey ch (g.chan ch) h.mbxWas } else h
  h.send tick ch ag notice

/-- MBX_PTR_WRITE (R565): the pointer, and the identity of its writer. -/
def execMbxPtrWrite (sg : Fin 8) (ch : Fin 64) (ag : Agent) (v : Word) (s : State) : Out :=
  onCtl sg ag s fun s => s.mod sg fun g => (g.modChan ch fun m => { m with ptr := v, writer := some ag }).answer csOk 0

/-- MBX_SEND (R565). -/
def execMbxSend (sg : Fin 8) (ch : Fin 64) (ag : Agent) (notice : BitVec 16) (s : State) : Out :=
  onCtl sg ag s fun s => s.mod sg fun g => (g.send s.tick ch ag notice).answer csOk 0

/-- MBX_RECV as a word. -/
def Mbx.recvWord (m : Mbx) : Word :=
  BitVec.ofNat 64 (((m.sender.map Agent.identity).getD 0) * 2 ^ 16 + m.notice.toNat)

/-- Whether a read takes the message (R566). -/
def Segment.takes (g : Segment) (ch : Nat) (ag : Agent) : Bool := (g.chan ch).st == .full && ag.cls.code == g.recvClass ch

/-- The place of the next message that is taken in the order of those that are TAKEN (R502). -/
def Segment.nextOrder (g : Segment) : Nat := g.mbx.foldl (fun n m => if m.st == .taken then max n m.order else n) 0 + 1

/-- Whether a request that the keeper has TAKEN waits for one taken before it (R502); a teardown stops a load (R537). -/
def Segment.keeperWaits (g : Segment) (ch : Nat) : Bool :=
  let m := g.chan ch
  (List.range 64).any fun k =>
    let x := g.chan k
    x.st == .taken && !x.lost && g.recvClass k == 0 && x.order < m.order && !(m.notice == 0x6003 && x.notice == 0x6002)

/-- MBX_RECV (R566): a read by the receiving class of a FULL channel takes the message; any other read returns zero. -/
def Segment.recv (g : Segment) (ch : Nat) (ag : Agent) : Segment :=
  if g.takes ch ag then (g.modChan ch fun m => { m with st := .taken, order := g.nextOrder }).answer csOk (g.chan ch).recvWord
  else g.answer csOk 0

/-- MBX_ACK (R566): a code by the receiving class of a TAKEN channel moves it to ACKED. -/
def Segment.acknowledge (g : Segment) (ch : Nat) (ag : Agent) (code : BitVec 16) : Segment :=
  if (g.chan ch).st == .taken && ag.cls.code == g.recvClass ch then g.modChan ch fun m => { m with st := .acked, code := code }
  else g

/-- MBX_ACK (R566, R567). -/
def execMbxAck (sg : Fin 8) (ch : Fin 64) (ag : Agent) (code : BitVec 16) (s : State) : Out :=
  onCtl sg ag s fun s => s.mod sg fun g => (g.acknowledge ch ag code).answer csOk 0

/-- A channel FULL for its TIMEOUT ticks withdraws the message (R567). -/
def Segment.mailTimeout (g : Segment) (tick ch : Nat) : Segment :=
  let m := g.chan ch
  let lim := g.fld (F.MBX_CFG_TIMEOUT.mbx ch)
  if m.st == .full && lim != 0 && tick ≥ m.since + lim then
    let g := g.modChan ch fun m => { m with st := .timeout }
    let g := g.raise tick { cls := 28, unit := 3, index := ch, info := BitVec.ofNat 32 ch }
    let host : Bool := match m.sender with
      | some a => a.isHost
      | none => false
    if host then g.mbxIrq ch else g
  else g

/-- MBX_CFG_WRITE (R572, R568): KO fields; a change of the receiving class while the channel is not EMPTY withdraws the
message. -/
def execMbxCfgWrite (sg : Fin 8) (ch : Fin 64) (ag : Agent) (sz : Sz) (v : Word) (s : State) : Out :=
  onCtl sg ag s fun s =>
    let g := s.seg sg
    let off := 0x30000 + 64 * ch.val
    if !ag.isKeeper then s.setSeg sg ((g.accessFault s.tick 3 off v).answer csOk 0)
    else
      let old := g.reg off
      let m : Word := if ch.val < 8 then 0x00FFFFFF0000F800 else 0x00FFFFFFFFFFF80F
      let v' := match sz with
        | .w64 => v
        | .lo32 => setBits old 31 0 (v.toNat % 2 ^ 32)
        | .hi32 => setBits old 63 32 (v.toNat % 2 ^ 32)
      let was := g.recvClass ch
      let g := g.setReg off ((old &&& ~~~m) ||| (v' &&& m))
      let g := if g.recvClass ch != was && (g.chan ch).st != .empty then g.modChan ch fun m => { m with st := .timeout } else g
      s.setSeg sg (g.answer csOk 0)

end Sys2Proof.Machine
end

