-- ==== Sys2Proof/Machine/Ranges.lean ====
section
/-! DEFINITION. Range translation (R120, R289 to R292), the guard check at the home (R293 to R297), fabric-homed
regions and pool frames (R314 to R318), and the access counters (R305). -/

namespace Sys2Proof.Machine

open Sys2Proof

/-- The table a context's addresses are searched in: none where the context has no ranges (R283). -/
def Segment.ctxEntry (g : Segment) (c : BitVec 12) : Option CtxEntry :=
  if c == 0 then (if g.xlt.sysValid then some g.xlt.sys else none)
  else (g.xlt.resident.find? fun r => r.ctx == c).map Resident.entry

/-- A context whose entry has PRIVILEGED set. -/
def Segment.privileged (g : Segment) (c : BitVec 12) : Bool :=
  match g.ctxEntry c with
  | some e => e.privileged
  | none => false

/-- The VA_START of entry `i` of a range table. -/
def Segment.rangeVa (g : Segment) (e : CtxEntry) (i : Nat) : Nat := memNat g.hbm (e.rangeBase + 32 * i) 8

/-- The bisection of R291: how many entries lie at or below the address, by the probes it makes. -/
def Segment.bisect (g : Segment) (e : CtxEntry) (va : Nat) : Nat → Nat → Nat → Nat
  | 0, lo, _ => lo
  | k + 1, lo, hi =>
    if lo < hi then
      let mid := (lo + hi) / 2
      if g.rangeVa e mid ≤ va then g.bisect e va k (mid + 1) hi else g.bisect e va k lo mid
    else lo

/-- Whether a 32-byte range entry is one that R291 refuses: a reserved bit, a misaligned field, a length out of range. -/
def badRange (b : List Byte) : Bool :=
  let va := field b 0 8
  let len := field b 8 8
  let tgt := field b 16 8
  va % 65536 != 0 || va ≥ 2 ^ 48 || len % 65536 != 0 || len == 0 || len > 2 ^ 44 || tgt % 65536 != 0 ||
  field b 24 1 ≥ 8 || !zeros b 25 7

/-- The outcome of a search of the range table (R291): the entry that covers the address, if any, and whether an
entry was refused. -/
def Segment.searchRange (g : Segment) (c : BitVec 12) (va : Nat) : Option RangeEntry × Bool :=
  match g.ctxEntry c with
  | none => (none, false)
  | some e =>
    let k := g.bisect e va 17 0 e.rangeCount
    if k == 0 || va ≥ 2 ^ 48 then (none, false)
    else
      let b := g.hbmBytes (e.rangeBase + 32 * (k - 1)) 32
      if badRange b then (none, true)
      else
        let r : RangeEntry :=
          { ctx := c, va := field b 0 8, len := field b 8 8, target := field b 16 8, perm := BitVec.ofNat 3 (field b 24 1) }
        if va < r.va + r.len && gaOff r.target + r.len ≤ 2 ^ 44 then (some r, false) else (none, false)

/-- What translating a side gives. -/
inductive Tr where
  | ok (pieces : List Piece) (used : List RangeEntry)
  | bad (status : BitVec 4)
  | miss (va : Nat)
  deriving DecidableEq, Repr

/-- The cached entry that covers an address. -/
def Segment.cached (g : Segment) (c : BitVec 12) (va : Nat) : Option RangeEntry :=
  g.xlt.cache.find? fun r => r.ctx == c && r.va ≤ va && va < r.va + r.len

/-- The walk of R120 upward from the lowest byte of a span. `unc` are the addresses that searches found uncovered. -/
def Segment.walk (g : Segment) (c : BitVec 12) (need : BitVec 3) (unc : List Nat) :
    Nat → Nat → Nat → List Piece → List RangeEntry → Bool → Tr
  | 0, _, _, _, _, _ => .bad csDenied
  | k + 1, va, len, acc, used, lack =>
    if len == 0 then (if lack then .bad csDenied else .ok acc.reverse used)
    else if va ≥ 2 ^ 48 || (g.ctxEntry c).isNone || unc.contains va then .bad csUnmapped
    else
      match g.cached c va with
      | none => .miss va
      | some r =>
        if k == 0 then .bad csDenied
        else
          let n := min len (r.va + r.len - va)
          let p : Piece := { va := va, len := n, ga := r.target + (va - r.va), count := r.perm.getLsbD 2, entVa := r.va, entLen := r.len }
          g.walk c need unc k (va + n) (len - n) (p :: acc) (r :: used) (lack || r.perm &&& need != need)

/-- Translation of a span of a context for a need: 1 READ, 2 WRITE, 3 both (R290). -/
def Segment.translate (g : Segment) (c : BitVec 12) (va len : Nat) (need : BitVec 3) (unc : List Nat) : Tr :=
  g.walk c need unc 5 va len [] [] false

/-- The cache with the entries used brought to the front (R292). -/
def Segment.touch (g : Segment) (used : List RangeEntry) : Segment :=
  { g with xlt := { g.xlt with cache := used.reverse ++ g.xlt.cache.filter fun r => !used.contains r } }

/-- A fill, replacing the least recently used entry (R292). -/
def Segment.fillRange (g : Segment) (r : RangeEntry) : Segment :=
  { g with xlt := { g.xlt with cache := (r :: g.xlt.cache.filter fun x => x != r).take 16384 } }

/-- The global address of a byte of a translated span. -/
def pieceAt (ps : List Piece) (va : Nat) : Option Nat :=
  match ps.find? fun p => p.va ≤ va && va < p.va + p.len with
  | some p => some (p.ga + (va - p.va))
  | none => none

/-! ## Guard words (Table 7.5) -/

/-- The size of a region: 2 MiB. -/
def regionSize : Nat := 0x200000

/-- The guard-table index of a location; none beyond the guarded counts (R293). -/
def Segment.guardIdx (g : Segment) (space off : Nat) : Option Nat :=
  let hr := g.fld F.XLT_GUARD_SIZE_HBM_REGIONS
  let r := off / regionSize
  if space == 0 then (if r < hr then some r else none)
  else if space == 1 then (if r < g.fld F.XLT_GUARD_SIZE_SP_REGIONS then some (hr + r) else none)
  else none

/-- The guard word of an index as HBM holds it; VALID 0 beyond present HBM (R295). -/
def Segment.guardMem (g : Segment) (idx : Nat) : BitVec 32 :=
  let a := g.fld F.XLT_GUARD_BASE_BASE * 4096 + 4 * idx
  if g.present 0 a 4 then BitVec.ofNat 32 (memNat g.hbm a 4) else 0

/-- The roles of Table 2.6: reader, writer, updater. -/
inductive Role where
  | reader | writer | updater
  deriving DecidableEq, Repr, Inhabited

/-- The test of R294 of a guard word. -/
def guardPass (w : BitVec 32) (c : BitVec 12) (role : Role) : Bool :=
  let own := c == w.truncate 12
  let rd := w.getLsbD 26
  let wr := w.getLsbD 27
  w.getLsbD 31 &&
    ((own && (match role with | .reader => rd | .writer => wr | .updater => rd && wr)) ||
     (role == .reader && w.getLsbD 28) || (c == 0 && !w.getLsbD 30))

/-- Whether an offset of space 00 lies in the segment's fabric-homed window (R317). -/
def Segment.inWindow (g : Segment) (off : Nat) : Bool :=
  let b := g.fld F.PLC_FH_WINDOW_BASE
  let r := off / regionSize
  b ≤ r && r < b + g.fld F.PLC_FH_WINDOW_REGIONS

/-- The homing-table key of region `r` of segment `l`'s window (R318). -/
def homingKey (l r : Nat) : Nat := l * 4096 + r

/-- Whether an offset of space 00 lies in a frame of the blanket's pool (R297, R314). -/
def Segment.inPool (g : Segment) (off : Nat) : Bool :=
  let b := g.fld F.PLC_POOL_BASE
  let r := off / regionSize
  b ≤ r && r < b + g.fld F.PLC_POOL_FRAMES

/-- Whether a command on fabric-homed regions is in progress (R319, Table 7.11). -/
def Plc.fhBusy (p : Plc) : Bool := !p.declaring.isEmpty || !p.releasing.isEmpty

/-! ## Context table entries (Table 7.1) -/

/-- Where a context's entry lies in local HBM. -/
def Segment.ctxEntryAt (g : Segment) (c : BitVec 12) : Nat := g.fld F.XLT_CTX_BASE_BASE * 4096 + 64 * c.toNat

/-- The rucksack fields of an entry, when they are well-formed and covered by local HBM (R288). -/
def Segment.rucksackOk (g : Segment) (b : List Byte) : Bool :=
  let r := field b 16 8
  let n := field b 24 4
  r % 4096 == 0 && n % 4096 == 0 && n ≥ 4096 && r + n ≤ g.hbmSize

/-- The REASON of a check of an entry (R283, Table 7.2): 0, 2 for a field, 3 for coverage. The entry of context 0 has
its rucksack and migration fields ignored. -/
def Segment.checkEntry (g : Segment) (b : List Byte) (sys : Bool) : Nat :=
  let cls := field b 12 1 / 2 % 4
  let mig := !sys && (cls == 1 || cls == 2)
  let fieldsOk :=
    field b 0 8 % 64 == 0 && field b 8 4 ≤ 65536 && field b 12 1 < 8 && zeros b 13 3 && zeros b 30 2 && zeros b 48 16 &&
    (sys || (cls != 3 && !(cls == 2 && field b 12 1 % 2 == 0) && field b 16 8 % 4096 == 0 && field b 24 4 % 4096 == 0 &&
      field b 24 4 ≥ 4096 && field b 28 1 < 32)) &&
    (!mig || (4 ≤ field b 29 1 && field b 29 1 ≤ 12 && field b 32 8 % 16 == 0 && field b 40 8 % 4 == 0))
  let covered :=
    field b 0 8 + 32 * field b 8 4 ≤ g.hbmSize && (sys || field b 16 8 + field b 24 4 ≤ g.hbmSize) &&
    (!mig || (field b 32 8 + 16 * 2 ^ field b 29 1 ≤ g.hbmSize && field b 40 8 + 4 ≤ g.hbmSize))
  if !fieldsOk then 2 else if !covered then 3 else 0

/-- The entry's fields as the segment keeps them. -/
def parseEntry (b : List Byte) : CtxEntry :=
  let n := field b 28 1
  { rangeBase := field b 0 8, rangeCount := field b 8 4, privileged := field b 12 1 % 2 == 1, migrate := field b 12 1 / 2 % 4,
    rucksack := field b 16 8, ruckLen := field b 24 4,
    line := if n.testBit 4 then some (BitVec.ofNat 4 n) else none,
    hotLog2 := field b 29 1, hotRing := field b 32 8, hotHead := field b 40 8 }

/-- Records of a context's rucksack reserved by open groups (R288). -/
def Segment.ruckReserved (g : Segment) (c : BitVec 12) : Nat := (lookupKey c g.xlt.reserved).getD 0

/-! ## Access counters (R305) -/

/-- A counter table of up to 256 regions: the count of a region raised by one, a new region taking the place of
the smallest count, ties to the lowest index. -/
def hotBump (t : List (Nat × Nat)) (region : Nat) : List (Nat × Nat) :=
  if t.any fun x => x.1 == region then modWhere t (fun x => x.1 == region) fun x => (x.1, min 255 (x.2 + 1))
  else
    -- an entry not listed counts 0, behind those listed
    let least := if t.length < 256 then 0 else t.foldl (fun m x => min m x.2) 255
    match t.findIdx? fun x => x.2 == least with
    | some i => modAt t i fun _ => (region, 1)
    | none => t ++ [(region, 1)]

end Sys2Proof.Machine
end

