-- ==== Sys2Proof/Machine/Shapes.lean ====
section
/-! DEFINITION. Shape descriptors and tiles (R174 to R182). -/

namespace Sys2Proof.Machine

open Sys2Proof

/-- A signed field of `k` bytes. -/
def sfield (bs : List Byte) (off k : Nat) : Int :=
  let n := field bs off k
  if n ≥ 2 ^ (8 * k - 1) then (n : Int) - 2 ^ (8 * k) else n

/-- ⌈a / b⌉. -/
def ceilDiv (a b : Nat) : Nat := (a + b - 1) / b

/-- The axis record of R174 at an offset. -/
def parseAxis (bs : List Byte) (off : Nat) : Axis :=
  { srcExt := field bs off 4, dstExt := field bs (off + 4) 4, win := field bs (off + 8) 4, tile := field bs (off + 12) 4,
    srcOrg := sfield bs (off + 16) 4, dstOrg := field bs (off + 20) 4, srcStride := sfield bs (off + 24) 8,
    dstStride := sfield bs (off + 32) 8 }

/-- An axis within the limits of R175. -/
def axisOk (a : Axis) : Bool :=
  a.srcExt < 2 ^ 22 && a.dstExt < 2 ^ 22 && a.win < 2 ^ 22 && a.tile < 2 ^ 22 && a.dstOrg < 2 ^ 22 &&
  a.srcExt != 0 && a.dstExt != 0 && a.win != 0 && a.tile != 0 && a.tile ≤ a.win &&
  -4194303 ≤ a.srcOrg && a.srcOrg ≤ 4194303 && a.dstOrg + a.win ≤ a.dstExt &&
  a.srcStride.natAbs < 2 ^ 44 && a.dstStride.natAbs < 2 ^ 44

/-- The tile line bound L of R175. -/
def tileBound (axes : List Axis) : Nat :=
  match axes with
  | [] => 0
  | a :: r => (ceilDiv (a.tile * a.srcStride.natAbs) 128 + 1) * r.foldl (fun n x => n * x.tile) 1

/-- A shape descriptor read from bytes, with the counts of a clear INDIRECT; none where R175 refuses it. -/
def parseShape (bs : List Byte) : Option Shape :=
  let rank := field bs 0 1
  let elem := field bs 1 1
  let pad := field bs 2 1
  let flags := field bs 3 1
  let axes := (List.range (min rank 5)).map fun a => parseAxis bs (64 + 40 * a)
  let ind := field bs 24 8
  let sig := field bs 32 8
  if rank == 0 || rank > 5 || elem > 4 || pad > 3 || flags > 3 || !zeros bs 4 4 || !zeros bs 56 8 ||
     !zeros bs (40 + 2 ^ elem) (16 - 2 ^ elem) || !axes.all axisOk || tileBound axes > 2048 ||
     (flags % 2 == 1 && ind % 8 != 0) || (flags % 2 == 0 && ind != 0) ||
     (flags / 2 == 1 && sig % 8 != 0) || (flags / 2 == 0 && sig != 0) || (pad != 3 && !zeros bs 40 16) then none
  else some { elem := elem, pad := pad, srcBase := field bs 8 8, dstBase := field bs 16 8,
              sigAddr := if flags / 2 == 1 then some sig else none,
              padValue := (bs.drop 40).take (2 ^ elem), axes := axes, counts := axes.map Axis.win }

/-- INDIRECT_ADDR of a descriptor, when the flag is set (Table 4.9). -/
def shapeIndirect (bs : List Byte) : Option Nat := if field bs 3 1 % 2 == 1 then some (field bs 24 8) else none

/-- The coordinates of position `n` of a box of counts, axis 0 fastest (R178). -/
def unrank (counts : List Nat) (n : Nat) : List Nat :=
  match counts with
  | [] => []
  | c :: r => (n % c) :: unrank r (n / c)

/-- Tiles along each axis. -/
def Shape.tileCounts (s : Shape) : List Nat := (s.axes.zip s.counts).map fun (a, c) => ceilDiv c a.tile

/-- The number of tiles of a window. -/
def Shape.tiles (s : Shape) : Nat := s.tileCounts.foldl (· * ·) 1

/-- What a position of the window is written from. -/
inductive PosSrc where
  | elem (addr : Nat)
  | bytes (bs : List Byte)
  | skip
  deriving DecidableEq, Repr

/-- A sum of strides from a base, as a context address. -/
def strideAddr (base : Nat) (terms : List (Int × Int)) : Nat :=
  (terms.foldl (fun (x : Int) (t : Int × Int) => x + t.1 * t.2) (base : Int) % 2 ^ 64).toNat

/-- The destination address and the source of a position (R176, Table 4.11). -/
def Shape.position (s : Shape) (i : List Nat) : Nat × PosSrc :=
  let ax := s.axes.zip i
  let dst := strideAddr s.dstBase (ax.map fun (a, k) => (((a.dstOrg + k : Nat) : Int), a.dstStride))
  let coord := ax.map fun (a, k) => (a, a.srcOrg + (k : Int))
  let inside := coord.all fun (a, x) => 0 ≤ x && x < (a.srcExt : Int)
  let at_ (xs : List (Axis × Int)) : Nat := strideAddr s.srcBase (xs.map fun (a, x) => (x, a.srcStride))
  if inside then (dst, .elem (at_ coord))
  else if s.pad == 0 then (dst, .skip)
  else if s.pad == 1 then (dst, .bytes (List.replicate (2 ^ s.elem) 0))
  else if s.pad == 2 then (dst, .elem (at_ (coord.map fun (a, x) => (a, max 0 (min x ((a.srcExt : Int) - 1))))))
  else (dst, .bytes s.padValue)

/-- The positions of tile `k`, in walk order (R178). -/
def Shape.tilePositions (s : Shape) (k : Nat) : List (Nat × PosSrc) :=
  let t := unrank s.tileCounts k
  let parts := (s.axes.zip (s.counts.zip t)).map fun (a, c, j) => (j * a.tile, min a.tile (c - j * a.tile))
  let total := parts.foldl (fun n p => n * p.2) 1
  (List.range total).map fun n =>
    s.position (((unrank (parts.map Prod.snd) n).zip parts).map fun (x, p) => p.1 + x)

/-- Every position of the window, in walk order over the whole window (R201). -/
def Shape.positions (s : Shape) : List (Nat × PosSrc) :=
  let total := s.counts.foldl (· * ·) 1
  (List.range total).map fun n => s.position (unrank s.counts n)

/-- The corners of an affine map over a box: the least and greatest sum of coordinate times stride. -/
def boxRange (base : Int) (ranges : List (Int × Int × Int)) : Int × Int :=
  ranges.foldl (fun (lo, hi) (a, b, st) => (lo + min (a * st) (b * st), hi + max (a * st) (b * st))) (base, base)

/-- The destination span of the run-time window (R177): lowest byte and length; none when nothing is written. -/
def Shape.dstSpan (s : Shape) : Option (Nat × Nat) :=
  let inner := (s.axes.zip s.counts).map fun (a, c) =>
    if s.pad == 0 then
      (max 0 (-a.srcOrg), min ((c : Int) - 1) ((a.srcExt : Int) - 1 - a.srcOrg), a)
    else (0, (c : Int) - 1, a)
  if inner.any fun (lo, hi, _) => hi < lo then none
  else
    let (lo, hi) := boxRange s.dstBase (inner.map fun (x, y, a) => ((a.dstOrg : Int) + x, (a.dstOrg : Int) + y, a.dstStride))
    some ((lo % 2 ^ 64).toNat, (hi - lo).toNat + 2 ^ s.elem)

/-- The source span of the run-time window (R177); none when no source element is read. -/
def Shape.srcSpan (s : Shape) : Option (Nat × Nat) :=
  let cl := (s.axes.zip s.counts).map fun (a, c) =>
    let x := a.srcOrg
    let y := a.srcOrg + (c : Int) - 1
    let e := (a.srcExt : Int) - 1
    if s.pad == 2 then (max 0 (min x e), max 0 (min y e), a) else (max 0 x, min y e, a)
  if cl.any fun (lo, hi, _) => hi < lo then none
  else
    let (lo, hi) := boxRange s.srcBase (cl.map fun (x, y, a) => (x, y, a.srcStride))
    some ((lo % 2 ^ 64).toNat, (hi - lo).toNat + 2 ^ s.elem)

end Sys2Proof.Machine
end

