-- ==== Sys2Proof/Machine/Requester.lean ====
section
/-! DEFINITION. The requester side of transactions: flits and replies (R47 to R51), tags (R54 to R60), the hazard
filter (R62, R63), the master channels (R35 to R39), moves, tiles and jobs (R79, R119, R126, R178), tally slots
(R117, R122), posted writes and fences (R69 to R71). -/

namespace Sys2Proof.Machine

open Sys2Proof

/-! ## Flits -/

/-- The class of a KIND (Table 2.4); none for a reserved code. -/
def kindClass (k : Nat) : Option Nat :=
  if k < 6 then some 0 else if 8 ≤ k && k ≤ 10 then some 1 else if k == 0x10 then some 2
  else if 0x18 ≤ k && k ≤ 0x1E then some 3 else none

end Sys2Proof.Machine

namespace Sys2Proof

/-- A malformed flit (R50). -/
def Flit.malformed (f : Flit) : Bool :=
  match Machine.kindClass f.kind.toNat with
  | some c => f.cls.toNat != c
  | none => true

def Flit.space (f : Flit) : Nat := f.line.toNat / 2 ^ 37
def Flit.index (f : Flit) : Nat := f.line.toNat % 2 ^ 37
def Flit.status (f : Flit) : BitVec 4 := BitVec.ofNat 4 (f.line.toNat / 2 ^ 35)
def Flit.synth (f : Flit) : Bool := f.line.getLsbD 34
def Flit.span (f : Flit) : Nat := f.line.toNat / 2 ^ 30 % 16
def Flit.doubt (f : Flit) : Bool := f.line.getLsbD 29

/-- LEN − 1 of an RD or CPY as its payload holds it. -/
def Flit.lenM1 (f : Flit) : Nat :=
  if f.kind == 0 then Machine.field f.payload 0 1 else if f.kind == 5 then Machine.field f.payload 8 1 else 0

/-- The party a request's replies go to (R48). -/
def Flit.replyTo (f : Flit) : Machine.ReplyTo := { node := f.srcNode, seg := f.srcSeg, ctx := f.ctx, tag := f.tag }

end Sys2Proof

namespace Sys2Proof.Machine

open Sys2Proof

/-- A flit with its class from its KIND; HOPS, EPOCH and AGE are set at injection (R48). -/
def mkFlit (dstNode : BitVec 15) (dstSeg : BitVec 3) (srcNode : BitVec 15) (srcSeg : BitVec 3) (kind : Nat)
    (ctx : BitVec 12) (tag : BitVec 16) (line : BitVec 39) (payload : List Byte) : Flit :=
  { dstNode := dstNode, dstSeg := dstSeg, srcNode := srcNode, srcSeg := srcSeg, kind := BitVec.ofNat 5 kind,
    cls := BitVec.ofNat 2 ((kindClass kind).getD 0), epoch := 0, hops := 0, age := 0, ctx := ctx, tag := tag,
    line := line, payload := padTo 128 payload }

/-- LINE of a request or forwarded flit (Table 2.3) from a line number, a global address divided by 128. -/
def reqLine (line : Nat) : BitVec 39 := BitVec.ofNat 39 line

/-- LINE of a reply (Table 2.3). -/
def replyLine (status : BitVec 4) (synth : Bool) (span : Nat) (doubt : Bool) : BitVec 39 :=
  BitVec.ofNat 39 (status.toNat * 2 ^ 35 + synth.toNat * 2 ^ 34 + span % 16 * 2 ^ 30 + doubt.toNat * 2 ^ 29)

/-- A reply to a requester (R48). -/
def mkReply (r : ReplyTo) (kind : Nat) (status : BitVec 4) (payload : List Byte) : Flit :=
  mkFlit r.node r.seg r.node r.seg kind r.ctx r.tag (replyLine status false 0 false) payload

/-- The synthetic completion of a dropped flit (R87, Table 2.13); none where the table excludes one. -/
def synthFor (f : Flit) (status : BitVec 4) (doubt : Bool) : Option Flit :=
  let mk (node : BitVec 15) (seg : BitVec 3) (span : Nat) : Flit :=
    mkFlit node seg node seg 0x0A f.ctx f.tag (replyLine status true span doubt) []
  match f.cls.toNat with
  | 0 => some (mk f.srcNode f.srcSeg (min 15 f.lenM1))
  | 2 => some (mk f.srcNode f.srcSeg 0)
  | 1 => if f.kind == 0x0A && f.synth then none else some (mk f.dstNode f.dstSeg f.span)
  | _ => none

/-- A flit queued for injection at L at a cycle, with the agent index of its key. -/
def Segment.injectL (g : Segment) (cycle : Nat) (f : Flit) (key : Nat := 0) : Segment :=
  { g with rte := { g.rte with injL := g.rte.injL ++ [{ flit := f, at_ := cycle, key := key }] } }

/-- A request that a home passes on over the bridge: it has been counted where it landed (R324). -/
def Segment.forwardL (g : Segment) (cycle : Nat) (f : Flit) : Segment :=
  { g with rte := { g.rte with injL := g.rte.injL ++ [{ flit := f, at_ := cycle, counted := true }] } }

/-- The flits of one burst queued for injection at L: they leave by one port (R309). -/
def Segment.injectBurstL (g : Segment) (cycle : Nat) (fs : List Flit) : Segment :=
  { g with rte := { g.rte with
      nextBurst := g.rte.nextBurst + 1
      injL := g.rte.injL ++ fs.map fun f => { flit := f, at_ := cycle, burst := g.rte.nextBurst } } }

/-- The flits of one chunk or round queued for injection at X: they leave by one port (R309). The group number is their key (R233). -/
def Segment.injectX (g : Segment) (cycle : Nat) (fs : List Flit) : Segment :=
  { g with rte := { g.rte with
      nextBurst := g.rte.nextBurst + 1
      injX := g.rte.injX ++ fs.map fun f => { flit := f, at_ := cycle, burst := g.rte.nextBurst, key := f.line.toNat / 2 ^ 27 } } }

/-- The synthetic completion of a dropped flit sent from this segment (R87). -/
def Segment.dropFlit (g : Segment) (cycle : Nat) (f : Flit) (status : BitVec 4) (doubt : Bool) : Segment :=
  match synthFor f status doubt with
  | some r => g.injectL cycle r
  | none => g

/-! ## Master channels (R35 to R39) -/

/-- The identifiers in use on a channel. -/
def Segment.dpmUsed (g : Segment) (ch : Nat) : List Nat :=
  (g.txn.dpm.filter fun d => d.out && d.ch == ch).map (fun d => d.id.toNat) ++
  (g.txn.retired.filter fun d => d.1 == ch).map fun d => d.2.toNat

/-- A channel with a free identifier: the next in turn, then the others (log 12). -/
def Segment.dpmSlot (g : Segment) : Option (Nat × Nat) :=
  ((List.range 6).map fun k => (g.txn.nextDpm + k) % 6).findSome? fun ch => (firstFree (g.dpmUsed ch) 4096).map fun id => (ch, id)

/-- The write-backs of atomics, which go to a line one behind the other (R76). -/
def DpmUse.isBack : DpmUse → Bool
  | .atomBack _ _ _ => true
  | _ => false

/-- Whether an access to a line stands behind one of a list: the write-back of an atomic behind an earlier one to its line. -/
def DpmUse.behind (u : DpmUse) (space addr : Nat) (l : List DpmReq) : Bool :=
  u.isBack && l.any fun d => d.use.isBack && d.space.toNat == space && d.addr == addr

/-- The group that an access reads a contribution for. -/
def DpmUse.group : DpmUse → Option Nat
  | .contrib n _ _ => some n.toNat
  | _ => none

/-- Whether an access waits before another that came in the same cycle: those of groups go by the group number (R233). -/
def DpmReq.before (a b : DpmReq) : Bool :=
  match a.use.group, b.use.group with
  | some m, some n => a.since == b.since && m < n
  | _, _ => false

/-- The first access that waits for an identifier alone, by its place in the list. -/
def Segment.dpmWaiter (g : Segment) : Option Nat :=
  match g.txn.dpm.zipIdx.filter fun x => !x.1.out && !x.1.use.behind x.1.space.toNat x.1.addr (g.txn.dpm.take x.2) with
  | [] => none
  | w :: ws => some (ws.foldl (fun b x => if x.1.before b.1 then x else b) w).2

/-- An access put on a master channel; it waits while no channel has a free identifier (R37), and as a write-back behind an earlier one
to its line (R76). The channel and the REQ_ID are the model's choice (log 12). -/
def Segment.dpmIssue (g : Segment) (cycle : Nat) (space addr : Nat) (write : Option (List Bool × List Byte))
    (use : DpmUse) : Segment :=
  let slot := if use.behind space addr g.txn.dpm || g.dpmWaiter.isSome then none else g.dpmSlot
  let at_ := slot.getD (0, 0)
  let r : DpmReq := { ch := at_.1, id := BitVec.ofNat 12 at_.2, space := BitVec.ofNat 2 space, addr := addr,
                      write := write, use := use, tick := tickOf cycle, out := slot.isSome, since := cycle }
  { g with txn := { g.txn with dpm := g.txn.dpm ++ [r], nextDpm := g.txn.nextDpm + 1 } }

/-- The first waiting access that may transfer does so: an identifier has become free, or the write-back before it has ended. -/
def Segment.dpmNext (g : Segment) (cycle : Nat) : Segment :=
  match g.dpmWaiter, g.dpmSlot with
  | some i, some (ch, id) =>
    { g with txn := { g.txn with dpm := modAt g.txn.dpm i fun d =>
        { d with ch := ch, id := BitVec.ofNat 12 id, tick := tickOf cycle, out := true } } }
  | _, _ => g

/-! ## Guard words (R293 to R297) -/

/-- What the check of a line gives. -/
inductive Verdict where
  | pass
  | refuse (status : BitVec 4) (byCtx : Bool)
  | fill (idx : Nat)
  deriving DecidableEq, Repr

/-- Whether the guard words of the segment are in force: XLT_GUARD_BASE has been written since warm reset, and neither
word of the table is lost (R294, R477). -/
def Segment.guardsOn (g : Segment) : Bool := g.xlt.guardWritten && !g.critLost 3 && !g.critLost 4

/-- The test of a guard word (R294). -/
def Segment.judgeGuard (g : Segment) (w : BitVec 32) (ctx : BitVec 12) (role : Role) : Verdict :=
  if g.guardsOn then (if guardPass w ctx role then .pass else .refuse csDenied true)
  else if ctx == 0 then .pass else .refuse csDenied true

/-- The check of a request on the segment's own memory: presence, the blanket's pool, and the cached guard word of its region (R46,
R293 to R297). -/
def Segment.judgeMem (g : Segment) (ctx : BitVec 12) (role : Role) (sp off len : Nat) : Verdict :=
  if !g.present sp off len then .refuse csUnmapped false
  else if sp == 0 && g.inPool off then .refuse csDenied false
  else if !g.guardsOn then g.judgeGuard 0 ctx role
  else
    match g.guardIdx sp off with
    | none => .refuse csUnmapped false
    | some i =>
      match lookupKey i g.xlt.guards with
      | some w => g.judgeGuard w ctx role
      | none => .fill i

/-- The guard word used becomes the most recently used. -/
def Segment.touchGuardAt (g : Segment) (sp off : Nat) : Segment :=
  match (g.guardIdx sp off).bind fun i => (lookupKey i g.xlt.guards).map fun w => (i, w) with
  | some (i, w) => { g with xlt := { g.xlt with guards := insertKey i w g.xlt.guards } }
  | none => g

/-- A request refused by the context check: counted and recorded (R82, R294). -/
def Segment.ctxDeny (g : Segment) (tick : Nat) (ctx : BitVec 12) (node : BitVec 15) (addr info : Nat) : Segment :=
  (g.bump F.SEG_HOME_STATUS_CTX_DENIED).raise tick
    { cls := 15, unit := 0, ctx := some ctx, node := some node, addr := BitVec.ofNat 64 addr, info := BitVec.ofNat 32 info,
      status := csDenied }

/-! ## Tally slots (R117, R122) -/

def Segment.ticket? (g : Segment) (n : Nat) : Option Ticket := g.trl.tickets.find? fun t => t.n == n

def Segment.modTicket (g : Segment) (n : Nat) (f : Ticket → Ticket) : Segment :=
  { g with trl := { g.trl with tickets := modWhere g.trl.tickets (fun t => t.n == n) f } }

def Segment.core (g : Segment) (c : Nat) : Core := g.cores.getD c {}

def Segment.modCore (g : Segment) (c : Nat) (f : Core → Core) : Segment := { g with cores := modAt g.cores c f }

/-- The slots of an owner. -/
def Segment.slots (g : Segment) (o : Owner) : List Slot :=
  match o with
  | .ticket n => match g.ticket? n with | some t => t.slots | none => List.replicate 16 {}
  | .core c => (g.core c).slots

def Segment.slot (g : Segment) (o : Owner) (i : Nat) : Slot := (g.slots o).getD i {}

def Segment.modSlot (g : Segment) (o : Owner) (i : Nat) (f : Slot → Slot) : Segment :=
  match o with
  | .ticket n => g.modTicket n fun t => { t with slots := modAt t.slots i f }
  | .core c => g.modCore c fun k => { k with slots := modAt k.slots i f }

/-- Who owns what a core issues: its ticket, or the core itself. -/
def Segment.ownerOf (g : Segment) (c : Nat) : Owner :=
  match (g.core c).ticket with
  | some n => .ticket n
  | none => .core c

/-! ## Descriptors -/

def Segment.desc? (g : Segment) (d : Nat) : Option Desc := g.trl.descs.find? fun x => x.idx == d

def Segment.modDesc (g : Segment) (d : Nat) (f : Desc → Desc) : Segment :=
  { g with trl := { g.trl with descs := modWhere g.trl.descs (fun x => x.idx == d) f } }

def Segment.job? (g : Segment) (j : Nat) : Option Job := g.trl.jobs.find? fun x => x.id == j

def Segment.modJob (g : Segment) (j : Nat) (f : Job → Job) : Segment :=
  { g with trl := { g.trl with jobs := modWhere g.trl.jobs (fun x => x.id == j) f } }

def Segment.dropJob (g : Segment) (j : Nat) : Segment :=
  { g with trl := { g.trl with jobs := g.trl.jobs.filter fun x => x.id != j } }

/-- Untallied lines fail (R117): a record and a count for each. -/
def Segment.untallied (g : Segment) (tick c : Nat) (o : Owner) (ctx : BitVec 12) (k : Nat) (st : BitVec 4) : Segment :=
  let a : FaultArgs := { cls := 16, unit := 13, index := c, ctx := some ctx, status := st,
                         info := match o with | .ticket n => BitVec.ofNat 32 n | .core _ => 0 }
  (List.range k).foldl (fun (g : Segment) _ => g.raise tick a) (g.bumpBy (F.CUR_COUNT_UNTALLIED_FAIL.core c) k)

/-- A line of a descriptor completes (R86, R117): the slot's status, failed and completed counts. -/
def Segment.descLine (g : Segment) (cycle : Nat) (d : Desc) (k : Nat) (st : BitVec 4) : Segment :=
  let bad := if st == 0 then 0 else k
  match d.slot with
  | some i =>
    g.modSlot d.owner i fun s =>
      { s with status := worse s.status st, failed := sat 32 (s.failed + bad), lines := s.lines + k }
  | none =>
    if bad == 0 then g
    else g.untallied (tickOf cycle) d.core d.owner d.ctx bad st

/-- Whether every line of a descriptor has issued and completed; for a shape, with its tile signals. -/
def Segment.descOver (g : Segment) (d : Desc) : Bool :=
  d.pos ≥ d.total && !(g.trl.jobs.any fun j => j.desc == d.idx) &&
  (match d.body with | .shape _ _ _ _ => d.tilesDone ≥ d.total | _ => true)

/-- A finished descriptor leaves the store and its slot becomes done (R122). -/
def Segment.descCheck (g : Segment) (d : Nat) : Segment :=
  match g.desc? d with
  | none => g
  | some x =>
    if g.descOver x then
      let g := { g with trl := { g.trl with descs := g.trl.descs.filter fun y => y.idx != d } }
      match x.slot with
      | some i => g.modSlot x.owner i fun s => { s with st := .done }
      | none => g
    else g

/-! ## Roles of lines (Table 2.6, R135) -/

/-- Whether a descriptor has a line left to complete in a role: 0 reader, 1 writer, 2 updater. A line that a home copies is a reader
and a writer until it completes. -/
def Segment.roleLeft (g : Segment) (d : Desc) (role : Nat) : Bool :=
  let jobs := g.trl.jobs.filter fun j => j.desc == d.idx
  let isSpan (x : Side) : Bool := match x with | .span _ _ => true | .lunchbox _ => false
  match d.body with
  | .atom _ _ _ _ r => r == role
  | .move _ src dst _ _ =>
    if role == 0 then isSpan src && (d.pos < d.total || jobs.any fun j => !j.waits.isEmpty || !j.writing)
    else role == 1 && isSpan dst && (d.pos < d.total || !jobs.isEmpty)
  | .shape _ src dst sig =>
    if role == 0 then !src.isEmpty && (d.pos < d.total || jobs.any fun j => !j.waits.isEmpty)
    else if role == 1 then
      !dst.isEmpty && (d.pos < d.total || jobs.any fun j => match j.kind with | .tileSig _ => false | _ => true)
    else !sig.isEmpty

/-- Whether a FENCE selector waits for a descriptor (R135). -/
def Segment.fenceHolds (g : Segment) (sel : Nat) (d : Desc) : Bool :=
  (sel != 1 && g.roleLeft d 0) || (sel != 2 && (g.roleLeft d 1 || g.roleLeft d 2))

/-- The descriptors of an owner that a FENCE waits for. -/
def Segment.fenceSet (g : Segment) (o : Owner) (sel : Nat) : List Nat :=
  (g.trl.descs.filter fun d => d.owner == o && g.fenceHolds sel d).map Desc.serial

/-! ## Exceptions of the keeper and the steward (R142) -/

/-- A core whose domain is reset (R551, R552): its lunchbox, its code window, its tally slots and the registers of its last
exception stay. -/
def Core.resetState (k : Core) : Core :=
  { k with g := List.replicate 32 0, p := 1, pc := 0, rs := [], ctx := 0, st := .asleep, wait := none, handler := false, icache := [],
           icinv := false, stopPending := false }

/-- The channel of the SEAL_LOAD that the keeper serves, if any. -/
def Segment.loadServed (g : Segment) : List Nat :=
  (List.range 64).filter fun ch =>
    let m := g.chan ch
    m.st == .taken && !m.lost && m.notice == 0x6002 && g.recvClass ch == 0 && g.kpr.awaiting.isEmpty && g.boot.update.isNone && !g.keeperWaits ch

/-- The keeper's domain enters reset (R510, R511, R539): the requests it has taken are lost and every session ends. -/
def Segment.keeperDown (g : Segment) (tick : Nat) : Segment :=
  { g with
    kpr := { g.kpr with resetAt := some tick, tearing := [], awaiting := [], sessions := List.replicate 4 {}, host := {}, stage := 0,
                        hostStage := 0, broken := g.kpr.broken ++ g.loadServed }
    mbx := (List.range g.mbx.length).map fun ch =>
      let m := g.chan ch
      if m.st == .taken && g.recvClass ch == 0 then { m with lost := true } else m
    boot := { g.boot with update := none, incoming := none } }

/-- An exception of the keeper or the steward (R142): it continues at its handler; within the handler its own domain is
reset. -/
def Segment.fwExc (g : Segment) (tick c : Nat) (op : BitVec 8) (code : BitVec 4) (info : Word) : Segment :=
  let k := g.core c
  let k' : Core := { k with excPc := k.pc, excOp := op, excCode := code, excInfo := info, epc := k.pc, wait := none, st := .running }
  let g := g.hwMark (excOff c) (code.zeroExtend 64)
  if k.handler then
    let g := (g.modCore c fun _ => k'.resetState).cycleDom tick (if c == 16 then domKeeper else domSteward)
    let g := if c == 16 then g.keeperDown tick else g
    g.raise tick { cls := 17, unit := 13, index := c, info := BitVec.ofNat 32 code.toNat }
  else
    g.modCore c fun _ =>
      { k' with handler := true, pc := BitVec.ofNat 32 (g.fld (F.CUR_EVEC_VEC.core c) * 8) }

/-! ## Waiting cores (R133 to R135) -/

/-- A core's wait is satisfied: it goes on at the next instruction, with the predicate set (R133, R134). -/
def Core.goOn (k : Core) (pd : Option (BitVec 5 × Bool)) : Core :=
  let p := match pd with
    | some (d, v) => if d == 0 || d.toNat > 7 then k.p else
        if v then k.p ||| ((1 : BitVec 8) <<< d.toNat) else k.p &&& ~~~((1 : BitVec 8) <<< d.toNat)
    | none => k.p
  { k with p := p, pc := k.pc + 8, st := .running, wait := none }

/-- Whether the slots of a WAITE mask satisfy it (R134). -/
def waiteMet (slots : List Slot) (mask : BitVec 16) (any : Bool) : Bool :=
  let named := (List.range 16).filter fun i => mask.getLsbD i
  let done (i : Nat) : Bool := (slots.getD i {}).st != .busy
  if named.isEmpty then true else if any then named.any done else named.all done

/-- One core's WAITE or FENCE, ended if satisfied; a SIG that waited as a FENCE goes on to its issue (R132). -/
def Segment.wakeCore (g : Segment) (c : Nat) : Segment :=
  let k := g.core c
  match k.wait with
  | some (.waite mask any pd _) =>
    if waiteMet (g.slots (g.ownerOf c)) mask any then
      (g.modCore c fun k => k.goOn (some (pd, true))).bump (F.CUR_COUNT_RETIRED.core c)
    else g
  | some (.fence ds sel sig) =>
    let ds := ds.filter fun d => g.trl.descs.any fun x => x.serial == d && g.fenceHolds sel x
    match ds, sig with
    | [], none => (g.modCore c fun k => k.goOn none).bump (F.CUR_COUNT_RETIRED.core c)
    | [], some x => g.modCore c fun k => { k with wait := some (.issue x) }
    | _, _ => g.modCore c fun k => { k with wait := some (.fence ds sel sig) }
  | _ => g

/-- Every core whose WAITE or FENCE is satisfied goes on. -/
def Segment.wake (g : Segment) : Segment := (List.range 18).foldl (fun g c => g.wakeCore c) g

/-! ## New requests -/

/-- A request added to the segment's list, waiting to leave (R56). -/
def Segment.addReq (g : Segment) (cycle : Nat) (kind : Nat) (ctx : BitVec 12) (ag : ReqAgent) (line len : Nat)
    (payload : List Byte) (mask : List Bool) (uses : List LineUse) : Segment :=
  let r : Req := { id := g.txn.nextReq, kind := BitVec.ofNat 5 kind, ctx := ctx, agent := ag, line := line, len := len,
                   payload := payload, mask := mask, uses := uses, left := List.range len, ord := g.txn.nextReq, ready := cycle }
  { g with txn := { g.txn with reqs := g.txn.reqs ++ [r], nextReq := g.txn.nextReq + 1 } }

/-- A mask from a count of set bits. -/
def maskCount (m : List Bool) : Nat := (m.filter id).length

/-- The mask with only its first `k` set bits kept, and the mask of the rest (R68). -/
def maskSplit : Nat → List Bool → List Bool × List Bool
  | _, [] => ([], [])
  | k, b :: r =>
    if b then
      match k with
      | 0 => let (x, y) := maskSplit 0 r; (false :: x, true :: y)
      | k + 1 => let (x, y) := maskSplit k r; (true :: x, false :: y)
    else let (x, y) := maskSplit k r; (false :: x, false :: y)

/-- The selected bytes of a line. -/
def maskBytes : List Bool → List Byte → List Byte
  | m :: ms, b :: bs => if m then b :: maskBytes ms bs else maskBytes ms bs
  | _, _ => []

/-- A mask as the 16 bytes of a WRM payload (R67). -/
def maskNat (m : List Bool) : Nat := m.foldr (fun b acc => acc * 2 + b.toNat) 0

/-- The payload of a WRM (R67). -/
def wrmPayload (m : List Bool) (data : List Byte) : List Byte := padTo 128 (natBytes (maskNat m) 16 ++ maskBytes m data)

/-- A mask and a line from a WRM payload (R67). -/
def unpackWrm (p : List Byte) : List Bool × List Byte :=
  let m := bytesNat (p.take 16)
  let bits := (List.range 128).map fun i => m.testBit i
  let rec fill : List Bool → List Byte → List Byte
    | [], _ => []
    | true :: r, b :: bs => b :: fill r bs
    | true :: r, [] => 0 :: fill r []
    | false :: r, bs => 0 :: fill r bs
  (bits, fill bits (p.drop 16))

/-- Whether a line is written on the segment's own memory directly, through the master channels (R79). -/
def Segment.direct (g : Segment) (line : Nat) : Bool :=
  let a := line * 128
  g.owns a && gaSpace a < 2 && !(gaSpace a == 0 && g.inWindow (gaOff a))

/-- The writes of one destination line in the forms of R68; how many writes they are. -/
def Segment.addWrite (g : Segment) (cycle : Nat) (ctx : BitVec 12) (ag : ReqAgent) (line : Nat) (mask : List Bool)
    (data : List Byte) (use : LineUse) : Segment × Nat :=
  let n := maskCount mask
  if n == 0 then (g, 0)
  else if n == 128 then (g.addReq cycle 1 ctx ag line 1 data mask [use], 1)
  else if n ≤ 112 || g.direct line then (g.addReq cycle 2 ctx ag line 1 data mask [use], 1)
  else
    let (a, b) := maskSplit 112 mask
    ((g.addReq cycle 2 ctx ag line 1 data a [use]).addReq cycle 2 ctx ag line 1 data b [use], 2)

/-! ## Lunchbox, engine side (R96, R99) -/

/-- An engine-side write of one byte range into a lunchbox: partial words merge; a word that fails its check is
written whole with its other bytes zero. Answers whether some word failed. -/
def lbEngineWrite (k : Core) (off : Nat) (bs : List Byte) : Core × Bool :=
  let n := bs.length
  let words := (List.range ((off + n + 7) / 8 - off / 8)).map fun i => off / 8 + i
  let full (w : Nat) : Bool := off ≤ w * 8 && w * 8 + 8 ≤ off + n
  let bad := words.filter fun w => k.lbBad.contains w
  let lb := bad.foldl (fun m w => memZero m (w * 8) 8) k.lb
  ({ k with lb := memPut lb off bs, lbBad := k.lbBad.filter fun w => !words.contains w }, bad.any fun w => !full w)

/-- An engine-side read of a lunchbox range; none when a word fails its check (R99). -/
def lbEngineRead (k : Core) (off n : Nat) : Option (List Byte) :=
  if (List.range ((off + n + 7) / 8 - off / 8)).any fun i => k.lbBad.contains (off / 8 + i) then none
  else some (memBytes k.lb off n)

/-! ## Jobs: from landed sources to destination lines -/

/-- A byte of a job's landed source lines. -/
def gotByte (got : List (Nat × List Byte)) (ga : Nat) : Option Byte :=
  match lookupKey (ga / 128) got with
  | some bs => some (bs.getD (ga % 128) 0)
  | none => none

/-- Destination bytes grouped by line: line number, mask, data; later bytes prevail (R179). -/
def groupLines (bytes : List (Nat × Byte)) : List (Nat × List Bool × List Byte) :=
  let m : List (Nat × Byte) := bytes.foldl (fun acc x => memSet acc x.1 x.2) []
  let lines := (m.map fun x => x.1 / 128).eraseDups
  lines.map fun l =>
    let here := m.filter fun x => x.1 / 128 == l
    (l, (List.range 128).map (fun i => here.any fun x => x.1 % 128 == i),
        (List.range 128).map fun i => ((here.find? fun x => x.1 % 128 == i).map Prod.snd).getD 0)
where
  /-- A sorted map with a key set. -/
  memSet (m : List (Nat × Byte)) (a : Nat) (v : Byte) : List (Nat × Byte) :=
    match m with
    | [] => [(a, v)]
    | (k, b) :: r => if a < k then (a, v) :: (k, b) :: r else if a = k then (a, v) :: r else (k, b) :: memSet r a v

/-- The agent of a descriptor's requests. -/
def Desc.agent (d : Desc) : ReqAgent := .courier d.core

/-- A new job. -/
def Segment.newJob (g : Segment) (d : Nat) (kind : JobKind) (waits : List Nat) : Segment × Nat :=
  let j : Job := { id := g.trl.nextJob, desc := d, kind := kind, waits := waits }
  ({ g with trl := { g.trl with jobs := g.trl.jobs ++ [j], nextJob := g.trl.nextJob + 1 } }, j.id)

/-- The payload of an ATOM ADD of width 8 without FETCH (Table 2.9). -/
def addPayload (ga : Nat) (v : Word) : List Byte :=
  natBytes 4 1 ++ natBytes 2 1 ++ natBytes 0 2 ++ natBytes (ga % 128) 2 ++ List.replicate 10 0 ++ natBytes v.toNat 8

/-- Tile signals that are due (R180), of at most a number of tiles: each tile whose lines and whose predecessors' lines have all
completed sends an ATOM ADD of 1, unless a line of it or of an earlier tile has failed. -/
def Segment.tileSignals (g : Segment) (cycle : Nat) (d : Nat) : Nat → Segment
  | 0 => g
  | fuel + 1 =>
    match g.desc? d with
    | none => g
    | some x =>
      match x.body with
      | .shape s _ _ sig =>
        let k := x.tilesDone
        let open_ := g.trl.jobs.any fun j => j.desc == d && (j.kind == .tile k || j.kind == .tileLine k)
        if k < x.pos && !open_ then
          let g := g.modDesc d fun y => { y with tilesDone := k + 1 }
          let may : Bool := match x.badTile with | some b => k < b | none => true
          match s.sigAddr.bind fun va => pieceAt sig va, may with
          | some ga, true =>
            let (g, id) := g.newJob d (.tileSig k) []
            (g.addReq cycle 3 x.ctx (.courier x.core) (ga / 128) 1 (addPayload ga 1) [] [.dst id]).tileSignals cycle d fuel
          | _, _ => g.tileSignals cycle d fuel
        else g
      | _ => g

/-- A tile with a failed line (R180). -/
def Segment.badTile (g : Segment) (d k : Nat) : Segment :=
  g.modDesc d fun y => { y with badTile := some (min k (y.badTile.getD k)) }

/-- A job ends with a status: its line is counted and the descriptor checked. -/
def Segment.jobEnd (g : Segment) (cycle : Nat) (j : Job) (st : BitVec 4) : Segment :=
  let g := g.dropJob j.id
  match g.desc? j.desc with
  | none => g
  | some d =>
    match j.kind with
    | .tile _ => g.descCheck d.idx
    | .tileLine k =>
      let g := g.descLine cycle d 1 st
      let g := if st == 0 then g else g.badTile d.idx k
      (g.tileSignals cycle d.idx (d.total + 1)).descCheck d.idx
    | _ => (g.descLine cycle d 1 st).descCheck d.idx

/-- The bytes of the linear span of a job: source byte read, destination byte written. -/
def linearBytes (src dst : Side) (off len : Nat) (got : List (Nat × List Byte)) (lb : List Byte) : List (Nat × Byte) :=
  (List.range len).filterMap fun i =>
    let b := match src with
      | .lunchbox _ => lb[i]?
      | .span va ps => match pieceAt ps (va + off + i) with | some ga => gotByte got ga | none => none
    match dst, b with
    | .span va ps, some b => match pieceAt ps (va + off + i) with | some ga => some (ga, b) | none => none
    | .lunchbox o, some b => some (o + off + i, b)
    | _, none => none

/-- The sources of a linear job have landed: its destination is written (R126). -/
def Segment.linearWrite (g : Segment) (cycle : Nat) (d : Desc) (j : Job) (src dst : Side) (off len : Nat) : Segment :=
  let lb := match src with | .lunchbox o => lbEngineRead (g.core d.core) (o + off) len | _ => some []
  match lb with
  | none => g.jobEnd cycle j csPoison
  | some lb =>
    let bytes := linearBytes src dst off len j.got lb
    match dst with
    | .lunchbox o =>
      let (k, bad) := lbEngineWrite (g.core d.core) (o + off) (bytes.map Prod.snd)
      (g.modCore d.core fun _ => k).jobEnd cycle j (if bad then csPoison else csOk)
    | .span _ _ =>
      let (g, n) := (groupLines bytes).foldl (fun (g, n) (l, m, data) =>
        let (g, k) := g.addWrite cycle d.ctx d.agent l m data (.dst j.id)
        (g, n + k)) (g, 0)
      if n == 0 then g.jobEnd cycle j csOk
      else g.modJob j.id fun x => { x with writes := n, writing := true }

/-- A tile's sources have landed: a job for each destination line, in ascending address order (R178, R179). A line
that needs a source line that failed completes with that status and is not written. -/
def Segment.tileWrite (g : Segment) (cycle : Nat) (d : Desc) (j : Job) (s : Shape) (src dst : List Piece) (k : Nat) : Segment :=
  let esz := 2 ^ s.elem
  let pos := s.tilePositions k
  let cells : List (Nat × Byte × BitVec 4) := pos.flatMap fun (da, p) =>
    let put (bs : List (Byte × BitVec 4)) : List (Nat × Byte × BitVec 4) :=
      (bs.zipIdx).filterMap fun (b, i) => match pieceAt dst (da + i) with | some ga => some (ga, b.1, b.2) | none => none
    match p with
    | .skip => []
    | .bytes bs => put (bs.map fun b => (b, 0))
    | .elem sa => put ((List.range esz).map fun i =>
        match pieceAt src (sa + i) with
        | some ga => ((gotByte j.got ga).getD 0, (lookupKey (ga / 128) j.bad).getD 0)
        | none => (0, 0))
  let lines := groupLines (cells.map fun (ga, b, _) => (ga, b))
  let g := lines.foldl (fun g (l, m, data) =>
    let st := cells.foldl (fun st (ga, _, b) => if ga / 128 == l then worse st b else st) 0
    let (g, id) := g.newJob d.idx (.tileLine k) []
    if st != 0 then g.modJob id fun x => { x with status := st, writing := true }
    else
      let (g, n) := g.addWrite cycle d.ctx d.agent l m data (.dst id)
      g.modJob id fun x => { x with writes := n, writing := true }) g
  let g := g.dropJob j.id
  -- lines that failed with their sources end at once
  let dead := g.trl.jobs.filter fun x => x.desc == d.idx && x.kind == .tileLine k && x.writes == 0
  dead.foldl (fun g x => g.jobEnd cycle x x.status) g

/-- What a job does when nothing it waits for is left. -/
def Segment.jobProgress (g : Segment) (cycle : Nat) (id : Nat) : Segment :=
  match g.job? id with
  | none => g
  | some j =>
    match g.desc? j.desc with
    | none => g.dropJob id
    | some d =>
      if !j.waits.isEmpty then g
      else if j.writing then
        if j.writes == 0 then
          g.jobEnd cycle j j.status
        else g
      else
        match d.body, j.kind with
        | .move _ src dst _ _, .linear off len =>
          let bad := j.bad.foldl (fun st x => firstBad st x.2) 0
          if bad != 0 then g.jobEnd cycle j bad else g.linearWrite cycle d j src dst off len
        -- a tile's lines are issued by MOVT_TILE_START; a stopped tile only awaits its reads
        | .shape _ _ _ _, .tile _ => if j.status != 0 then g.jobEnd cycle j 0 else g
        | _, _ => g

/-! ## Settling a line of a request -/

/-- The fence state of a context with a failed posted write counted (R71). -/
def Segment.fenceFail (g : Segment) (ctx : BitVec 12) (st : BitVec 4) : Segment :=
  let old := (g.txn.fences.find? fun f => f.ctx == ctx).getD { ctx := ctx, failed := 0, first := 0 }
  let new : FenceSt := { ctx := ctx, failed := sat 32 (old.failed + 1), first := firstBad old.first st }
  { g with txn := { g.txn with fences := new :: g.txn.fences.filter fun f => f.ctx != ctx } }

/-- A response driven on a target channel: the bytes in their lanes, every other byte zero. Its identifier stays in use until the
response is taken (R35, R37). -/
def Segment.dptRespond (g : Segment) (ch : Bool) (id : BitVec 12) (status : BitVec 4) (data : List Byte) : Segment :=
  { g with txn := { g.txn with dptOut := g.txn.dptOut ++ [{ ch := ch, id := id, status := status, data := data }],
                               dptBusy := (ch, id) :: g.txn.dptBusy.filter fun x => x != (ch, id) } }

/-- The response that waits longest on a channel is taken where its RSP_READY is 1 (Table 1.6); the one taken before is gone. -/
def Segment.dptTake (g : Segment) (ch : Bool) : Segment :=
  let ready := if ch then g.txn.rspReady.2 else g.txn.rspReady.1
  let g := { g with txn := { g.txn with dptOut := g.txn.dptOut.filter fun r => !(r.ch == ch && r.taken) } }
  match g.txn.dptOut.find? fun r => r.ch == ch && !r.taken with
  | some r =>
    if !ready then g
    else
      { g with txn := { g.txn with
          dptOut := modFirst g.txn.dptOut (fun x => x == r) fun x => { x with taken := true }
          dptBusy := g.txn.dptBusy.filter fun x => x != (ch, r.id) } }
  | none => g

/-- Bytes placed in the lanes of a 128-byte beat. -/
def lanes (off : Nat) (bs : List Byte) : List Byte := padTo 128 (List.replicate off 0 ++ bs)

/-- Reads of SEG_FENCE whose earlier posted writes have all completed answer (R71); a 32-bit read clears the field it returns (R575). -/
def Segment.fenceCheck (g : Segment) : Segment :=
  let live := g.txn.posts.map Post.id
  let ready := g.txn.fenceReads.filter fun r => r.waits.all fun i => !live.contains i
  ready.foldl (fun g r =>
    let f := (g.txn.fences.find? fun f => f.ctx == r.ctx).getD { ctx := r.ctx, failed := 0, first := 0 }
    let rest : FenceSt := match r.sz with
      | .w64 => { f with failed := 0, first := 0 }
      | .lo32 => { f with failed := 0 }
      | .hi32 => { f with first := 0 }
    let bytes := match r.sz with
      | .w64 => lanes 0x30 (natBytes (f.first.toNat * 2 ^ 32 + f.failed) 8)
      | .lo32 => lanes 0x30 (natBytes f.failed 4)
      | .hi32 => lanes 0x34 (natBytes f.first.toNat 4)
    let g := { g with txn := { g.txn with
      fences := (g.txn.fences.filter fun (f : FenceSt) => f.ctx != r.ctx) ++ (if rest.failed == 0 && rest.first == 0 then [] else [rest])
      fenceReads := g.txn.fenceReads.filter fun x => x != r } }
    g.dptRespond r.ch r.id f.first bytes) g

/-- Part of a posted write completes (R71). -/
def Segment.postPart (g : Segment) (st : BitVec 4) (id : Nat) : Segment :=
  match g.txn.posts.find? fun p => p.id == id with
  | none => g
  | some p =>
    let p' := { p with parts := p.parts - 1, status := firstBad p.status st }
    if p'.parts == 0 then
      let g := { g with txn := { g.txn with posts := g.txn.posts.filter fun q => q.id != id } }
      if p'.status == 0 then g else g.fenceFail p.ctx p'.status
    else { g with txn := { g.txn with posts := modWhere g.txn.posts (fun q => q.id == id) fun _ => p' } }

/-- A core's CLD or CST over the fabric completes (R111). -/
def Segment.ctlDone (g : Segment) (tick c : Nat) (st : BitVec 4) (data : Word) : Segment :=
  match (g.core c).wait with
  | some (.ctl d) =>
    if st == 0 then
      (g.modCore c fun k =>
        match d with
        | some d => { (k.goOn none) with g := if d == 0 then k.g else k.g.set d.toNat data }
        | none => k.goOn none).bump (F.CUR_COUNT_RETIRED.core c)
    else g.fwExc tick c (if d.isSome then 0x42 else 0x43) 0xB (st.zeroExtend 64)
  | _ => g

/-- A single-line descriptor is over. -/
def Segment.descEnd (g : Segment) (d : Nat) : Segment :=
  let g := g.modDesc d fun y => { y with pos := y.total }
  { g with trl := { g.trl with jobs := g.trl.jobs.filter fun j => j.desc != d } }.descCheck d

/-- What the completion of one line of a request does for its use. Of a line of a linear move that needs two reads, or two writes, the
status is that of the first to fail in time: DESIGN CHOICE (log 61). -/
def Segment.settleUse (g : Segment) (cycle : Nat) (u : LineUse) (st : BitVec 4) (data : List Byte) : Segment :=
  match u with
  | .src j line =>
    let g := g.modJob j fun x =>
      { x with waits := x.waits.erase line,
               got := if st == 0 then (line, data) :: x.got else x.got,
               bad := if st == 0 then x.bad else x.bad ++ [(line, st)] }
    g.jobProgress cycle j
  | .dst j =>
    let g := g.modJob j fun x => { x with writes := x.writes - 1, writing := true, status := firstBad x.status st }
    g.jobProgress cycle j
  | .cpy j =>
    match g.job? j with
    | some x => g.jobEnd cycle x st
    | none => g
  | .atomRes d =>
    match g.desc? d with
    | none => g
    | some x =>
      let g := match x.body with
        | .atom _ _ _ (some at_) _ => g.modCore x.core fun k => (lbEngineWrite k at_ (padTo 16 data)).1
        | _ => g
      let g := match x.slot with
        | some i => g.modSlot x.owner i fun s => { s with result := BitVec.ofNat 64 (bytesNat (data.take 8)) }
        | none => g
      let g := g.descLine cycle x 1 st
      g.descEnd d
  | .dptRead ch id addr size =>
    let off := addr.toNat % 128
    g.dptRespond ch id st (if st == 0 then lanes off ((data.drop off).take size) else List.replicate 128 0)
  | .dptCtl ch id addr size write =>
    g.dptRespond ch id st (if st == 0 && !write then lanes (addr.toNat % 128) ((padTo 16 data).take size) else List.replicate 128 0)
  | .posts ids => (ids.foldl (fun g i => g.postPart st i) g).fenceCheck
  | .ctl c => g.ctlDone (tickOf cycle) c st (BitVec.ofNat 64 (bytesNat (data.take 8)))

/-- One line of a request completes. -/
def Segment.settle (g : Segment) (cycle : Nat) (r : Req) (idx : Nat) (st : BitVec 4) (data : List Byte) : Segment :=
  let left := r.left.erase idx
  let reqs := if left.isEmpty then g.txn.reqs.filter fun x => x.id != r.id
    else modWhere g.txn.reqs (fun x => x.id == r.id) fun x => { x with left := x.left.erase idx }
  let g := { g with txn := { g.txn with reqs := reqs } }
  match r.uses[idx]? with
  | some u => (g.settleUse cycle u st data).wake
  | none => g

/-- Every line of a request that is left completes with one status. -/
def Segment.settleAll (g : Segment) (cycle : Nat) (r : Req) (st : BitVec 4) : Segment :=
  r.left.foldl (fun g i =>
    match g.txn.reqs.find? fun x => x.id == r.id with
    | some x => g.settle cycle x i st (List.replicate 128 0)
    | none => g) g

/-! ## Stopping a descriptor (R141, R299) -/

/-- The destination lines of a tile. -/
def tileLines (s : Shape) (dst : List Piece) (k : Nat) : List Nat :=
  ((s.tilePositions k).flatMap fun (da, p) =>
    match p with
    | .skip => []
    | _ => (List.range (2 ^ s.elem)).filterMap fun i => (pieceAt dst (da + i)).map fun ga => ga / 128).eraseDups

/-- How many destination lines a tile has. -/
def tileLineCount (s : Shape) (dst : List Piece) (k : Nat) : Nat := (tileLines s dst k).length

/-- The lines of a descriptor that have not issued: those of the address order's anchor for a linear move, the destination
lines of the tiles not begun and the signals not sent for a shape. -/
def Desc.rest (d : Desc) : Nat :=
  if d.pos ≥ d.total then 0
  else
    match d.body with
    | .move op src dst len _ =>
      (match if op == 0x50 then src else dst with
       | .span va _ => (va + len - 1) / 128 - (va + d.pos) / 128 + 1
       | .lunchbox _ => 0)
    | .shape s _ dst _ => (List.range (d.total - d.pos)).foldl (fun n i => n + tileLineCount s dst (d.pos + i)) 0
    | .atom _ _ _ _ _ => 1

/-- TIMEOUT of SEG_TAG_CTRL as it acts (Table 2.5). -/
def Segment.tagLimit (g : Segment) : Nat := max 110000 (g.fld F.SEG_TAG_CTRL_TIMEOUT)

/-- The tags a request holds. -/
def Req.tags (r : Req) : List Nat := match r.base with | some b => r.left.map fun i => b + i | none => []

/-- Whether a request has not yet passed the check of R56. -/
def Req.waiting (r : Req) : Bool := r.sentTick.isNone && r.base.isNone

/-- Whether a request has neither been injected nor gone to the master channels (R299). -/
def Req.unsent (r : Req) : Bool := r.sentTick.isNone || r.unguarded

/-- Whether a queued flit is a request of the segment itself under a tag. -/
def Segment.ownFlit (g : Segment) (f : Flit) (base : Nat) : Bool :=
  f.cls == 0 && f.srcNode == g.node && f.srcSeg == g.segId && f.tag.toNat == base

/-- A request whose tags complete is withdrawn from the injection queue; `state` is what its tags then are: none for free. -/
def Segment.withdrawReq (g : Segment) (r : Req) (state : Option TagState) : Segment :=
  match r.base with
  | none => g
  | some b =>
    { g with
      rte := { g.rte with injL := g.rte.injL.filter fun x => !g.ownFlit x.flit b }
      txn := { g.txn with
        tags := r.tags.foldl (fun l t => match state with | some x => insertKey t x l | none => eraseKey t l) g.txn.tags } }

/-- Whether a request is a line of a descriptor that issues with it: a read, a copy or an atomic; a write of a tile or a tile signal;
the write of a lunchbox source. The write of a relayed line follows its read (R299). -/
def Segment.lineOf (g : Segment) (d : Desc) (r : Req) : Bool :=
  let job (j : Nat) : Option Job := (g.job? j).filter fun x => x.desc == d.idx
  match r.uses.head? with
  | some (.src j _) => (job j).isSome
  | some (.cpy j) => (job j).isSome
  | some (.dst j) =>
    match job j with
    | some x =>
      (match x.kind, d.body with
       | .linear _ _, .move _ (.lunchbox _) _ _ _ => true
       | .linear _ _, _ => false
       | _, _ => true)
    | none => false
  | some (.atomRes i) => i == d.idx
  | _ => false

/-- The lines of a descriptor that have not issued complete with a status (R141, R299): a line has issued once it has been injected or
sent to a master channel. -/
def Segment.descStop (g : Segment) (cycle : Nat) (d : Desc) (st : BitVec 4) : Segment :=
  let mine := g.trl.jobs.filter fun j => j.desc == d.idx
  let begun : Nat := match d.body with
    | .shape s _ dst _ => mine.foldl (fun n j =>
        match j.kind with | .tile k => if j.status == 0 then n + tileLineCount s dst k else n | _ => n) 0
    | _ => 0
  let sigs : Nat := match d.body with
    | .shape s _ _ _ => if s.sigAddr.isSome then min d.pos (d.badTile.getD d.pos) - d.tilesDone else 0
    | _ => 0
  let k := d.rest + begun + sigs
  let g := match d.body with
    | .atom _ _ _ (some at_) _ => if d.rest == 0 then g else g.modCore d.core fun k => (lbEngineWrite k at_ (List.replicate 16 0)).1
    | _ => g
  let g := if k == 0 then g else g.descLine cycle d k st
  let g := g.modDesc d.idx fun x => { x with pos := x.total, tilesDone := x.total, badTile := some 0 }
  let unsent := g.txn.reqs.filter fun r => r.unsent && g.lineOf d r
  let g := mine.foldl (fun (g : Segment) j =>
    match j.kind with
    | .tile _ => (g.modJob j.id fun x => { x with status := firstBad x.status st }).jobProgress cycle j.id
    | _ => g) g
  let g := unsent.foldl (fun (g : Segment) r => (g.withdrawReq r (some (.quarantined (tickOf cycle + g.tagLimit)))).settleAll cycle r st) g
  (g.descCheck d.idx).wake

/-- Whether a request is a line of a shape: its descriptor issues it (R119). -/
def Segment.shapeReq (g : Segment) (r : Req) : Option Nat :=
  match r.uses.head? with
  | some (.src j _) => (g.job? j).bind fun x => match x.kind with | .tile _ => some x.desc | _ => none
  | some (.dst j) => (g.job? j).bind fun x => match x.kind with | .tileLine _ => some x.desc | .tileSig _ => some x.desc | _ => none
  | _ => none

/-! ## Leaving the segment (R54 to R56, R63) -/

/-- The role a request plays on its lines (Table 2.6), beside the destination lines of a CPY. -/
def Req.role (r : Req) : Role :=
  let op := field r.payload 0 1
  match r.kind.toNat with
  | 0 => .reader
  | 5 => .reader
  | 1 => .writer
  | 2 => .writer
  | 3 => if op == 0 then .reader else if op == 1 then .writer else .updater
  | _ => .updater

/-- The lines a request still touches with their roles. -/
def Req.lines (r : Req) : List (Nat × Role) :=
  r.left.map (fun i => (r.line + i, r.role)) ++
  (if r.kind == 5 then r.left.map fun i => (field r.payload 0 8 / 128 + i, Role.writer) else [])

/-- Whether Table 2.7 orders two roles. -/
def ordered (a b : Role) : Bool := !(a == .reader && b == .reader)

/-- The hazard check (R63): no earlier request of the segment touches a line that Table 2.7 orders this one behind. -/
def Segment.hazardFree (g : Segment) (r : Req) : Bool :=
  !g.txn.reqs.any fun e => e.ord < r.ord && e.lines.any fun x => r.lines.any fun y => x.1 == y.1 && ordered x.2 y.2

/-- Whether the request is answered with data (R56 condition 2). -/
def Req.wantsData (r : Req) : Bool :=
  r.kind == 0 || ((r.kind == 3 || r.kind == 4) && (field r.payload 2 1 % 2 == 1 || (r.kind == 3 && field r.payload 0 1 == 0)))

/-- Reply-pool lines reserved now. -/
def Segment.poolUsed (g : Segment) : Nat :=
  (g.txn.reqs.filter fun r => r.base.isSome && r.wantsData).foldl (fun n r => n + r.left.length) 0

/-- The tags that are not free. -/
def Segment.usedTags (g : Segment) : List Nat := g.txn.tags.map Prod.fst

/-- The smallest block that holds `n` tags (R55). -/
def blockOf (n : Nat) : Nat := if n ≤ 1 then 1 else if n ≤ 2 then 2 else if n ≤ 4 then 4 else if n ≤ 8 then 8 else 16

/-- The free aligned block of the lowest base in a range. -/
def findBlock (used : List Nat) (size limit : Nat) : Nat → Nat → Option Nat
  | 0, _ => none
  | k + 1, base =>
    if base + size > limit then none
    else if used.any fun u => base ≤ u && u < base + size then findBlock used size limit k (base + size)
    else some base

/-- The tags the target channels keep (R54). -/
def Segment.dptTags (g : Segment) : Nat := min 32 (g.fld F.SEG_TAG_CTRL_DPT_RESERVE) * 1024

/-- The block a request would be given (R55). -/
def Segment.pickTags (g : Segment) (ag : ReqAgent) (len : Nat) : Option Nat :=
  let used := g.usedTags
  match ag with
  | .dpt _ => findBlock used (blockOf len) g.dptTags (used.length + 1) 0
  | .courier _ => findBlock used (blockOf len) 65536 (used.length + 1) g.dptTags

/-- The tags a courier holds. -/
def Segment.courierTags (g : Segment) (c : Nat) : Nat :=
  (g.txn.reqs.filter fun r => r.base.isSome && r.agent == .courier c).foldl (fun n r => n + r.left.length) 0

/-- Whether the courier cap allows a request (R54). The keeper and the steward, cores 16 and 17, draw the tags of CLD and CST over the
fabric from the couriers' part, and the cap does not limit them: DESIGN CHOICE (log 61). -/
def Segment.capOk (g : Segment) (r : Req) : Bool :=
  match r.agent with
  | .dpt _ => true
  | .courier c =>
    let cap := g.fld F.SEG_TAG_CTRL_COURIER_CAP * 16
    cap == 0 || c ≥ 16 || g.courierTags c + r.len ≤ cap

/-- Whether a request goes to the master channels rather than to the router (R79). -/
def Segment.goesDirect (g : Segment) (r : Req) : Bool := (r.kind == 0 || r.kind == 1 || r.kind == 2) && g.direct r.line && (match r.agent with | .courier _ => true | .dpt _ => false)

/-- Whether R56 lets a request leave. -/
def Segment.canIssue (g : Segment) (r : Req) : Bool :=
  r.waiting && g.hazardFree r &&
  (g.goesDirect r ||
    ((g.pickTags r.agent r.len).isSome && g.capOk r && (!r.wantsData || g.poolUsed + r.len ≤ g.txn.poolLines)))

/-- The flit of a request under its tags (R48, R67). -/
def Segment.reqFlit (g : Segment) (r : Req) (base : Nat) : Flit :=
  let a := r.line * 128
  let payload := match r.kind.toNat with
    | 0 => natBytes (r.len - 1) 1
    | 2 => wrmPayload r.mask r.payload
    | _ => r.payload
  mkFlit (BitVec.ofNat 15 (gaNode a)) (BitVec.ofNat 3 (gaSeg a)) g.node g.segId r.kind.toNat r.ctx (BitVec.ofNat 16 base)
    (reqLine r.line) payload

/-- The node a request went to. -/
def Req.node (r : Req) : BitVec 15 := BitVec.ofNat 15 (gaNode (r.line * 128))

/-- Whether the request's destination is on the known-down list (R491). -/
def Segment.knownDown (g : Segment) (line : Nat) : Bool := g.flt.known.contains (BitVec.ofNat 15 (gaNode (line * 128)))

/-- A request on the segment's own memory, which its home is too (R79, R294): the guard word of its region is applied; a request that
passes goes to the master channels, a line each, and one whose word is not cached waits for it. -/
def Segment.issueDirect (g : Segment) (cycle : Nat) (r : Req) : Segment :=
  let a := r.line * 128
  let g := { g with txn := { g.txn with reqs := modWhere g.txn.reqs (fun x => x.id == r.id) fun x =>
    { x with sentTick := some (tickOf cycle), base := none, ready := cycle, unguarded := false } } }
  match g.judgeMem r.ctx r.role (gaSpace a) (gaOff a) (128 * r.len) with
  | .fill _ => { g with txn := { g.txn with reqs := modWhere g.txn.reqs (fun x => x.id == r.id) fun x => { x with unguarded := true } } }
  | .refuse st byCtx =>
    let g := if byCtx then g.ctxDeny (tickOf cycle) r.ctx g.node a 0 else g
    g.settleAll cycle r st
  | .pass =>
    r.left.foldl (fun g i =>
      g.dpmIssue cycle (gaSpace a) (gaOff a + 128 * i) (if r.kind == 0 then none else some (r.mask, r.payload)) (.req r.id i))
      (g.touchGuardAt (gaSpace a) (gaOff a))

/-- The descriptor a request is a line of. -/
def Segment.descOf (g : Segment) (r : Req) : Option Nat :=
  match r.uses.head? with
  | some (.src j _) => (g.job? j).map Job.desc
  | some (.dst j) => (g.job? j).map Job.desc
  | some (.cpy j) => (g.job? j).map Job.desc
  | some (.atomRes d) => some d
  | _ => none

/-- The agent index of R55. -/
def ReqAgent.index : ReqAgent → Nat
  | .courier c => if c < 16 then c else c + 2
  | .dpt ch => 16 + ch.toNat

/-- The fixed key of a request (R55, R183, R340): its agent, then the place of its descriptor in the descriptor store. -/
def Segment.reqKey (g : Segment) (r : Req) : Nat := r.agent.index * 1024 + (g.descOf r).getD 0

/-- The request leaves: at once with CS_NODE_DOWN for a known-down node, to the master channels, or under tags
into the injection queue (R55, R56, R491), which it can leave from the next cycle on. -/
def Segment.issueReq (g : Segment) (cycle : Nat) (r : Req) : Segment :=
  if g.knownDown r.line then g.settleAll cycle r csNodeDown
  else if g.goesDirect r then g.issueDirect cycle r
  else
    match g.pickTags r.agent r.len with
    | none => g
    | some base =>
      let tags := (List.range r.len).map fun i => (base + i, TagState.held r.id i r.ctx false false)
      let g := { g with txn := { g.txn with
        tags := g.txn.tags ++ tags
        reqs := modWhere g.txn.reqs (fun x => x.id == r.id) fun x => { x with base := some base } } }
      let g := g.setFld F.SEG_TAG_STATUS_HIGH_WATER (max (g.fld F.SEG_TAG_STATUS_HIGH_WATER) g.txn.tags.length)
      g.injectL (cycle + 1) (g.reqFlit r base) (g.reqKey r)

end Sys2Proof.Machine
end

