-- ==== Sys2Proof/Machine/Router.lean ====
section
/-! DEFINITION. The router (chapter 08): slots, candidates, landing, deflection, injection, the throttle, and the
signpost epochs. -/

namespace Sys2Proof

/-- The segment of the package a flit is for: the one its header names, or for a line of a declared fabric-homed
region its holder (R318). A segment the package does not have is answered where the flit stands (R4). -/
def Flit.seat (f : Flit) (g : Machine.Segment) : Nat :=
  if f.cls != 3 && f.dstNode == g.node && f.dstSeg.toNat > g.straps.dieCount.toNat then g.segId.toNat
  else if (f.cls == 0 || f.cls == 2) && f.dstNode == g.node && f.space == 0 then
    match g.plc.homing.find? fun h => h.1 / 4096 == f.dstSeg.toNat && h.2.region == f.index * 128 / Machine.regionSize with
    | some h => h.2.holder
    | none => f.dstSeg.toNat
  else f.dstSeg.toNat

/-- Whether a flit is for a segment. -/
def Flit.names (f : Flit) (g : Machine.Segment) : Bool := f.dstNode == g.node && f.seat g == g.segId.toNat

/-- The global address a request or forwarded flit names; 0 for other flits. -/
def Flit.ga (f : Flit) : Nat :=
  if f.cls == 0 || f.cls == 2 then Machine.gaMake f.dstNode.toNat f.dstSeg.toNat f.space (f.index * 128) else 0

end Sys2Proof

namespace Sys2Proof.Machine

open Sys2Proof

/-! ## The bits of a flit (Table 2.2, R357) -/

/-- The 128-bit header of a flit (Table 2.2). -/
def flitHeader (f : Flit) : Nat :=
  f.dstNode.toNat * 2 ^ 113 + f.dstSeg.toNat * 2 ^ 110 + f.srcNode.toNat * 2 ^ 95 + f.srcSeg.toNat * 2 ^ 92 +
  f.kind.toNat * 2 ^ 87 + f.cls.toNat * 2 ^ 85 + f.epoch.toNat * 2 ^ 84 + f.hops.toNat * 2 ^ 77 +
  f.age.toNat * 2 ^ 67 + f.ctx.toNat * 2 ^ 55 + f.tag.toNat * 2 ^ 39 + f.line.toNat

/-- The 144 bytes of a slot that carries a flit (R357). -/
def slotBytes (f : Flit) : List Byte := bigBytes (flitHeader f) 16 ++ padTo 128 f.payload

/-- The flit in a slot. -/
def flitOf (bs : List Byte) : Flit :=
  let h := bigNat (bs.take 16)
  { dstNode := BitVec.ofNat 15 (h / 2 ^ 113), dstSeg := BitVec.ofNat 3 (h / 2 ^ 110), srcNode := BitVec.ofNat 15 (h / 2 ^ 95),
    srcSeg := BitVec.ofNat 3 (h / 2 ^ 92), kind := BitVec.ofNat 5 (h / 2 ^ 87), cls := BitVec.ofNat 2 (h / 2 ^ 85),
    epoch := BitVec.ofNat 1 (h / 2 ^ 84), hops := BitVec.ofNat 7 (h / 2 ^ 77), age := BitVec.ofNat 10 (h / 2 ^ 67),
    ctx := BitVec.ofNat 12 (h / 2 ^ 55), tag := BitVec.ofNat 16 (h / 2 ^ 39), line := BitVec.ofNat 39 h,
    payload := padTo 128 (bs.drop 16) }

/-- The bits of a number from bit `n` − 1 down. -/
def bitsDown (v : Nat) : Nat → List Bool
  | 0 => []
  | n + 1 => v.testBit n :: bitsDown v n

/-! ## Ports and bridge links -/

def Segment.port (g : Segment) (p : Nat) : Port := g.ports.getD p {}

def Segment.modPort (g : Segment) (p : Nat) (f : Port → Port) : Segment := { g with ports := modAt g.ports p f }

def Segment.bend (g : Segment) (b : Nat) : BridgeEnd := g.bridge.getD b {}

def Segment.modBend (g : Segment) (b : Nat) (f : BridgeEnd → BridgeEnd) : Segment := { g with bridge := modAt g.bridge b f }

/-- The segment and bridge port at the other end of a bridge link (R18). -/
def bridgePartner (n sg b : Nat) : Nat × Nat := if b == 0 then ((sg + 1) % n, 1) else ((sg + n - 1) % n, 0)

/-- Bridge hops round the ring between two segments (R19). -/
def ringHops (n a b : Nat) : Nat := min ((b + n - a) % n) ((a + n - b) % n)

/-- The bridge port R19 prefers from one segment toward another. -/
def ringPort (n a b : Nat) : Nat := if (b + n - a) % n ≤ (a + n - b) % n then 0 else 1

/-- Whether a bridge link is up for routing (R32). -/
def Segment.bridgeUp (g : Segment) (b : Nat) : Bool := (g.bend b).st == .up

/-- The bridge port a flit takes toward a segment: R19's, or the other when that link is down (R32). -/
def Segment.bridgeRoute (g : Segment) (n d : Nat) : Option Nat :=
  let b := ringPort n g.segId.toNat d
  if g.bridgeUp b then some b else if g.bridgeUp (1 - b) then some (1 - b) else none

/-- Down for routing (R326, R375): any state but ACTIVE, or lanes in Flask. -/
def Port.routingDown (p : Port) : Bool := p.st != .active || p.txPwr == .flask

/-- Whether a fabric output is open, the fabric slot apart (R326). -/
def Port.isOpen (p : Port) : Bool :=
  !p.routingDown && (p.txPwr == .active || p.txPwr == .kettle) && p.stage.length < 32

/-! ## Slots and the age clock -/

/-- Whether a cycle is a fabric slot (R325). -/
def Segment.fabricSlot (g : Segment) (cycle : Nat) : Bool :=
  match g.boot.pllAt with
  | some c => !([0, 4, 8, 13, 17, 22, 26].contains ((cycle - c) % 31))
  | none => false

/-- The age clock (R330): one unit every 128 ns, which is 134.4 fast-clock cycles. -/
def Segment.ageClock (g : Segment) (cycle : Nat) : Nat := (cycle * 5 / 672 + g.rte.ageOff) % 1024

/-- The elapsed age of a flit (R330). -/
def Segment.elapsed (g : Segment) (cycle : Nat) (f : Flit) : Nat := (g.ageClock cycle + 1024 - f.age.toNat) % 1024

/-- The router's record of the present cycle, cleared when a new one has begun. -/
def Segment.newCycle (g : Segment) (cycle : Nat) : Segment :=
  if g.rte.cyc == cycle then g
  else { g with rte := { g.rte with cyc := cycle, used := [], landed := [], ejL := 0, ejXn := 0, injUsed := 0, injLn := 0, injXn := 0 } }

/-- How many of the output slots of an output (0 to 5 fabric, 6 and 7 bridge) are open and unassigned (R325, R326). -/
def Segment.freeSlots (g : Segment) (cycle o : Nat) : Nat :=
  let used := (g.rte.used.filter fun x => x == o).length
  if o < 6 then (if g.fabricSlot cycle && (g.port o).isOpen then 1 - used else 0)
  else
    let e := g.bend (o - 6)
    if e.st == .up then min e.credits (2 - used) else 0

/-! ## Signpost lookup (R342, R343) -/

def Segment.tableState (g : Segment) (e : Nat) : Nat :=
  if e == 0 then g.fld F.RTE_EPOCH_STATUS_STATE0 else g.fld F.RTE_EPOCH_STATUS_STATE1

def Segment.setTableState (g : Segment) (e v : Nat) : Segment :=
  if e == 0 then g.setFld F.RTE_EPOCH_STATUS_STATE0 v else g.setFld F.RTE_EPOCH_STATUS_STATE1 v

/-- The epoch of what is injected in a cycle: in the cycle of a FLIP, the one before it (R346, R350). -/
def Segment.epochAt (g : Segment) (cycle : Nat) : BitVec 1 :=
  match g.rte.flipAt with
  | some (c, e) => if c == cycle then e else g.epoch
  | none => g.epoch

/-- The entry of a table for a destination node (R342). -/
def Segment.signpost (g : Segment) (e : Nat) (dst : BitVec 15) : Word :=
  let base := 0x104000 + 0x4000 * e
  if dst.toNat / 64 == g.node.toNat / 64 then g.reg (base + 0x2000 + 8 * (dst.toNat % 64))
  else g.reg (base + 8 * (dst.toNat / 32))

/-- EST of a port in an entry. -/
def estOf (w : Word) (p : Nat) : Nat := bitsOf w (5 * p + 4) (5 * p)
def viaOf (w : Word) : Bool := w.getLsbD 35
def viaSegOf (w : Word) : Nat := bitsOf w 34 32

/-- The lookup of a flit that has landed or crossed the bridge (R343): the entry, and the miss counted. -/
def Segment.lookup (g : Segment) (tick : Nat) (f : Flit) : Segment × Word :=
  if f.dstNode == g.node then (g, 0x3FFFFFFF)
  else
    let e := f.epoch.toNat
    let cur := g.epoch.toNat
    if e == cur || g.tableState e != 0 then (g, g.signpost e f.dstNode)
    else
      let g := g.bump F.RTE_DROP_COUNT_EPOCH_MISS
      let g := g.raise tick { cls := 12, unit := 6, node := some f.dstNode, ctx := some f.ctx, info := f.epoch.zeroExtend 32,
                              addr := BitVec.ofNat 64 f.ga }
      (g, g.signpost cur f.dstNode)

/-! ## Candidates, best outputs, deflection order (R332, R334) -/

/-- Fabric ports sorted by EST and index. -/
def byEst (w : Word) (ports : List Nat) : List Nat :=
  (List.range 32).flatMap fun e => ports.filter fun p => estOf w p == e

/-- The fabric candidates: ports not down whose EST is not 31. -/
def Segment.fabricCands (g : Segment) (w : Word) : List Nat :=
  byEst w ((List.range 6).filter fun p => !(g.port p).routingDown && estOf w p != 31)

/-- The VIA candidate. -/
def Segment.viaCand (g : Segment) (n : Nat) (w : Word) : List Nat :=
  if viaOf w && viaSegOf w != g.segId.toNat && viaSegOf w < n then
    (match g.bridgeRoute n (viaSegOf w) with | some b => [6 + b] | none => [])
  else []

/-- The egress port a flit still carries, as an output of this segment (R332); toward a segment further on, the
bridge port of its ring. DEDUCED (log 21): a segment between passes the flit on toward the egress port's segment. -/
def Segment.egressOut (g : Segment) (n : Nat) (bf : BFlit) : List Nat :=
  match bf.egress with
  | none => []
  | some (s, p) =>
    if s == g.segId.toNat then (if (g.port p).routingDown then [] else [p])
    else match g.bridgeRoute n s with | some b => [6 + b] | none => []

/-- The candidates of a flit: none for the own segment, where it ejects. -/
def Segment.cands (g : Segment) (n : Nat) (bf : BFlit) : List Nat :=
  if bf.flit.dstNode == g.node then
    if bf.flit.seat g == g.segId.toNat then []
    else
      let b := ringPort n g.segId.toNat (bf.flit.seat g)
      [6 + b, 7 - b]
  else
    let e := g.egressOut n bf
    e ++ (g.fabricCands bf.entry ++ g.viaCand n bf.entry).filter fun o => !e.contains o

/-- The best outputs of a flit: none for the own segment. -/
def Segment.best (g : Segment) (n : Nat) (bf : BFlit) : List Nat :=
  if bf.flit.dstNode == g.node then
    if bf.flit.seat g == g.segId.toNat then []
    else match g.bridgeRoute n (bf.flit.seat g) with | some b => [6 + b] | none => []
  else
    match g.egressOut n bf with
    | o :: _ => [o]
    | [] =>
      match g.fabricCands bf.entry with
      | p :: ps => (p :: ps).filter fun q => estOf bf.entry q == estOf bf.entry p
      | [] => g.viaCand n bf.entry

/-- The deflection order of a flit. -/
def Segment.deflOrder (g : Segment) (bf : BFlit) : List Nat :=
  if bf.flit.dstNode == g.node then List.range 8 else byEst bf.entry (List.range 6) ++ [6, 7]

/-! ## Leaving by an output -/

/-- A flit leaves a segment by an output: into a transmit staging, or over the bridge, to enter the landing of the next segment 12
cycles later (R28, R329). -/
def State.leave (s : State) (sg : Nat) (bf : BFlit) (o : Nat) : State :=
  let f := { bf.flit with hops := BitVec.ofNat 7 (min 127 (bf.flit.hops.toNat + 1)) }
  let s := s.mod sg fun g => { g with rte := { g.rte with used := g.rte.used ++ [o] } }
  if o < 6 then
    s.mod sg fun g => g.modPort o fun p => { p with stage := p.stage ++ [{ flit := f, at_ := s.time }] }
  else
    let b := o - 6
    let s := s.mod sg fun g => (g.charge 20).modBend b fun e =>
      { e with credits := e.credits - 1, sentTotal := e.sentTotal + 1, sent := e.sent ++ [{ bf with flit := f }] }
    let (sg', b') := bridgePartner s.n sg b
    s.mod sg' fun g => (g.charge 20).modBend b' fun e =>
      { e with landing := e.landing ++ [{ flit := f, egress := bf.egress, at_ := s.time + 12, looked := false }] }

/-- The flits that enter a bridge landing in a cycle are looked up again (R332). -/
def Segment.bridgeLookup (g : Segment) (cycle b : Nat) : Segment :=
  let due (x : BFlit) : Bool := !x.looked && x.at_ ≤ cycle
  if (g.bend b).landing.any due then
    let (g, l) := (g.bend b).landing.foldl (fun (acc : Segment × List BFlit) x =>
      if due x then
        let (g, w) := acc.1.lookup (tickOf cycle) x.flit
        (g, acc.2 ++ [{ x with entry := w, looked := true }])
      else (acc.1, acc.2 ++ [x])) (g, [])
    g.modBend b fun e => { e with landing := l }
  else g

/-! ## Presented flits (R327, R328) -/

/-- A presented flit: input port, place in its landing, input slot of the pointer order. -/
structure Presented where
  port : Nat
  idx : Nat
  slot : Nat
  bf : BFlit
  deriving DecidableEq, Repr

/-- The flits presented in a cycle that have not landed in it (R327). -/
def Segment.presented (g : Segment) (cycle : Nat) : List Presented :=
  let fab := (List.range 6).filterMap fun p =>
    let x := g.port p
    if g.fabricSlot cycle && !x.routingDown && !g.rte.landed.contains p then
      match x.land.head? with
      | some bf => if bf.at_ ≤ cycle then some { port := p, idx := 0, slot := p, bf := bf } else none
      | none => none
    else none
  let br := (List.range 2).flatMap fun b =>
    let e := g.bend b
    let took := (g.rte.landed.filter fun x => x == 6 + b).length
    if e.st == .up then
      ((e.landing.take (2 - took)).zipIdx.filter fun (bf, _) => bf.at_ ≤ cycle).map fun (bf, i) =>
        { port := 6 + b, idx := i, slot := 6 + 2 * b + took + i, bf := bf }
    else []
  fab ++ br

/-- Whether a flit is served before another (R328, R349). -/
def Segment.servedBefore (g : Segment) (cycle : Nat) (a b : Presented) : Bool :=
  let ea := g.elapsed cycle a.bf.flit
  let eb := g.elapsed cycle b.bf.flit
  if ea ≠ eb then ea > eb
  else if a.bf.flit.hops ≠ b.bf.flit.hops then a.bf.flit.hops.toNat > b.bf.flit.hops.toNat
  else (a.slot + 10 - cycle % 10) % 10 < (b.slot + 10 - cycle % 10) % 10

/-- The flit to be served next. -/
def Segment.nextPresented (g : Segment) (cycle : Nat) : Option Presented :=
  (g.presented cycle).foldl (fun m x =>
    match m with
    | none => some x
    | some y => if g.servedBefore cycle x y then some x else some y) none

/-- Output slots of the cycle that are open and unassigned. -/
def Segment.leftSlots (g : Segment) (cycle : Nat) : Nat := (List.range 8).foldl (fun n o => n + g.freeSlots cycle o) 0

/-- Open output slots of the cycle for landed flits: those left and those assigned to landed flits, not those that injection took. -/
def Segment.openSlots (g : Segment) (cycle : Nat) : Nat := g.leftSlots cycle + g.rte.used.length - g.rte.injUsed

/-- The flit that may land now: no more land than there are open slots (R327), so one is left for it. -/
def Segment.landable (g : Segment) (cycle : Nat) : Option Presented :=
  if g.rte.landed.length < g.openSlots cycle && 0 < g.leftSlots cycle then g.nextPresented cycle else none

/-! ## The home's request queue (R64, R80, R89) -/

def Segment.queueLimit (g : Segment) : Nat := min 4096 (max 1 (g.fld F.SEG_HOME_CTRL_QUEUE_LIMIT))

/-- Whether the request queue accepts a request or forwarded flit. -/
def Segment.queueAccepts (g : Segment) (f : Flit) : Bool :=
  g.txn.homeQ.length < g.queueLimit && (f.kind != 5 || g.txn.fwdUsed + f.lenM1 % 16 + 1 ≤ 1024)

/-- A reply ejects at L, and a collective flit at X, with the energy of Table 11.2. -/
def Segment.ejectReply (g : Segment) (f : Flit) : Segment :=
  { ((g.charge 30).count Totals.eject1) with rte := { g.rte with ejL := g.rte.ejL + 1 }, txn := { g.txn with replies := g.txn.replies ++ [f] } }

def Segment.ejectX (g : Segment) (f : Flit) : Segment :=
  { ((g.chargeHmp 150).count Totals.eject1) with rte := { g.rte with ejXn := g.rte.ejXn + 1, ejX := g.rte.ejX ++ [{ flit := f, at_ := g.rte.cyc }] } }

/-- A flit enters the request queue; a CPY reserves its lines of the forward staging (R80). A request that lands wakes the range unit
(Table 11.1). -/
def Segment.enqueue (g : Segment) (cycle : Nat) (f : Flit) : Segment :=
  let t := g.txn
  let fwd := if f.kind == 5 then t.fwdUsed + f.lenM1 % 16 + 1 else t.fwdUsed
  { (((g.chargeHmp 150).count Totals.eject1).wakeDom (tickOf cycle) domRange) with
    txn := { t with homeQ := t.homeQ ++ [{ flit := f, cycle := cycle, slot := g.rte.ejL }], fwdUsed := fwd }
    rte := { g.rte with ejL := g.rte.ejL + 1 } }

/-- The busy turnaround of a refused flit (R89). -/
def busyAck (f : Flit) : Flit :=
  let span := if f.cls == 0 then min 15 f.lenM1 else 0
  { f with dstNode := f.srcNode, dstSeg := f.srcSeg, kind := 0x0A, cls := 1, line := replyLine csBusy true span false,
           payload := List.replicate 128 0 }

/-! ## Replicas and samples at landing (R313, R315, R320) -/

/-- The role of a request at its home (Table 2.6); a forwarded write is a writer. -/
def reqRole (f : Flit) : Role :=
  let op := field f.payload 0 1
  match f.kind.toNat with
  | 0 => .reader
  | 5 => .reader
  | 1 => .writer
  | 2 => .writer
  | 0x10 => .writer
  | 3 => if op == 0 then .reader else if op == 1 then .writer else .updater
  | _ => .updater

/-- The replica that serves a reader request of a flit, if this segment holds one (R315). -/
def Segment.replicaFor (g : Segment) (f : Flit) : Option Replica :=
  if f.cls == 0 && reqRole f == .reader && f.space == 0 && f.dstNode == g.node && f.dstSeg != g.segId then
    g.plc.replicas.find? fun r => !r.withdrawn && r.home == f.dstSeg.toNat && r.region == f.index * 128 / regionSize
  else none

/-- One request in 64 of a kind is sampled: DESIGN CHOICE (log 22), every 64th. -/
def sampleHit (n : Nat) : Bool := n % 64 == 63

/-- The samples of R313 and R320 taken when a request lands. A request for a window region counts where it first landed
in the package (chapter 07, Registers): by a fabric port, or straight from its injection. -/
def State.sampleLand (s : State) (sg : Nat) (f : Flit) (first : Bool) : State :=
  let g := s.seg sg
  let h := f.dstSeg.toNat
  if f.cls != 0 || f.space != 0 || f.dstNode != g.node || h ≥ s.n then s
  else
    let home := s.seg h
    let region := f.index * 128 / regionSize
    if home.inWindow (f.index * 128) then
      if !first then s else
      let p := g.plc
      let key := homingKey h (region - home.fld F.PLC_FH_WINDOW_BASE)
      let counts := if sampleHit p.landSample then insertKey key ((lookupKey key p.landCount).getD 0 + 1) p.landCount else p.landCount
      s.setSeg sg { g with plc := { p with landSample := p.landSample + 1, landCount := counts } }
    else
      match home.guardIdx 0 (f.index * 128) with
      | none => s
      | some gi =>
        let w := home.guardMem gi
        if h == sg || !(f.kind == 0 || f.kind == 5) || !w.getLsbD 31 || !w.getLsbD 29 || w.getLsbD 27 then s
        else
          let p := g.plc
          let key := h * 2 ^ 24 + region
          let hit := sampleHit p.repSample
          let counts := if hit then hotBump p.repCount key else p.repCount
          let g := { g with plc := { p with repSample := p.repSample + 1, repCount := counts } }
          let n := (lookupKey key counts).getD 0
          let held := g.plc.replicas.any (fun r => r.home == h && r.region == region) || g.plc.copies.any fun c => c.home == h && c.region == region
          let nFrames := g.fld F.PLC_POOL_FRAMES
          let most := min 512 (g.fld F.PLC_REPL_MAX_REPLICAS)
          if hit && g.fld F.PLC_CTRL_REPLICATE == 1 && n ≥ max 1 (g.fld F.PLC_REPL_THRESHOLD) && !held &&
             g.plc.replicas.length + g.plc.copies.length < most then
            match firstFree g.plc.framesUsed nFrames with
            | some fr =>
              let c : ReplicaCopy := { region := region, home := h, guard := w, frame := fr, start := s.tick }
              s.setSeg sg { g with plc := { g.plc with copies := g.plc.copies ++ [c], framesUsed := fr :: g.plc.framesUsed } }
            | none => s.setSeg sg g
          else s.setSeg sg g

/-! ## Landing (R334) -/

/-- The flits landed and deflected, counted (R341, Table 8.6). -/
def Segment.countAssigned (g : Segment) (wasDeflected : Bool) : Segment :=
  let r := g.rte
  let d := if wasDeflected then 1 else 0
  let g := g.count fun t => { t with deflect := t.deflect + d }
  let g := { (g.charge 30) with rte := { r with asgn := r.asgn + 1, defl := r.defl + d,
                                                fracA := (r.fracA + 1) % 1024, fracD := (r.fracD + d) % 1024 } }
  let g := if r.fracA + 1 == 1024 then g.bump F.RTE_COUNT_ASSIGNED else g
  if r.fracD + d == 1024 then g.bump F.RTE_COUNT_DEFLECTED else g

/-- A landed flit is dropped by the router: synthetic completion and record (R336, R337). -/
def Segment.routerDrop (g : Segment) (cycle : Nat) (f : Flit) (cls : Nat) (info : Nat) (status : BitVec 4) (c : Fld) : Segment :=
  let g := (g.bump c).dropFlit cycle f status false
  g.raise (tickOf cycle) { cls := cls, unit := 6, ctx := some f.ctx, node := some f.dstNode, addr := BitVec.ofNat 64 f.ga,
                           info := BitVec.ofNat 32 info, status := status }

/-- The drop of R336. -/
def Segment.limitDrop (g : Segment) (cycle : Nat) (f : Flit) : Segment :=
  if f.hops == 127 then g.routerDrop cycle f 10 127 csLinkDown F.RTE_DROP_COUNT_HOP_BUDGET
  else g.routerDrop cycle f 10 (128 + f.hops.toNat) csLinkDown F.RTE_DROP_COUNT_AGE_LIMIT

/-- Whether a lookup gives no route (R337). -/
def noRoute (w : Word) : Bool := (List.range 6).all (fun p => estOf w p == 31) && !viaOf w

/-- A router asks a dozing side to wake (R326). -/
def Segment.askWake (g : Segment) (o : Nat) : Segment :=
  if o < 6 && (g.port o).txPwr == .doze then g.modPort o fun p => { p with wakeHeld := true } else g

/-- A landed flit that does not eject is dropped or assigned an output (R334 to R337). -/
def State.routeLanded (s : State) (sg : Nat) (bf : BFlit) : State :=
  let g := s.seg sg
  let f := bf.flit
  if f.hops == 127 || g.elapsed s.time f ≥ 500 then s.setSeg sg (g.limitDrop s.time f)
  else if f.dstNode != g.node && noRoute bf.entry then
    s.setSeg sg (g.routerDrop s.time f 11 f.kind.toNat csNodeDown F.RTE_DROP_COUNT_NO_ROUTE)
  else
    let cs := g.cands s.n bf
    let g := match cs with | o :: _ => g.askWake o | [] => g
    let s := s.setSeg sg g
    let free (o : Nat) : Bool := g.freeSlots s.time o > 0
    match (cs.filter free) ++ (g.deflOrder bf).filter free with
    | [] => s
    | o :: _ =>
      let s := s.setSeg sg (g.countAssigned (!(g.best s.n bf).contains o))
      s.leave sg bf o

/-- A reply ejects, where a slot remains, and is otherwise routed. -/
def State.landReply (s : State) (sg : Nat) (bf : BFlit) : State :=
  let g := s.seg sg
  if bf.flit.names g && g.rte.ejL < 6 then
    s.setSeg sg (g.ejectReply bf.flit)
  else s.routeLanded sg bf

/-- A landed flit is ejected, turned round, dropped or sent on (R333, R334, R89). -/
def State.serve (s : State) (sg : Nat) (bf : BFlit) (first : Bool) : State :=
  let g := s.seg sg
  let f := bf.flit
  if f.cls == 1 then s.landReply sg bf
  else if f.cls == 3 then
    if f.names g && g.rte.ejXn < 7 then
      s.setSeg sg (g.ejectX f)
    else s.routeLanded sg bf
  else if f.dstNode == g.node && f.dstSeg.toNat > g.straps.dieCount.toNat then
    -- no such segment: completed here and not forwarded (R4)
    s.setSeg sg (g.dropFlit s.time f csDenied false)
  else
    let s := s.sampleLand sg f first
    let g := s.seg sg
    if f.names g || (g.replicaFor f).isSome then
      if g.queueAccepts f then
        if g.rte.ejL < 6 then s.setSeg sg (g.enqueue s.time f) else s.routeLanded sg bf
      else
        let bh := g.fld F.SEG_HOME_CTRL_BUSY_HOPS
        if f.names g && bh != 0 && f.hops.toNat ≥ bh then
          let r := busyAck f
          let (g, w) := (g.bump F.SEG_HOME_STATUS_BUSY_SENT).lookup s.tick r
          (s.setSeg sg g).landReply sg { flit := r, entry := w, at_ := s.time }
        else s.routeLanded sg bf
    else s.routeLanded sg bf

/-- A flit leaves its landing as it lands: the credit is owed or returned (R28, R372). -/
def Segment.takeLanding (g : Segment) (x : Presented) : Segment :=
  let g := { g with rte := { g.rte with landed := g.rte.landed ++ [x.port] } }
  if x.port < 6 then g.modPort x.port fun p => { p with land := p.land.drop 1, owed := p.owed + 1 }
  else g.modBend (x.port - 6) fun e => { e with landing := e.landing.eraseIdx x.idx, landedTotal := e.landedTotal + 1 }

/-- The flit a port presents lands when it is the next in the order of R328; over the bridge, a credit starts back (R28). -/
def State.landFrom (s : State) (sg port : Nat) : State :=
  let g := (((s.seg sg).newCycle s.time).bridgeLookup s.time 0).bridgeLookup s.time 1
  match g.landable s.time with
  | none => s
  | some x =>
    if x.port != port then s
    else
      let s := s.setSeg sg (g.takeLanding x)
      let s := if x.port < 6 then s else
        let (sg', b') := bridgePartner s.n sg (x.port - 6)
        s.mod sg' fun h => h.modBend b' fun e => { e with due := e.due ++ [s.time + 12] }
      s.serve sg x.bf (x.port < 6 || (x.bf.flit.hops.toNat ≤ 1 && !x.bf.counted))

/-- FLIT_LAND (R327 to R337): a presented flit lands and is ejected, assigned an output, deflected or dropped. -/
def execFlitLand (sg : Fin 8) (port : Fin 8) (s : State) : Out := onSeg sg s fun s => s.landFrom sg port.val

/-! ## Injection (R309, R340) -/

/-- The load published for a port (R310). -/
def Segment.loadOf (g : Segment) (s p : Nat) : Nat :=
  match g.plc.published.find? fun x => x.1 == s && x.2.1 == p with
  | some x => x.2.2
  | none => 0

/-- Whether a segment of the package can be reached over the bridge. -/
def State.reachable (s : State) (a b : Nat) : Bool := a == b || ((s.seg a).bridgeRoute s.n b).isSome

/-- The ports R309 would consider: those of every reachable segment, or of the own alone with BALANCE at 0 (R310),
whose EST for the node is below 31; with the cost and ties of each. -/
def State.egressPorts (s : State) (sg : Nat) (dst : BitVec 15) : List (Nat × Nat × Nat) :=
  let g := s.seg sg
  let bal := g.fld F.PLC_CTRL_BALANCE == 1
  let lw := if bal then g.fld F.PLC_EGRESS_LOAD_WEIGHT else 0
  let bc := g.fld F.PLC_EGRESS_BRIDGE_COST
  (List.range s.n).flatMap fun t =>
    if t == sg || (bal && s.reachable sg t) then
      let h := s.seg t
      let w := h.signpost (h.epochAt s.time).toNat dst
      let hops := ringHops s.n sg t
      (List.range 6).filterMap fun p =>
        if estOf w p == 31 then none
        else
          let cost := 16 * estOf w p + bc * hops + lw * g.loadOf t p
          -- cost, then own segment, ring hops, segment index, port index
          some (((cost * 2 + (if t == sg then 0 else 1)) * 8 + hops) * 64 + t * 8 + p, t, p)
    else []

/-- The least of a list of keyed ports. -/
def leastPort (l : List (Nat × Nat × Nat)) : Option (Nat × Nat) :=
  (l.foldl (fun m x => match m with
    | none => some x
    | some y => if x.1 < y.1 then some x else some y) none).map Prod.snd

/-- What an injection does. -/
inductive InjTo where
  | eject | out (o : Nat) (egress : Option (Nat × Nat)) | wait | wakeFlask (t p : Nat) | noRoute
  deriving DecidableEq, Repr

/-- Whether a port of the package is open to routing. -/
def State.portUp (s : State) (e : Nat × Nat) : Bool := !((s.seg e.1).port e.2).routingDown

/-- Where a queued flit goes (the steps after R341). -/
def State.injTo (s : State) (sg : Nat) (bf : BFlit) : InjTo :=
  let g := s.seg sg
  let f := bf.flit
  if f.names g then .eject
  else if f.dstNode == g.node then
    match g.bridgeRoute s.n (f.seat g) with | some b => .out (6 + b) none | none => .wait
  else
    let toward (e : Nat × Nat) : InjTo :=
      if e.1 == sg then .out e.2 none
      else match g.bridgeRoute s.n e.1 with | some b => .out (6 + b) (some e) | none => .wait
    let all := s.egressPorts sg f.dstNode
    match bf.egress.filter s.portUp with
    | some e => toward e
    | none =>
      match leastPort (all.filter fun x => s.portUp x.2) with
      | some e => toward e
      | none =>
        let w := g.signpost (g.epochAt s.time).toNat f.dstNode
        match g.viaCand s.n w with
        | o :: _ => .out o none
        | [] =>
          match leastPort all with
          | none => .noRoute
          | some e => if all.all fun x => ((s.seg x.2.1).port x.2.2).txPwr == .flask then .wakeFlask e.1 e.2 else .wait

/-- RATE in force (R340). -/
def Segment.rate (g : Segment) : Nat :=
  if g.fld F.RTE_THROTTLE_CTRL_ENABLE == 0 then 256 else g.fld F.RTE_THROTTLE_STATUS_RATE

/-- The budget brought up to a cycle (R340). -/
def Segment.rollBudget (g : Segment) (cycle : Nat) : Segment :=
  { g with rte := { g.rte with budget := min 3072 (g.rte.budget + 6 * g.rate * (cycle - g.rte.budgetAt)), budgetAt := cycle } }

/-- The kinds the throttle limits (R340). -/
def throttled (f : Flit) : Bool := f.cls == 0 || f.cls == 2 || f.kind == 0x18 || f.kind == 0x19

/-- The energy a governed injection is charged at: its router and, when sealed, crypto terms (R446). -/
def Segment.flitEnergy (g : Segment) (f : Flit) : Nat := if g.sealedCtx f.ctx then 310 else 30

/-- The fixed key of injection within L (R340). -/
def injClass (f : Flit) : Nat := if f.cls == 1 then 0 else if f.cls == 2 then 1 else 2

/-- Whether one queued flit goes before another. -/
def injBefore (a b : BFlit × Nat) : Bool :=
  if a.1.at_ ≠ b.1.at_ then a.1.at_ < b.1.at_
  else if injClass a.1.flit ≠ injClass b.1.flit then injClass a.1.flit < injClass b.1.flit
  else if a.1.key ≠ b.1.key then a.1.key < b.1.key
  else a.2 < b.2

/-- The output an injection takes, as a number: 8 for ejection. -/
def InjTo.slot : InjTo → Option Nat
  | .eject => some 8
  | .out o _ => some o
  | _ => none

/-- Whether a queued flit could be injected now, the order among the queued apart: at most 6 flits of L and 6 of X a cycle (Table 1.3). -/
def State.injReady (s : State) (sg : Nat) (bf : BFlit) : Bool :=
  let g := s.seg sg
  let f := bf.flit
  bf.at_ ≤ s.time && (if f.cls == 3 then g.rte.injXn < 6 else g.rte.injLn < 6) &&
  (!throttled f || (g.rte.budget ≥ 256 && g.budgetOk (g.flitEnergy f))) &&
  (match s.injTo sg bf with
   | .eject =>
     if f.cls == 3 then g.rte.ejXn < 7
     else g.rte.ejL < 6 && (f.cls == 1 || g.queueAccepts f)
   | .out o _ => g.freeSlots s.time o > 0
   | _ => false)

/-- The flit with the fields injection sets (R48, R330, R346). -/
def Segment.stamp (g : Segment) (cycle : Nat) (f : Flit) : Flit :=
  { f with hops := 0, epoch := g.epochAt cycle, age := BitVec.ofNat 10 (g.ageClock cycle) }

/-- A queue with an entry taken out, and the egress of its burst fixed for the rest. -/
def dropQueued (q : List BFlit) (idx : Nat) (burst : Nat) (egress : Option (Nat × Nat)) : List BFlit :=
  (q.eraseIdx idx).map fun x => if burst != 0 && x.burst == burst && egress.isSome then { x with egress := egress } else x

/-- Whether the signpost epoch state is lost, until warm reset: no flit is then injected (R477, Table 12.3). -/
def Segment.epochLost (g : Segment) : Bool := g.critLost 0

/-- A queue of waiting flits without one of them; a burst's later flits keep its output (R335). -/
def Segment.injDrop (g : Segment) (isX : Bool) (idx : Nat) (bf : BFlit) (eg : Option (Nat × Nat)) : Segment :=
  if isX then { g with rte := { g.rte with injX := dropQueued g.rte.injX idx bf.burst eg } }
  else { g with rte := { g.rte with injL := dropQueued g.rte.injL idx bf.burst eg } }

/-- An injection counted in its cycle. -/
def Segment.injCount (g : Segment) (isX : Bool) : Segment :=
  if isX then { g with rte := { g.rte with injXn := g.rte.injXn + 1 } } else { g with rte := { g.rte with injLn := g.rte.injLn + 1 } }

/-- A request of the segment itself is transmitted for the first time: its time-out counts from here (R58). -/
def Segment.firstSent (g : Segment) (tick : Nat) (f : Flit) : Segment :=
  if f.cls == 0 && f.srcNode == g.node && f.srcSeg == g.segId then
    { g with txn := { g.txn with reqs := modWhere g.txn.reqs (fun r => r.base == some f.tag.toNat && r.sentTick.isNone) fun r =>
        { r with sentTick := some tick } } }
  else g

/-- A flit taken into the router (R80, R330, R335): it leaves by its output, or it lands on its own segment. -/
def State.injectTaken (s : State) (sg : Nat) (isX : Bool) (idx : Nat) (bf : BFlit) (dest : InjTo) : State :=
  let g := s.seg sg
  let f := g.stamp s.time bf.flit
  -- a staged line of a copy is released as its FWD_WR is injected (R80)
  let g := if bf.staged then { g with txn := { g.txn with fwdUsed := g.txn.fwdUsed - 1 } } else g
  let g := (if throttled f then { g with rte := { g.rte with budget := g.rte.budget - 256 } } else g).charge 30
  let g := (g.count Totals.inject1).injCount isX
  let g := g.firstSent (tickOf s.time) f
  match dest with
  | .out o eg =>
    let pinned := match eg with | some e => some e | none => if o < 6 then some (sg, o) else none
    let g := { g with rte := { g.rte with injUsed := g.rte.injUsed + 1 } }.injDrop isX idx bf pinned
    let w := if f.dstNode == g.node then 0x3FFFFFFF else g.signpost f.epoch.toNat f.dstNode
    (s.setSeg sg g).leave sg { bf with flit := f, egress := eg, entry := w } o
  | _ =>
    let g := g.injDrop isX idx bf none
    if f.cls == 1 then
      s.setSeg sg (g.ejectReply f)
    else if f.cls == 3 then
      s.setSeg sg (g.ejectX f)
    else (s.setSeg sg (g.enqueue s.time f)).sampleLand sg f (!bf.counted)

/-- FLIT_INJECT (R25, R309, R340): a queued flit leaves when no presented flit can still land in the cycle and no
flit of its queue, and none of X before L, claims its output first. -/
def execFlitInject (sg : Fin 8) (isX : Bool) (idx : Nat) (s : State) : Out :=
  onSeg sg s fun s =>
    let g := ((s.seg sg).newCycle s.time).rollBudget s.time
    let s := s.setSeg sg g
    let q := if isX then g.rte.injX else g.rte.injL
    match q[idx]? with
    | none => s
    | some bf =>
      if (g.landable s.time).isSome || g.epochLost then s
      else
        match s.injTo sg bf with
        | .noRoute =>
          s.setSeg sg ((g.injDrop isX idx bf none).routerDrop s.time bf.flit 11 bf.flit.kind.toNat csNodeDown F.RTE_DROP_COUNT_NO_ROUTE)
        | .wakeFlask t p => s.mod t fun h => h.modPort p fun x => { x with wakeHeld := true }
        | .wait => s
        | dest =>
          let rivals := q.zipIdx.filter fun x => (s.injTo sg x.1).slot == dest.slot && s.injReady sg x.1
          let xFirst := !isX && dest.slot != some 8 && g.rte.injX.any fun x => (s.injTo sg x).slot == dest.slot && s.injReady sg x
          if !s.injReady sg bf || xFirst || rivals.any fun x => injBefore x (bf, idx) then
            -- a dozing best output is asked to wake (R422)
            let g := if throttled bf.flit && !g.budgetOk (g.flitEnergy bf.flit) then g.governedWait else g
            match dest with
            | .out o _ => s.setSeg sg (g.askWake o)
            | _ => s.setSeg sg g
          else
            s.setSeg sg g |>.injectTaken sg isX idx bf dest

/-! ## Clocks and throttle -/

/-- AGE_CLOCK_ALIGN (R330): every 50 ticks a segment's age clock takes segment 0's value. -/
def execAgeClockAlign (sg : Fin 8) (s : State) : Out :=
  onSeg sg s fun s =>
    let g := s.seg sg
    if s.tick < g.rte.alignAt + 50 then s
    else
      let own := g.rte.ageOff
      let off := if s.reachable 0 sg then (s.seg 0).rte.ageOff else own
      s.setSeg sg { g with rte := { g.rte with ageOff := off, alignAt := s.tick } }

/-- THROTTLE_UPDATE (R341, R356). -/
def execThrottleUpdate (sg : Fin 8) (s : State) : Out :=
  onSeg sg s fun s =>
    let g := (s.seg sg).rollBudget s.time
    let r := g.rte
    if s.tick < r.updateAt + 50 then s
    else
      let hist := ((r.defl, r.asgn) :: r.hist).take 10
      let d := hist.foldl (fun n x => n + x.1) 0
      let a := hist.foldl (fun n x => n + x.2) 0
      let occNow := g.ports.foldl (fun n p => max n p.land.length) 0
      let occ := max r.occMax occNow
      let isHot := occ > max 1 (g.fld F.RTE_THROTTLE_CTRL_OCC_LIMIT) || (a > 0 && d * 256 > g.fld F.RTE_THROTTLE_CTRL_DEFL_LIMIT * a)
      let cutOk : Bool := match r.lastCut with | some t => s.tick - t ≥ 500 | none => true
      let rate := g.fld F.RTE_THROTTLE_STATUS_RATE
      let r := { r with hist := hist, defl := 0, asgn := 0, occMax := occNow, updateAt := s.tick / 50 * 50 }
      if g.fld F.RTE_THROTTLE_CTRL_ENABLE == 0 then s.setSeg sg { g with rte := r }
      else if isHot then
        if cutOk then
          let g := { g with rte := { r with lastCut := some s.tick } }
          let g := g.setFld F.RTE_THROTTLE_STATUS_RATE (max (max 1 (g.fld F.RTE_THROTTLE_CTRL_MIN_RATE)) (rate / 2))
          s.setSeg sg (g.bump F.RTE_THROTTLE_STATUS_DECREASES)
        else s.setSeg sg { g with rte := r }
      else
        let g := { g with rte := r }
        s.setSeg sg (g.setFld F.RTE_THROTTLE_STATUS_RATE (min 256 (rate + g.fld F.RTE_THROTTLE_CTRL_AI)))

/-! ## Signposts (R344 to R347, R354) -/

/-- A table command refused, or a write the rule ignores. -/
def Segment.denied (g : Segment) (tick off : Nat) (v : Word) : Segment := g.accessFault tick (unitOf off) off v

/-- An entry as it is stored: reserved bits dropped, EST 0 as 31; whether some EST was 0 (R354). -/
def storeEntry (w : Word) : Word × Bool :=
  let w := w &&& 0xF3FFFFFFF
  (List.range 6).foldl (fun (w, z) p => if estOf w p == 0 then (setBits w (5 * p + 4) (5 * p) 31, true) else (w, z)) (w, false)

/-- The value a write of a size leaves in a register word. -/
def mergeSize (old : Word) (sz : Sz) (v : Word) : Word :=
  match sz with
  | .w64 => v
  | .lo32 => setBits old 31 0 (v.toNat % 2 ^ 32)
  | .hi32 => setBits old 63 32 (v.toNat % 2 ^ 32)

/-- SIGNPOST_WRITE (R345, R354). `idx` counts the entries from 0: region entries, then local entries at 1024. -/
def execSignpostWrite (sg : Fin 8) (ag : Agent) (table : Fin 2) (idx : BitVec 11) (sz : Sz) (v : Word) (s : State) : Out :=
  onCtl sg ag s fun s =>
    let g := s.seg sg
    let off := 0x104000 + 0x4000 * table.val + 8 * idx.toNat
    if idx.toNat ≥ 1088 then s.setSeg sg (g.answer csUnmapped 0)
    else if !ag.admin || g.tableState table != 0 then s.setSeg sg ((g.denied s.tick off v).answer csOk 0)
    else
      let (w, zero) := storeEntry (mergeSize (g.reg off) sz v)
      let g := (g.setReg off w).answer csOk 0
      s.setSeg sg (if zero then g.denied s.tick off v else g)

/-- The word an RTE_TABLE_CMD write holds, for a refusal's record. -/
def tableCmdWord (cmd table : Nat) : Word := BitVec.ofNat 64 (2 * cmd + table)

/-- The READY table becomes CURRENT and the CURRENT one RETIRING; at the first flip the table that was current stays EMPTY (R346). -/
def Segment.flipTable (g : Segment) (cycle : Nat) : Segment :=
  let cur := g.epoch
  let retires := g.tableState cur.toNat == 2
  let g := g.setTableState (1 - cur.toNat) 2
  let g := if retires then g.setTableState cur.toNat 3 else g
  let g := g.setFld F.RTE_EPOCH_STATUS_CURRENT (1 - cur.toNat)
  { g with rte := { g.rte with
      retireAt := if retires then tickOf cycle + 5000 else g.rte.retireAt
      flipAt := some (cycle, cur)
      flipWait := none } }

/-- A FLIP of this cycle that waited for a SEAL is carried out once the other table is READY (R355). -/
def Segment.flipSealed (g : Segment) (cycle : Nat) : Segment :=
  if g.rte.flipWait == some cycle && g.tableState (1 - g.epoch.toNat) == 1 then g.flipTable cycle else g

/-- A FLIP whose cycle has ended with the other table EMPTY is ignored, with a record (R346). -/
def Segment.flipLapsed (g : Segment) : Segment :=
  match g.rte.flipWait with
  | some c => { g with rte := { g.rte with flipWait := none } }.denied (tickOf c) 0x100000 1
  | none => g

/-- SIGNPOST_SEAL (R345, R355). -/
def execSignpostSeal (sg : Fin 8) (ag : Agent) (table : Fin 2) (s : State) : Out :=
  onDoms sg ag [domRouter] s fun s =>
    let g := s.seg sg
    if ag.admin && g.tableState table == 0 then
      s.setSeg sg ((((g.setTableState table 1).flipSealed s.time).critWrite 0).answer csOk 0)
    else s.setSeg sg ((g.denied s.tick 0x100010 (tableCmdWord 1 table)).answer csOk 0)

/-- SIGNPOST_OPEN (R345). -/
def execSignpostOpen (sg : Fin 8) (ag : Agent) (table : Fin 2) (s : State) : Out :=
  onDoms sg ag [domRouter] s fun s =>
    let g := s.seg sg
    if ag.admin && g.tableState table == 1 then s.setSeg sg (((g.setTableState table 0).critWrite 0).answer csOk 0)
    else s.setSeg sg ((g.denied s.tick 0x100010 (tableCmdWord 2 table)).answer csOk 0)

/-- EPOCH_FLIP (R346, R355): accepted while the other table is READY, or becomes so in this cycle. -/
def execEpochFlip (sg : Fin 8) (ag : Agent) (s : State) : Out :=
  onCtl sg ag s fun s =>
    let g := s.seg sg
    let other := g.tableState (1 - g.epoch.toNat)
    if ag.isKeeper && other == 1 then s.setSeg sg (((g.flipTable s.time).critWrite 0).answer csOk 0)
    else if ag.isKeeper && other == 0 && g.rte.flipWait.isNone then
      s.setSeg sg ({ g with rte := { g.rte with flipWait := some s.time } }.answer csOk 0)
    else s.setSeg sg ((g.denied s.tick 0x100000 1).answer csOk 0)

/-- OLD_LIVE (R347): the flits of an epoch this segment holds. -/
def Segment.oldLive (g : Segment) (e : Nat) : Nat :=
  let of (l : List BFlit) : Nat := (l.filter fun b => b.flit.epoch.toNat == e).length
  g.ports.foldl (fun n p => n + of p.land + of p.stage + p.replay.foldl (fun n x => n + of x.flits) 0) 0 +
  g.bridge.foldl (fun n b => n + of b.landing + of b.sent) 0

/-- The table that retires, if one does. -/
def Segment.retiring (g : Segment) : Option Nat :=
  if g.tableState 0 == 3 then some 0 else if g.tableState 1 == 3 then some 1 else none

/-- TABLE_RETIRED (R347, R489): at RETIRE_LEFT 0 and OLD_LIVE 0 the retiring table returns to READY, and the
suppression entries of its epoch are removed. -/
def execTableRetired (sg : Fin 8) (s : State) : Out :=
  onSeg sg s fun s =>
    let g := s.seg sg
    match g.retiring with
    | some e =>
      if s.tick ≥ g.rte.retireAt && g.oldLive e == 0 then
        let g := g.setTableState e 1
        s.setSeg sg { g with flt := { g.flt with supp := g.flt.supp.filter fun x => x.2.toNat != e } }
      else s
    | none => s

end Sys2Proof.Machine
end

