-- ==== Sys2Proof/Machine/Groups.lean ====
section
/-! DEFINITION. Groups (chapter 05): trees, queues, completions and the stile, aborts and failure. The chunk pipeline
is in Chunks. -/

namespace Sys2Proof.Machine

open Sys2Proof

/-! ## Trees (R189, R311) -/

/-- What a level tells apart of a member word. -/
def levelBits (l w : Nat) : Nat :=
  if l == 0 then w / 2 ^ 15 % 8 else if l == 1 then w % 16 else if l == 2 then w / 16 % 8 else w / 128 % 256

/-- Stage `j` of a STAGE_ORDER byte. -/
def stageAt (order j : Nat) : Nat := order / 4 ^ j % 4

/-- Whether a STAGE_ORDER names each stage once (R189). -/
def orderOk (order : Nat) : Bool := (List.range 4).all fun l => (List.range 4).any fun j => stageAt order j == l

/-- Ranks put into groups of equal keys, each in the order given. -/
def groupByKey (key : Nat → List Nat) : List Nat → List (List Nat × List Nat)
  | [] => []
  | r :: rs =>
    let gs := groupByKey key rs
    let k := key r
    if gs.any fun x => x.1 == k then gs.map fun x => if x.1 == k then (k, r :: x.2) else x else (k, [r]) :: gs

/-- A rank put into an ascending list. -/
def insertAsc (r : Nat) : List Nat → List Nat
  | [] => [r]
  | x :: xs => if r < x then r :: x :: xs else x :: insertAsc r xs

/-- The edges (child, parent) within one group of ranks, in position order, and its position 0. The single tree takes
the ranks in descending order, with no rotation. -/
def joinGroup (t k : Nat) (isSingle : Bool) (ranks : List Nat) : List (Nat × Nat) × Nat :=
  let m := ranks.length
  let rot := t * (m / max 1 k) % max 1 m
  let pos (i : Nat) : Nat := if isSingle then ranks.getD (m - 1 - i) 0 else ranks.getD ((i + rot) % max 1 m) 0
  ((List.range (m - 1)).map fun i => (pos (i + 1), pos (i / 4)), pos 0)

/-- One stage of `build` (R311). -/
def buildStage (members : List Nat) (t k : Nat) (isSingle : Bool) (s : Nat) (done part : List Nat) :
    List (Nat × Nat) × List Nat :=
  let levels := (List.range 4).filter fun l => !done.contains l && l != s
  let gs := groupByKey (fun r => levels.map fun l => levelBits l (members.getD r 0)) part
  let joined := gs.map fun x => joinGroup t k isSingle x.2
  (joined.flatMap Prod.fst, (joined.map Prod.snd).foldl (fun acc r => insertAsc r acc) [])

/-- `build(t)` of R311: the edges and the root. -/
def buildTree (members : List Nat) (order t k : Nat) (isSingle : Bool) : List (Nat × Nat) × Nat :=
  let (edges, part, _) := (List.range 4).foldl (fun (edges, part, done) j =>
    let s := stageAt order j
    let (e, next) := buildStage members t k isSingle s done part
    (edges ++ e, next, s :: done)) (([] : List (Nat × Nat)), List.range members.length, ([] : List Nat))
  (edges, part.headD 0)

/-- A tree as one rank sees it. -/
def treeOf (edges : List (Nat × Nat)) (root rank : Nat) : Tree :=
  { parent := (edges.find? fun e => e.1 == rank).map Prod.snd,
    children := (edges.filter fun e => e.2 == rank).map Prod.fst, root := root,
    leaves := ((edges.filter fun e => e.2 == rank).map Prod.fst).filter fun c => !edges.any fun e => e.2 == c }

/-! ## Looking up groups -/

def Segment.grp? (g : Segment) (n : BitVec 12) : Option Grp := g.groups.find? fun x => x.num == n

def Segment.modGrp (g : Segment) (n : BitVec 12) (f : Grp → Grp) : Segment :=
  { g with groups := modWhere g.groups (fun x => x.num == n) f }

def Segment.modHead (g : Segment) (n : BitVec 12) (f : Head → Head) : Segment :=
  g.modGrp n fun x => { x with head := x.head.map f }

/-- The chunk state of a chunk of the head operation. -/
def Segment.modChk (g : Segment) (n : BitVec 12) (tree c : Nat) (f : Chk → Chk) : Segment :=
  g.modHead n fun h => { h with chk := modWhere h.chk (fun k => k.tree == tree && k.c == c) f }

/-- The number of the single tree. -/
def singleTree : Nat := 0x3F

end Sys2Proof.Machine

namespace Sys2Proof.Machine

open Sys2Proof

def Grp.k (x : Grp) : Nat := x.trees.length
def Grp.word (x : Grp) (rank : Nat) : Nat := x.members.getD rank 0
def Grp.tree (x : Grp) (t : Nat) : Tree := if t == singleTree then x.single else x.trees.getD t x.single
def Grp.rankOf (x : Grp) (node : BitVec 15) (seg : BitVec 3) : Option Nat :=
  x.members.findIdx? fun w => w == node.toNat + seg.toNat * 2 ^ 15
def Head.chk? (h : Head) (tree c : Nat) : Option Chk := h.chk.find? fun k => k.tree == tree && k.c == c

/-! ## Routes to members (R194, R216, R312) -/

/-- Whether a member's node is not known down and some port of the package has an EST for it below 31, or a VIA route
reaches it (R216). -/
def State.memberReach (s : State) (sg w : Nat) : Bool :=
  let g := s.seg sg
  let node := BitVec.ofNat 15 w
  if g.flt.known.contains node then false
  else if node == g.node then w / 2 ^ 15 % 8 < s.n
  else (List.range s.n).any fun t =>
    let h := s.seg t
    let e := h.signpost h.epoch.toNat node
    (t == sg || s.reachable sg t) &&
      ((List.range 6).any (fun p => estOf e p != 31) || (viaOf e && viaSegOf e < s.n && viaSegOf e != t))

/-- Whether a segment of the package keeps a bridge route to another: a link in a contained reset comes back (R31, R33). -/
def State.bridgeKept (s : State) (a b : Nat) : Bool :=
  a == b || (s.seg a).bridge.any fun e => e.st != .down && !e.goingDown

/-- Whether a port is lost to routes: it is DISABLED, DOWN, in training from DOWN, or QUARANTINED. -/
def Port.isLost (p : Port) : Bool := p.st == .disabled || p.st == .down || p.st == .training || p.st == .quarantined

/-- Whether a bridge or port loss has left the package without a route to a member (R194). -/
def State.memberRoute (s : State) (sg w : Nat) : Bool :=
  let g := s.seg sg
  let node := BitVec.ofNat 15 w
  if node == g.node then (w / 2 ^ 15 % 8 == sg) || s.bridgeKept sg (w / 2 ^ 15 % 8)
  else (List.range s.n).any fun t =>
    let h := s.seg t
    let e := h.signpost h.epoch.toNat node
    (t == sg || s.bridgeKept sg t) && (List.range 6).any fun p => estOf e p != 31 && !(h.port p).isLost


/-! ## Collective flits (R210, R211) -/

/-- A collective flit of a group toward a rank. -/
def Segment.colFlit (g : Segment) (x : Grp) (kind dst : Nat) (serial : BitVec 32) (tree c idx : Nat) (payload : List Byte) : Flit :=
  let w := x.word dst
  mkFlit (BitVec.ofNat 15 w) (BitVec.ofNat 3 (w / 2 ^ 15)) g.node g.segId kind x.ctx
    (BitVec.ofNat 16 (serial.toNat % 256 * 256 + tree))
    (BitVec.ofNat 39 (x.num.toNat * 2 ^ 27 + c % 2 ^ 16 * 2 ^ 11 + idx)) payload

/-- The header of a chunk or round (Table 5.6). -/
def chunkHeader (serial fp : BitVec 32) (c tree : Nat) (status : BitVec 4) (flits elems : Nat) (crc : BitVec 32)
    (norm spoil : Nat) : List Byte :=
  natBytes serial.toNat 4 ++ natBytes fp.toNat 4 ++ natBytes c 4 ++ natBytes tree 1 ++ natBytes status.toNat 1 ++
  natBytes flits 2 ++ natBytes elems 4 ++ natBytes crc.toNat 4 ++ natBytes norm 8 ++ natBytes spoil 8 ++ List.replicate 80 0

/-- A payload cut into lines of 128 bytes, with their FLIT indexes. -/
def cutLines : Nat → Nat → List Byte → List (Nat × List Byte)
  | 0, _, _ => []
  | n + 1, i, bs => (i, padTo 128 (bs.take 128)) :: cutLines n (i + 1) (bs.drop 128)

/-- The flits of a chunk: data, then header (R210). -/
def chunkFlits (serial fp : BitVec 32) (c tree : Nat) (status : BitVec 4) (elems : Nat) (data : List Byte) (norm spoil : Nat) :
    List (Nat × List Byte) :=
  let n := (data.length + 127) / 128
  let lines := cutLines n 0 data
  let crc := crc32 (lines.flatMap Prod.snd)
  lines ++ [(0x7FF, chunkHeader serial fp c tree status n elems (if n == 0 then 0 else crc) norm spoil)]

/-- What is held goes out (R215, R216). -/
def Segment.sendRaw (g : Segment) (cycle : Nat) (x : Grp) (h : Held) : Segment :=
  g.injectX cycle (h.flits.map fun (i, p) => g.colFlit x h.kind h.dst h.serial h.tree h.c i p)

/-- A release or refusal (Table 5.7) back to a rank. -/
def Segment.sendReply (g : Segment) (cycle : Nat) (x : Grp) (kind dst : Nat) (serial : BitVec 32) (tree c reason : Nat) : Segment :=
  g.injectX cycle [g.colFlit x kind dst serial tree c 0
    (natBytes serial.toNat 4 ++ natBytes c 4 ++ natBytes tree 1 ++ natBytes reason 1)]

/-! ## Shares, chunks and where they travel (R203 to R207) -/

/-- Whether a collective reduces. -/
def CDesc.isRed (d : CDesc) : Bool := d.op == 0 || d.op == 1 || d.op == 3

/-- The bytes of one carried element. -/
def CDesc.carrySize (d : CDesc) : Nat := scalarSize d.carryF

/-- P of R203. -/
def Grp.share (x : Grp) (count : Nat) : Nat := ceilDiv count (max 1 x.members.length)

/-- The piece of a rank: first element and one past the last. -/
def Grp.piece (x : Grp) (count r : Nat) : Nat × Nat :=
  let p := x.share count
  (min count (r * p), min count ((r + 1) * p))

/-- The ranks whose pieces meet [lo, hi), with the part of each (R207). -/
def Grp.parts (x : Grp) (count lo hi : Nat) : List (Nat × Nat × Nat) :=
  (List.range x.members.length).filterMap fun r =>
    let (p, q) := x.piece count r
    let a := max lo p
    let b := min hi q
    if a < b then some (r, a, b) else none

/-- The elements a chunk covers. -/
def Head.elems (h : Head) (c : Nat) : Nat × Nat :=
  if h.large then (c * h.per, min h.op.d.count ((c + 1) * h.per)) else (0, h.op.d.count)

/-- Whether a result of a chunk comes to a member (R207). On the small path it comes to every member. -/
def Grp.getsDown (x : Grp) (h : Head) (c : Nat) : Bool :=
  let (lo, hi) := h.elems c
  if !h.large then true
  else match h.op.d.op with
    | 1 => let (p, q) := x.piece h.op.d.count x.rank; max lo p < min hi q
    | 3 => x.rank == h.op.d.root
    | _ => true

/-- Whether a chunk climbs the tree, or goes straight to the root (R207). -/
def Head.climbs (h : Head) : Bool := !h.large || h.op.d.isRed

/-- The members a part of a chunk comes up from at a member: its children, or at the root of a gathered or broadcast
chunk every other owner. -/
def Grp.upFrom (x : Grp) (h : Head) (tree c : Nat) : List Nat :=
  let (lo, hi) := h.elems c
  let t := x.tree tree
  if h.climbs then t.children
  else if t.root != x.rank then []
  else if h.op.d.op == 4 then [h.op.d.root].filter fun r => r != x.rank
  else ((x.parts h.op.d.count lo hi).map fun p => p.1).filter fun r => r != x.rank

/-- The KIND of an operation's flits. -/
def campKind (code : Nat) : Nat := if code == 0x5A then 0x1C else 0x1D

/-- The chunk number the model gives a flit of a kind that carries no chunk. -/
def kindChunk (kind : Nat) : Nat := 2 ^ 32 + kind

/-- The bytes of an operation's payload (R204). -/
def COp.payload (op : COp) : Nat :=
  if isBlock op.d.inF then op.d.count * blockSize op.d.inF / 32 else op.d.count * scalarSize op.d.inF

/-- The elements of a chunk (R205). -/
def Grp.perChunk (x : Grp) (op : COp) : Nat :=
  2 ^ x.chunkLog2 / max 1 (if op.d.isRed then op.d.carrySize else scalarSize op.d.inF)

/-- The order in which what is staged in a cycle adds (R249): by its cycle, then by the child's place in the tree. -/
def orderKey (cycle place : Nat) : Nat := cycle * 2 ^ 16 + place + 1

/-- The place of the own contribution, behind every child. -/
def ownPlace : Nat := 2 ^ 16 - 2

/-- The place of a child in a tree. -/
def Tree.place (t : Tree) (r : Nat) : Nat := (t.children.findIdx? fun c => c == r).getD 0

/-- The head state of an operation that starts in a cycle. -/
def Grp.newHead (x : Grp) (op : COp) (cycle : Nat) : Head :=
  let large := op.code == 0x58 && op.payload > x.threshold && op.d.flags % 2 == 0
  let per := if op.code == 0x58 then x.perChunk op else 1
  { op := op, large := large, chunks := if op.code != 0x58 then 0 else if large then ceilDiv op.d.count per else 1,
    per := if large then per else op.d.count, next := if large then List.range x.k else [], progress := tickOf cycle,
    worst := op.launch, order := orderKey cycle ownPlace }

/-- The group with the operation at the front of its queue as its head, under the next serial (R198). -/
def Grp.startNext (x : Grp) (cycle : Nat) : Grp :=
  match x.queue with
  | op :: _ =>
    if x.head.isSome then x
    else { x with serial := x.serial + 1, head := some (x.newHead op cycle), future := x.future.filter fun f => f.1 != x.serial + 1 }
  | [] => x

/-- The rank and tree that the head operation first awaits something from (R226): its launch or closing round, its lowest chunk that is
not over, or its campfire, vote or ride. -/
def Grp.awaited (x : Grp) : Nat × Nat :=
  match x.head with
  | none => (0, 0)
  | some h =>
    let has (tree c frm : Nat) : Bool :=
      x.rx.any fun r => r.serial == x.serial && r.tree == tree && r.c == c && !r.down && r.frm == frm && r.order != 0
    let round (c : Nat) : Nat × Nat :=
      match x.single.children.find? fun r => !has singleTree c r with
      | some r => (r, singleTree)
      | none => (x.single.parent.getD x.rank, singleTree)
    if h.op.code != 0x58 then round (kindChunk (campKind h.op.code))
    else if h.large && !h.go then round 0xFFFFFFFF
    else if h.large && h.chunks ≤ h.doneList.length then round 0xFFFFFFFE
    else
      let c := if h.large then ((List.range h.chunks).find? fun c => !h.doneList.contains c).getD 0 else 0
      let tree := if h.large then c % max 1 x.k else singleTree
      let t := x.tree tree
      let formed : Bool := match h.chk? tree c with | some k => k.formed || k.stepEnd.isSome | none => false
      match if formed then none else (x.upFrom h tree c).find? fun r => !has tree c r with
      | some r => (r, tree)
      | none =>
        if h.large && (h.op.d.op == 1 || h.op.d.op == 3) && x.getsDown h c then (t.root, tree) else (t.parent.getD x.rank, tree)

/-! ## Completion records of a group (R222, R223) -/

/-- A record offered to the group's ring; a stamp that waits goes before it. -/
def Segment.grpPush (g : Segment) (n : BitVec 12) (tick : Nat) (rec_ : RingRec) : Segment :=
  match g.grp? n with
  | none => g
  | some x =>
    let (g, r, _) := g.ringPush tick 14 false x.ring rec_
    g.modGrp n fun x => { x with ring := r }

/-- The bytes of a chunk stamp (Table 5.8). -/
def stampBytes (serial : BitVec 32) (c done tree : Nat) (coalesced : Bool) : List Byte :=
  natBytes serial.toNat 4 ++ natBytes c 4 ++ natBytes done 4 ++ [0, BitVec.ofNat 8 tree, if coalesced then 1 else 0, 0]

/-- The chunks stamped without a gap from 0. -/
def Head.doneCount (h : Head) : Nat :=
  let isStamped (c : Nat) : Bool :=
    (h.doneList.contains c && !h.unstamped.any fun u => u.2 == c) || h.chk.any fun k => k.c == c && k.stamped
  ((List.range (h.chunks + 1)).find? fun c => !isStamped c || c == h.chunks).getD 0

/-- The rings of closed groups of a number are read on for the records that still wait in them (R223); those with none left, and no
completion that the stile still holds, are gone. -/
def Segment.leftDrain (g : Segment) (n : BitVec 12) (tick : Nat) : Segment :=
  let (g, l) := g.leftRings.foldl (fun (acc : Segment × List (BitVec 12 × Ring)) x =>
    if x.1 != n then (acc.1, acc.2 ++ [x])
    else
      let (g, r, _) := acc.1.ringDrain tick 14 false (x.2.waiting.length + 1) x.2
      let keep := !r.waiting.isEmpty || g.stile.any fun f => f.grp == n && f.closed
      (g, if keep then acc.2 ++ [(n, r)] else acc.2)) (g, [])
  { g with leftRings := l }

/-- A record of a closed group, put into its last ring (R223). -/
def Segment.leftPush (g : Segment) (n : BitVec 12) (tick : Nat) (ring : Ring) (rec_ : RingRec) : Segment :=
  let old := (g.leftRings.reverse.find? fun x => x.1 == n).map Prod.snd
  let (g, r, _) := g.ringPush tick 14 false (old.getD ring) rec_
  match (g.leftRings.zipIdx.reverse.find? fun x => x.1.1 == n).map Prod.snd with
  | some i => { g with leftRings := modAt g.leftRings i fun _ => (n, r) }
  | none => { g with leftRings := g.leftRings ++ [(n, r)] }

/-- The pending coalesced stamp, written when the ring has space (R223). -/
def Segment.stampFlush (g : Segment) (n : BitVec 12) (tick : Nat) : Segment :=
  let g := g.leftDrain n tick
  match g.grp? n with
  | none => g
  | some x =>
    let old := x.ring
    let (g, r, _) := if old.waiting.isEmpty && x.stamp.isSome then (g, old, false) else g.ringDrain tick 14 false (old.waiting.length + 1) old
    let g := g.modGrp n fun x => { x with ring := r }
    match x.stamp with
    | none => g
    | some (c, done, tree, serial) =>
      let r := g.ringSee r
      if r.isFull || !r.waiting.isEmpty then g.modGrp n fun x => { x with ring := r.stuck tick }
      else
        let g := g.modGrp n fun x => { x with ring := r, stamp := none }
        g.grpPush n tick { bytes := stampBytes serial c done tree true }

/-- The rings of a group's number read in their turn (R167, R223). -/
def Segment.groupPoll (g : Segment) (cycle : Nat) (n : BitVec 12) : Segment :=
  let see (r : Ring) : Ring := g.ringPoll cycle r
  ({ g.modGrp n fun x => { x with ring := see x.ring } with
     leftRings := g.leftRings.map fun y => if y.1 == n then (y.1, see y.2) else y } : Segment).stampFlush n (tickOf cycle)

/-- A stamp of a chunk (R222, R223): at once, or coalesced with the pending one while the ring is full. It names the highest chunk
stamped and that chunk's tree. -/
def Segment.stampChunk (g : Segment) (n : BitVec 12) (tick tree c : Nat) : Segment :=
  let g := g.modChk n tree c fun k => { k with stamped := true }
  let g := g.modHead n fun h => { h with stampHi := max h.stampHi c, unstamped := h.unstamped.filter fun u => u != (tree, c) }
  match g.grp? n with
  | none => g
  | some x =>
    match x.head with
    | none => g
    | some h =>
      -- an operation of CAMP, VOTE or RIDE has no chunk of its own
      if !x.stamps || h.op.code != 0x58 then g
      else
        let g := g.modHead n fun h => { h with stampsPosted := h.stampsPosted + 1 }
        let hi := h.stampHi
        let tree := if h.large then hi % max 1 x.k else tree
        let r := g.ringSee x.ring
        let g := g.modGrp n fun x => { x with ring := r }
        if r.isFull || !r.waiting.isEmpty || x.stamp.isSome then
          let g := g.modGrp n fun x =>
            { x with
              ring := x.ring.stuck tick
              stamp := some (hi, h.doneCount, tree, x.serial) }
          g.stampFlush n tick
        else g.grpPush n tick { bytes := stampBytes x.serial hi h.doneCount tree false }

/-- A pending stamp joins the records that wait, before an operation or event record. -/
def Segment.stampSettle (g : Segment) (n : BitVec 12) (tick : Nat) : Segment :=
  match (g.grp? n).bind Grp.stamp with
  | none => g
  | some (c, done, tree, serial) =>
    (g.modGrp n fun x => { x with stamp := none }).grpPush n tick { bytes := stampBytes serial c done tree true }


/-- An event record of kind 2 or 3 (Table 5.8): `who` are the rank and tree waited on. -/
def Segment.grpEvent (g : Segment) (n : BitVec 12) (tick kind : Nat) (status : BitVec 4) (who : Nat × Nat) : Segment :=
  match g.grp? n with
  | none => g
  | some x =>
    let (rank, tree) := who
    let waited := match x.head with | some h => (tick - h.progress) / 65536 | none => 0
    (g.stampSettle n tick).grpPush n tick
      { bytes := natBytes x.serial.toNat 4 ++ natBytes rank 4 ++ natBytes waited 4 ++
          [BitVec.ofNat 8 (kind + 16 * status.toNat), BitVec.ofNat 8 tree, 0, 0]
        irq := if x.notify.testBit 5 then some (x.notify % 16) else none }

/-! ## Completion and the stile (R122, R448 to R451) -/

/-- The offset of R449. -/
def stileOffset (salt : BitVec 32) (group : Nat) (serial : BitVec 32) (node spread : Nat) : Nat :=
  let x := salt ^^^ (BitVec.ofNat 32 group * 0x9E3779B9) ^^^ (serial * 0x85EBCA6B) ^^^ (BitVec.ofNat 32 node * 0xC2B2AE35)
  let x := x ^^^ (x >>> 16)
  let x := x * 0x7FEB352D
  let x := x ^^^ (x >>> 15)
  let x := x * 0x846CA68B
  let x := x ^^^ (x >>> 16)
  x.toNat * spread / 2 ^ 32

/-- A slot of an operation becomes done (R122); untallied work that fails is counted once (R117). -/
def Segment.opSlotDone (g : Segment) (tick : Nat) (op : COp) (status : BitVec 4) (result : Word) (norm : BitVec 32)
    (spoil lines : Nat) : Segment :=
  match op.slot with
  | some i =>
    Segment.wake <| g.modSlot op.owner i fun s =>
      let mine : Bool := match s.kind with
        | .cjoin _ _ o => o == op.opId
        | .round _ o => o == op.opId
        | .work => false
      if s.st == .busy && mine then
        { s with st := .done, status := status, result := result, norm := norm, spoil := BitVec.ofNat 64 spoil, lines := lines }
      else s
  | none =>
    if status == 0 then g
    else
      (g.bump (F.CUR_COUNT_UNTALLIED_FAIL.core op.core)).raise tick
        { cls := 16, unit := 13, index := op.core, status := status,
          info := match op.owner with | .ticket n => BitVec.ofNat 32 n | .core _ => 0 }

/-- An operation record (Table 5.8). -/
def opRecord (serial : BitVec 32) (chunks : Nat) (status : BitVec 4) : List Byte :=
  natBytes serial.toNat 4 ++ natBytes chunks 4 ++ natBytes chunks 4 ++ [BitVec.ofNat 8 (1 + 16 * status.toNat), 0, 0, 0]

/-- A held completion is released (R448): the slot is done, the record written, the line raised. A group closed since
keeps its ring for the records that are still held. -/
def Segment.opRelease (g : Segment) (tick : Nat) (f : Formed) : Segment :=
  let g := g.opSlotDone tick f.op f.status f.result f.norm f.spoil f.lines
  let rec_ : RingRec := { bytes := opRecord f.serial f.chunks f.status, irq := if f.notify.testBit 4 then some (f.notify % 16) else none }
  if f.closed then g.leftPush f.grp tick f.ring rec_ else (g.stampSettle f.grp tick).grpPush f.grp tick rec_

/-- A completion is formed (R448, R450): RIDE is complete at once, the others are held by the stile. -/
def Segment.opForm (g : Segment) (tick : Nat) (x : Grp) (op : COp) (chunks : Nat) (status : BitVec 4) (result : Word)
    (norm : BitVec 32) (spoil lines : Nat) : Segment :=
  let off := if op.code == 0x5C then 0
    else stileOffset (BitVec.ofNat 32 (g.fld F.PWR_STILE_SALT_SALT)) x.num.toNat x.serial g.node.toNat
      (min 500000 (g.fld F.PWR_STILE_SPREAD))
  let f : Formed := { grp := x.num, op := op, serial := x.serial, chunks := chunks, status := status, result := result, norm := norm,
                      spoil := spoil, lines := lines, at_ := tick + off,
                      hasEntry := (g.stile.filter fun y => y.hasEntry).length < 1024, notify := x.notify, ring := x.ring }
  if op.code == 0x5C then g.opRelease tick f else { g with stile := g.stile ++ [f] }

/-- An operation that ends locally (R193, R194): no serial, no record, no stile. -/
def Segment.opLocal (g : Segment) (tick : Nat) (op : COp) (status : BitVec 4) : Segment := g.opSlotDone tick op status 0 0 0 0

/-- Every queued operation but the head ends locally. -/
def Segment.queueEnd (g : Segment) (n : BitVec 12) (tick : Nat) (status : BitVec 4) : Segment :=
  match g.grp? n with
  | none => g
  | some x => (x.queue.foldl (fun g op => g.opLocal tick op status) g).modGrp n fun x => { x with queue := [] }

/-- The group starts closing (R193): queued operations complete with CS_ABORTED and staged chunks are discarded. -/
def Segment.closeStart (g : Segment) (n : BitVec 12) (tick : Nat) : Segment :=
  (g.queueEnd n tick csAborted).modGrp n fun x =>
    { x with st := .closing, head := none, rx := [], sent := [], closeHeld := false, abortAt := none, held := none }

/-- A norm rounded once to binary32: +∞ above the largest binary32 value (R264). -/
def norm32 (n : Nat) : BitVec 32 :=
  if 0x47EFFFFFE0000000 < n && n ≤ 0x7FF0000000000000 then 0x7F800000
  else BitVec.ofNat 32 (FFmt.b32.encode (FFmt.b64.decode n) .rne)

/-- The chunk flits of an operation that still wait for injection are withdrawn. -/
def Segment.dropChunks (g : Segment) (n : BitVec 12) (serial : BitVec 32) : Segment :=
  { g with rte := { g.rte with injX := g.rte.injX.filter fun b =>
      !((b.flit.kind == 0x18 || b.flit.kind == 0x19) && b.key == n.toNat && b.flit.tag.toNat / 256 == serial.toNat % 256) } }

/-- The head operation is over with a status (R192, R193, R229): its chunks are discarded and the group goes on. `keep` marks an
ordinary end: its riders stand whatever the status (R220), and what a member still holds for a neighbour stays (R216). A group whose
context has left residency stays suspended with what is queued. -/
def Segment.headDone (g : Segment) (n : BitVec 12) (tick : Nat) (status : BitVec 4) (result : Word) (keep : Bool) : Segment :=
  match g.grp? n with
  | none => g
  | some x =>
    match x.head with
    | none => g
    | some h =>
      let norm := if keep then norm32 h.norm else 0
      let g := if keep then g else g.dropChunks n x.serial
      let isRed := h.op.code == 0x58 && h.op.d.redop == 1
      let g := if isRed && norm == 0x7F800000 then g.bump F.RED_RIDERS_NORM_INF else g
      let g := g.opForm tick x h.op h.chunks status result norm (if keep then h.spoil else 0) h.stampsPosted
      let g := g.modGrp n fun x =>
        { x with
          head := none
          queue := x.queue.drop 1
          lastStatus := status
          rx := x.rx.filter fun r => (r.serial - x.serial).toNat == 1
          sent := if keep then x.sent else x.sent.filter fun q => q.serial != x.serial
          abortAt := none
          held := none
          ruckAt := none
          st := if (x.queue.drop 1).isEmpty then .ready else if g.isResident x.ctx then .active else .suspended }
      if x.closeHeld then g.closeStart n tick else g

/-! ## What an operation receives (R203, Table 5.5) -/

/-- The positions a member receives of a range, as tensor positions. -/
def Grp.received (x : Grp) (op : COp) (lo hi : Nat) : Nat × Nat :=
  let d := op.d
  let top := if d.op == 2 || d.op == 4 then d.count else min op.n d.count
  match d.op with
  | 1 => let (a, b) := x.piece d.count x.rank; (max lo a, min hi (min b top))
  | 3 => if x.rank == d.root then (lo, min hi top) else (0, 0)
  | _ => (lo, min hi top)

/-- The element of DST at which a tensor position lies (R203). -/
def Grp.dstIndex (x : Grp) (op : COp) (e : Nat) : Nat :=
  if op.d.op == 1 then e - (x.piece op.d.count x.rank).1 else e

/-- The position of a shape's window at which a result lies (R201): that of the same element of the contribution; none where the
window has none. -/
def Grp.shapeIndex (x : Grp) (op : COp) (e : Nat) : Option Nat :=
  if op.d.op != 2 then some e
  else
    let (a, b) := x.piece op.d.count x.rank
    if a ≤ e && e < b then some (e - a) else none

/-- Global addresses of `n` bytes of a context span. -/
def spanGas (ps : List Piece) (va n : Nat) : List Nat := (List.range n).filterMap fun i => pieceAt ps (va + i)

/-- The destination bytes of one position; none where nothing is written there (R176, R201). -/
def Grp.dstBytes (x : Grp) (op : COp) (e : Nat) : List Nat :=
  match op.shape with
  | some s =>
    (match x.shapeIndex op e with
     | none => []
     | some j =>
       match s.position (unrank s.counts j) with
       | (_, .skip) => []
       | (va, _) => spanGas op.dst va (2 ^ s.elem))
  | none =>
    let j := x.dstIndex op e
    if isBlock op.d.outF then
      (if j % 32 == 0 then spanGas op.dst (op.dstVa + j / 32 * blockSize op.d.outF) (blockSize op.d.outF) else [])
    else spanGas op.dst (op.dstVa + j * scalarSize op.d.outF) (scalarSize op.d.outF)

/-- Bytes of local memory given free values. -/
def Segment.freeBytes (g : Segment) (ctr : Nat) (gas : List Nat) : Segment :=
  (gas.zipIdx).foldl (fun (g : Segment) (a, i) => g.put (gaSpace a) (gaOff a) [Config.freeByte (ctr + i)]) g

/-- The content of DST after an operation ended with CS_ABORTED, CS_TIMEOUT, CS_POISON or CS_NODE_DOWN (R229): what
has been written stays, the rest is unspecified. -/
def Segment.freeDst (g : Segment) (ctr : Nat) (x : Grp) (h : Head) (status : BitVec 4) : Segment × Nat :=
  if h.op.code == 0x58 && (status == csAborted || status == csTimeout || status == csPoison || status == csNodeDown) then
    let (a, b) := x.received h.op 0 h.op.d.count
    let doneAt (e : Nat) : Bool :=
      let c := e / max 1 h.per
      h.doneList.contains c || h.chk.any fun k => k.c == c && k.written
    let gas := ((List.range (b - a)).map fun i => a + i).flatMap fun e => if doneAt e then [] else x.dstBytes h.op e
    (g.freeBytes ctr gas, gas.length)
  else (g, 0)

/-- A group enters FAILED (R194, R472): the head operation and every queued one complete with the status. -/
def State.groupFail (s : State) (sg : Nat) (n : BitVec 12) (status : BitVec 4) : State :=
  match (s.seg sg).grp? n with
  | none => s
  | some x =>
    if x.st == .ready || x.st == .active || x.st == .suspended || x.st == .aborting then
      let g := (s.seg sg).raise s.tick { cls := 19, unit := 8, info := n.zeroExtend 32, status := status, ctx := some x.ctx }
      let (g, k) := match x.head with | some h => g.freeDst s.freeCtr x h status | none => (g, 0)
      let g := g.headDone n s.tick status 0 false
      let g := if x.closeHeld then g
        else (g.queueEnd n s.tick status).modGrp n fun x => { x with st := .failed, rx := [], sent := [] }
      { s.setSeg sg g with freeCtr := s.freeCtr + k }
    else s

/-- Groups of a segment that have lost a member fail (R194): every member is in every tree. -/
def State.failDown (s : State) (sg : Nat) (node : BitVec 15) : State :=
  let hit := (s.seg sg).groups.filter fun x => x.members.any fun w => w % 2 ^ 15 == node.toNat
  hit.foldl (fun (s : State) x => s.groupFail sg x.num csNodeDown) s

/-- Groups that a bridge or port loss has left without a route to a member fail, on every segment (R194). -/
def State.failRoutes (s : State) : State :=
  (List.range s.n).foldl (fun (s : State) sg =>
    let hit := (s.seg sg).groups.filter fun x => x.members.any fun w => !s.memberRoute sg w
    hit.foldl (fun (s : State) x => s.groupFail sg x.num csNodeDown) s) s

/-! ## Aborts (R227 to R230) -/

/-- The payload of a GROUP_ABORT (Table 5.10). -/
def abortPayload (serial : BitVec 32) (status : BitVec 4) (dir origin : Nat) : List Byte :=
  natBytes serial.toNat 4 ++ natBytes status.toNat 1 ++ natBytes dir 1 ++ [0, 0] ++ natBytes origin 4

/-- A decision sent to the children of the single tree (R228). For a child that cannot be reached nothing is held: the operation is
decided, so that no other abort of it starts. -/
def State.abortForward (s : State) (sg : Nat) (x : Grp) (serial : BitVec 32) (status : BitVec 4) : State :=
  x.single.children.foldl (fun (s : State) r =>
    if s.memberReach sg (x.word r) then
      s.mod sg fun g => g.sendRaw s.time x
        { dst := r, kind := 0x1E, serial := serial, tree := singleTree, c := 0,
          flits := [(0, abortPayload serial status 1 x.single.root)], last := s.tick }
    else s) s

/-- A decision applied at a member (R229): DST is not touched where the operation has moved nothing. -/
def State.abortApply (s : State) (sg : Nat) (n : BitVec 12) (status : BitVec 4) (moved : Bool := true) : State :=
  match (s.seg sg).grp? n with
  | none => s
  | some x =>
    match x.head with
    | none => s
    | some h =>
      let (g, k) := if moved then (s.seg sg).freeDst s.freeCtr x h status else (s.seg sg, 0)
      let g := (g.bump F.CLV_COUNT_ABORTS).grpEvent n s.tick 3 status x.awaited
      { s.setSeg sg (g.headDone n s.tick status 0 false) with freeCtr := s.freeCtr + k }

/-- A queue record (Table 5.9) and the queued descriptors. A CAMP, VOTE or RIDE has no descriptor, and its place is zero. -/
def Grp.record (x : Grp) : List Byte :=
  let h := x.head
  let num (f : Head → Nat) : Nat := match h with | some y => f y | none => 0
  padTo 128 (natBytes x.num.toNat 2 ++ natBytes x.queue.length 1 ++
    natBytes (match x.held with | some st => 16 + st.toNat | none => 0) 1 ++ natBytes x.serial.toNat 4 ++
    natBytes (num fun y => y.next.foldl min y.chunks) 4 ++ natBytes (num fun y => y.op.ready) 4 ++ natBytes (num Head.doneCount) 4 ++
    natBytes (num Head.stampHi) 4 ++ natBytes (num Head.norm) 8 ++ natBytes (num Head.spoil) 8 ++ List.replicate 8 0 ++
    natBytes (num fun y => y.worst.toNat) 1 ++ natBytes (num fun y => y.go.toNat + 2 * y.closing.toNat) 1) ++
  padTo 8192 (x.queue.flatMap fun op => padTo 512 op.raw)

/-- The queue record of a suspended group, kept as the group stands. -/
def Segment.saveGrp (g : Segment) (n : BitVec 12) : Segment :=
  match g.grp? n with
  | none => g
  | some x => match x.ruckAt with | some a => g.put 0 a x.record | none => g

/-- A group as its queue record has it (R224): its serial, a held decision, the cursors, the riders, the worst status and the phase.
What is staged, and what came while it was suspended, stays. -/
def Grp.restored (x : Grp) (b : List Byte) : Grp :=
  let held := field b 3 1
  let from_ (k m : Nat) : Nat := max m (field b 8 4 + (m + k * field b 8 4 - field b 8 4) % k)
  { x with
    queue := x.queue.take (field b 2 1)
    serial := BitVec.ofNat 32 (field b 4 4)
    held := if held.testBit 4 then some (BitVec.ofNat 4 held) else none
    head := x.head.map fun h =>
      { h with
        op := { h.op with ready := field b 12 4 }
        next := h.next.map (from_ (max 1 h.next.length))
        stampHi := max h.stampHi (field b 20 4)
        norm := field b 24 8
        spoil := field b 32 8
        worst := worse h.worst (BitVec.ofNat 4 (field b 48 1))
        go := h.go || (field b 49 1).testBit 0
        closing := h.closing || (field b 49 1).testBit 1 } }

/-- A decision held by a suspended group and by its queue record (R230, Table 5.9): the first one stays. -/
def Segment.holdDecision (g : Segment) (n : BitVec 12) (status : BitVec 4) : Segment :=
  (g.modGrp n fun x => { x with held := some (x.held.getD status) }).saveGrp n

/-- A decision that a member takes: held while suspended (R230), applied otherwise. -/
def State.abortTake (s : State) (sg : Nat) (n : BitVec 12) (status : BitVec 4) : State :=
  match (s.seg sg).grp? n with
  | none => s
  | some x =>
    if x.st == .suspended && !x.closeHeld then s.mod sg fun g => g.holdDecision n status else s.abortApply sg n status

/-- An abort of the head operation starts at this member (R228): the root of the single tree decides at once, any other
sends its request to the root and enters ABORTING. A decision that is held has decided the operation. -/
def State.abortStart (s : State) (sg : Nat) (n : BitVec 12) (status : BitVec 4) : State :=
  match (s.seg sg).grp? n with
  | none => s
  | some x =>
    if x.head.isNone || !(x.st == .active || x.st == .suspended) then s
    else if x.held.isSome then (if x.closeHeld then s.abortTake sg n (x.held.getD status) else s)
    else if x.single.root == x.rank then (s.abortForward sg x x.serial status).abortTake sg n status
    else
      let h : Held := { dst := x.single.root, kind := 0x1E, serial := x.serial, tree := singleTree, c := kindChunk 0x1E,
                        flits := [(0, abortPayload x.serial status 0 x.rank)], last := s.tick }
      let reach := s.memberReach sg (x.word h.dst)
      s.mod sg fun g =>
        let g := g.modGrp n fun x =>
          { x with st := .aborting, abortAt := some s.tick,
                   sent := if reach then (x.sent.filter fun q => q.kind != 0x1E) ++ [h] else x.sent }
        if reach then g.sendRaw s.time x h else g

/-- A chunk, round or flit sent to a neighbour and held until it is answered (R216); an unreachable neighbour starts an
abort with CS_NODE_DOWN and nothing is held. -/
def State.collSend (s : State) (sg : Nat) (n : BitVec 12) (h : Held) : State :=
  match (s.seg sg).grp? n with
  | none => s
  | some x =>
    if s.memberReach sg (x.word h.dst) then
      s.mod sg fun g => (g.modGrp n fun x =>
        { x with sent := (x.sent.filter fun q => !(q.dst == h.dst && q.kind == h.kind && q.serial == h.serial && q.tree == h.tree && q.c == h.c)) ++ [h] }).sendRaw s.time x h
    else
      (s.mod sg fun g => g.modGrp n fun x =>
        { x with sent := x.sent.filter fun q => !(q.dst == h.dst) }).abortStart sg n csNodeDown

/-- A flit sent down in answer, which nothing answers: kept to be sent again on a repeat. A child that cannot be reached starts an abort
with CS_NODE_DOWN (R216). -/
def State.answerSend (s : State) (sg : Nat) (n : BitVec 12) (h : Held) : State :=
  match (s.seg sg).grp? n with
  | none => s
  | some x =>
    if s.memberReach sg (x.word h.dst) then
      s.mod sg fun g => (g.modGrp n fun x =>
        { x with answers := ((x.answers.filter fun q => (x.serial - q.serial).toNat ≤ 1) ++ [h]) }).sendRaw s.time x h
    else
      (s.mod sg fun g => g.modGrp n fun x =>
        { x with answers := x.answers.filter fun q => q.dst != h.dst, sent := x.sent.filter fun q => q.dst != h.dst }).abortStart sg n csNodeDown

/-- The abort of an ACTIVE or SUSPENDED group's head operation (R190, R193). One that has not yet taken its serial takes it first; a
decision held for that serial is applied (R240). -/
def State.abortHead (s : State) (sg : Nat) (n : BitVec 12) (status : BitVec 4) : State :=
  match (s.seg sg).grp? n with
  | none => s
  | some x =>
    let known := if x.head.isSome then none else (x.future.find? fun f => f.1 == x.serial + 1).map Prod.snd
    let s := s.mod sg fun g => (g.modGrp n fun x => x.startNext s.time).saveGrp n
    match known with
    | some st => s.abortTake sg n st
    | none => s.abortStart sg n status

/-- CLOSE of a group (R193). -/
def State.closeGroup (s : State) (sg : Nat) (n : BitVec 12) : State :=
  match (s.seg sg).grp? n with
  | none => s
  | some x =>
    let mark (s : State) : State := s.mod sg fun g => g.modGrp n fun x => { x with closeHeld := true }
    let busy : Bool := x.head.isSome || !x.queue.isEmpty
    match x.st with
    | .ready => s.mod sg fun g => g.closeStart n s.tick
    | .failed => s.mod sg fun g => g.closeStart n s.tick
    | .active => if busy then (mark s).abortHead sg n csAborted else s.mod sg fun g => g.closeStart n s.tick
    | .suspended => if busy then (mark s).abortHead sg n csAborted else s.mod sg fun g => g.closeStart n s.tick
    | .aborting => mark s
    | _ => s

end Sys2Proof.Machine
end

