-- ==== Sys2Proof/Machine/Arith.lean ====
section
/-! DEFINITION. The arithmetic of collectives: contributions (R248, R254), reduction steps (R249, R250), results and
riders (R259 to R263), and rides and votes (R267, R268). -/

namespace Sys2Proof.Machine

open Sys2Proof

/-! ## Formats -/

/-- The carry format of a floating reduction. -/
def CDesc.cf (d : CDesc) : FFmt := (fmtOf d.carryF).getD .b32

def CDesc.isInt (d : CDesc) : Bool := d.carryF == 6

/-- The combination is one that Table 6.3 and R246, R247 allow; `shape` is the element size of a shape, if there is one. -/
def CDesc.allowed (d : CDesc) (shape : Option Nat) : Bool :=
  let outOk := (1 ≤ d.outF && d.outF ≤ 5) || isBlock d.outF
  let wireOk := d.wireF == 0 || isBlock d.wireF
  let fl := d.redop == 1 || d.redop == 2 || d.redop == 3
  let row :=
    if d.op == 2 || d.op == 4 then
      d.redop == 0 && 1 ≤ d.inF && d.inF ≤ 6 && d.carryF == 0 && d.wireF == 0 && d.outF == d.inF && d.round == 0
    else if d.inF == 1 || d.inF == 2 then fl && d.carryF == 1 && wireOk && outOk
    else if d.inF == 3 || d.inF == 4 || d.inF == 5 then fl && (d.carryF == 3 || d.carryF == 1) && wireOk && outOk
    else if isBlock d.inF then d.redop == 1 && (d.carryF == 3 || d.carryF == 1) && wireOk && outOk
    else if d.inF == 6 then 1 ≤ d.redop && d.redop ≤ 6 && d.carryF == 6 && d.wireF == 0 && d.outF == 6 && d.round == 0
    else false
  let sizeOk := !d.isRed || d.outF != 1 || d.carryF == 1
  let anyBlock := isBlock d.inF || isBlock d.wireF || isBlock d.outF
  let shapeOk := match shape with
    | none => true
    | some sz => !isBlock d.inF && !isBlock d.outF && scalarSize d.inF == sz && scalarSize d.outF == sz
  row && sizeOk && d.round ≤ 2 && d.op ≤ 4 && (!anyBlock || d.redop == 1) && shapeOk &&
  (!(isBlock d.inF || isBlock d.outF) || d.count % 32 == 0)

/-- Conversion to the carry format: a value above its largest magnitude becomes infinity of its sign (R248). -/
def toCarry (f : FFmt) (v : FVal) (mode : Round) : Nat :=
  match v with
  | .fin s m e =>
    if (f.decode f.maxCode).lt (.fin false m e) && f.sp == .ieee then f.encode (.inf s) .rne else f.encode v mode
  | w => f.encode w mode

/-- The identity of a reduction in its carry format (Table 6.2). -/
def CDesc.identity (d : CDesc) : Nat :=
  if d.isInt then (if d.redop == 2 then 2 ^ 31 else if d.redop == 3 then 2 ^ 31 - 1 else if d.redop == 4 then 2 ^ 32 - 1 else 0)
  else if d.redop == 2 then d.cf.encode (.inf true) .rne
  else if d.redop == 3 then d.cf.encode (.inf false) .rne
  else d.cf.encode (.fin true 0 0) .rne

/-! ## The own contribution -/

/-- The bytes of a context span as landed. -/
def landedBytes (ps : List Piece) (got : List (Nat × List Byte)) (va n : Nat) : List Byte :=
  (List.range n).map fun i => match pieceAt ps (va + i) with | some ga => (gotByte got ga).getD 0 | none => 0

/-- The element of SRC at which a tensor position lies (R203). -/
def Grp.srcIndex (x : Grp) (op : COp) (e : Nat) : Nat := if op.d.op == 2 then e - (x.piece op.d.count x.rank).1 else e

/-- The context spans of the contribution to the positions [lo, hi). -/
def Grp.srcSpans (x : Grp) (op : COp) (lo hi : Nat) : List (Nat × Nat) :=
  let a := x.srcIndex op lo
  let b := min (x.srcIndex op hi) op.n
  if b ≤ a then []
  else
    match op.shape with
    | some s => ((List.range (b - a)).map fun i => a + i).filterMap fun j =>
        match (s.position (unrank s.counts j)).2 with | .elem va => some (va, 2 ^ s.elem) | _ => none
    | none =>
      if isBlock op.d.inF then
        [(op.srcVa + a / 32 * blockSize op.d.inF, (ceilDiv b 32 - a / 32) * blockSize op.d.inF)]
      else [(op.srcVa + a * scalarSize op.d.inF, (b - a) * scalarSize op.d.inF)]

/-- The lines of a context span. -/
def spanLines (ps : List Piece) (va n : Nat) : List Nat :=
  (List.range (n / 128 + 2)).filterMap fun i =>
    let a := if i == 0 then va else (va / 128 + i) * 128
    if n == 0 || a ≥ va + n then none else (pieceAt ps a).map fun ga => ga / 128

/-- The lines a chunk's contribution is read from (R221). -/
def Grp.srcLines (x : Grp) (op : COp) (lo hi : Nat) : List Nat :=
  ((x.srcSpans op lo hi).flatMap fun p => spanLines op.src p.1 p.2).eraseDups

/-- The bits of one scalar element of the contribution; none where the lane is absent (R261). -/
def Grp.srcBits (x : Grp) (op : COp) (got : List (Nat × List Byte)) (e : Nat) : Option Nat :=
  let j := x.srcIndex op e
  let sz := scalarSize op.d.inF
  if j ≥ op.n then none
  else
    match op.shape with
    | some s =>
      (match (s.position (unrank s.counts j)).2 with
       | .elem va => some (bytesNat (landedBytes op.src got va sz))
       | .bytes bs => some (bytesNat bs)
       | .skip => none)
    | none => some (bytesNat (landedBytes op.src got (op.srcVa + j * sz) sz))

/-- One lane of the contribution in the carry format; none where it is absent (R248, R261). -/
def Grp.carryLane (x : Grp) (op : COp) (got : List (Nat × List Byte)) (e : Nat) : Option Nat :=
  let d := op.d
  if e ≥ d.count then none
  else if isBlock d.inF then
    if e ≥ op.n then none
    else
      let bs := blockSize d.inF
      let v := (decodeBlock d.inF (landedBytes op.src got (op.srcVa + e / 32 * bs) bs)).getD (e % 32) .nan
      some (toCarry d.cf v (roundMode d.round d.seed e x.rank 3))
  else
    match x.srcBits op got e with
    | none => none
    | some b => if d.isInt then some b else some (toCarry d.cf ((fmtOf d.inF).getD .b32 |>.decode b) .rne)

/-- What block encoding counts (R273). -/
structure MxCount where
  blocks : Nat := 0
  nans : Nat := 0
  sat : Nat := 0
  deriving DecidableEq, Repr, Inhabited

def MxCount.add (a b : MxCount) : MxCount := { blocks := a.blocks + b.blocks, nans := a.nans + b.nans, sat := a.sat + b.sat }

/-- Lanes encoded in blocks of 32, counted from the first (R255, R256); `elem i` is the tensor position of lane `i`. -/
def encodeLanes (code : Nat) (cf : FFmt) (lanes : List (Option Nat)) (mode : Nat → Round) : List Byte × MxCount :=
  let n := (lanes.length + 31) / 32
  (List.range n).foldl (fun (bs, c) j =>
    let o := encodeBlock code (((lanes.drop (32 * j)).take 32).map fun l => l.map cf.decode) fun i => mode (32 * j + i)
    (bs ++ o.bytes, c.add { blocks := 1, nans := o.nanBlock.toNat, sat := o.saturated })) (([] : List Byte), ({} : MxCount))

/-- Blocks decoded into carry lanes by a member (R248, R258). -/
def decodeLanes (code : Nat) (cf : FFmt) (n : Nat) (bs : List Byte) (mode : Nat → Round) : List Nat :=
  let k := blockSize code
  ((List.range ((n + 31) / 32)).flatMap fun j =>
    ((decodeBlock code ((bs.drop (j * k)).take k)).zipIdx).map fun (v, i) => toCarry cf v (mode (32 * j + i))).take n

/-- Carry lanes as bytes. -/
def laneBytes (size : Nat) (ls : List Nat) : List Byte := ls.flatMap fun v => natBytes v size

/-- Bytes as carry lanes. -/
def bytesLanes (size n : Nat) (bs : List Byte) : List Nat := (List.range n).map fun i => field bs (i * size) size

/-- The own contribution to the positions [lo, hi) (R248, R254): in WIRE_FMT, or in CARRY_FMT. -/
def Grp.contribution (x : Grp) (op : COp) (got : List (Nat × List Byte)) (lo hi : Nat) (wire : Bool) : List Byte × MxCount :=
  let d := op.d
  let lanes := (List.range (hi - lo)).map fun i => x.carryLane op got (lo + i)
  if d.wireF == 0 then (laneBytes d.carrySize (lanes.map fun l => l.getD d.identity), {})
  else
    let (bs, c) := encodeLanes d.wireF d.cf lanes fun i => roundMode d.round d.seed (lo + i) x.rank 1
    if wire then (bs, c)
    else
      (laneBytes d.carrySize (decodeLanes d.wireF d.cf (hi - lo) bs fun i => roundMode d.round d.seed (lo + i) x.rank 3), c)

/-- The bytes of a gathered or broadcast contribution to [lo, hi). -/
def Grp.plainPart (x : Grp) (op : COp) (got : List (Nat × List Byte)) (lo hi : Nat) : List Byte :=
  (List.range (hi - lo)).flatMap fun i => natBytes ((x.srcBits op got (lo + i)).getD 0) (scalarSize op.d.inF)

/-! ## Steps (R249, R250) -/

/-- One element of an INT32 step. -/
def intOp (redop a b : Nat) : Nat :=
  let x := BitVec.ofNat 32 a
  let y := BitVec.ofNat 32 b
  let r : BitVec 32 := match redop with
    | 1 => x + y
    | 2 => if x.slt y then y else x
    | 3 => if y.slt x then y else x
    | 4 => x &&& y
    | 5 => x ||| y
    | _ => x ^^^ y
  r.toNat

/-- One element of a floating step, in binary32. -/
def floatOp (redop a b : Nat) : Nat :=
  if redop == 1 then FFmt.b32.add a b else if redop == 2 then FFmt.b32.max a b else FFmt.b32.min a b

/-- A lane of a reduction step: the operands in staging order, rounded once to the carry format at site 0. -/
def CDesc.stepLane (d : CDesc) (rank e : Nat) (vals : List Nat) : Nat :=
  match vals with
  | [] => d.identity
  | v :: vs =>
    if d.isInt then vs.foldl (intOp d.redop) v
    else
      let up (w : Nat) : Nat := FFmt.b32.encode (d.cf.decode w) .rne
      let sum := vs.foldl (fun acc w => floatOp d.redop acc (up w)) (up v)
      if d.carryF == 1 then sum else d.cf.encode (FFmt.b32.decode sum) (roundMode d.round d.seed e rank 0)

/-- A reduction step over the operands of [lo, hi). -/
def CDesc.step (d : CDesc) (rank lo hi : Nat) (ops : List (List Nat)) : List Nat :=
  (List.range (hi - lo)).map fun i => d.stepLane rank (lo + i) (ops.map fun l => l.getD i 0)

/-! ## Results and riders (R259, R260, R262, R263) -/

/-- What a root forms of a range: bytes in OUT_FMT, riders, counts. -/
structure Formation where
  bytes : List Byte := []
  norm : Nat := 0
  spoil : Nat := 0
  mx : MxCount := {}
  deriving DecidableEq, Repr, Inhabited

/-- The spoil of one position from its carry value and whether its converted value is not finite. -/
def CDesc.spoilOf (d : CDesc) (carry : Nat) (outBad : Bool) : Nat :=
  if d.isInt then 0
  else
    let v := d.cf.decode carry
    if d.redop == 1 then (if !v.isFinite || outBad then 1 else 0) else if v.isNan then 1 else 0

/-- The part [a, b) of a result whose blocks are counted from `base` up to `stop`; `lanes` are the carry values from
`lo`. A block that lies only in part in [a, b) has no scale that the spec gives: its bytes are free (log 24). -/
def CDesc.outPart (d : CDesc) (rank : Nat) (lanes : List Nat) (lo a b base stop ctr : Nat) : Formation :=
  let lane (e : Nat) : Nat := lanes.getD (e - lo) 0
  if isBlock d.outF then
    let k := blockSize d.outF
    let j0 := (a - base) / 32
    let j1 := ceilDiv (b - base) 32
    (List.range (j1 - j0)).foldl (fun (f : Formation) i =>
      let j := j0 + i
      let p := base + 32 * j
      let q := min stop (p + 32)
      if a ≤ p && q ≤ b then
        let ls := (List.range (q - p)).map fun n => lane (p + n)
        let o := encodeBlock d.outF (ls.map fun l => some (d.cf.decode l)) fun n => roundMode d.round d.seed (p + n) rank 1
        { bytes := f.bytes ++ o.bytes, norm := 0,
          spoil := f.spoil + ls.foldl (fun n l => n + d.spoilOf l o.nanBlock) 0,
          mx := f.mx.add { blocks := 1, nans := o.nanBlock.toNat, sat := o.saturated } }
      else
        let p' := max a p
        let q' := min b q
        { f with bytes := f.bytes ++ (List.range k).map (fun n => Config.freeByte (ctr + (p + n))),
                 spoil := f.spoil + (List.range (q' - p')).foldl (fun n i => n + d.spoilOf (lane (p' + i)) false) 0 }) {}
  else
    let sz := scalarSize d.outF
    (List.range (b - a)).foldl (fun (f : Formation) i =>
      let e := a + i
      let c := lane e
      if d.isInt then { f with bytes := f.bytes ++ natBytes c sz }
      else
        let fm := (fmtOf d.outF).getD .b32
        let mode := roundMode d.round d.seed e rank 2
        let v := d.cf.decode c
        let o := fm.encode v mode
        { bytes := f.bytes ++ natBytes o sz, norm := 0,
          spoil := f.spoil + d.spoilOf c (!(fm.decode o).isFinite),
          mx := f.mx.add { sat := (d.outF == 4 && fm.overflows v mode).toNat } }) {}

/-- The norm of carry lanes, accumulated in binary64 (R263). -/
def CDesc.normOf (d : CDesc) (lanes : List Nat) : Nat :=
  if d.redop != 1 || d.isInt then 0
  else lanes.foldl (fun acc l =>
    let v := d.cf.decode l
    if v.isFinite then FFmt.b64.encode ((FFmt.b64.decode acc).add v.square) .rne else acc) 0

/-- The root's result of a reduction over [lo, hi): the parts by owner for REDUCE_SCATTER, one part otherwise. -/
def Grp.formResult (x : Grp) (d : CDesc) (lanes : List Nat) (lo hi ctr : Nat) : List (Nat × Formation) × Nat × Nat × MxCount :=
  let ps := if d.op == 1 then (x.parts d.count lo hi).map fun (r, a, b) =>
      let (p, q) := x.piece d.count r
      (r, d.outPart x.rank lanes lo a b p q ctr)
    else [(0, d.outPart x.rank lanes lo lo hi 0 d.count ctr)]
  (ps, d.normOf lanes, ps.foldl (fun n p => n + p.2.spoil) 0, ps.foldl (fun m p => m.add p.2.mx) {})

/-! ## What is written at a member (R203, R260) -/

/-- The destination bytes of a result over [lo, hi) at this member. `data` is the whole chunk, or for REDUCE_SCATTER on
the large path the own part; `pres` tells the positions present, from lo. -/
def Grp.writes (x : Grp) (op : COp) (large : Bool) (lo hi : Nat) (data : List Byte) (pres : List Bool) : List (Nat × Byte) :=
  let d := op.d
  let (a, b) := x.received op lo hi
  let (p, q) := if d.op == 1 then x.piece d.count x.rank else (0, d.count)
  let top := if d.op == 2 || d.op == 4 then d.count else min op.n d.count
  let first := if d.op == 1 && large then max lo p else lo
  let es := (List.range (b - a)).map fun i => a + i
  es.flatMap fun e =>
    if !(pres.getD (e - lo) true) then []
    else if isBlock d.outF then
      let k := blockSize d.outF
      if (e - p) % 32 != 0 || min q (e + 32) > top then []
      else
        let off := if d.op == 1 then
            (if large then ((e - p) / 32 - (first - p) / 32) * k else x.rank * (ceilDiv (x.share d.count) 32) * k + (e - p) / 32 * k)
          else (e - lo) / 32 * k
        (x.dstBytes op e).zip ((data.drop off).take k)
    else
      let sz := scalarSize d.outF
      (x.dstBytes op e).zip ((data.drop ((e - first) * sz)).take sz)

/-! ## Votes and rides (R267, R268) -/

/-- Two ride operands combined; FADD and FMAX act on bits [31:0]. -/
def rideOp (op : Nat) (a b : Word) : Word :=
  match op with
  | 0 => a + b
  | 1 => if b.slt a then b else a
  | 2 => if a.slt b then b else a
  | 3 => if b.ult a then b else a
  | 4 => if a.ult b then b else a
  | 5 => a &&& b
  | 6 => a ||| b
  | 7 => a ^^^ b
  | 8 => BitVec.ofNat 64 (FFmt.b32.add (a.toNat % 2 ^ 32) (b.toNat % 2 ^ 32))
  | _ => BitVec.ofNat 64 (FFmt.b32.max (a.toNat % 2 ^ 32) (b.toNat % 2 ^ 32))

/-- The values of a ride in the order they were staged. -/
def rideAll (op : Nat) : List Word → Word
  | [] => 0
  | v :: vs => vs.foldl (rideOp op) (if op ≥ 8 then v &&& 0xFFFFFFFF else v)

/-- Whether a ride result is spoiled (R268). -/
def rideSpoiled (op : Nat) (v : Word) : Bool := op ≥ 8 && !(FFmt.b32.decode (v.toNat % 2 ^ 32)).isFinite

/-- Two vote words combined (Table 3.9); none when the STEP values differ. -/
def voteOp (a b : Word) : Option Word :=
  if a.toNat / 2 ^ 32 != b.toNat / 2 ^ 32 then none
  else
    let spoil := min 0xFFFFFF (bitsOf a 31 8 + bitsOf b 31 8)
    some (BitVec.ofNat 64 (a.toNat / 2 ^ 32 * 2 ^ 32 + spoil * 256 + ((a &&& b) &&& 0xFF).toNat))

end Sys2Proof.Machine
end

