-- ==== Sys2Proof/Machine/Hamper.lean ====
section
/-! DEFINITION. The hamper (chapter 12): blocks, failed lines, remapping, fencing and critical words. -/

namespace Sys2Proof.Machine

open Sys2Proof

/-! ## Lines (R463, R465) -/

/-- A read of a line: zero bytes where its valid bit is 0. -/
def HmpLine.read (l : HmpLine) : List Byte := if l.valid then l.data else List.replicate 128 0

/-- Whether a read's check fails: a line whose valid bit is 0 is not checked (R465, R468). -/
def HmpLine.fails (l : HmpLine) : Bool := l.valid && crc32 l.data != l.crc

/-- A write of a whole line: its bytes, their CRC and the valid bit. -/
def HmpLine.whole (data : List Byte) : HmpLine := { valid := true, data := data, crc := crc32 data }

/-- A write of part of a line: an invalid line's other bytes become zero. -/
def HmpLine.part (l : HmpLine) (bytes : List (Nat × Byte)) : HmpLine :=
  HmpLine.whole (bytes.foldl (fun d x => d.set x.1 x.2) l.read)

/-- Line `slot` of the merge buffer's 64. -/
def Hmp.mergeLine (h : Hmp) (slot : Nat) : HmpLine := (lookupKey slot h.mergeLines).getD {}

def Segment.setMergeLine (g : Segment) (slot : Nat) (l : HmpLine) : Segment :=
  g.modHmp fun h => { h with mergeLines := insertKey slot l h.mergeLines }

/-! ## Banks and blocks (R463, R464) -/

/-- The state code of a bank: 0 in use, 1 remapping, 2 fencing, 3 fenced, 4 testing. -/
def Segment.bankState (g : Segment) (b : Nat) : Nat := g.fld (F.HMP_BANK_STATUS_STATE.bank b)

/-- Whether a bank's blocks take part in allocation. -/
def Segment.bankOpen (g : Segment) (b : Nat) : Bool := g.bankState b < 2

/-- Blocks of a bank reserved by every use. -/
def Hmp.usedIn (h : Hmp) (b : Nat) : Nat := h.uses.foldl (fun n u => n + u.2.getD b 0) 0

/-- Free blocks of the unfenced banks. -/
def Segment.freeBlocks (g : Segment) : Nat :=
  (List.range 12).foldl (fun n b => if g.bankOpen b then n + (1024 - g.hmp.usedIn b) else n) 0

/-- Blocks taken one from each open bank in turn (R464): the counts by bank, and the bank after the last. -/
def takeBlocks (isOpen : Nat → Bool) (free : Nat → Nat) : Nat → Nat → List Nat → Nat → List Nat × Nat
  | 0, cur, acc, _ => (acc, cur)
  | _, cur, acc, 0 => (acc, cur)
  | fuel + 1, cur, acc, n + 1 =>
    let b := cur % 12
    if isOpen b && acc.getD b 0 < free b then
      takeBlocks isOpen free fuel ((b + 1) % 12) (modAt acc b fun k => k + 1) n
    else takeBlocks isOpen free fuel ((b + 1) % 12) acc (n + 1)

/-- Blocks added to a use. -/
def addUse (uses : List (HmpUse × List Nat)) (u : HmpUse) (counts : List Nat) : List (HmpUse × List Nat) :=
  let old := (lookupKey u uses).getD (List.replicate 12 0)
  insertKey u ((old.zip counts).map fun x => x.1 + x.2) uses

/-- A reservation of `n` blocks; none when the unfenced banks have too few (R464). -/
def Segment.hmpReserve (g : Segment) (u : HmpUse) (n : Nat) : Option Segment :=
  if n > g.freeBlocks then none
  else
    let (counts, cur) := takeBlocks g.bankOpen (fun b => 1024 - g.hmp.usedIn b) (12 * n + 12) g.hmp.cursor (List.replicate 12 0) n
    some (g.modHmp fun h => { h with cursor := cur, uses := addUse h.uses u counts })

/-- A use gives all its blocks back, and their valid bits are cleared (R466). -/
def Segment.hmpRelease (g : Segment) (u : HmpUse) : Segment :=
  g.modHmp fun h => { h with uses := eraseKey u h.uses, mergeLines := if u == .merge then [] else h.mergeLines }

/-- The reservations of warm reset (Table 12.1). -/
def Segment.hmpWarm (g : Segment) : Segment :=
  let want : List (HmpUse × Nat) :=
    [(.pool, (max 1024 (min 65536 (g.fld F.SEG_REPLY_POOL_LINES)) + 31) / 32), (.forward, 32), (.atoms, 8), (.merge, 2)]
  want.foldl (fun (g : Segment) (u, n) => (g.hmpReserve u n).getD g) (g.modHmp fun h => { h with uses := [], cursor := 0, mergeLines := [] })

/-! ## Critical words (R474 to R478) -/

/-- A critical word is lost (R477); an EMPTY key slot loses nothing. -/
def Segment.critLose (g : Segment) (tick w : Nat) : Segment :=
  if g.critLost w || (8 ≤ w && (g.kpr.slots.getD (w - 8) {}).kind == 0) then g
  else
    let g := if 8 ≤ w then g.modKey (w - 8) fun k => { k with lost := true }
      else (g.setBitOf F.HMP_CRIT_WORD_LOST w true).setFld F.HMP_CRIT_LOST 1
    g.raise tick { cls := 25, unit := 9, sev := 3, info := BitVec.ofNat 32 w }

/-- A voted read of a critical word that finds copy `c` different (R475, R477). -/
def Segment.critVote (g : Segment) (tick w c : Nat) : Segment :=
  let heldN := (g.hmp.critHeld.filter id).length
  let again : Bool := if 8 ≤ w then g.hmp.odd.any fun o => o.1 == w else (g.fld F.HMP_CRIT_WORD_DISAGREE).testBit w
  let g := g.modHmp fun h => { h with odd := if h.odd.contains (w, c) then h.odd else (w, c) :: h.odd }
  if !(g.hmp.critHeld.getD c false) then g
  else if heldN < 3 then g.critLose tick w
  else if again then g.bump F.HMP_CRIT_CORRECTED
  else
    (if 8 ≤ w then g else g.setBitOf F.HMP_CRIT_WORD_DISAGREE w true).raise tick { cls := 24, unit := 9, sev := 1, info := BitVec.ofNat 32 w }

/-- The critical words (Table 12.3). -/
def critWords : List Nat := List.range 6 ++ (List.range 64).map fun n => n + 8

/-- The bank that holds a copy. -/
def Segment.critBank (g : Segment) (c : Nat) : Nat :=
  if c == 0 then g.fld F.HMP_CRIT_BANK_A else if c == 1 then g.fld F.HMP_CRIT_BANK_B else g.fld F.HMP_CRIT_BANK_C

def Segment.setCritBank (g : Segment) (c b : Nat) : Segment :=
  if c == 0 then g.setFld F.HMP_CRIT_BANK_A b else if c == 1 then g.setFld F.HMP_CRIT_BANK_B b else g.setFld F.HMP_CRIT_BANK_C b

/-- The copies a fenced bank holds are rebuilt (R478): on the lowest unfenced bank above it, wrapping, that holds none;
with no such bank the words rest on the copies that remain (R477, R495). -/
def Segment.critRebuild (g : Segment) (tick b : Nat) : Segment :=
  (List.range 3).foldl (fun (g : Segment) c =>
    if g.critBank c == b && g.hmp.critHeld.getD c false then
      let holds (k : Nat) : Bool := (List.range 3).any fun d => g.critBank d == k && g.hmp.critHeld.getD d false
      match ((List.range 11).map fun i => (b + 1 + i) % 12).find? fun k => g.bankOpen k && !holds k with
      | some k =>
        let g := g.setCritBank c k
        -- a rebuilt copy holds the voted value
        g.modHmp fun h => { h with odd := h.odd.filter fun o => o.2 != c }
      | none =>
        let g := g.modHmp fun h => { h with critHeld := modAt h.critHeld c fun _ => false }
        let left := (g.hmp.critHeld.filter id).length
        critWords.foldl (fun (g : Segment) w =>
          if left ≤ 1 || (left == 2 && g.hmp.odd.any fun o => o.1 == w && g.hmp.critHeld.getD o.2 false) then g.critLose tick w else g) g
    else g) g

/-! ## Fencing (R472) -/

/-- Reply-pool blocks of other banks are taken until the free blocks suffice, or no unreserved one is left. -/
def Segment.shrinkPool (g : Segment) (need : Nat) : Segment :=
  let short := need - g.freeBlocks
  if short == 0 then g
  else
    let pool := (lookupKey HmpUse.pool g.hmp.uses).getD (List.replicate 12 0)
    let spare := (g.txn.poolLines - g.poolUsed) / 32
    let n := min short spare
    let (cut, left) := (List.range 12).foldl (fun (acc : List Nat × Nat) b =>
      if g.bankOpen b then
        let k := min acc.2 (acc.1.getD b 0)
        (modAt acc.1 b fun v => v - k, acc.2 - k)
      else acc) (pool, n)
    { g with hmp := { g.hmp with uses := insertKey .pool cut g.hmp.uses },
             txn := { g.txn with poolLines := g.txn.poolLines - 32 * (n - left) } }

/-- The blocks of a bank that step 3 of R472 moves: every use but the reply pool. -/
def Hmp.movable (h : Hmp) (b : Nat) : Nat :=
  h.uses.foldl (fun n u => if u.1 == .pool then n else n + u.2.getD b 0) 0

/-- Every movable block of a bank copied to other banks. -/
def Segment.moveBlocks (g : Segment) (b : Nat) : Segment :=
  g.hmp.uses.foldl (fun (g : Segment) u =>
    if u.1 == .pool then g
    else
      let k := u.2.getD b 0
      let g := g.modHmp fun h => { h with uses := insertKey u.1 (modAt ((lookupKey u.1 h.uses).getD (List.replicate 12 0)) b fun _ => 0) h.uses }
      (g.hmpReserve u.1 k).getD g) g

/-- Groups with staging in a bank fail, the highest number first, until the rest fits (R472 step 6). -/
def State.fenceFit (s : State) (sg b : Nat) : Nat → State
  | 0 => s
  | fuel + 1 =>
    let g := s.seg sg
    if g.hmp.movable b ≤ g.freeBlocks then s
    else
      let gs := g.hmp.uses.filterMap fun u => match u.1 with
        | .group n => if u.2.getD b 0 > 0 then some n else none
        | _ => none
      match gs.foldl (fun m n => match m with | none => some n | some k => if n.toNat > k.toNat then some n else some k) (none : Option (BitVec 12)) with
      | none => s
      | some n => ((s.groupFail sg n csAborted).mod sg fun g => g.hmpRelease (.group n)).fenceFit sg b fuel

/-- A bank is fenced for a reason: 1 spares used up, 2 command (R472). -/
def State.fenceBank (s : State) (sg b reason : Nat) : State :=
  let g := s.seg sg
  if !(g.bankOpen b) then s
  else
    let g := (g.setFld (F.HMP_BANK_STATUS_STATE.bank b) 2).setBitOf F.HMP_STATUS_FENCED b true
    let g := g.raise s.tick { cls := 23, unit := 9, index := b, info := BitVec.ofNat 32 (b * 2 ^ 28 + reason) }
    let g := g.critRebuild s.tick b
    -- the pool gives up the bank's lines: unreserved ones at once, reserved ones as their tags complete
    let k := ((lookupKey HmpUse.pool g.hmp.uses).getD []).getD b 0
    let g := { g with txn := { g.txn with poolLines := g.txn.poolLines - 32 * k } }
    let g := g.shrinkPool (g.hmp.movable b)
    let s := (s.setSeg sg g).fenceFit sg b 4096
    s.mod sg fun g => g.moveBlocks b

/-! ## Failed lines and rows (R468 to R471) -/

/-- A row is remapped (R471), or its bank is fenced when no spare is left (R472). -/
def State.remapRow (s : State) (sg b row : Nat) : State :=
  let g := s.seg sg
  let used := g.hmp.spares.getD b []
  if used.length ≥ 8 then s.fenceBank sg b 1
  else
    let g := g.modHmp fun h =>
      { h with spares := modAt h.spares b fun l => l ++ [row], suspects := h.suspects.filter fun x => !(x.1 == b && x.2.1 == row) }
    let g := g.setFld (F.HMP_BANK_STATUS_SPARES_USED.bank b) (used.length + 1)
    s.setSeg sg (g.raise s.tick { cls := 22, unit := 9, sev := 1, index := b, info := BitVec.ofNat 32 (b * 2 ^ 28 + row * 2 ^ 16) })

/-- A failure counted in a bank's suspect table (R470): 16 rows, the entry with the oldest first failure replaced. Entries 1 s old have
expired. -/
def suspectAdd (l : List (Nat × Nat × Nat × Nat)) (b row tick : Nat) : List (Nat × Nat × Nat × Nat) :=
  let l := l.filter fun x => tick < x.2.2.2 + 50000000
  if l.any fun x => x.1 == b && x.2.1 == row then
    l.map fun x => if x.1 == b && x.2.1 == row then (b, row, x.2.2.1 + 1, x.2.2.2) else x
  else
    let own := l.filter fun x => x.1 == b
    let l := if own.length < 16 then l
      else
        let oldest := own.foldl (fun m x => min m x.2.2.2) tick
        match own.find? fun x => x.2.2.2 == oldest with
        | some y => l.erase y
        | none => l
    l ++ [(b, row, 1, tick)]

/-- HMP_CRC_FAIL (R468): a line fails its CRC. It is counted against its row, recorded as CORRECTED when the use
recovers and as ERROR when it ends in CS_POISON, and its row may be remapped. -/
def State.crcFail (s : State) (sg : Nat) (l : BadLine) (recovered : Bool) : State :=
  let g := s.seg sg
  let b := l.bank.val
  let row := l.row.toNat
  let g := g.bump F.HMP_CRC_COUNT_FAILS
  let g := if recovered then g.bump F.HMP_CRC_COUNT_REFETCHED else g.bump F.HMP_CRC_COUNT_POISONED
  let g := (g.bump (F.HMP_BANK_STATUS_CRC_FAILS.bank b)).setFld (F.HMP_BANK_STATUS_LAST_ROW.bank b) (min 512 row)
  let g := g.setFld (F.HMP_BANK_STATUS_LAST_FAIL_TICK.bank b) (s.tick % 2 ^ 32)
  let g := g.raise s.tick { cls := 21, unit := 9, sev := if recovered then 1 else 2, index := b,
                            info := BitVec.ofNat 32 (b * 2 ^ 28 + row * 2 ^ 16 + row * 64 + l.line.toNat) }
  let g := g.modHmp fun h => { h with suspects := suspectAdd h.suspects b row s.tick }
  let n := ((g.hmp.suspects.find? fun x => x.1 == b && x.2.1 == row).map fun x => x.2.2.1).getD 0
  let s := s.setSeg sg g
  if n ≥ max 1 (g.fld F.HMP_CTRL_ROW_LIMIT) then s.remapRow sg b row else s

/-! ## The commands of chapter 12's hamper -/

/-- SUSPECT_EXPIRY (R470): an entry expires 1 s after its first failure. -/
def execSuspectExpiry (sg : Fin 8) (bank : Fin 12) (row : BitVec 15) (s : State) : Out :=
  onSeg sg s fun s => s.mod sg fun g => g.modHmp fun h =>
    { h with suspects := h.suspects.filter fun x => !(x.1 == bank.val && x.2.1 == row.toNat && s.tick ≥ x.2.2.2 + 50000000) }

/-- BANK_FENCE (R472): the steward's command. It is refused when fewer than four banks would remain unfenced. -/
def execBankFence (sg : Fin 8) (ag : Agent) (bank : BitVec 4) (s : State) : Out :=
  onCtl sg ag s fun s =>
    let g := s.seg sg
    if !ag.admin then s.setSeg sg ((g.accessFault s.tick 9 0x130008 (BitVec.ofNat 64 (0x1000 + bank.toNat))).answer csOk 0)
    else
      let s := s.setSeg sg (g.answer csOk 0)
      let left := ((List.range 12).filter fun b => g.bankOpen b).length
      if bank.toNat > 11 || !(g.bankOpen bank.toNat) || left - 1 < 4 then s else s.fenceBank sg bank.toNat 2

/-- BANK_FENCE_DRAIN_DONE (R472 step 7): no reserved line remains in the bank and its domain sleeps. -/
def execBankFenceDrainDone (sg : Fin 8) (bank : Fin 12) (s : State) : Out :=
  onSeg sg s fun s =>
    let g := s.seg sg
    if g.bankState bank == 2 && g.hmp.movable bank == 0 && g.poolUsed ≤ g.txn.poolLines then
      let g := g.modHmp fun h => { h with uses := h.uses.map fun u => (u.1, modAt u.2 bank fun _ => 0) }
      let g := (g.setFld (F.HMP_BANK_STATUS_STATE.bank bank) 3).setBitOf F.PWR_DOMAIN_REQ_REQ (domBank bank) false
      s.setSeg sg g
    else s

/-- BANK_UNFENCE (R473): the bank wakes and runs the march. -/
def execBankUnfence (sg : Fin 8) (ag : Agent) (bank : BitVec 4) (s : State) : Out :=
  onCtl sg ag s fun s =>
    let g := s.seg sg
    if !ag.admin then s.setSeg sg ((g.accessFault s.tick 9 0x130008 (BitVec.ofNat 64 (0x2000 + bank.toNat))).answer csOk 0)
    else
      let g := g.answer csOk 0
      if bank.toNat > 11 || g.bankState bank.toNat != 3 then s.setSeg sg g
      else s.setSeg sg ((g.setFld (F.HMP_BANK_STATUS_STATE.bank bank.toNat) 4).wakeDom s.tick (domBank bank.toNat))

/-- UNFENCE_TEST_DONE (R473): with at most 8 failing rows the bank rejoins allocation; with more it stays fenced. -/
def execUnfenceTestDone (sg : Fin 8) (bank : Fin 12) (rows : List (BitVec 15)) (s : State) : Out :=
  onSeg sg s fun s =>
    let g := s.seg sg
    if g.bankState bank != 4 then s
    else
      let rs := (rows.map fun r => min 512 r.toNat).eraseDups
      if rs.length ≤ 8 then
        let g := g.modHmp fun h => { h with spares := modAt h.spares bank fun _ => rs,
                                            suspects := h.suspects.filter fun x => x.1 != bank.val }
        let g := (g.setFld (F.HMP_BANK_STATUS_STATE.bank bank) 0).setBitOf F.HMP_STATUS_FENCED bank false
        s.setSeg sg (g.setFld (F.HMP_BANK_STATUS_SPARES_USED.bank bank) rs.length)
      else
        let g := (g.setFld (F.HMP_BANK_STATUS_STATE.bank bank) 3).setBitOf F.PWR_DOMAIN_REQ_REQ (domBank bank) false
        s.setSeg sg (g.raise s.tick { cls := 23, unit := 9, index := bank, info := BitVec.ofNat 32 (bank.val * 2 ^ 28 + 3) })

/-- CRIT_LATCH_RELOAD (R475, R476): a latch is reloaded from a voted read, which may find a copy different. Words 8 + n are
voted reads of key slot n, which no latch holds; words 6 and 7 do not exist. -/
def execCritLatchReload (sg : Fin 8) (word : Fin 72) (odd : Option (Fin 3)) (latchBad : Bool) (s : State) : Out :=
  onSeg sg s fun s =>
    let g := s.seg sg
    if !critWords.contains word.val then s
    else
      let g := match odd with | some c => g.critVote s.tick word c | none => g
      s.setSeg sg (if latchBad && word.val < 6 then
        g.raise s.tick { cls := 24, unit := 9, sev := 1, info := BitVec.ofNat 32 (2 ^ 31 + word.val) } else g)

/-- HMP_INVAL (R479): the valid bits of a bank that is fenced or holds no reserved block are cleared; the bit reads 1
until BANK_CLEAR_DONE. -/
def execHmpInval (sg : Fin 8) (ag : Agent) (v : Word) (s : State) : Out :=
  onCtl sg ag s fun s =>
    let g := s.seg sg
    let banks := (List.range 12).filter fun b => v.getLsbD b
    let okBank (b : Nat) : Bool := g.bankState b == 3 || g.bankState b == 2 || g.hmp.usedIn b == 0
    if !ag.admin then s.setSeg sg ((g.accessFault s.tick 9 0x130010 v).answer csOk 0)
    else
      let g := if banks.all okBank then g else g.accessFault s.tick 9 0x130010 v
      let g := (banks.filter okBank).foldl (fun (g : Segment) b => g.setBitOf F.HMP_INVAL_BANKS b true) (g.swMark 0x130010 0 v)
      s.setSeg sg (g.answer csOk 0)

/-- A write of HMP_INVAL in the cycle that has ended is ignored for a bank in which a reservation was made in that cycle (R500). -/
def Segment.invalTie (g : Segment) (tick : Nat) : Segment :=
  g.swSet.foldl (fun (g : Segment) x =>
    let tied := (List.range 12).filter fun b =>
      x.off == 0x130010 && x.v.getLsbD b && (g.fld F.HMP_INVAL_BANKS).testBit b && g.bankOpen b && g.hmp.usedIn b != 0
    if tied.isEmpty then g
    else (tied.foldl (fun (g : Segment) b => g.setBitOf F.HMP_INVAL_BANKS b false) g).accessFault tick 9 0x130010 x.v) g

/-- BANK_CLEAR_DONE (R479): the clear of a bank ends. A bit that is written in the cycle reads 1 (R14). -/
def execBankClearDone (sg : Fin 8) (bank : Fin 12) (s : State) : Out :=
  onSeg sg s fun s => s.mod sg fun g =>
    if g.swSet.any fun x => x.off == 0x130010 && x.v.getLsbD bank then g else g.setBitOf F.HMP_INVAL_BANKS bank false

end Sys2Proof.Machine
end

