-- ==== Sys2Proof/Machine/Chunks.lean ====
section
/-! DEFINITION. The chunk pipeline (R205 to R226) and the commands of chapters 05 and 06. -/

namespace Sys2Proof.Machine

open Sys2Proof

/-! ## Opening (R187 to R191, R208, R312) -/

/-- A headcount entry's fields out of range (Table 5.1). -/
def hcFieldsOk (b : List Byte) : Bool :=
  let lg := field b 14 1
  let chunk := 2 ^ (if lg == 0 then 16 else lg)
  field b 0 8 % 4 == 0 && 1 ≤ field b 8 4 && field b 8 4 ≤ 32768 && field b 12 2 < 4096 &&
  (lg == 0 || (12 ≤ lg && lg ≤ 17)) && field b 15 1 ≤ 8 && field b 17 1 ≤ 32 && field b 18 1 < 64 && field b 19 1 < 2 &&
  field b 20 4 ≤ chunk && field b 24 8 % 16 == 0 && field b 32 8 % 4 == 0 && 4 ≤ field b 40 1 && field b 40 1 ≤ 16 && zeros b 41 87

/-- Whether a member list names the own segment once, repeats no word and has its reserved bits clear (R188). -/
def membersOk (ws : List Nat) (own : Nat) : Bool :=
  ws.all (fun w => w < 2 ^ 18) && (ws.filter fun w => w == own).length == 1 && ws.eraseDups.length == ws.length

/-- The group an entry and a member list describe, with its trees (R191, R311). -/
def buildGroup (num : BitVec 12) (b : List Byte) (ws : List Nat) (own : Nat) (hash : BitVec 32) : Grp :=
  let lg := if field b 14 1 == 0 then 16 else field b 14 1
  let chunk := 2 ^ lg
  let order := if field b 16 1 == 0 then 0xE4 else field b 16 1
  let k := if field b 17 1 == 0 then min 6 ws.length else field b 17 1
  let rank := (ws.findIdx? fun w => w == own).getD 0
  let one (t : Nat) (isSingle : Bool) : Tree :=
    let (e, r) := buildTree ws order t k isSingle
    treeOf e r rank
  { num := num, st := .opening, members := ws, rank := rank, ctx := BitVec.ofNat 12 (field b 12 2), hash := hash, chunkLog2 := lg,
    depth := if field b 15 1 == 0 then 4 else field b 15 1,
    threshold := if field b 20 4 == 0 then min 16384 chunk else field b 20 4,
    notify := field b 18 1, stamps := field b 19 1 == 1,
    trees := (List.range k).map fun t => one t false, single := one 0 true,
    ring := { base := field b 24 8, head := field b 32 8, log2 := field b 40 1 } }

/-- The staging of a group in units of 4 KiB (R208). -/
def Grp.stagingUnits (x : Grp) : Nat :=
  let shard := x.depth * 2 ^ x.chunkLog2 * x.trees.foldl (fun n t => n + t.children.length + 2) 0
  let small := ceilDiv x.threshold 4096 * 4096 * (x.single.children.length + 2)
  ceilDiv (shard + small + 4096) 4096

/-- Staging reserved by all groups. -/
def Segment.stagingUsed (g : Segment) : Nat := g.groups.foldl (fun n x => n + x.staging) 0

/-- The outcome of OPEN's checks, in their order (R191): the group, the REASON and the STATUS. -/
def State.openChecks (s : State) (sg : Nat) (n : BitVec 12) (st stList stCtx : DpmStatus) : Grp × Nat × BitVec 4 :=
  let g := s.seg sg
  let none_ : Grp := { num := n, st := .opening }
  let at_ := g.fld F.CLV_HC_BASE_BASE * 4096 + 128 * n.toNat
  let b := g.hbmBytes at_ 128
  let own := g.node.toNat + g.segId.toNat * 2 ^ 15
  if g.critLost 1 then (none_, 1, csDenied)
  else if !g.present 0 at_ 128 then (none_, 2, csUnmapped)
  else if st != some 0 then (none_, 7, csPoison)
  else if !hcFieldsOk b then (none_, 1, csDenied)
  else if field b 16 1 != 0 && !orderOk (field b 16 1) then (none_, 4, csDenied)
  else
    let count := field b 8 4
    if !(g.present 0 (field b 0 8) (4 * count) && g.present 0 (field b 24 8) (16 * 2 ^ field b 40 1) && g.present 0 (field b 32 8) 4) then
      (none_, 2, csUnmapped)
    else if stList != some 0 then (none_, 7, csPoison)
    else
      let raw := g.hbmBytes (field b 0 8) (4 * count)
      let ws := (List.range count).map fun i => field raw (4 * i) 4
      if !membersOk ws own then (none_, 3, csDenied)
      else
        let x := buildGroup n b ws own (crc32 raw)
        if ws.any fun w => !s.memberReach sg w then (none_, 5, csNodeDown)
        else
          let units := x.stagingUnits
          let limit := min 12288 (g.fld F.CLV_STAGING_LIMIT)
          if units > 8192 || g.stagingUsed + units > limit || units > g.freeBlocks then (none_, 6, csBusy)
          else if stCtx != some 0 then (none_, 7, csPoison)
          else
            let e := g.hbmBytes (g.ctxEntryAt x.ctx) 64
            let places := if g.present 0 (g.ctxEntryAt x.ctx) 64 && g.rucksackOk e then (field e 24 4 - 4096) / 8320 else 0
            if g.ruckReserved x.ctx ≥ places then (none_, 6, csBusy) else ({ x with staging := units, reserved := true }, 0, csOk)

/-- A group command from an agent R190 refuses. -/
def Segment.grpDenied (g : Segment) (tick cmd : Nat) (n : BitVec 12) : Segment :=
  (g.accessFault tick 8 0x120008 (BitVec.ofNat 64 (cmd * 4096 + n.toNat))).answer csOk 0

/-- GROUP_OPEN (R190, R191): the entry and the member list are read and checked; staging and the rucksack record are
reserved. The result is written at GROUP_OPEN_DONE. -/
def execGroupOpen (sg : Fin 8) (ag : Agent) (grp : BitVec 12) (st stList stCtx : DpmStatus) (s : State) : Out :=
  onDoms sg ag [domRange] s fun s =>
    let g := s.seg sg
    if !ag.admin then s.setSeg sg (g.grpDenied s.tick 1 grp)
    else if (g.grp? grp).isSome then s.setSeg sg ((g.bump F.CLV_COUNT_REFUSED_CMDS).answer csOk 0)
    else
      let (x, reason, status) := s.openChecks sg grp st stList stCtx
      let x := { x with reason := reason, status := status }
      let g := if reason == 0 then (g.hmpReserve (.group grp) x.staging).getD g else g
      let g := if x.reserved then
          { g with xlt := { g.xlt with reserved := insertKey x.ctx (g.ruckReserved x.ctx + 1) g.xlt.reserved } }
        else g
      s.setSeg sg ({ g with groups := g.groups ++ [x] }.answer csOk 0)

/-- GROUP_OPEN_DONE (R191). -/
def execGroupOpenDone (sg : Fin 8) (grp : BitVec 12) (s : State) : Out :=
  onSeg sg s fun s =>
    let g := s.seg sg
    match g.grp? grp with
    | none => s
    | some x =>
      if x.st != .opening then s
      else
        let g := g.setReg 0x120020 (BitVec.ofNat 64 (2 ^ 44 + grp.toNat * 2 ^ 32 + x.reason * 16 + x.status.toNat))
        if x.reason == 0 then s.setSeg sg (g.modGrp grp fun x => { x with st := .ready })
        else s.setSeg sg { g with groups := g.groups.filter fun y => y.num != grp }

/-- GROUP_CLOSE (R190, R193). -/
def execGroupClose (sg : Fin 8) (ag : Agent) (grp : BitVec 12) (s : State) : Out :=
  onDoms sg ag [domRange] s fun s =>
    let g := s.seg sg
    if !ag.admin then s.setSeg sg (g.grpDenied s.tick 2 grp)
    else
      let refused := s.setSeg sg ((g.bump F.CLV_COUNT_REFUSED_CMDS).answer csOk 0)
      match g.grp? grp with
      | none => refused
      | some x =>
        if x.st == .opening || x.st == .closing then refused
        else (s.setSeg sg (g.answer csOk 0)).closeGroup sg grp

/-- GROUP_CLOSE_DONE (R192, R193): the staging and the rucksack record are released. The ring stays for the records that wait in it and
for the completions that the stile still holds (R223). -/
def execGroupCloseDone (sg : Fin 8) (grp : BitVec 12) (s : State) : Out :=
  onSeg sg s fun s =>
    let g := s.seg sg
    match g.grp? grp with
    | none => s
    | some x =>
      if x.st != .closing then s
      else
        let g := g.hmpRelease (.group grp)
        let g := if x.reserved then
            { g with xlt := { g.xlt with reserved := insertKey x.ctx (g.ruckReserved x.ctx - 1) g.xlt.reserved } }
          else g
        let g := g.stampSettle grp s.tick
        let ring := ((g.grp? grp).getD x).ring
        let held (f : Formed) : Bool := f.grp == grp && !f.closed
        let left := !ring.waiting.isEmpty || g.stile.any held
        s.setSeg sg { g with groups := g.groups.filter fun y => y.num != grp,
                             stile := modWhere g.stile held fun f => { f with ring := ring, closed := true },
                             leftRings := if left then g.leftRings ++ [(grp, ring)] else g.leftRings }

/-- GROUP_ABORT_COMMAND (R190, R227). -/
def execGroupAbortCommand (sg : Fin 8) (ag : Agent) (grp : BitVec 12) (s : State) : Out :=
  onDoms sg ag [domRange] s fun s =>
    let g := s.seg sg
    if !ag.admin then s.setSeg sg (g.grpDenied s.tick 3 grp)
    else
      match g.grp? grp with
      | some x =>
        if x.st == .active || x.st == .suspended then (s.setSeg sg (g.answer csOk 0)).abortHead sg grp csAborted
        else s.setSeg sg ((g.bump F.CLV_COUNT_REFUSED_CMDS).answer csOk 0)
      | none => s.setSeg sg ((g.bump F.CLV_COUNT_REFUSED_CMDS).answer csOk 0)

/-- CLV_HC_BASE_WRITE (R234): ignored while any group is not FREE. -/
def execClvHcBaseWrite (sg : Fin 8) (ag : Agent) (sz : Sz) (v : Word) (s : State) : Out :=
  onDoms sg ag [domRange] s fun s =>
    let g := s.seg sg
    let old := g.reg 0x120000
    let new := setBits old 43 12 (bitsOf (mergeSize old sz v) 43 12)
    if g.groups.isEmpty then s.setSeg sg (((g.setReg 0x120000 new).critWrite 1).answer csOk 0) else s.setSeg sg (g.answer csOk 0)

/-! ## Chunks (R205, R207, R209) -/

/-- Whether a member contributes to a chunk (R203, R207). -/
def Grp.contributes (x : Grp) (h : Head) (c : Nat) : Bool :=
  let (lo, hi) := h.elems c
  match h.op.d.op with
  | 2 => let (p, q) := x.piece h.op.d.count x.rank; max lo p < min hi q
  | 4 => x.rank == h.op.d.root
  | _ => true

/-- A buffer found. -/
def Grp.rx? (x : Grp) (serial : BitVec 32) (tree c : Nat) (down : Bool) (frm : Nat) : Option Rx :=
  x.rx.find? fun r => r.serial == serial && r.tree == tree && r.c == c && r.down == down && r.frm == frm

/-- The data of a buffer in FLIT order. -/
def Rx.data (r : Rx) : List Byte :=
  let n := match r.hdr with | some h => field h 14 2 % 2048 | none => 0
  (List.range n).flatMap fun i => (lookupKey i r.flits).getD (List.replicate 128 0)

/-- Whether every flit of a buffer has landed (R213). -/
def Rx.complete (r : Rx) : Bool :=
  match r.hdr with
  | some h => (List.range (field h 14 2 % 2048)).all fun i => (lookupKey i r.flits).isSome
  | none => false

/-- The STATUS a header carries. -/
def hdrStatus (h : List Byte) : BitVec 4 := BitVec.ofNat 4 (field h 13 1)

/-- The staged buffers of a chunk from its up members; none while one is missing. -/
def Grp.upRx (x : Grp) (h : Head) (tree c : Nat) : Option (List Rx) :=
  (x.upFrom h tree c).mapM fun r =>
    match x.rx? x.serial tree c false r with
    | some q => if q.order != 0 then some q else none
    | none => none

/-- A member's mark of progress (R226). -/
def Segment.progressed (g : Segment) (n : BitVec 12) (tick : Nat) : Segment := g.modHead n fun h => { h with progress := tick }

/-- A chunk of the head operation made present. -/
def Segment.ensureChk (g : Segment) (n : BitVec 12) (tree c : Nat) : Segment :=
  g.modHead n fun h => if (h.chk? tree c).isSome then h else { h with chk := h.chk ++ [{ tree := tree, c := c }] }

/-- A member's part in a chunk has ended when nothing of it is held, its sum has gone and its result is written
(R209): its slot is free, and it is stamped, though not before the go (R217). -/
def Segment.settleChk (g : Segment) (n : BitVec 12) (tick tree c : Nat) : Segment :=
  match g.grp? n with
  | none => g
  | some x =>
    match x.head with
    | none => g
    | some h =>
      match h.chk? tree c with
      | none => g
      | some k =>
        let heldUp := x.sent.any fun q => q.serial == x.serial && q.tree == tree && q.c == c && (q.kind == 0x18 || q.kind == 0x19)
        let upOk := k.formed || !(x.contributes h c || (x.tree tree).root == x.rank)
        let downOk := k.written || !(x.getsDown h c)
        if h.large && !heldUp && upOk && downOk then
          let g := if k.stamped then g
            else if h.go then g.stampChunk n tick tree c
            else g.modHead n fun h => { h with unstamped := h.unstamped ++ [(tree, c)] }
          (g.modHead n fun h => { h with chk := h.chk.filter fun k => !(k.tree == tree && k.c == c), doneList := c :: h.doneList }).modGrp n
            fun x => { x with rx := x.rx.filter fun r => !(r.serial == x.serial && r.tree == tree && r.c == c && !r.down) }
        else g

/-- The chunk's flits toward a rank, held until released. -/
def Grp.chunkHeld (x : Grp) (h : Head) (kind dst tree c : Nat) (status : BitVec 4) (elems : Nat) (data : List Byte)
    (norm spoil tick : Nat) : Held :=
  { dst := dst, kind := kind, serial := x.serial, tree := tree, c := c,
    flits := chunkFlits x.serial h.op.fp c tree status elems data norm spoil, last := tick }

/-- A chunk's part goes up: to the parent, or straight to the tree's root (R207). -/
def State.sendUp (s : State) (sg : Nat) (n : BitVec 12) (tree c : Nat) (status : BitVec 4) (elems : Nat) (data : List Byte) : State :=
  match (s.seg sg).grp? n with
  | none => s
  | some x =>
    match x.head with
    | none => s
    | some h =>
      let t := x.tree tree
      let dst := if h.climbs then t.parent.getD t.root else t.root
      (s.mod sg fun g => (g.modChk n tree c fun k => { k with formed := true }).progressed n s.tick).collSend sg n
        (x.chunkHeld h 0x18 dst tree c status elems data 0 0 s.tick)

/-- The small path's operation ends at a member once its result is written there (R218, R220). -/
def State.smallEnd (s : State) (sg : Nat) (n : BitVec 12) : State :=
  match (s.seg sg).grp? n with
  | none => s
  | some x =>
    match x.head with
    | none => s
    | some h =>
      match h.chk? singleTree 0 with
      | none => s
      | some k =>
        if h.large || !k.written || x.st != .active then s
        else
          s.mod sg fun g =>
            let g := if k.stamped then g else g.stampChunk n s.tick singleTree 0
            g.headDone n s.tick h.worst 0 true

/-- How many elements each owner of a chunk contributed, of `elems` in all: no header says, so that with several owners the split is
free (log 25). `lens` are the lengths of the owners' parts. -/
def ownerCounts : List Nat → Nat → Nat → List Nat
  | [], _, _ => []
  | n :: rest, elems, ctr =>
    let most := min n elems
    let least := elems - rest.foldl (· + ·) 0
    let k := if most ≤ least then most else least + (Config.freeWord ctr).toNat % (most - least + 1)
    k :: ownerCounts rest (elems - k) (ctr + 1)

/-- Which positions of a gathered or broadcast chunk are present, by its header's ELEMS: those below their contributor's count (R203).
`owners` are the parts of the chunk by owner, as lengths. -/
def presence (op : Nat) (owners : List Nat) (elems lo hi ctr : Nat) : List Bool :=
  if !(op == 2 || op == 4) || elems ≥ hi - lo then List.replicate (hi - lo) true
  else if op == 4 then (List.range (hi - lo)).map fun i => i < elems
  else (owners.zip (ownerCounts owners elems ctr)).flatMap fun (len, k) => List.replicate k true ++ List.replicate (len - k) false

/-- The lengths of the owners' parts of a chunk. -/
def Grp.ownerLens (x : Grp) (h : Head) (lo hi : Nat) : List Nat := (x.parts h.op.d.count lo hi).map fun (_, a, b) => b - a

/-- A chunk is released to the member it came from (R213). -/
def Segment.releaseTo (g : Segment) (cycle : Nat) (x : Grp) (frm : Option Nat) (tree c : Nat) : Segment :=
  match frm with
  | some r => g.sendReply cycle x 0x1A r x.serial tree c 0
  | none => g

/-- A result that a member holds (R207), from `frm` or formed by itself: it is passed on to the children where the tree carries it, and
is written at CHUNK_RESULT_WRITE; where nothing is to be written, the member's part ends. It is released once its lines have been read,
which is their check (R213, Table 12.2). -/
def State.holdResult (s : State) (sg : Nat) (n : BitVec 12) (tree c : Nat) (frm : Option Nat) (status : BitVec 4) (elems norm spoil : Nat)
    (data : List Byte) (pres : List Bool) : State :=
  match (s.seg sg).grp? n with
  | none => s
  | some x =>
    match x.head with
    | none => s
    | some h =>
      let (lo, hi) := h.elems c
      let empty := (x.writes h.op h.large lo hi data pres).isEmpty
      let g := (((s.seg sg).ensureChk n tree c).modChk n tree c fun k =>
        { k with result := some (data, pres), written := empty, frm := frm }).progressed n s.tick
      let g := if empty then g.releaseTo s.time x frm tree c else g
      let g := if h.large then g else g.modHead n fun h => { h with norm := norm, spoil := spoil, worst := status }
      let s := s.setSeg sg g
      let passes := !h.large || h.op.d.op == 0 || h.op.d.op == 2 || h.op.d.op == 4
      let s := if passes then
          (x.tree tree).children.foldl (fun (s : State) r =>
            s.collSend sg n (x.chunkHeld h 0x19 r tree c status elems data norm spoil s.tick)) s
        else s
      (s.mod sg fun g => g.settleChk n s.tick tree c).smallEnd sg n

/-- The root's result goes down: on the tree, or straight to the owners (R207). -/
def State.spread (s : State) (sg : Nat) (n : BitVec 12) (tree c : Nat) (parts : List (Nat × Formation)) (norm spoil : Nat) : State :=
  match (s.seg sg).grp? n with
  | none => s
  | some x =>
    match x.head with
    | none => s
    | some h =>
      let (lo, hi) := h.elems c
      let all := parts.flatMap fun p => p.2.bytes
      let full := List.replicate (hi - lo) true
      let s := s.mod sg fun g => g.modChk n tree c fun k => { k with formed := true }
      if !h.large || h.op.d.op == 0 then
        s.holdResult sg n tree c none 0 (hi - lo) (if h.large then 0 else norm) (if h.large then 0 else spoil) all full
      else if h.op.d.op == 3 then
        if h.op.d.root == x.rank then s.holdResult sg n tree c none 0 (hi - lo) 0 0 all full
        else
          (s.collSend sg n (x.chunkHeld h 0x19 h.op.d.root tree c 0 (hi - lo) all 0 0 s.tick)).mod sg fun g => g.settleChk n s.tick tree c
      else
        let s := (x.parts h.op.d.count lo hi).foldl (fun (s : State) (r, a, b) =>
          let bytes := ((parts.find? fun p => p.1 == r).map fun p => p.2.bytes).getD []
          if r == x.rank then s.holdResult sg n tree c none 0 (b - a) 0 0 bytes full
          else s.collSend sg n (x.chunkHeld h 0x19 r tree c 0 (b - a) bytes 0 0 s.tick)) s
        s.mod sg fun g => g.settleChk n s.tick tree c

/-- Byte lists combined where each is zero outside its own part. -/
def orBytes : List Byte → List Byte → List Byte
  | a :: as, b :: bs => (a ||| b) :: orBytes as bs
  | [], bs => bs
  | as, [] => as

/-- A part of a gathered chunk put at its place in the chunk's image. -/
def placePart (n off : Nat) (bs : List Byte) : List Byte := padTo n (List.replicate off 0 ++ bs)

/-- Once every part of a gathered or broadcast chunk is staged, it is passed up the single tree, or formed at the root
(R206, R207). -/
def State.gatherTry (s : State) (sg : Nat) (n : BitVec 12) (tree c : Nat) : State :=
  match (s.seg sg).grp? n with
  | none => s
  | some x =>
    match x.head with
    | none => s
    | some h =>
      let k := (h.chk? tree c).getD { tree := tree, c := c }
      let (lo, hi) := h.elems c
      let sz := scalarSize h.op.d.inF
      let size := (hi - lo) * sz
      let mine := x.contributes h c
      if k.formed || (mine && k.own.isNone) then s
      else
        match x.upRx h tree c with
        | none => s
        | some rs =>
          let ownAt := if h.op.d.op == 2 then max lo (x.piece h.op.d.count x.rank).1 - lo else 0
          let ownBytes := k.own.getD []
          let ownN := ownBytes.length / max 1 sz
          let image := rs.foldl (fun acc r =>
            let off := if h.climbs then 0 else
              (if h.op.d.op == 2 then (max lo (x.piece h.op.d.count r.frm).1 - lo) * sz else 0)
            let n := match r.hdr with | some hd => field hd 16 4 * sz | none => 0
            orBytes acc (placePart size off (if h.climbs then r.data else r.data.take n))) (placePart size (ownAt * sz) ownBytes)
          let total := rs.foldl (fun n r => n + (match r.hdr with | some hd => field hd 16 4 | none => 0)) ownN
          if (x.tree tree).root == x.rank then
            let pres := if h.climbs then presence h.op.d.op (x.ownerLens h lo hi) total lo hi s.freeCtr
              else
                let spanOf (r off k : Nat) (e : Nat) : Bool := (if r == x.rank then true else true) && off ≤ e && e < off + k
                (List.range (hi - lo)).map fun e =>
                  (mine && spanOf x.rank ownAt ownN e) || rs.any fun r =>
                    spanOf r.frm (if h.op.d.op == 2 then max lo (x.piece h.op.d.count r.frm).1 - lo else 0)
                      (match r.hdr with | some hd => field hd 16 4 | none => 0) e
            let s := { s with freeCtr := s.freeCtr + (hi - lo) }
            let s := if h.climbs then
                rs.foldl (fun (s : State) r => s.mod sg fun g => g.releaseTo s.time x (some r.frm) tree c) s
              else s
            let s := s.mod sg fun g =>
              (((g.ensureChk n tree c).modChk n tree c fun k => { k with formed := true }).modGrp n fun x =>
                { x with rx := x.rx.filter fun r => !(r.serial == x.serial && r.tree == tree && r.c == c && !r.down) })
            s.holdResult sg n tree c none 0 total 0 0 image pres
          else if h.climbs then
            let s := rs.foldl (fun (s : State) r => s.mod sg fun g => g.releaseTo s.time x (some r.frm) tree c) s
            let s := s.mod sg fun g => (g.ensureChk n tree c).modGrp n fun x =>
              { x with rx := x.rx.filter fun r => !(r.serial == x.serial && r.tree == tree && r.c == c && !r.down) }
            s.sendUp sg n tree c 0 total (if total == 0 then [] else image)
          else s

/-- The worst status of the small path's up sweep, with CS_GROUP_MISMATCH in place of a fingerprint difference (R218, R231). -/
def Head.sweepStatus (h : Head) (rs : List Rx) : BitVec 4 :=
  rs.foldl (fun st r => match r.hdr with
    | some hd => worse st (if BitVec.ofNat 32 (field hd 4 4) != h.op.fp then csMismatch else hdrStatus hd)
    | none => st) h.worst

/-- The small path's up sweep (R206, R218): once the own part and every child's are staged, a status other than CS_OK
goes up in place of data, to be decided by the root; a gathered image climbs; a childless member sends its part. Sums
wait for REDUCTION_STEP. -/
def State.smallTry (s : State) (sg : Nat) (n : BitVec 12) : State :=
  match (s.seg sg).grp? n with
  | none => s
  | some x =>
    match x.head with
    | none => s
    | some h =>
      match h.chk? singleTree 0 with
      | none => s
      | some k =>
        if h.large || k.formed || k.own.isNone || x.st != .active then s
        else
          match x.upRx h singleTree 0 with
          | none => s
          | some rs =>
            let bad := h.sweepStatus rs
            if bad != 0 then
              if x.single.root == x.rank then s.abortStart sg n bad
              else s.sendUp sg n singleTree 0 bad 0 []
            else if !h.op.d.isRed then s.gatherTry sg n singleTree 0
            else if rs.isEmpty && x.single.root != x.rank then
              s.sendUp sg n singleTree 0 0 h.op.d.count (k.own.getD [])
            else s

/-- Energy and counts of block encoding (R273). -/
def Segment.countMx (g : Segment) (m : MxCount) : Segment :=
  let t := g.red.fracBlocks + m.blocks
  let g := { g with red := { g.red with fracBlocks := t % 1024 } }
  ((g.bumpBy F.RED_MX_COUNT_BLOCKS (t / 1024)).bumpBy F.RED_MX_COUNT_NAN_BLOCKS m.nans).bumpBy F.RED_MX_COUNT_SATURATED m.sat

/-- A chunk's step becomes ready in the cycle in which the last of its operands is staged (R233). -/
def Segment.markReady (g : Segment) (n : BitVec 12) (cycle tree c : Nat) : Segment :=
  match g.grp? n with
  | none => g
  | some x =>
    match x.head with
    | none => g
    | some h =>
      let own : Bool := match h.chk? tree c with | some k => k.own.isSome && k.ready.isNone | none => false
      if own && (x.upRx h tree c).isSome then g.modChk n tree c fun k => { k with ready := some cycle } else g

/-- The own contribution of a chunk has been read (R221, R248, R254): it is staged; a childless member sends it. -/
def State.ownReady (s : State) (sg : Nat) (n : BitVec 12) (tree c : Nat) : State :=
  match (s.seg sg).grp? n with
  | none => s
  | some x =>
    match x.head with
    | none => s
    | some h =>
      match h.chk? tree c with
      | none => s
      | some k =>
        let (lo, hi) := h.elems c
        let t := x.tree tree
        let leaf := t.children.isEmpty && t.root != x.rank
        if h.op.d.isRed then
          let (bs, m) := x.contribution h.op k.got lo hi leaf
          let s := s.mod sg fun g => ((g.countMx m).modChk n tree c fun k =>
            { k with own := some bs, order := orderKey s.time ownPlace, got := [] }).markReady n s.time tree c
          if !h.large then s.smallTry sg n
          else if leaf then s.sendUp sg n tree c 0 (hi - lo) bs
          else s
        else
          let (a, b) := if h.op.d.op == 2 then
              let (p, q) := x.piece h.op.d.count x.rank
              (max lo p, min (min hi q) (p + h.op.n))
            else (lo, min hi h.op.n)
          let bs := x.plainPart h.op k.got a b
          let s := s.mod sg fun g => g.modChk n tree c fun k => { k with own := some bs, got := [] }
          if !h.large then s.smallTry sg n
          else if t.root == x.rank then s.gatherTry sg n tree c
          else s.sendUp sg n tree c 0 (b - a) bs

/-- A read of the contribution has come back (R221): CS_POISON starts an abort; any other failure is the member's
local status, and the bytes are free. -/
def State.contribLand (s : State) (sg : Nat) (n : BitVec 12) (serial : BitVec 32) (c line : Nat) (st : BitVec 4)
    (data : List Byte) : State :=
  match (s.seg sg).grp? n with
  | none => s
  | some x =>
    if x.serial != serial || x.head.isNone then s
    else if st == csPoison then s.abortStart sg n csPoison
    else
      let tree := match x.head with
        | some h => if h.large then c % max 1 x.k else singleTree
        | none => 0
      let g := (s.seg sg).modChk n tree c fun k => { k with reads := k.reads.erase line, got := (line, data) :: k.got }
      let g := if st == 0 then g else g.modHead n fun h => { h with worst := worse h.worst st }
      let s := s.setSeg sg g
      match (x.head.bind fun h => h.chk? tree c) with
      | some k => if (k.reads.erase line).isEmpty && k.own.isNone then s.ownReady sg n tree c else s
      | none => s

/-- A chunk starts at this member (R209, R221): its contribution is read through the master channels. -/
def State.chunkBegin (s : State) (sg : Nat) (n : BitVec 12) (tree c : Nat) : State :=
  match (s.seg sg).grp? n with
  | none => s
  | some x =>
    match x.head with
    | none => s
    | some h =>
      let (lo, hi) := h.elems c
      let (a, b) := if h.op.d.op == 2 then
          let (p, q) := x.piece h.op.d.count x.rank
          (max lo p, min hi q)
        else (lo, hi)
      let lines := if x.contributes h c then x.srcLines h.op a b else []
      let g := ((s.seg sg).ensureChk n tree c).modChk n tree c fun k => { k with reads := lines }
      let g := lines.foldl (fun (g : Segment) l =>
        g.dpmIssue s.time (gaSpace (l * 128)) (gaOff (l * 128)) none (.contrib n x.serial c)) g
      let s := s.setSeg sg g
      if lines.isEmpty then s.ownReady sg n tree c else s

/-- Whether a chunk could start: its slot is free and the ready cursor allows it (R209, R221). -/
def Grp.mayStart (x : Grp) (h : Head) (c : Nat) : Bool :=
  c < h.chunks && (c < x.k * x.depth || h.doneList.contains (c - x.k * x.depth)) && !(h.op.gated && h.op.ready ≤ c && x.contributes h c)

/-- Whether a lower chunk of another tree, which this member reads, could start: it goes first (R221). -/
def Grp.lowerWaits (x : Grp) (h : Head) (c : Nat) : Bool := h.next.any fun b => b < c && x.contributes h b && x.mayStart h b

/-- CHUNK_START (R209, R221): the next chunk of a tree starts when its slot is free and the ready cursor allows it, in ascending
order. -/
def execChunkStart (sg : Fin 8) (grp : BitVec 12) (tree : Fin 64) (s : State) : Out :=
  onSeg sg s fun s =>
    match (s.seg sg).grp? grp with
    | none => s
    | some x =>
      match x.head with
      | none => s
      | some h =>
        if x.st != .active || h.op.code != 0x58 || h.op.launch != 0 then s
        else if h.large then
          match h.next[tree.val]? with
          | none => s
          | some c =>
            if !x.mayStart h c || x.lowerWaits h c then s
            else
              let s := s.mod sg fun g => g.modHead grp fun h => { h with next := modAt h.next tree.val fun c => c + x.k }
              if x.contributes h c then s.chunkBegin sg grp tree.val c else s
        else if tree.val == singleTree && (h.chk? singleTree 0).isNone && !(h.op.gated && h.op.ready == 0 && x.contributes h 0) then
          s.chunkBegin sg grp singleTree 0
        else s

/-! ## Rounds (R217, R220) -/

/-- The headers of a round from every child; none while one is missing. -/
def Grp.roundRx (x : Grp) (c : Nat) : Option (List (List Byte)) :=
  x.single.children.mapM fun r => (x.rx? x.serial singleTree c false r).bind Rx.hdr

/-- The status of a round from the children's headers: the smallest, with CS_GROUP_MISMATCH in place of a fingerprint
difference (R217, R231). -/
def roundStatus (own : BitVec 4) (fp : BitVec 32) (hs : List (List Byte)) : BitVec 4 :=
  hs.foldl (fun st hd => worse st (if BitVec.ofNat 32 (field hd 4 4) != fp then csMismatch else hdrStatus hd)) own

/-- A header sent down to every child in answer (R216). -/
def State.roundDown (s : State) (sg : Nat) (n : BitVec 12) (x : Grp) (kind c : Nat) (payload : List Byte) : State :=
  let idx := if kind == 0x19 then 0x7FF else 0
  x.single.children.foldl (fun (s : State) r =>
    s.answerSend sg n { dst := r, kind := kind, serial := x.serial, tree := singleTree, c := c, flits := [(idx, payload)], last := s.tick }) s

/-- The go reaches a member (R217): it is passed on, and results may be written. -/
def State.goTake (s : State) (sg : Nat) (n : BitVec 12) : State :=
  match (s.seg sg).grp? n with
  | none => s
  | some x =>
    match x.head with
    | none => s
    | some h =>
      let s := s.mod sg fun g => ((g.modHead n fun h => { h with go := true }).progressed n s.tick).modGrp n fun x =>
        { x with sent := x.sent.filter fun q => !(q.serial == x.serial && q.tree == singleTree && q.c == 0xFFFFFFFF) }
      let s := s.mod sg fun g => h.unstamped.foldl (fun (g : Segment) u => g.stampChunk n s.tick u.1 u.2) g
      s.roundDown sg n x 0x19 0xFFFFFFFF (chunkHeader x.serial h.op.fp 0xFFFFFFFF singleTree 0 0 0 0 0 0)

/-- The launch round (R217): a member's part goes up once its children's have landed; the root sends the go or decides
an abort. -/
def State.launchTry (s : State) (sg : Nat) (n : BitVec 12) : State :=
  match (s.seg sg).grp? n with
  | none => s
  | some x =>
    match x.head with
    | none => s
    | some h =>
      if !h.large || h.launched || x.st != .active then s
      else
        match x.roundRx 0xFFFFFFFF with
        | none => s
        | some hs =>
          let st := roundStatus h.op.launch h.op.fp hs
          let s := s.mod sg fun g => g.modHead n fun h => { h with launched := true }
          if x.single.root == x.rank then (if st == 0 then s.goTake sg n else s.abortStart sg n st)
          else s.collSend sg n
            { dst := x.single.parent.getD 0, kind := 0x18, serial := x.serial, tree := singleTree, c := 0xFFFFFFFF,
              flits := [(0x7FF, chunkHeader x.serial h.op.fp 0xFFFFFFFF singleTree st 0 0 0 0 0)], last := s.tick }

/-- The end of the head operation, as the root sends it down, with its riders. It waits while the group is suspended (R224); a group
that awaits the decision of an abort completes on that (Table 5.3). -/
def State.headEnd (s : State) (sg : Nat) (n : BitVec 12) (e : HeadEnd) : State :=
  match (s.seg sg).grp? n with
  | none => s
  | some x =>
    if x.st == .suspended then s.mod sg fun g => g.modHead n fun h => { h with ended := some e }
    else if x.st != .active then s
    else
      s.mod sg fun g =>
        let ride : Bool := match x.head with | some h => h.op.code == 0x5C | none => false
        let g := if ride && e.status == csSpoiled then g.bump F.RED_RIDERS_SPOILED_RIDES else g
        (g.modHead n fun h => { h with norm := e.norm, spoil := e.spoil }).headDone n s.tick e.status e.result true

/-- The closing result reaches a member (R220): it is passed on and the operation completes. -/
def State.closeTake (s : State) (sg : Nat) (n : BitVec 12) (st : BitVec 4) (norm spoil : Nat) : State :=
  match (s.seg sg).grp? n with
  | none => s
  | some x =>
    match x.head with
    | none => s
    | some h =>
      let s := s.mod sg fun g => g.modGrp n fun x =>
        { x with sent := x.sent.filter fun q => !(q.serial == x.serial && q.tree == singleTree && q.c == 0xFFFFFFFE) }
      let s := s.roundDown sg n x 0x19 0xFFFFFFFE (chunkHeader x.serial h.op.fp 0xFFFFFFFE singleTree st 0 0 0 norm spoil)
      s.headEnd sg n { status := st, result := 0, norm := norm, spoil := spoil }

/-- CLOSING_PART_SEND (R220): once every slot of the operation is free and the children's parts have landed, the member
sends its part; the root sums the riders and sends the result down. -/
def execClosingPartSend (sg : Fin 8) (grp : BitVec 12) (s : State) : Out :=
  onSeg sg s fun s =>
    match (s.seg sg).grp? grp with
    | none => s
    | some x =>
      match x.head with
      | none => s
      | some h =>
        if !h.large || !h.go || h.closing || x.st != .active || h.doneList.length < h.chunks then s
        else
          match x.roundRx 0xFFFFFFFE with
          | none => s
          | some hs =>
            let st := roundStatus h.worst h.op.fp hs
            let norm := hs.foldl (fun acc hd => FFmt.b64.add acc (field hd 24 8)) h.norm
            let spoil := hs.foldl (fun n hd => n + field hd 32 8) h.spoil % 2 ^ 64
            let s := s.mod sg fun g => (g.modHead grp fun h => { h with closing := true }).progressed grp s.tick
            if x.single.root == x.rank then s.closeTake sg grp st norm spoil
            else s.collSend sg grp
              { dst := x.single.parent.getD 0, kind := 0x18, serial := x.serial, tree := singleTree, c := 0xFFFFFFFE,
                flits := [(0x7FF, chunkHeader x.serial h.op.fp 0xFFFFFFFE singleTree st 0 0 0 norm spoil)], last := s.tick }

/-! ## Campfires, votes and rides (R266 to R268) -/

/-- The payload of Table 6.7. -/
def campPayload (serial fp : BitVec 32) (dir : Nat) (st : BitVec 4) (code ride arrived : Nat) (v : Word) : List Byte :=
  let mode := if code == 0x5A then 0 else if code == 0x5B then 1 else 2
  natBytes serial.toNat 4 ++ natBytes fp.toNat 4 ++ natBytes dir 1 ++ natBytes st.toNat 1 ++ natBytes mode 1 ++
  natBytes (if mode == 2 then ride else 0) 1 ++ natBytes arrived 4 ++ natBytes v.toNat 8

/-- A result of a campfire, vote or ride reaches a member: it is passed on and the operation completes. -/
def State.campTake (s : State) (sg : Nat) (n : BitVec 12) (st : BitVec 4) (arrived : Nat) (v : Word) : State :=
  match (s.seg sg).grp? n with
  | none => s
  | some x =>
    match x.head with
    | none => s
    | some h =>
      let kind := campKind h.op.code
      let s := s.mod sg fun g => g.modGrp n fun x => { x with sent := x.sent.filter fun q => !(q.serial == x.serial && q.kind == kind) }
      let s := s.roundDown sg n x kind (kindChunk kind) (campPayload x.serial h.op.fp 1 st h.op.code h.op.rideOp arrived v)
      s.headEnd sg n { status := st, result := if st == csMismatch then 0 else v, norm := 0, spoil := 0 }

/-- A member sends its up flit once it has issued the operation and every child's flit has landed; the root sends the
result down only when every member has arrived and the status is CS_OK (R267). -/
def State.campTry (s : State) (sg : Nat) (n : BitVec 12) : State :=
  match (s.seg sg).grp? n with
  | none => s
  | some x =>
    match x.head with
    | none => s
    | some h =>
      let kind := campKind h.op.code
      if h.op.code == 0x58 || h.sentUp || x.st != .active then s
      else
        match x.single.children.mapM fun r => x.rx? x.serial singleTree (kindChunk kind) false r with
        | none => s
        | some rs =>
          let hs := rs.filterMap Rx.hdr
          let st := hs.foldl (fun st p => worse st (if BitVec.ofNat 32 (field p 4 4) != h.op.fp then csMismatch else BitVec.ofNat 4 (field p 9 1))) 0
          let arrived := hs.foldl (fun n p => n + field p 12 4) 1
          let kids := rs.map fun r => (r.order, BitVec.ofNat 64 (match r.hdr with | some p => field p 16 8 | none => 0))
          let vals := (orderBy ((h.order, h.op.value) :: kids)).map Prod.snd
          let (st, v) := if h.op.code == 0x5A then (st, (0 : Word))
            else if h.op.code == 0x5C then (st, rideAll h.op.rideOp vals)
            else
              match vals with
              | [] => (st, 0)
              | w :: ws =>
                match ws.foldl (fun acc u => acc.bind fun a => voteOp a u) (some w) with
                | some w => (st, w)
                | none => (worse st csMismatch, 0)
          let s := s.mod sg fun g => (g.modHead n fun h => { h with sentUp := true }).progressed n s.tick
          if x.single.root == x.rank then
            if st == 0 && arrived == x.members.length then
              s.campTake sg n (if h.op.code == 0x5C && rideSpoiled h.op.rideOp v then csSpoiled else 0) arrived v
            else s.abortStart sg n (if st == 0 then csMismatch else st)
          else s.collSend sg n
            { dst := x.single.parent.getD 0, kind := kind, serial := x.serial, tree := singleTree, c := kindChunk kind,
              flits := [(0, campPayload x.serial h.op.fp 0 st h.op.code h.op.rideOp arrived v)], last := s.tick }
where
  /-- Pairs in ascending order of their first. -/
  orderBy (l : List (Nat × Word)) : List (Nat × Word) := l.foldl (fun acc x => ins x acc) []
  /-- One pair put in its place. -/
  ins (x : Nat × Word) : List (Nat × Word) → List (Nat × Word)
    | [] => [x]
    | y :: ys => if x.1 < y.1 then x :: y :: ys else y :: ins x ys

/-! ## The head of the queue (R198) -/

/-! ## Steps (R249, R272) -/

/-- The lanes of an operand of a step: a childless child sends WIRE_FMT (R254). -/
def Grp.operand (x : Grp) (d : CDesc) (tree lo hi : Nat) (r : Rx) : List Nat :=
  if d.wireF != 0 && (x.tree tree).leaves.contains r.frm then
    decodeLanes d.wireF d.cf (hi - lo) r.data fun i => roundMode d.round d.seed (lo + i) x.rank 3
  else bytesLanes d.carrySize (hi - lo) r.data

/-- The values of pairs in ascending order of their first. -/
def inOrder (l : List (Nat × List Nat)) : List (List Nat) := (l.foldl (fun acc x => ins x acc) []).map Prod.snd
where
  /-- One pair put in its place. -/
  ins (x : Nat × List Nat) : List (Nat × List Nat) → List (Nat × List Nat)
    | [] => [x]
    | y :: ys => if x.1 < y.1 then x :: y :: ys else y :: ins x ys

/-- Whether a step of a group that became ready in a cycle goes before every other that is ready in the array: by that cycle, then by
group number (R233). -/
def Segment.stepFirst (g : Segment) (n : BitVec 12) (ready : Nat) : Bool :=
  !g.groups.any fun y => y.st == .active && (match y.head with
    | some h => h.op.d.isRed && h.chk.any fun k =>
        k.own.isSome && !k.formed && k.stepEnd.isNone && (match k.ready with
          | some r => r < ready || (r == ready && y.num.toNat < n.toNat)
          | none => false)
    | none => false)

/-- A reduction step formed (R256, R257, R259): the chunk's own part and its children's chunks in order, their sum held until the
step's end. The children's chunks are released, and stay staged until the slot is reused (Table 12.2). -/
def Segment.summed (g : Segment) (time : Nat) (grp : BitVec 12) (x : Grp) (h : Head) (k : Chk) (rs : List Rx) : Segment :=
  let d := h.op.d
  let (lo, hi) := h.elems k.c
  let lines := ceilDiv ((hi - lo) * d.carrySize) 128 * (rs.length + 1)
  let own := bytesLanes d.carrySize (hi - lo) (k.own.getD [])
  let ops := inOrder ((k.order, own) :: rs.map fun r => (r.order, x.operand d k.tree lo hi r))
  let sum := d.step x.rank lo hi ops
  let total := g.red.fracLines + lines
  let g := { ((g.chargeHmp (370 * lines)).count fun t => { t with redLines := t.redLines + lines }) with red := { g.red with fracLines := total % 1024 } }
  let g := g.bumpBy F.RED_COUNT_LINES (total / 1024)
  let g := (g.modChk grp k.tree k.c fun k =>
    { k with stepEnd := some (time + ceilDiv lines 8 + 24), sum := some (laneBytes d.carrySize sum, 0, 0, 0) }).progressed grp (time / 21)
  if k.again then g else rs.foldl (fun (g : Segment) r => g.releaseTo time x (some r.frm) k.tree k.c) g

/-- REDUCTION_STEP (R249, R272): once every operand of a chunk is staged, the array adds them. A line that fails its CRC
is refused to its child, or the own contribution is read again; in a step that is formed again it aborts (Table 12.2). -/
def execReductionStep (sg : Fin 8) (grp : BitVec 12) (serial : BitVec 16) (bad : List (Nat × BadLine)) (s : State) : Out :=
  onSeg sg s fun s =>
    match (s.seg sg).grp? grp with
    | none => s
    | some x =>
      match x.head with
      | none => s
      | some h =>
        match h.chk.find? fun k => k.c % 2 ^ 16 == serial.toNat && k.own.isSome && !k.formed && k.stepEnd.isNone with
        | none => s
        | some k =>
          let (lo, hi) := h.elems k.c
          match x.upRx h k.tree k.c with
          | none => s
          | some rs =>
            let d := h.op.d
            let lines := ceilDiv ((hi - lo) * d.carrySize) 128 * (rs.length + 1)
            let g := s.seg sg
            if x.st != .active || !d.isRed then s
            else if !h.large && h.sweepStatus rs != 0 then s.smallTry sg grp
            else if !g.stepFirst grp (k.ready.getD 0) then s
            else if !g.usable s.tick domReduction then s.setSeg sg (g.wakeDom s.tick domReduction)
            else if !g.budgetOk (250 * lines) then s.setSeg sg g.governedWait
            else if !bad.isEmpty && k.again then
              (bad.foldl (fun (s : State) (_, l) => s.crcFail sg l false) s).abortStart sg grp csPoison
            else if !bad.isEmpty then
              bad.foldl (fun (s : State) (r, l) =>
                let s := s.crcFail sg l true
                if r == x.rank then
                  (s.mod sg fun g => g.modHead grp fun h => { h with chk := h.chk.filter fun y => !(y.tree == k.tree && y.c == k.c) }).chunkBegin sg grp k.tree k.c
                else if rs.any fun q => q.frm == r then
                  s.mod sg fun g => ((g.bump F.CLV_NAK_COUNT_CRC_NAKS).modGrp grp fun x =>
                    { x with rx := x.rx.filter fun q => !(q.serial == x.serial && q.tree == k.tree && q.c == k.c && !q.down && q.frm == r) }).sendReply
                      s.time x 0x1B r x.serial k.tree k.c 0
                else s) s
            else s.setSeg sg (g.summed s.time grp x h k rs)

/-- A reduction step ended (R259, R261): its sum goes up, or at the root it becomes the chunk's result and its riders. -/
def State.stepLeaves (s : State) (sg : Nat) (grp : BitVec 12) (x : Grp) (h : Head) (k : Chk) : State :=
  let (lo, hi) := h.elems k.c
  let d := h.op.d
  let bytes := (k.sum.map Prod.fst).getD []
  let s := s.mod sg fun g => (g.bump F.RED_COUNT_STEPS).modChk grp k.tree k.c fun k => { k with stepEnd := none, sum := none }
  if (x.tree k.tree).root == x.rank then
    let lanes := bytesLanes d.carrySize (hi - lo) bytes
    let (parts, norm, spoil, m) := x.formResult d lanes lo hi s.freeCtr
    let s := { s with freeCtr := s.freeCtr + d.count }
    let s := s.mod sg fun g =>
      let g := (g.countMx m).bumpBy F.RED_RIDERS_SPOILED spoil
      g.modHead grp fun h => { h with norm := FFmt.b64.add h.norm norm, spoil := h.spoil + spoil }
    let h' := (((s.seg sg).grp? grp).bind Grp.head).getD h
    s.spread sg grp k.tree k.c parts h'.norm h'.spoil
  else s.sendUp sg grp k.tree k.c 0 (hi - lo) bytes

/-- REDUCTION_STEP_DONE (R259, R272): the sum is sent up, or at the root becomes the chunk's result with its riders. With
a line of the sum that fails its CRC, the step is formed again from the slot's operands (Table 12.2). -/
def execReductionStepDone (sg : Fin 8) (grp : BitVec 12) (e : StepEnd) (s : State) : Out :=
  onSeg sg s fun s =>
    match (s.seg sg).grp? grp with
    | none => s
    | some x =>
      match x.head with
      | none => s
      | some h =>
        match h.chk.find? fun k => k.c % 2 ^ 16 == e.serial.toNat && k.stepEnd.isSome && !k.formed with
        | none => s
        | some k =>
          if s.time < k.stepEnd.getD 0 then s
          else
            match e.bad with
            | some l => (s.crcFail sg l true).mod sg fun g => g.modChk grp k.tree k.c fun k => { k with stepEnd := none, sum := none, again := true }
            | none => s.stepLeaves sg grp x h k

/-! ## Writing results (R222) -/

/-- A chunk's result written to DST with this status (R222): bytes that a failed write leaves are unspecified, and its status is
the member's. -/
def State.resultWritten (s : State) (sg : Nat) (grp : BitVec 12) (x : Grp) (h : Head) (k : Chk) (st : DpmStatus) : State :=
  let (lo, hi) := h.elems k.c
  let (data, pres) := k.result.getD ([], [])
  let cells := x.writes h.op h.large lo hi data pres
  let status : BitVec 4 := match st with | some c => if c == 0 then 0 else csPoison | none => csTimeout
  let g := s.seg sg
  let g := if status == 0 then cells.foldl (fun (g : Segment) (a, b) => g.put (gaSpace a) (gaOff a) [b]) g
    else g.freeBytes s.freeCtr (cells.map Prod.fst)
  let g := if st.isNone then g.raise s.tick { cls := 14, unit := 15, status := csTimeout } else g
  let g := if status == 0 then g else g.modHead grp fun h => { h with worst := worse h.worst status }
  let g := (g.modChk grp k.tree k.c fun k => { k with written := true }).progressed grp s.tick
  let g := g.releaseTo s.time x k.frm k.tree k.c
  let g := if h.large then g.stampChunk grp s.tick k.tree k.c else g
  let s := { s.setSeg sg (g.settleChk grp s.tick k.tree k.c) with freeCtr := if status == 0 then s.freeCtr else s.freeCtr + cells.length }
  s.smallEnd sg grp

/-- CHUNK_RESULT_WRITE (R217, R222): after the go a chunk's result is written to DST; a write that fails is the member's
local status, and the bytes are unspecified. -/
def execChunkResultWrite (sg : Fin 8) (grp : BitVec 12) (serial : BitVec 16) (st : DpmStatus) (bad : Option BadLine) (s : State) : Out :=
  onSeg sg s fun s =>
    match (s.seg sg).grp? grp with
    | none => s
    | some x =>
      match x.head with
      | none => s
      | some h =>
        match h.chk.find? fun k => k.c % 2 ^ 16 == serial.toNat && k.result.isSome && !k.written with
        | none => s
        | some k =>
          if x.st != .active || (h.large && !h.go) then s
          else
            match bad, k.frm with
            | some l, some r =>
              -- a line of the down buffer fails: the chunk is refused to its sender (Table 12.2)
              (s.crcFail sg l true).mod sg fun g =>
                ((g.bump F.CLV_NAK_COUNT_CRC_NAKS).modChk grp k.tree k.c fun k => { k with result := none }).sendReply s.time x 0x1B r x.serial k.tree k.c 0
            | _, _ => s.resultWritten sg grp x h k st

/-! ## Landing collective flits (R210 to R216) -/

/-- An ejected collective flit taken, by its place. -/
def Segment.takeAt (g : Segment) (i : Nat) : Option (Ejected × Segment) :=
  match g.rte.ejX[i]? with
  | some e => some (e, { g with rte := { g.rte with ejX := g.rte.ejX.eraseIdx i } })
  | none => none

/-- The first ejected collective flit of a KIND, taken. -/
def Segment.takeX (g : Segment) (kinds : List Nat) : Option (Flit × Segment) :=
  match g.rte.ejX.findIdx? fun e => kinds.contains e.flit.kind.toNat with
  | some i => (g.takeAt i).map fun x => (x.1.flit, x.2)
  | none => none

/-- The fields of a collective flit's LINE and TAG (R210). -/
def colGroup (f : Flit) : BitVec 12 := BitVec.ofNat 12 (f.line.toNat / 2 ^ 27)
def colSerial (f : Flit) : Nat := f.line.toNat / 2 ^ 11 % 2 ^ 16
def colFlitIdx (f : Flit) : Nat := f.line.toNat % 2 ^ 11
def colTree (f : Flit) : Nat := f.tag.toNat % 64

/-- A GROUP_ABORT that is a request to the root. -/
def isRequest (f : Flit) : Bool := f.kind == 0x1E && field f.payload 5 1 == 0

/-- Whether one of two abort requests of a cycle goes first: by AGE, then by ORIGIN (R228). -/
def Segment.requestBefore (g : Segment) (a b : Ejected) : Bool :=
  let ea := g.elapsed a.at_ a.flit
  let eb := g.elapsed b.at_ b.flit
  ea > eb || (ea == eb && field a.flit.payload 8 4 < field b.flit.payload 8 4)

/-- The first ejected GROUP_ABORT, taken; of the requests to one root that landed in its cycle, the first of R228. -/
def Segment.takeAbort (g : Segment) : Option (Flit × Segment) :=
  match g.rte.ejX.zipIdx.find? fun x => x.1.flit.kind == 0x1E with
  | none => none
  | some x =>
    let rivals := g.rte.ejX.zipIdx.filter fun y =>
      isRequest x.1.flit && isRequest y.1.flit && y.1.at_ == x.1.at_ && colGroup y.1.flit == colGroup x.1.flit
    let best := rivals.foldl (fun a y => if g.requestBefore y.1 a.1 then y else a) x
    (g.takeAt best.2).map fun y => (y.1.flit, y.2)

/-- Whether an abort decision for the operation of a flit landed in the same cycle (R235). -/
def Segment.decidedWith (g : Segment) (e : Ejected) : Bool :=
  g.rte.ejX.any fun a => a.at_ == e.at_ && a.flit.kind == 0x1E && !isRequest a.flit && colGroup a.flit == colGroup e.flit &&
    field a.flit.payload 0 4 % 256 == e.flit.tag.toNat / 256

/-- Where a serial stands against the group's: the head operation, the next one, more than one ahead, or past (R212). -/
inductive SerialAt where
  | current | next | ahead | past
  deriving DecidableEq, Repr

def Grp.serialAt (x : Grp) (s : BitVec 32) : SerialAt :=
  let d := (s - x.serial).toNat
  if d == 0 then (if x.head.isSome then .current else .past) else if d == 1 then .next else if d < 2 ^ 31 then .ahead else .past

/-- A group that takes collective flits (R214). -/
def Grp.takesFlits (x : Grp) : Bool := x.st == .ready || x.st == .active || x.st == .suspended || x.st == .aborting

/-- A stale flit, counted (R212). -/
def Segment.stale (g : Segment) : Segment := g.bump F.CLV_COUNT_STALE

/-- The chunk index that SERIAL names on a tree (R210): the one in the window from the lowest chunk not yet released. -/
def Grp.chunkOf (x : Grp) (serial : BitVec 32) (tree ser : Nat) : Option Nat :=
  if tree == singleTree then some 0
  else
    let base := match x.head with
      | some h => if serial == x.serial then
          ((List.range (h.chunks + 1)).map fun i => tree + i * max 1 x.k).find? (fun c => !h.doneList.contains c) |>.getD tree
        else tree
      | none => tree
    let d := (ser + 2 ^ 16 - base % 2 ^ 16) % 2 ^ 16
    if d ≥ 2 ^ 15 then none else some (base + d)

/-- A chunk's release, sent again for a chunk already released (R216). -/
def Segment.relAgain (g : Segment) (cycle : Nat) (x : Grp) (f : Flit) : Segment :=
  let p := f.payload
  match x.rankOf f.srcNode f.srcSeg with
  | some r => g.sendReply cycle x 0x1A r (BitVec.ofNat 32 (field p 0 4)) (colTree f) (field p 8 4) 0
  | none => g

/-- Whether the header of a chunk agrees with the format that its sender's place in the tree gives (R254). -/
def Grp.formatOk (x : Grp) (h : Head) (tree c frm : Nat) (down : Bool) (hd : List Byte) : Bool :=
  if down || !h.op.d.isRed || hdrStatus hd != 0 then true
  else
    let (lo, hi) := h.elems c
    let n := hi - lo
    let bytes := if h.op.d.wireF != 0 && (x.tree tree).leaves.contains frm then ceilDiv n 32 * blockSize h.op.d.wireF
      else n * h.op.d.carrySize
    field hd 16 4 == n && field hd 14 2 == ceilDiv bytes 128

/-- A buffer has all its flits: its chunk is checked, staged and used, or refused (R213). -/
def State.staged (s : State) (sg : Nat) (n : BitVec 12) (r : Rx) : State :=
  match (s.seg sg).grp? n with
  | none => s
  | some x =>
    let hd := r.hdr.getD []
    let mine := r.serial == x.serial && x.head.isSome
    let h? := if mine then x.head else none
    let crcGood := field hd 14 2 == 0 || crc32 r.data == BitVec.ofNat 32 (field hd 20 4)
    -- a fingerprint difference is judged before the format
    let fmtGood := match h? with
      | some h => BitVec.ofNat 32 (field hd 4 4) != h.op.fp || x.formatOk h r.tree r.c r.frm r.down hd
      | none => true
    let same (q : Rx) : Bool := q.serial == r.serial && q.tree == r.tree && q.c == r.c && q.down == r.down && q.frm == r.frm
    if !crcGood || !fmtGood then
      s.mod sg fun g => ((g.bump F.CLV_NAK_COUNT_CRC_NAKS).modGrp n fun x => { x with rx := x.rx.filter fun q => !same q }).sendReply
        s.time x 0x1B r.frm r.serial r.tree r.c 0
    else
      let s := s.mod sg fun g => (g.modGrp n fun x =>
        { x with rx := modWhere x.rx same fun q =>
            { q with order := if q.order == 0 then orderKey s.time ((x.tree r.tree).place r.frm) else q.order } }).progressed n s.tick
      match h? with
      | none => s
      | some h =>
        if r.down then
          let (lo, hi) := h.elems r.c
          let pres := presence h.op.d.op (x.ownerLens h lo hi) (field hd 16 4) lo hi s.freeCtr
          let s := { s with freeCtr := s.freeCtr + (hi - lo) }
          let s := s.mod sg fun g => g.modGrp n fun x => { x with rx := x.rx.filter fun q => !same q }
          let has : Bool := match h.chk? r.tree r.c with | some k => k.result.isSome | none => false
          if has then s
          else s.holdResult sg n r.tree r.c (some r.frm) (hdrStatus hd) (field hd 16 4) (field hd 24 8) (field hd 32 8) r.data pres
        else
          let s := s.mod sg fun g => g.markReady n s.time r.tree r.c
          if !h.large then s.smallTry sg n
          else if h.op.d.isRed then s
          else (s.mod sg fun g => g.releaseTo s.time x (some r.frm) r.tree r.c).gatherTry sg n r.tree r.c

/-- Whether a buffer's header has another fingerprint than the head operation. -/
def Rx.differs (r : Rx) (h : Head) : Bool :=
  match r.hdr with
  | some hd => BitVec.ofNat 32 (field hd 4 4) != h.op.fp
  | none => false

/-- Whether a buffer belongs to the sweep in which the head operation carries a mismatch upward: its launch round, the small path's one
chunk, or its campfire, vote or ride (R231). -/
def Head.sweeps (h : Head) (tree c : Nat) : Bool :=
  if h.op.code != 0x58 then c == kindChunk (campKind h.op.code)
  else if h.large then c == 0xFFFFFFFF
  else tree == singleTree && c == 0

/-- The buffers of the next operation, used once it is at the head: a fingerprint difference outside its own sweep is reported
(R212, R231), and what came down for another operation is dropped. -/
def State.replayRx (s : State) (sg : Nat) (n : BitVec 12) : State :=
  match (s.seg sg).grp? n with
  | none => s
  | some x =>
    match x.head with
    | none => s
    | some h =>
      let mine (r : Rx) : Bool := r.serial == x.serial
      if x.rx.any fun r => mine r && !r.down && r.differs h && !h.sweeps r.tree r.c then s.abortStart sg n csMismatch
      else
        let s := s.mod sg fun g => g.modGrp n fun x => { x with rx := x.rx.filter fun r => !(mine r && r.down && r.differs h) }
        let here := x.rx.filter fun r => mine r && r.order != 0 && r.hdr.isSome && r.c < 0xFFFFFFFE && !(r.down && r.differs h)
        here.foldl (fun (s : State) r => s.staged sg n r) s

/-- OPERATION_START (R198, R240): the next operation takes the next serial; a decision held for it is applied at once. -/
def execOperationStart (sg : Fin 8) (grp : BitVec 12) (s : State) : Out :=
  onSeg sg s fun s =>
    match (s.seg sg).grp? grp with
    | none => s
    | some x =>
      match x.queue with
      | [] => s
      | op :: _ =>
        if x.head.isSome || !(x.st == .ready || x.st == .active) then s
        else
          let s := s.mod sg fun g => g.modGrp grp fun x => { (x.startNext s.time) with st := .active }
          match x.future.find? fun f => f.1 == x.serial + 1 with
          | some f => s.abortApply sg grp f.2 false
          | none =>
            if op.code == 0x58 then
              if (x.newHead op s.time).large then (s.launchTry sg grp).replayRx sg grp
              else if op.launch != 0 then
                ((s.mod sg fun g => (g.ensureChk grp singleTree 0).modChk grp singleTree 0 fun k => { k with own := some [] }).replayRx sg grp).smallTry
                  sg grp
              else s.replayRx sg grp
            else (s.campTry sg grp).replayRx sg grp

/-- A suspended group's head operation goes on where it stood (R224): an end that reached it meanwhile, its launch round, its small
sweep, or its campfire, vote or ride. -/
def State.headGoOn (s : State) (sg : Nat) (n : BitVec 12) : State :=
  match ((s.seg sg).grp? n).bind Grp.head with
  | none => s
  | some h =>
    match h.ended with
    | some e => s.headEnd sg n e
    | none => (((s.launchTry sg n).smallTry sg n).smallEnd sg n).campTry sg n

/-- A header more than one serial ahead is reported to the root (R212, R231): it aborts the head operation, or where none is at the head
the next one, for which the decision is then held (R240). -/
def State.reportAhead (s : State) (sg : Nat) (n : BitVec 12) : State :=
  match (s.seg sg).grp? n with
  | none => s
  | some x =>
    let serial := x.serial + 1
    if x.head.isSome then s.abortStart sg n csMismatch
    else if x.future.any (fun f => f.1 == serial) || x.sent.any (fun q => q.kind == 0x1E && q.serial == serial) then s
    else if x.single.root == x.rank then
      (s.abortForward sg x serial csMismatch).mod sg fun g => g.modGrp n fun x => { x with future := (serial, csMismatch) :: x.future }
    else
      s.collSend sg n { dst := x.single.root, kind := 0x1E, serial := serial, tree := singleTree, c := kindChunk 0x1E,
                        flits := [(0, abortPayload serial csMismatch 0 x.rank)], last := s.tick }

/-- A flit put into its buffer (R210, R216); the chunk is staged when it is whole. -/
def State.rxPut (s : State) (sg : Nat) (n : BitVec 12) (serial : BitVec 32) (tree c : Nat) (down : Bool) (frm idx : Nat)
    (p : List Byte) : State :=
  match (s.seg sg).grp? n with
  | none => s
  | some x =>
    let r := (x.rx? serial tree c down frm).getD { serial := serial, tree := tree, c := c, down := down, frm := frm }
    let r := if idx == 0x7FF then { r with hdr := some p } else { r with flits := insertKey idx p r.flits }
    let same (q : Rx) : Bool := q.serial == serial && q.tree == tree && q.c == c && q.down == down && q.frm == frm
    let s := s.mod sg fun g => (g.modGrp n fun x => { x with rx := (x.rx.filter fun q => !same q) ++ [r] }).progressed n s.tick
    if r.complete then s.staged sg n r else s

/-- An up header of a round (R216, R217): a repeat of one already answered is answered again. -/
def State.roundUp (s : State) (sg : Nat) (n : BitVec 12) (x : Grp) (serial : BitVec 32) (kind c frm : Nat) (p : List Byte) : State :=
  let again := x.answers.find? fun q => q.serial == serial && q.kind == kind && q.c == c && q.dst == frm
  match again with
  | some q => if s.memberReach sg (x.word q.dst) then s.mod sg fun g => g.sendRaw s.time x q else s.abortStart sg n csNodeDown
  | none =>
    match x.serialAt serial with
    | .past => s.mod sg Segment.stale
    | .ahead => s.reportAhead sg n
    | _ =>
      if (x.rx? serial singleTree c false frm).isSome then s
      else
        let r : Rx := { serial := serial, tree := singleTree, c := c, down := false, frm := frm, hdr := some p,
                        order := orderKey s.time (x.single.place frm) }
        s.mod sg fun g => (g.modGrp n fun x => { x with rx := x.rx ++ [r] }).progressed n s.tick

/-- Whether a member has released a chunk of the head operation that comes up, or down (R216). -/
def Head.isOver (h : Head) (tree c : Nat) (down : Bool) : Bool :=
  h.doneList.contains c || (match h.chk? tree c with
    | some k => if down then k.result.isSome && k.written else k.formed || k.stepEnd.isSome || k.again
    | none => false)

/-- CHUNK_UP and CHUNK_DOWN (R210 to R216). -/
def State.landChunk (s : State) (sg : Nat) (f : Flit) (down : Bool) : State :=
  let n := colGroup f
  let p := f.payload
  let idx := colFlitIdx f
  let tree := colTree f
  let g := s.seg sg
  let isHdr := idx == 0x7FF
  match (g.grp? n).filter Grp.takesFlits with
  | none =>
    if isHdr then
      let nak := mkFlit f.srcNode f.srcSeg g.node g.segId 0x1B f.ctx f.tag f.line
        (natBytes (field p 0 4) 4 ++ natBytes (field p 8 4) 4 ++ natBytes (field p 12 1) 1 ++ natBytes 1 1)
      s.setSeg sg ((g.bump F.CLV_NAK_COUNT_NOT_READY_NAKS).injectX s.time [{ nak with line := BitVec.ofNat 39 (f.line.toNat / 2 ^ 11 * 2 ^ 11) }])
    else s
  | some x =>
    match x.rankOf f.srcNode f.srcSeg with
    | none => s.setSeg sg g.stale
    | some frm =>
      if tree != singleTree && tree ≥ x.k then s.setSeg sg g.stale
      else if isHdr then
        let serial := BitVec.ofNat 32 (field p 0 4)
        let c := field p 8 4
        let fpOk := match x.head with | some h => BitVec.ofNat 32 (field p 4 4) == h.op.fp | none => true
        if c == 0xFFFFFFFF || c == 0xFFFFFFFE then
          if !down then
            let s := s.roundUp sg n x serial 0x19 c frm p
            -- a round of a large operation where the head is none differs from it (R231)
            let other : Bool := match x.head with | some h => !h.large && x.serialAt serial == .current && !fpOk | none => false
            if other then s.abortStart sg n csMismatch else if c == 0xFFFFFFFF then s.launchTry sg n else s
          else if x.serialAt serial != .current || !fpOk then s.setSeg sg g.stale
          else if c == 0xFFFFFFFF then (match x.head with | some h => if h.go then s else s.goTake sg n | none => s)
          else s.closeTake sg n (hdrStatus p) (field p 24 8) (field p 32 8)
        else
          match x.serialAt serial with
          | .past => s.setSeg sg (g.stale.relAgain s.time x f)
          | .ahead => s.reportAhead sg n
          | .next => s.rxPut sg n serial tree c down frm idx p
          | .current =>
            match x.head with
            | none => s
            | some h =>
              if h.isOver tree c down then s.setSeg sg (g.stale.relAgain s.time x f)
              else if !fpOk && (down || h.go) then s.setSeg sg g.stale
              else if !fpOk && !h.sweeps tree c then s.abortStart sg n csMismatch
              else if c ≥ max 1 h.chunks then s.setSeg sg g.stale
              else s.rxPut sg n serial tree c down frm idx p
      else
        let t := f.tag.toNat / 256
        let serial? : Option (BitVec 32) :=
          if x.head.isSome && t == x.serial.toNat % 256 then some x.serial
          else if t == (x.serial + 1).toNat % 256 then some (x.serial + 1) else none
        match serial? with
        | none => s.setSeg sg g.stale
        | some serial =>
          match x.chunkOf serial tree (colSerial f) with
          | none => s.setSeg sg g.stale
          | some c =>
            let isOver := match x.head with
              | some h => serial == x.serial && h.isOver tree c down
              | none => false
            if isOver then s.setSeg sg g.stale else s.rxPut sg n serial tree c down frm idx p

/-- CHUNK_UP (R212): a flit going toward a root lands. -/
def execChunkUp (sg : Fin 8) (s : State) : Out :=
  onSeg sg s fun s => match (s.seg sg).takeX [0x18] with
    | some (f, g) => (s.setSeg sg g).landChunk sg f false
    | none => s

/-- CHUNK_DOWN (R212): a flit going toward the leaves lands. An abort decision of the same cycle comes first (R235). -/
def execChunkDown (sg : Fin 8) (s : State) : Out :=
  onSeg sg s fun s => match (s.seg sg).rte.ejX.findIdx? fun e => e.flit.kind == 0x19 with
    | some i =>
      (match (s.seg sg).takeAt i with
       | some (e, g) => if g.decidedWith e then s.setSeg sg g.stale else (s.setSeg sg g).landChunk sg e.flit true
       | none => s)
    | none => s

/-- What a release or refusal names: the sender's rank, serial, tree and chunk. -/
def Grp.answerOf (x : Grp) (f : Flit) : Option (Nat × BitVec 32 × Nat × Nat) :=
  (x.rankOf f.srcNode f.srcSeg).map fun r =>
    (r, BitVec.ofNat 32 (field f.payload 0 4), field f.payload 8 1 % 64, field f.payload 4 4)

/-- Whether something held is the chunk a neighbour answers. -/
def Held.answers (q : Held) (a : Nat × BitVec 32 × Nat × Nat) : Bool :=
  q.dst == a.1 && q.serial == a.2.1 && q.tree == a.2.2.1 && q.c == a.2.2.2 && (q.kind == 0x18 || q.kind == 0x19)

/-- CHUNK_REL (R209, R213): a released buffer is free. -/
def execChunkRel (sg : Fin 8) (s : State) : Out :=
  onSeg sg s fun s => match (s.seg sg).takeX [0x1A] with
    | none => s
    | some (f, g) =>
      let n := colGroup f
      match (g.grp? n).filter Grp.takesFlits with
      | none => s.setSeg sg g
      | some x =>
        match x.answerOf f with
        | none => s.setSeg sg g.stale
        | some a =>
          if x.sent.any fun q => q.answers a then
            let g := (g.modGrp n fun x => { x with sent := x.sent.filter fun q => !q.answers a }).progressed n s.tick
            s.setSeg sg (g.settleChk n s.tick a.2.2.1 a.2.2.2)
          else s.setSeg sg g.stale

/-- What is held goes out once more, if its neighbour can be reached (R216). -/
def State.repeatHeld (s : State) (sg : Nat) (n : BitVec 12) (q : Held) (q' : Held) : State :=
  match (s.seg sg).grp? n with
  | none => s
  | some x =>
    if s.memberReach sg (x.word q.dst) then
      s.mod sg fun g => (g.modGrp n fun x =>
        { x with sent := modWhere x.sent (fun y => y.dst == q.dst && y.kind == q.kind && y.serial == q.serial && y.tree == q.tree && y.c == q.c) fun _ => q' }).sendRaw s.time x q'
    else
      (s.mod sg fun g => g.modGrp n fun x => { x with sent := x.sent.filter fun y => y.dst != q.dst }).abortStart sg n csNodeDown

/-- CHUNK_NAK (R213, R214, R241): a CRC refusal sends the chunk again, or after three in succession aborts; a NOT_READY
refusal has it repeated later, unless its operation has been decided. -/
def execChunkNak (sg : Fin 8) (s : State) : Out :=
  onSeg sg s fun s => match (s.seg sg).takeX [0x1B] with
    | none => s
    | some (f, g) =>
      let n := colGroup f
      let s := s.setSeg sg g
      match (g.grp? n).filter Grp.takesFlits with
      | none => s
      | some x =>
        match x.answerOf f with
        | none => s.setSeg sg g.stale
        | some a =>
          match x.sent.find? fun q => q.answers a || (q.dst == a.1 && q.serial == a.2.1 && q.c == a.2.2.2) with
          | none => s
          | some q =>
            let same (y : Held) : Bool := y.dst == q.dst && y.kind == q.kind && y.serial == q.serial && y.tree == q.tree && y.c == q.c
            if field f.payload 9 1 == 0 then
              if q.naks + 1 ≥ 3 then s.abortStart sg n csPoison
              else s.repeatHeld sg n q { q with naks := q.naks + 1, last := s.tick, nrAt := none }
            else if x.held.isSome && q.serial == x.serial then
              s.mod sg fun g => g.modGrp n fun x => { x with sent := x.sent.filter fun y => !same y }
            else
              s.mod sg fun g => g.modGrp n fun x => { x with sent := modWhere x.sent same fun y =>
                { y with nrAt := some s.tick, nrs := y.nrs + 1, naks := 0 } }

/-- NOT_READY_REPEAT (R214): 64 × 2^k ticks after a refusal, k the earlier ones, capped at 10. -/
def execNotReadyRepeat (sg : Fin 8) (grp : BitVec 12) (s : State) : Out :=
  onSeg sg s fun s =>
    match (s.seg sg).grp? grp with
    | none => s
    | some x =>
      x.sent.foldl (fun (s : State) q =>
        match q.nrAt with
        | some t => if s.tick ≥ t + 64 * 2 ^ min 10 (q.nrs - 1) then s.repeatHeld sg grp q { q with nrAt := none, last := s.tick } else s
        | none => s) s

/-- COLLECTIVE_REPEAT (R216): 5,000 × 2^k ticks after the last sending, k the earlier repeats, capped at 7. -/
def execCollectiveRepeat (sg : Fin 8) (grp : BitVec 12) (tree : Fin 64) (s : State) : Out :=
  onSeg sg s fun s =>
    match (s.seg sg).grp? grp with
    | none => s
    | some x =>
      x.sent.foldl (fun (s : State) q =>
        if q.tree == tree.val && q.nrAt.isNone && s.tick ≥ q.last + 5000 * 2 ^ min 7 q.reps then
          s.repeatHeld sg grp q { q with reps := q.reps + 1, last := s.tick }
        else s) s

/-- CAMP_FLIT and VOTE_FLIT (R266, R267). -/
def State.landCamp (s : State) (sg : Nat) (f : Flit) : State :=
  let n := colGroup f
  let p := f.payload
  let g := s.seg sg
  let kind := f.kind.toNat
  match (g.grp? n).filter Grp.takesFlits with
  | none => s
  | some x =>
    match x.rankOf f.srcNode f.srcSeg with
    | none => s.setSeg sg g.stale
    | some frm =>
      let serial := BitVec.ofNat 32 (field p 0 4)
      if field p 8 1 == 0 then
        let s := s.roundUp sg n x serial kind (kindChunk kind) frm p
        -- a flit of another kind than the head operation's is a fingerprint difference (R231)
        match x.head with
        | some h =>
          if serial == x.serial && BitVec.ofNat 32 (field p 4 4) != h.op.fp && (h.op.code == 0x58 || campKind h.op.code != kind) then
            s.abortStart sg n csMismatch
          else s.campTry sg n
        | none => s
      else if x.serialAt serial != .current then s.setSeg sg g.stale
      else
        match x.head with
        | some h =>
          if BitVec.ofNat 32 (field p 4 4) != h.op.fp then s.setSeg sg g.stale
          else s.campTake sg n (BitVec.ofNat 4 (field p 9 1)) (field p 12 4) (BitVec.ofNat 64 (field p 16 8))
        | none => s

/-- CAMP_FLIT (R267). -/
def execCampFlit (sg : Fin 8) (s : State) : Out :=
  onSeg sg s fun s => match (s.seg sg).takeX [0x1C] with
    | some (f, g) => (s.setSeg sg g).landCamp sg f
    | none => s

/-- VOTE_FLIT (R267). -/
def execVoteFlit (sg : Fin 8) (s : State) : Out :=
  onSeg sg s fun s => match (s.seg sg).takeX [0x1D] with
    | some (f, g) => (s.setSeg sg g).landCamp sg f
    | none => s

/-- A decision for an operation the member has not issued is held (R240). -/
def Segment.futureDecision (g : Segment) (n : BitVec 12) (serial : BitVec 32) (st : BitVec 4) : Segment :=
  g.modGrp n fun x => { x with future := if x.future.any fun f => f.1 == serial then x.future else (serial, st) :: x.future }

/-- GROUP_ABORT (R228, R238, R240): a request at the root is decided; a decision is passed on and applied. -/
def execGroupAbort (sg : Fin 8) (s : State) : Out :=
  onSeg sg s fun s => match (s.seg sg).takeAbort with
    | none => s
    | some (f, g) =>
      let s := s.setSeg sg g
      let n := colGroup f
      let p := f.payload
      match (g.grp? n).filter Grp.takesFlits with
      | none => s
      | some x =>
        let serial := BitVec.ofNat 32 (field p 0 4)
        let st := BitVec.ofNat 4 (field p 4 1)
        if field p 5 1 == 0 && x.single.root != x.rank then s
        else
          match x.serialAt serial with
          | .past => s
          | .current =>
            -- an operation already decided is not decided again (R228, R238)
            if x.held.isSome then s
            else
              let s := s.mod sg fun g => g.modGrp n fun x => { x with sent := x.sent.filter fun q => q.kind != 0x1E }
              (s.abortForward sg x serial st).abortTake sg n st
          | _ =>
            let s := if x.future.any fun f => f.1 == serial then s else s.abortForward sg x serial st
            s.mod sg fun g => (g.futureDecision n serial st).modGrp n fun x =>
              { x with sent := x.sent.filter fun q => !(q.kind == 0x1E && q.serial == serial) }

/-! ## Timers of a group (R223, R226, R229) -/

/-- GROUP_CQ_FULL_TIMEOUT (R223): a ring full for 1 ms raises one record an episode; so does the ring that a closed group has left. -/
def execGroupCqFullTimeout (sg : Fin 8) (grp : BitVec 12) (s : State) : Out :=
  onSeg sg s fun s =>
    let g := s.seg sg
    let fault : FaultArgs := { cls := 19, unit := 8, ctx := (g.grp? grp).map Grp.ctx, info := grp.zeroExtend 32 }
    if (g.grp? grp).any fun x => x.ring.overdue s.tick then
      s.setSeg sg ((g.modGrp grp fun x => { x with ring := { x.ring with fullFault := true } }).raise s.tick fault)
    else
      match g.leftRings.findIdx? fun y => y.1 == grp && y.2.overdue s.tick with
      | some i =>
        let l := modAt g.leftRings i fun y => (y.1, { y.2 with fullFault := true })
        s.setSeg sg ({ g with leftRings := l }.raise s.tick { fault with ctx := none })
      | none => s

/-- STRAGGLER_EVENT (R226). -/
def execStragglerEvent (sg : Fin 8) (grp : BitVec 12) (s : State) : Out :=
  onSeg sg s fun s =>
    let g := s.seg sg
    match g.grp? grp with
    | none => s
    | some x =>
      match x.head with
      | none => s
      | some h =>
        let lim := g.fld F.CLV_TIMERS_STRAGGLER
        -- progress in the tick of the limit counts (R236)
        if x.st == .suspended || h.straggled || lim == 0 || !s.lapsed (h.progress + lim) then s
        else
          let g := (g.bump F.CLV_COUNT_STRAGGLERS).modHead grp fun h => { h with straggled := true }
          s.setSeg sg (g.grpEvent grp s.tick 2 0 x.awaited)

/-- HARD_TIMEOUT (R226). -/
def execHardTimeout (sg : Fin 8) (grp : BitVec 12) (s : State) : Out :=
  onSeg sg s fun s =>
    let g := s.seg sg
    match g.grp? grp with
    | none => s
    | some x =>
      match x.head with
      | none => s
      | some h =>
        let lim := if g.fld F.CLV_TIMERS_HARD == 0 then 4294967295 else g.fld F.CLV_TIMERS_HARD
        if x.st == .active && s.lapsed (h.progress + lim) then s.abortStart sg grp csTimeout else s

/-- ABORT_DECISION_TIMEOUT (R193, R194, R229): no decision within 1 s of the request. -/
def execAbortDecisionTimeout (sg : Fin 8) (grp : BitVec 12) (s : State) : Out :=
  onSeg sg s fun s =>
    match (s.seg sg).grp? grp with
    | none => s
    | some x =>
      match x.abortAt with
      | some t => if x.st == .aborting && s.tick ≥ t + 50000000 then s.groupFail sg grp csTimeout else s
      | none => s

/-- STILE_RELEASE (R448, R450): the oldest held completion of a group is released at its tick; a completion that waits
for an entry takes the one freed. -/
def execStileRelease (sg : Fin 8) (grp : BitVec 12) (s : State) : Out :=
  onSeg sg s fun s =>
    let g := s.seg sg
    match g.stile.findIdx? fun f => f.grp == grp with
    | none => s
    | some i =>
      match g.stile[i]? with
      | none => s
      | some f =>
        if !f.hasEntry || s.tick < f.at_ then s
        else
          let rest := g.stile.eraseIdx i
          let rest := match rest.findIdx? fun y => !y.hasEntry with
            | some j => modAt rest j fun y => { y with hasEntry := true, at_ := max y.at_ s.tick }
            | none => rest
          s.setSeg sg (({ g with stile := rest }.opRelease s.tick f).wake)

end Sys2Proof.Machine
end

