-- ==== Sys2Proof/Machine/Atomics.lean ====
section
/-! DEFINITION. The operations of ATOM and ATOMF (R73 to R77). -/

namespace Sys2Proof.Machine

open Sys2Proof

/-- The bytes of a WIDTH of Table 2.9; 0 for a reserved one. -/
def atomWidth (w : Nat) : Nat := if w == 1 then 4 else if w == 2 then 8 else if w == 3 then 16 else 0

/-- The signed value of a little-endian number of `n` bytes. -/
def signedOf (n v : Nat) : Int := if v ≥ 2 ^ (8 * n - 1) then (v : Int) - 2 ^ (8 * n) else v

/-- The new value of Table 2.10 for an operation of `n` bytes. -/
def atomNew (op n old a b : Nat) : Nat :=
  if op == 0 then old
  else if op == 1 || op == 2 then a
  else if op == 3 then (if old == b then a else old)
  else if op == 4 then (old + a) % 2 ^ (8 * n)
  else if op == 5 then Nat.land old a
  else if op == 6 then Nat.lor old a
  else if op == 7 then Nat.xor old a
  else if op == 8 then (if signedOf n old ≤ signedOf n a then old else a)
  else if op == 9 then (if signedOf n old ≤ signedOf n a then a else old)
  else if op == 10 then min old a
  else if op == 11 then max old a
  else if old ≥ a then 0 else old + 1

/-- The format of an ATOMF (Table 2.9). -/
def atomFmt (n : Nat) : Option FFmt := if n == 0 then some .b32 else if n == 1 then some .b16 else if n == 2 then some .bf16 else none

/-- The new element of Table 2.11. -/
def atomfNew (f : FFmt) (op old a : Nat) : Nat := if op == 0 then f.add old a else if op == 1 then f.min old a else f.max old a

end Sys2Proof.Machine

namespace Sys2Proof

def Flit.op (f : Flit) : Nat := Machine.field f.payload 0 1
def Flit.width (f : Flit) : Nat := Machine.field f.payload 1 1
def Flit.flags (f : Flit) : Nat := Machine.field f.payload 2 1
def Flit.format (f : Flit) : Nat := Machine.field f.payload 3 1
def Flit.offset (f : Flit) : Nat := Machine.field f.payload 4 2

/-- An atomic that R77 refuses. An operand that passes the end of the line, and a VEC operation at an OFFSET other than 0 or 64, stand
in none of its cases: they are refused too, DESIGN CHOICE (log 61). -/
def Flit.badAtomic (f : Flit) : Bool :=
  let vec := f.flags / 2 % 2 == 1
  if f.kind == 3 then
    let n := Machine.atomWidth f.width
    f.op > 12 || n == 0 || (n == 16 && f.op > 3) || f.offset % n != 0 || f.offset + n > 128 || vec
  else
    match Machine.atomFmt f.format with
    | none => true
    | some t =>
      f.op > 2 || (vec && f.flags % 2 == 1) || (if vec then f.offset != 0 && f.offset != 64 else f.offset % (t.width / 8) != 0 || f.offset ≥ 128)

/-- Whether an atomic is answered by ATOM_DATA (R74, R75). -/
def Flit.fetches (f : Flit) : Bool := f.flags % 2 == 1 || (f.kind == 3 && f.op == 0)

end Sys2Proof

namespace Sys2Proof.Machine

open Sys2Proof

/-- What an atomic does to the line it names: the old operand, the new one, and whether some element stored is not
finite (R75). -/
structure AtomOut where
  old : List Byte
  new : List Byte
  spoiled : Bool
  deriving DecidableEq, Repr

/-- An atomic applied to a line (R74, R75). -/
def applyAtomic (f : Flit) (line : List Byte) : AtomOut :=
  if f.kind == 3 then
    let n := atomWidth f.width
    let old := (line.drop f.offset).take n
    { old := old, new := natBytes (atomNew f.op n (bytesNat old) (field f.payload 16 n) (field f.payload 32 n)) n, spoiled := false }
  else
    let t := (atomFmt f.format).getD .b32
    let k := t.width / 8
    let n := if f.flags / 2 % 2 == 1 then 64 else k
    let old := (line.drop f.offset).take n
    let news := (List.range (n / k)).map fun i => atomfNew t f.op (field old (i * k) k) (field f.payload (16 + i * k) k)
    { old := old, new := news.flatMap fun v => natBytes v k, spoiled := news.any fun v => !(t.decode v).isFinite }

end Sys2Proof.Machine
end

