-- ==== Sys2Proof/Machine/Home.lean ====
section
/-! DEFINITION. The home of transactions (R46, R64, R73 to R81, R293 to R297, R315 to R321): the checks a queued request
meets, and its execution. -/

namespace Sys2Proof.Machine

open Sys2Proof

/-! ## Where a line lies -/

/-- Where the first line of a request lies on the segment that holds it in its queue: in its own memory, in a frame under
a guard word, in a window region that is not declared, or on another segment. -/
inductive HomeAt where
  | mem (space off : Nat)
  | frame (off : Nat) (guard : BitVec 32)
  | undeclared
  | away
  deriving DecidableEq, Repr

/-- The HBM offset of a pool frame (R314). -/
def Segment.frameOff (g : Segment) (fr : Nat) : Nat := (g.fld F.PLC_POOL_BASE + fr) * regionSize

/-- The homing entry of a fabric-homed line (R318). -/
def Segment.homingOf (g : Segment) (f : Flit) : Option Homing :=
  (g.plc.homing.find? fun h => h.1 / 4096 == f.dstSeg.toNat && h.2.region == f.index * 128 / regionSize).map Prod.snd

def Segment.homeAt (g : Segment) (f : Flit) : HomeAt :=
  let off := f.index * 128
  let own := f.dstSeg == g.segId
  if f.space == 0 then
    match g.homingOf f with
    | some h => if h.holder == g.segId.toNat then .frame (g.frameOff h.frame + off % regionSize) h.guard else .away
    | none =>
      if own then (if g.inWindow off then .undeclared else .mem 0 off)
      else
        match g.replicaFor f with
        | some r => .frame (g.frameOff r.frame + off % regionSize) r.guard
        | none => .away
  else if own then .mem f.space off else .away

/-- Space and byte offset of line `i` of a request. -/
def HomeAt.place (a : HomeAt) (i : Nat) : Nat × Nat :=
  match a with
  | .mem sp off => (sp, off + 128 * i)
  | .frame off _ => (0, off + 128 * i)
  | _ => (3, 0)

/-- The lines a queued request names. -/
def homeLen (f : Flit) : Nat := if f.kind == 0 || f.kind == 5 then f.lenM1 + 1 else 1

/-- The lines of its destination home a request touches, as numbers (R64). -/
def homeLines (f : Flit) : List Nat :=
  (List.range (homeLen f)).map fun i => (f.dstSeg.toNat * 4 + f.space) * 2 ^ 37 + f.index + i

/-! ## Order (R64) -/

/-- Whether a queued request comes before another: the cycle of ejection, then R9 with the age, the key of source and
tag, and the pointer over the ejection slots. -/
def Segment.homeBefore (g : Segment) (a b : HomeReq) : Bool :=
  let key (f : Flit) : Nat := (f.srcNode.toNat * 8 + f.srcSeg.toNat) * 65536 + f.tag.toNat
  if a.cycle ≠ b.cycle then a.cycle < b.cycle
  else
    let ea := g.elapsed a.cycle a.flit
    let eb := g.elapsed a.cycle b.flit
    if ea ≠ eb then ea > eb
    else if key a.flit ≠ key b.flit then key a.flit < key b.flit
    else (a.slot + 6 - a.cycle % 6) % 6 < (b.slot + 6 - b.cycle % 6) % 6

/-- Accesses of the home, as apart from a courier's own (R79). -/
def DpmUse.isHome : DpmUse → Bool
  | .req _ _ => false
  | .contrib _ _ _ => false
  | _ => true


/-- Whether a line of the home has an access outstanding; write-backs of atomics apart when `atom`. -/
def Segment.lineBusy (g : Segment) (p : Nat × Nat) (atom : Bool) : Bool :=
  g.txn.dpm.any fun d => d.use.isHome && d.space.toNat == p.1 && d.addr == p.2 && !(atom && d.use.isBack)

/-- The cached line of a place. -/
def Segment.atomAt (g : Segment) (p : Nat × Nat) : Option AtomLine :=
  g.txn.atoms.find? fun x => x.space == p.1 && x.addr == p.2

/-- Whether a queued request must wait for an earlier one to one of its lines, or for an access to one (R64, R76). -/
def Segment.homeBlocked (g : Segment) (idx : Nat) : Bool :=
  match g.txn.homeQ[idx]? with
  | none => true
  | some q =>
    let mine := homeLines q.flit
    let isAtom := q.flit.kind == 3 || q.flit.kind == 4
    let a := g.homeAt q.flit
    (g.txn.homeQ.zipIdx.any fun (e, j) => j != idx && (g.homeBefore e q || (!g.homeBefore q e && j < idx)) &&
      (homeLines e.flit).any fun l => mine.contains l) ||
    (List.range (homeLen q.flit)).any fun i => g.lineBusy (a.place i) (isAtom && (g.atomAt (a.place i)).any fun x => x.data.isSome)

/-! ## Checks (R46, R53, R67, R77, R78, R293 to R297) -/

/-- A request whose form is refused whatever the line: space 11, a form not allowed in control space, a burst that
breaks R53, a mask R67 refuses, an atomic R77 refuses. -/
def badForm (f : Flit) : Bool :=
  let k := f.kind.toNat
  let n := f.lenM1 + 1
  if f.space == 3 then true
  else if k == 3 then f.badAtomic || (f.space == 2 && (f.op > 1 || f.width == 3))
  else if f.space == 2 then true
  else if k == 4 then f.badAtomic
  else if k == 0 then n > 16 || f.index % 512 + n > 512
  else if k == 5 then
    let d := field f.payload 0 8
    n > 16 || f.index % 512 + n > 512 || d % 128 != 0 || d / 128 % 512 + n > 512
  else if k == 2 then
    let m := maskCount (unpackWrm f.payload).1
    m == 0 || m > 112
  else false

/-- The check of a queued request where its line lies. -/
def Segment.verdict (g : Segment) (f : Flit) (a : HomeAt) : Verdict :=
  match a with
  | .undeclared => .refuse csUnmapped false
  | .away => .pass
  | .frame _ w => g.judgeGuard w f.ctx (reqRole f)
  | .mem sp off => g.judgeMem f.ctx (reqRole f) sp off (128 * homeLen f)

/-- The guard word used becomes the most recently used. -/
def Segment.touchGuard (g : Segment) (a : HomeAt) : Segment :=
  match a with
  | .mem sp off => g.touchGuardAt sp off
  | _ => g

/-! ## Replies -/

/-- The requester of line `i` of a request. -/
def lineTo (f : Flit) (i : Nat) : ReplyTo := { f.replyTo with tag := f.tag + BitVec.ofNat 16 i }

/-- The KIND of a request's replies (Table 2.4). -/
def replyKind (f : Flit) : Nat := if f.kind == 0 then 8 else if (f.kind == 3 || f.kind == 4) && f.fetches then 9 else 10

/-- A flit of a burst queued at L. -/
def Segment.injectPart (g : Segment) (cycle burst : Nat) (f : Flit) (staged : Bool) : Segment :=
  { g with rte := { g.rte with injL := g.rte.injL ++ [{ flit := f, at_ := cycle, burst := burst, staged := staged }] } }

/-- A new burst number. -/
def Segment.newBurst (g : Segment) : Segment × Nat := ({ g with rte := { g.rte with nextBurst := g.rte.nextBurst + 1 } }, g.rte.nextBurst)

/-- A request leaves the queue. -/
def Segment.dequeue (g : Segment) (idx : Nat) : Segment := { g with txn := { g.txn with homeQ := g.txn.homeQ.eraseIdx idx } }

/-- Lines of the forward staging released (R80). -/
def Segment.fwdFree (g : Segment) (n : Nat) : Segment := { g with txn := { g.txn with fwdUsed := g.txn.fwdUsed - n } }

/-- The staging of a copy that ends without being staged. -/
def Segment.fwdFreeAll (g : Segment) (f : Flit) : Segment := if f.kind == 5 then g.fwdFree (f.lenM1 % 16 + 1) else g

/-- Every tag of a request completes with a status and nothing moves. -/
def Segment.homeRefuse (g : Segment) (cycle : Nat) (f : Flit) (st : BitVec 4) : Segment :=
  (g.fwdFreeAll f).injectBurstL cycle ((List.range (homeLen f)).map fun i => mkReply (lineTo f i) (replyKind f) st [])

/-- A request refused by the context check (R82, R294). -/
def Segment.ctxDenied (g : Segment) (tick : Nat) (f : Flit) : Segment := g.ctxDeny tick f.ctx f.srcNode f.ga f.tag.toNat

/-- The move in progress of a request's region (R321). -/
def Segment.moveOf (g : Segment) (f : Flit) : Option Move :=
  if f.space == 0 then g.plc.moves.find? fun m => m.win == f.dstSeg.toNat && m.region == f.index * 128 / regionSize else none

/-- Whether a move holds a writer or updater (R321 step 3). -/
def Segment.moveHolds (g : Segment) (f : Flit) : Bool := reqRole f != .reader && (g.moveOf f).any Move.hold

/-- Whether the pass under way reads a block after a cycle: its bit is still set, and the read clears it (R321 step 2). -/
def Move.unread (m : Move) (cycle b : Nat) : Bool :=
  match m.copying.findIdx? fun y => y == b with
  | some i => cycle < m.start + 32 * i
  | none => false

/-- A write or atomic executed in a region that moves marks its 4 KiB block (R321 steps 1 and 2). -/
def Segment.markDirty (g : Segment) (cycle : Nat) (f : Flit) : Segment :=
  match g.moveOf f with
  | none => g
  | some m =>
    let b := f.index * 128 % regionSize / 4096
    { g with plc := { g.plc with moves := modWhere g.plc.moves (fun x => x == m) fun x =>
        { x with dirty := if x.dirty.contains b || x.unread cycle b then x.dirty else x.dirty ++ [b] } } }

/-- A queued request of some kinds, when it is its turn: refused, passed on, left waiting for a guard word or a move, or
executed by `act`, which takes it from the queue. -/
def State.homeRun (s : State) (sg idx : Nat) (kinds : List Nat) (act : State → Flit → HomeAt → State) : State :=
  let g := s.seg sg
  match g.txn.homeQ[idx]? with
  | none => s
  | some q =>
    let f := q.flit
    let here := g.homeAt f
    if !kinds.contains f.kind.toNat || (f.kind == 3 && f.space == 2) || g.homeBlocked idx then s
    else if f.dstSeg.toNat > g.straps.dieCount.toNat then
      -- no such segment (R4)
      s.setSeg sg (((g.dequeue idx).fwdFreeAll f).dropFlit s.time f csDenied false)
    else if badForm f then s.setSeg sg ((g.dequeue idx).homeRefuse s.time f csDenied)
    else if here == .away then s.setSeg sg (((g.dequeue idx).fwdFreeAll f).forwardL s.time f)
    else if g.moveHolds f then
      s.setSeg sg { g with txn := { g.txn with homeQ := modAt g.txn.homeQ idx fun x => { x with held := true } } }
    else
      match g.verdict f here with
      | .refuse st byCtx =>
        let g := if byCtx then g.ctxDenied s.tick f else g
        s.setSeg sg ((g.dequeue idx).homeRefuse s.time f st)
      | .fill _ => s
      | .pass => act (s.setSeg sg (g.touchGuard here)) f here

/-- A cached line leaves the atomic line cache (R76). -/
def Segment.dropAtom (g : Segment) (p : Nat × Nat) : Segment :=
  { g with txn := { g.txn with atoms := g.txn.atoms.filter fun x => !(x.space == p.1 && x.addr == p.2) } }

/-- A line of the atomic line cache changed. -/
def Segment.modAtom (g : Segment) (p : Nat × Nat) (h : AtomLine → AtomLine) : Segment :=
  { g with txn := { g.txn with atoms := modWhere g.txn.atoms (fun y => y.space == p.1 && y.addr == p.2) h } }

/-- The first queued atomic of a line. -/
def Segment.firstAtomic (g : Segment) (p : Nat × Nat) : Option (HomeReq × Nat) :=
  let here := g.txn.homeQ.zipIdx.filter fun (q, _) =>
    (q.flit.kind == 3 || q.flit.kind == 4) && q.flit.space != 2 && (g.homeAt q.flit).place 0 == p
  here.foldl (fun m x =>
    match m with
    | none => some x
    | some y => if g.homeBefore x.1 y.1 then some x else some y) none

/-- A line with the bytes of a mask replaced. -/
def maskLine (mask : List Bool) (new old : List Byte) : List Byte :=
  (List.range 128).map fun i => if mask.getD i false then new.getD i 0 else old.getD i 0

/-! ## Commands -/

/-- HOME_EXECUTE of an RD: each line is read through a master channel. -/
def Segment.homeRd (g : Segment) (cycle : Nat) (f : Flit) (a : HomeAt) : Segment :=
  let (g, burst) := g.newBurst
  (List.range (homeLen f)).foldl (fun g i =>
    let p := a.place i
    (g.chargeHmp 120).dpmIssue cycle p.1 p.2 none (.homeRead (lineTo f i) burst)) g

/-- The bytes and mask a writing request writes. -/
def writeOf (f : Flit) : List Bool × List Byte := if f.kind == 2 then unpackWrm f.payload else (List.replicate 128 true, f.payload)

/-- A WR, WRM or FWD_WR is written through a master channel. A line that the atomic line cache holds for atomics queued behind it is
written there too (R76). -/
def Segment.homeWr (g : Segment) (cycle : Nat) (f : Flit) (a : HomeAt) : Segment :=
  let p := a.place 0
  let w := writeOf f
  let g := g.markDirty cycle f
  let g := if (g.firstAtomic p).isSome then g.modAtom p fun y => { y with data := y.data.map fun l => maskLine w.1 w.2 l } else g.dropAtom p
  g.dpmIssue cycle p.1 p.2 (some w) (.homeWrite (lineTo f 0))

/-- HOME_EXECUTE (R46, R53, R64, R67, R293 to R297): an RD, WR or WRM. -/
def execHomeExecute (sg : Fin 8) (idx : Nat) (s : State) : Out :=
  onSeg sg s fun s => s.homeRun sg idx [0, 1, 2] fun s f a =>
    s.mod sg fun g => let g := g.dequeue idx; if f.kind == 0 then g.homeRd s.time f a else g.homeWr s.time f a

/-- FWD_WR_EXECUTE (R80): the forwarded line is written and the requester answered. -/
def execFwdWrExecute (sg : Fin 8) (idx : Nat) (s : State) : Out :=
  onSeg sg s fun s => s.homeRun sg idx [0x10] fun s f a => s.mod sg fun g => (g.dequeue idx).homeWr s.time f a

/-- CPY_EXECUTE (R80, R81, R468): the lines are read into the forward staging. `bad` names the staged lines that fail
their CRC: each is read again once; a second failure answers with CS_POISON. -/
def execCpyExecute (sg : Fin 8) (idx : Nat) (bad : List (Fin 16 × BadLine × Bool)) (s : State) : Out :=
  onSeg sg s fun s => s.homeRun sg idx [5] fun s f a =>
    let (g, burst) := ((s.seg sg).dequeue idx).newBurst
    let dst := BitVec.ofNat 64 (field f.payload 0 8)
    (List.range (homeLen f)).foldl (fun (s : State) i =>
      let to_ := lineTo f i
      let fail := bad.find? fun b => b.1.val == i
      match fail with
      | some (_, l, true) =>
        let s := s.crcFail sg l false
        s.mod sg fun g => (g.fwdFree 1).injectPart s.time burst (mkReply to_ 10 csPoison []) false
      | _ =>
        let p := a.place i
        s.mod sg fun g => (g.chargeHmp 240).dpmIssue s.time p.1 p.2 none
          (.cpyRead to_ (dst + BitVec.ofNat 64 (128 * i)) burst (fail.map fun b => b.2.1))) (s.setSeg sg g)

/-- The first queued request that waits for the guard word of a region. -/
def Segment.guardWaiter (g : Segment) (i : Nat) : Option (HomeReq × Nat) :=
  match g.txn.homeQ.zipIdx.filter fun x => !(x.1.flit.kind == 3 && x.1.flit.space == 2) && !badForm x.1.flit &&
      !g.homeBlocked x.2 && g.verdict x.1.flit (g.homeAt x.1.flit) == .fill i with
  | [] => none
  | x :: r => some (r.foldl (fun a b => if g.homeBefore b.1 a.1 then b else a) x)

/-- The requests of the segment on its own memory that wait for the guard word of a region. -/
def Segment.directWaiters (g : Segment) (i : Nat) : List Req :=
  g.txn.reqs.filter fun r => r.unguarded &&
    g.judgeMem r.ctx r.role (gaSpace (r.line * 128)) (gaOff (r.line * 128)) (128 * r.len) == .fill i

/-- A read of a guard word that has failed: the word is taken as VALID 0 for the request that read it (R295), the first queued one or,
with none, the first of the segment's own. -/
def Segment.guardFailed (g : Segment) (cycle i : Nat) : Segment :=
  match g.guardWaiter i, g.directWaiters i with
  | some q, _ => ((g.ctxDenied (tickOf cycle) q.1.flit).dequeue q.2).homeRefuse cycle q.1.flit csDenied
  | none, r :: _ => (g.ctxDeny (tickOf cycle) r.ctx g.node (r.line * 128) 0).settleAll cycle r csDenied
  | none, [] => g

/-- GUARD_FILL (R293, R295): the first request that waits for a guard word reads it. A word that is read is
cached, and the segment's own requests that waited for it go on; a failed read or a word beyond present HBM is taken as VALID 0 for
that request alone. -/
def execGuardFill (sg : Fin 8) (region : BitVec 17) (st : DpmStatus) (s : State) : Out :=
  onSeg sg s fun s =>
    let g := s.seg sg
    let i := region.toNat
    let own := g.directWaiters i
    if (g.guardWaiter i).isNone && own.isEmpty then s
    else
      let a := g.fld F.XLT_GUARD_BASE_BASE * 4096 + 4 * i
      let g := if st.isNone then g.raise s.tick { cls := 14, unit := 15, status := csTimeout } else g
      if st == some 0 && g.present 0 a 4 then
        let g := { g with xlt := { g.xlt with guards := (insertKey i (g.guardMem i) g.xlt.guards).take 4096 } }
        s.setSeg sg (own.foldl (fun (g : Segment) r => g.issueDirect s.time r) g)
      else s.setSeg sg (g.guardFailed s.time i)

/-- A line is read into the atomic line cache, unless an access to it is under way. -/
def Segment.atomRead (g : Segment) (cycle : Nat) (p : Nat × Nat) : Segment :=
  if g.lineBusy p false then g else (g.chargeHmp 120).dpmIssue cycle p.1 p.2 none .atomFill

/-- The write-back of an atomic applied to a line: the line it leaves, and the write with what its reply will say. -/
def atomWrite (f : Flit) (line : List Byte) : List Byte × (List Bool × List Byte) × DpmUse :=
  let o := applyAtomic f line
  let off := f.offset
  let line' := line.take off ++ o.new ++ line.drop (off + o.new.length)
  let mask := (List.range 128).map fun i => off ≤ i && i < off + o.new.length
  (line', (mask, line'), .atomBack f (padTo 16 o.old) (if o.spoiled then csSpoiled else csOk))

/-- An atomic applied to its cached line (R74 to R76): the line changes, and the operand is written back before the reply. -/
def Segment.atomApply (g : Segment) (cycle idx : Nat) (f : Flit) (p : Nat × Nat) (line : List Byte) : Segment :=
  let (line', w, use) := atomWrite f line
  let g := ((g.dequeue idx).chargeHmp 240).modAtom p fun y => { y with data := some line', at_ := some cycle }
  (g.markDirty cycle f).dpmIssue cycle p.1 p.2 (some w) use

/-- The write-backs that wait behind one that failed are formed again: the failed atomic leaves the line unchanged, and those after it
act on the line without its effect (R77). -/
def Segment.atomRedo (g : Segment) (p : Nat × Nat) : Segment :=
  let redo (d : DpmReq) (line : List Byte) : DpmReq × List Byte :=
    match d.use with
    | .atomBack f _ _ =>
      if d.space.toNat == p.1 && d.addr == p.2 then
        let (line', w, use) := atomWrite f line
        ({ d with write := some w, use := use }, line')
      else (d, line)
    | _ => (d, line)
  let (dpm, line) := g.txn.dpm.foldl (fun (acc : List DpmReq × List Byte) d =>
    let (d, line) := redo d acc.2
    (acc.1 ++ [d], line)) ([], memBytes (g.mem p.1) p.2 128)
  { g with txn := { g.txn with dpm := dpm } }.modAtom p fun y => { y with data := y.data.map fun _ => line }

/-- ATOMIC_EXECUTE (R73 to R77, R468): the first atomic to a line has it read; with the line cached, the atomic is
applied, at most one per line in a cycle, and its operand written back before the reply. `bad` is the cached line when
it fails its CRC: it is read again. -/
def execAtomicExecute (sg : Fin 8) (idx : Nat) (bad : Option BadLine) (s : State) : Out :=
  onSeg sg s fun s => s.homeRun sg idx [3, 4] fun s f a =>
    let g := s.seg sg
    let p := a.place 0
    match g.atomAt p with
    | none =>
      if g.txn.atoms.length ≥ 256 then s
      else
        let x : AtomLine := { space := p.1, addr := p.2, data := none, at_ := none, bad := none }
        s.setSeg sg (Segment.atomRead { g with txn := { g.txn with atoms := g.txn.atoms ++ [x] } } s.time p)
    | some x =>
      match x.data with
      | none => s.setSeg sg (g.atomRead s.time p)
      | some line =>
        if x.at_ == some s.time then s
        else if bad.isSome then s.setSeg sg ((g.modAtom p fun y => { y with data := none, bad := bad }).atomRead s.time p)
        else s.setSeg sg (g.atomApply s.time idx f p line)

end Sys2Proof.Machine
end

