-- ==== Sys2Proof/Machine/Transact.lean ====
section
/-! DEFINITION. Tags and replies at the requester (R54 to R60, R88 to R90). -/

namespace Sys2Proof.Machine

open Sys2Proof


def Segment.req? (g : Segment) (id : Nat) : Option Req := g.txn.reqs.find? fun r => r.id == id

def Segment.modReq (g : Segment) (id : Nat) (f : Req → Req) : Segment :=
  { g with txn := { g.txn with reqs := modWhere g.txn.reqs (fun r => r.id == id) f } }

/-- The state of a tag; none when it is free. -/
def Segment.tag? (g : Segment) (t : Nat) : Option TagState := lookupKey t g.txn.tags

def Segment.setTag (g : Segment) (t : Nat) (x : TagState) : Segment :=
  { g with txn := { g.txn with tags := insertKey t x g.txn.tags } }

def Segment.freeTag (g : Segment) (t : Nat) : Segment := { g with txn := { g.txn with tags := eraseKey t g.txn.tags } }

/-- A held tag completes: it is freed for the home's own completion and otherwise quarantined (R57). -/
def Segment.tagDone (g : Segment) (cycle t : Nat) (byHome : Bool) (st : BitVec 4) (data : List Byte) : Segment :=
  match g.tag? t with
  | some (.held id idx _ _ _) =>
    let g := if byHome then g.freeTag t else g.setTag t (.quarantined (tickOf cycle + g.tagLimit))
    match g.req? id with
    | some r => g.settle cycle r idx st data
    | none => g
  | _ => g

/-- Whether a reply names a tag that it may complete: held, under its context (R59). -/
def Segment.tagMatches (g : Segment) (t : Nat) (ctx : BitVec 12) : Bool :=
  match g.tag? t with
  | some (.held _ _ c _ _) => c == ctx
  | _ => false

/-- The request and line behind a held tag. -/
def Segment.tagReq (g : Segment) (t : Nat) : Option (Req × Nat) :=
  match g.tag? t with
  | some (.held id idx _ _ _) => (g.req? id).map fun r => (r, idx)
  | _ => none

/-- The line of a request a tag stands for, asked for alone: the rest of the request no longer names it. A retried line
of a copy (chapter 02, Cases at the edges), or a line read again (R88). The line keeps the count of the request's turnarounds: DESIGN
CHOICE (log 61). -/
def Segment.splitLine (g : Segment) (t : Nat) (r : Req) (idx : Nat) : Segment × Nat :=
  let dst := field r.payload 0 8 + 128 * idx
  let n : Req := { r with id := g.txn.nextReq, line := r.line + idx, len := 1
                          payload := if r.kind == 5 then natBytes dst 8 ++ natBytes 0 1 else r.payload
                          uses := (r.uses[idx]?).toList, left := [0], base := some t }
  let g := g.modReq r.id fun x => { x with left := x.left.erase idx }
  let rest := g.txn.reqs.filter fun x => !x.left.isEmpty
  let g := { g with txn := { g.txn with reqs := rest ++ [n], nextReq := g.txn.nextReq + 1 } }
  match g.tag? t with
  | some (.held _ _ c d f) => (g.setTag t (.held n.id 0 c d f), n.id)
  | _ => (g, n.id)

/-- A busy turnaround lands for a request (R90): it is sent again later, or its tags complete with CS_BUSY. -/
def Segment.turnedBusy (g : Segment) (cycle : Nat) (id : Nat) (tags : List Nat) : Segment :=
  match g.req? id with
  | none => g
  | some r =>
    if r.turns ≥ g.fld F.SEG_TAG_CTRL_BUSY_RETRIES then
      tags.foldl (fun g t => g.tagDone cycle t false csBusy (List.replicate 128 0)) g
    else g.modReq id fun x => { x with turns := x.turns + 1, retryAt := some (tickOf cycle + 64 * 2 ^ r.turns) }

/-- A reply line that fails its CRC in the reply pool (R88): the RD of that line alone is sent once more under the same tag. -/
def Segment.refetch (g : Segment) (cycle t : Nat) (r : Req) (idx : Nat) : Segment :=
  match g.tag? t with
  | some (.held id i c d _) =>
    let (g, id) := (g.setTag t (.held id i c d true)).splitLine t r idx
    match g.req? id with
    | some n => g.injectL cycle (g.reqFlit n t) (g.reqKey n)
    | none => g
  | _ => g

/-- The oldest ejected reply leaves its list. -/
def Segment.takeReply (g : Segment) : Segment := { g with txn := { g.txn with replies := g.txn.replies.drop 1 } }

/-- REPLY_LAND (R57 to R60, R86, R88, R90): the oldest reply ejected at L is taken. `bad` is its line of the reply pool when
it fails its CRC. -/
def execReplyLand (sg : Fin 8) (bad : Option BadLine) (s : State) : Out :=
  onSeg sg s fun s =>
    let g := s.seg sg
    match g.txn.replies with
    | [] => s
    | f :: _ =>
      let g := g.takeReply
      let g := if !f.synth then g else if f.status == csBusy then g.bump F.SEG_TXN_COUNT_BUSY_TURNS
        else g.bump F.SEG_TXN_COUNT_SYNTH_RECEIVED
      let named := (List.range (f.span + 1)).map fun i => f.tag.toNat + i
      let tags := named.filter fun t => g.tagMatches t f.ctx
      match f.dstSeg == g.segId, tags with
      | false, _ => s.setSeg sg g
      | true, [] => s.setSeg sg (g.bump F.SEG_TXN_COUNT_LATE_REPLIES)
      | true, t :: _ =>
        match g.tagReq t with
        | none => s.setSeg sg g
        | some (r, idx) =>
          if f.synth && f.status == csBusy then
            -- the turnaround of a forwarded line names one line of its copy
            if r.kind == 5 && r.len > 1 && f.span == 0 then
              let (g, id) := g.splitLine t r idx
              s.setSeg sg (g.turnedBusy s.time id [t])
            else s.setSeg sg (g.turnedBusy s.time r.id tags)
          else
            let isRemote := f.synth && (f.status == csLinkDown || f.status == csNodeDown) && !g.flt.known.contains r.node
            let rec_ : FaultArgs :=
              { cls := 27, unit := 0, ctx := some f.ctx, node := some r.node,
                addr := BitVec.ofNat 64 ((r.line + idx) * 128), info := BitVec.ofNat 32 t, status := f.status }
            let g := if isRemote then g.raise s.tick rec_ else g
            if f.synth && f.doubt then
              s.setSeg sg (tags.foldl (fun g t =>
                match g.tag? t with
                | some (.held id i c _ x) => g.setTag t (.held id i c true x)
                | _ => g) g)
            else
              let again : Bool := match g.tag? t with | some (.held _ _ _ _ x) => x | _ => false
              match if f.kind == 8 && f.status == csOk then bad else none with
              | some l =>
                if again then
                  (s.setSeg sg g).crcFail sg l false |>.mod sg fun g => g.tagDone s.time t false csPoison (List.replicate 128 0)
                else ((s.setSeg sg g).crcFail sg l true).mod sg fun g => g.refetch s.time t r idx
              | none =>
                let g := if f.kind == 8 then g.chargeHmp 240 else g
                s.setSeg sg (tags.foldl (fun g t => g.tagDone s.time t (!f.synth) f.status f.payload) g)

/-- TAG_TIMEOUT (R58, R60). -/
def execTagTimeout (sg : Fin 8) (tag : BitVec 16) (s : State) : Out :=
  onSeg sg s fun s =>
    let g := s.seg sg
    let t := tag.toNat
    match g.tag? t, g.tagReq t with
    | some (.held _ _ ctx doubted _), some (r, idx) =>
      if (r.sentTick.any fun x => s.tick ≥ x + g.tagLimit) then
        let st := if doubted then csLinkDown else csTimeout
        let g := (g.bump F.SEG_TXN_COUNT_TIMEOUTS).raise s.tick
          { cls := 13, unit := 0, ctx := some ctx, node := some r.node, addr := BitVec.ofNat 64 ((r.line + idx) * 128),
            info := BitVec.ofNat 32 t, status := st }
        s.setSeg sg (g.tagDone s.time t false st (List.replicate 128 0))
      else s
    | _, _ => s

/-- TAG_QUARANTINE_END (R57). -/
def execTagQuarantineEnd (sg : Fin 8) (tag : BitVec 16) (s : State) : Out :=
  onSeg sg s fun s =>
    let g := s.seg sg
    match g.tag? tag.toNat with
    | some (.quarantined u) => if s.tick ≥ u then s.setSeg sg (g.freeTag tag.toNat) else s
    | _ => s


/-- BUSY_RETRY (R90): the request is sent again under its tags, once the known-down list has been looked at. -/
def execBusyRetry (sg : Fin 8) (req : Nat) (s : State) : Out :=
  onSeg sg s fun s =>
    let g := s.seg sg
    match g.req? req with
    | none => s
    | some r =>
      match r.retryAt, r.base with
      | some at_, some base =>
        if s.tick < at_ then s
        else if g.knownDown r.line then
          s.setSeg sg (r.tags.foldl (fun g t => g.tagDone s.time t false csNodeDown (List.replicate 128 0)) g)
        else
          s.setSeg sg ((g.modReq req fun x => { x with retryAt := none }).injectL (s.time + 1) (g.reqFlit r base) (g.reqKey r))
      | _, _ => s

end Sys2Proof.Machine
end

