-- ==== Sys2Proof/Machine/Dpm.lean ====
section
/-! DEFINITION. Responses of the master channels (R38, R39) and what each access is for (R71, R76, R80, R81, R160). -/

namespace Sys2Proof.Machine

open Sys2Proof

/-- Gate words and waited signal words of a line that was written are read again at once (R133, R160). -/
def Segment.gateTouch (g : Segment) (cycle : Nat) (space addr : Nat) : Segment :=
  let l := gaMake g.node.toNat g.segId.toNat space addr / 128
  let ts := modWhere g.trl.tickets (fun t => !t.gateOpen && t.gateGa.any fun a => a / 128 == l) fun t =>
    { t with gateAt := min t.gateAt cycle }
  let cores := g.cores.map fun k =>
    match k.wait with
    | some (.waits va a val pd dl due) => if a / 128 == l then { k with wait := some (.waits va a val pd dl (min due cycle)) } else k
    | _ => k
  { g with trl := { g.trl with tickets := ts }, cores := cores }

/-- The effect of an access's write on memory: the bytes are stored when it succeeds; otherwise they hold values the spec
does not give (Table 2.12). A write-back of an atomic that fails leaves the line unchanged (R77). -/
def Segment.dpmStore (g : Segment) (cycle ctr : Nat) (d : DpmReq) (st : BitVec 4) : Segment × Nat :=
  match d.write with
  | none => (g, 0)
  | some (mask, data) =>
    let sp := d.space.toNat
    if st == 0 then ((g.setMem sp (memPutMask (g.mem sp) d.addr mask data)).gateTouch cycle sp d.addr, 0)
    else if d.use.isBack then (g, 0)
    else
      let free := (List.range 128).map fun i => Config.freeByte (ctr + i)
      ((g.setMem sp (memPutMask (g.mem sp) d.addr mask free)).gateTouch cycle sp d.addr, 128)


/-- An access has ended with a status and, for a read, the line. -/
def State.dpmDone (s : State) (sg : Nat) (d : DpmReq) (st : BitVec 4) : State :=
  let data := if st == 0 && d.write.isNone then memBytes ((s.seg sg).mem d.space.toNat) d.addr 128 else List.replicate 128 0
  let (g, k) := (s.seg sg).dpmStore s.time s.freeCtr d st
  let s := { s.setSeg sg g with freeCtr := s.freeCtr + k }
  let p := (d.space.toNat, d.addr)
  match d.use with
  | .homeRead r burst => s.mod sg fun g => g.injectPart s.time burst (mkReply r 8 st data) false
  | .homeWrite r => s.mod sg fun g =>
    -- the content of a line whose write failed is not known: atomics queued for it read it again
    (if st == 0 then g else g.modAtom p fun y => { y with data := none }).injectL s.time (mkReply r 10 st [])
  | .atomFill =>
    match g.atomAt p with
    | none => s
    | some x =>
      let s := match x.bad with | some l => s.crcFail sg l (st == 0) | none => s
      let g := s.seg sg
      if st == 0 then
        let atoms := modWhere g.txn.atoms (fun y => y.space == p.1 && y.addr == p.2) fun y => { y with data := some data, bad := none }
        s.setSeg sg { g with txn := { g.txn with atoms := atoms } }
      else
        let g := g.dropAtom p
        match g.firstAtomic p with
        | some (q, i) => s.setSeg sg ((g.dequeue i).homeRefuse s.time q.flit st)
        | none => s.setSeg sg g
  | .atomBack f old st0 =>
    let g := if st == 0 && st0 == csSpoiled then g.bump F.SEG_ATOM_STATUS_SPOILED else g
    let g := g.injectL s.time
      (mkReply (lineTo f 0) (replyKind f) (if st == 0 then st0 else st) (if st == 0 && f.fetches then old else []))
    let g := if st == 0 then g else g.atomRedo p
    s.setSeg sg (if !g.lineBusy p false && (g.firstAtomic p).isNone then g.dropAtom p else g)
  | .cpyRead r dst burst bad =>
    let s := match bad with | some l => s.crcFail sg l (st == 0) | none => s
    s.mod sg fun g =>
      if st != 0 then (g.fwdFree 1).injectPart s.time burst (mkReply r 10 st []) false
      else
        let a := dst.toNat
        g.injectPart s.time burst
          (mkFlit (BitVec.ofNat 15 (gaNode a)) (BitVec.ofNat 3 (gaSeg a)) r.node r.seg 0x10 r.ctx r.tag (reqLine (a / 128)) data) true
  | .req id idx =>
    -- a line written beside the atomic line cache is read again for the atomics queued for it
    let g := if d.write.isSome then g.modAtom p fun y => { y with data := none } else g
    match g.req? id with
    | some r => s.setSeg sg (g.settle s.time r idx st data)
    | none => s.setSeg sg g
  | .contrib grp serial c => s.contribLand sg grp serial c (gaMake g.node.toNat g.segId.toNat p.1 p.2 / 128) st data

/-- The access outstanding under an identifier of a channel. -/
def Segment.dpmAt (g : Segment) (ch : Nat) (id : BitVec 12) : Option DpmReq :=
  g.txn.dpm.find? fun d => d.out && d.ch == ch && d.id == id

/-- An access that waits goes on, once what it waited for has ended. -/
def State.dpmGo (s : State) (sg : Nat) : State := s.mod sg fun g => g.dpmNext s.time

/-- DPM_RESPONSE (R38, R39): any status but 0x0 acts as 0x5; a response for a retired identifier is taken and
discarded, and the identifier may be used again. -/
def execDpmResponse (sg : Fin 8) (ch : Fin 6) (id : BitVec 12) (status : BitVec 4) (s : State) : Out :=
  onSeg sg s fun s =>
    let g := s.seg sg
    match g.dpmAt ch id with
    | some d =>
      let s := s.setSeg sg { g with txn := { g.txn with dpm := g.txn.dpm.erase d } }
      (s.dpmDone sg d (if status == 0 then csOk else csPoison)).dpmGo sg
    | none => (s.setSeg sg { g with txn := { g.txn with retired := g.txn.retired.filter fun x => x != (ch.val, id) } }).dpmGo sg

/-- DPM_TIMEOUT (R39): 100,000 ticks without a response. -/
def execDpmTimeout (sg : Fin 8) (ch : Fin 6) (id : BitVec 12) (s : State) : Out :=
  onSeg sg s fun s =>
    let g := s.seg sg
    match g.dpmAt ch id with
    | some d =>
      if s.tick < d.tick + 100000 then s
      else
        let g := { g with txn := { g.txn with dpm := g.txn.dpm.erase d, retired := (ch.val, id) :: g.txn.retired } }
        let a : FaultArgs :=
          { cls := 14, unit := 15, index := ch.val, info := BitVec.ofNat 32 id.toNat, status := csTimeout,
            addr := BitVec.ofNat 64 (gaMake g.node.toNat g.segId.toNat d.space.toNat d.addr) }
        ((s.setSeg sg (g.raise s.tick a)).dpmDone sg d csTimeout).dpmGo sg
    | none => s

end Sys2Proof.Machine
end

