-- ==== Sys2Proof/Machine/Cores.lean ====
section
/-! DEFINITION. The cores (R92 to R102, R139 to R145): registers, fetch, exceptions, saves, endings of tickets, and the
frame every instruction runs in. -/

namespace Sys2Proof

/-- IMM sign-extended to 64 bits (R105). -/
def IFields.simm (f : IFields) : Word := f.imm.signExtend 64

/-- IMM[15:0], unsigned. -/
def IFields.off (f : IFields) : Nat := f.imm.toNat % 65536

/-- IMM[36:16], the flags of an issuing instruction (R105). -/
def IFields.flags (f : IFields) : Nat := f.imm.toNat / 65536

end Sys2Proof

namespace Sys2Proof.Machine

open Sys2Proof

/-! ## Registers (R94) -/

/-- g[i]; g0 reads 0. -/
def Core.r (k : Core) (i : BitVec 5) : Word := if i == 0 then 0 else k.g.getD i.toNat 0

/-- g[i] written; a write to g0 is discarded. -/
def Core.setR (k : Core) (i : BitVec 5) (v : Word) : Core := if i == 0 then k else { k with g := k.g.set i.toNat v }

/-- p[i]; p0 reads 1. -/
def Core.pr (k : Core) (i : Nat) : Bool := i == 0 || k.p.getLsbD i

/-- p[i] written; a write to p0 is discarded. -/
def Core.setP (k : Core) (i : Nat) (v : Bool) : Core :=
  if i == 0 || 7 < i then k
  else { k with p := if v then k.p ||| ((1 : BitVec 8) <<< i) else k.p &&& ~~~((1 : BitVec 8) <<< i) }

/-- B′ = g[B] + IMM (R105). -/
def Core.b' (k : Core) (f : IFields) : Word := k.r f.b + f.simm

/-- g[A] + IMM, the address of a lunchbox access or a control access. The spec says of B′ and of branch offsets only that IMM is
sign-extended; here it is too: DESIGN CHOICE (log 61). -/
def Core.ea (k : Core) (f : IFields) : Word := k.r f.a + f.simm

/-- The lunchbox address of a descriptor or record: g[A] + IMM[15:0]. -/
def Core.descAt (k : Core) (f : IFields) : Word := k.r f.a + BitVec.ofNat 64 f.off

/-- The privilege level of a core (Table 3.1). -/
def levelOf (c : Nat) : Nat := if c == 16 then 2 else if c == 17 then 1 else 0

/-- Whether an instruction executes (R104). -/
def Core.guarded (k : Core) (f : IFields) : Bool := k.pr f.pred.toNat != f.inv

/-! ## Fetch (R100, Table 3.3) -/

/-- Whether a PC lies in the code window of a core other than the keeper. -/
def inCode (c : Nat) (k : Core) : Bool := c != 16 && 0x10000 ≤ k.pc.toNat && k.pc.toNat < k.codeLimit.toNat

/-- The exception of a fetch at the PC, with CUR_EXC_INFO; none when the fetch succeeds. A code-window fetch that fails
arrives as INSTRUCTION_FETCH_MISS. -/
def Core.fetchExc (c : Nat) (k : Core) : Option (BitVec 4 × Word) :=
  let pc := k.pc.toNat
  let lunch := pc < 0x10000 && 16 ≤ c
  let rom := c == 16 && 0x10000 ≤ pc && pc < 0x18000
  if !(lunch || rom || inCode c k) then some (0x5, BitVec.ofNat 64 pc)
  else if lunch && k.lbBad.contains (pc / 8) then some (0x6, BitVec.ofNat 64 pc)
  else none

/-- The opcode byte of the word at the PC, as memory holds it; 0 in mask ROM. -/
def Segment.opcodeAt (g : Segment) (c : Nat) : BitVec 8 :=
  let k := g.core c
  if k.pc.toNat < 0x10000 then memRead k.lb (k.pc.toNat + 7)
  else if c == 16 then 0
  else memRead g.hbm (k.codeBase.toNat * 65536 + k.pc.toNat + 7)

/-! ## Idle points, freeing a courier -/

/-- A write of CUR_CODE or ICINV takes effect when the core is idle or asleep (R101, R145). -/
def Segment.idlePoint (g : Segment) (c : Nat) : Segment :=
  let k := g.core c
  let g := if k.icinv then g.setFld (F.CUR_CTRL_ICINV.core c) 0 else g
  g.modCore c fun k =>
    { k with codeBase := BitVec.ofNat 28 (g.fld (F.CUR_CODE_BASE.core c)), codeLimit := BitVec.ofNat 32 (g.fld (F.CUR_CODE_LIMIT.core c)),
             icache := if k.icinv then [] else k.icache, icinv := false }

/-- A courier is freed (R113, R114, R141); STOP holds one that a ticket has left (R144). -/
def Segment.freeCourier (g : Segment) (c : Nat) : Segment :=
  let st : CoreState := if g.fld (F.CUR_CTRL_STOP.core c) == 1 then .stopped else .idle
  (g.modCore c fun k => { k with st := st, wait := none, ticket := none, lastCtx := some k.ctx, stopPending := false }).idlePoint c

/-! ## Trails, tickets and their ages (R157, R159, R163, Table 4.8) -/

def Segment.trail? (g : Segment) (slot : Nat) : Option Trail := g.trl.trails.find? fun t => t.slot == slot

def Segment.modTrail (g : Segment) (slot : Nat) (f : Trail → Trail) : Segment :=
  { g with trl := { g.trl with trails := modWhere g.trl.trails (fun t => t.slot == slot) f } }

def Segment.dropTicket (g : Segment) (n : Nat) : Segment :=
  { g with trl := { g.trl with tickets := g.trl.tickets.filter fun t => t.n != n } }

/-- TICKETS_PER_CTX as it acts (Table 4.8). -/
def Segment.ticketQuota (g : Segment) : Nat := min 4096 (max 1 (g.fld F.TRL_QUOTA_TICKETS_PER_CTX))

/-- COURIERS_PER_CTX as it acts (Table 4.8). -/
def Segment.courierQuota (g : Segment) : Nat := min 16 (max 1 (g.fld F.TRL_QUOTA_COURIERS_PER_CTX))

/-- The live tickets of a context. -/
def Segment.ticketsOf (g : Segment) (c : BitVec 12) : List Ticket := g.trl.tickets.filter fun t => t.ctx == c

/-- The couriers a context holds. -/
def Segment.couriersOf (g : Segment) (c : BitVec 12) : Nat :=
  ((g.cores.take 16).filter fun k => k.ticket.isSome && k.ctx == c).length

/-- The lowest free ticket entry (R157). -/
def Segment.freeEntry (g : Segment) : Option Nat := firstFree (g.trl.tickets.map Ticket.n) 4096

/-! ## Ages (R157, R163) -/

/-- Whether the next array ticket of a trail is admissible (R157). -/
def Segment.admissible (g : Segment) (x : Trail) : Bool :=
  !x.cancelled && !x.ended && x.next < x.count && g.freeEntry.isSome && (g.ticketsOf x.ctx).length < g.ticketQuota &&
  (x.next < 512 || (x.window.find? fun w => w.1 == x.next - 512).all fun w => w.2.isSome)

/-- Whether a ticket is dispatchable (R159, R171). -/
def Segment.dispatchable (g : Segment) (t : Ticket) : Bool :=
  (match t.st with | .ready => true | .saved mask _ => mask == 0 | _ => false) &&
  g.isResident t.ctx && g.couriersOf t.ctx < g.courierQuota

/-- The cycle a condition has held from. -/
def since (holds : Bool) (cycle : Nat) (old : Option Nat) : Option Nat := if holds then some (old.getD cycle) else none

/-- The ages of admission and dispatch brought up to date. -/
def Segment.board (g : Segment) (cycle : Nat) : Segment :=
  { g with trl := { g.trl with
      trails := g.trl.trails.map fun x => { x with since := since (g.admissible x) cycle x.since }
      tickets := g.trl.tickets.map fun t => { t with disp := since (g.dispatchable t) cycle t.disp } } }

/-! ## Endings (R141, R172) -/

/-- A ticket ends: every line not yet issued in its busy slots completes with CS_ABORTED, and its completion follows the last
line (R141 steps 4 and 5). -/
def Segment.endTicket (g : Segment) (cycle n : Nat) (status : BitVec 4) (reason exc : Nat) : Segment :=
  let g := g.modTicket n fun t => { t with st := .ending status reason exc }
  let ds := g.trl.descs.filter fun d => d.owner == .ticket n && d.slot.isSome
  ds.foldl (fun (g : Segment) d => g.descStop cycle d csAborted) g


/-- An exception of a courier (R141). -/
def Segment.courierExc (g : Segment) (cycle c : Nat) (op : BitVec 8) (code : BitVec 4) (info : Word) : Segment :=
  let k := g.core c
  let g := (g.modCore c fun k => { k with excPc := k.pc, excOp := op, excCode := code, excInfo := info }).hwMark (excOff c)
    (code.zeroExtend 64)
  let g := g.raise (tickOf cycle)
    { cls := 17, unit := 13, index := c, ctx := some k.ctx, info := BitVec.ofNat 32 code.toNat, status := csAborted }
  let g := g.freeCourier c
  match k.ticket with
  | some n => (g.endTicket cycle n csAborted 1 code.toNat).board cycle
  | none => g

/-- An exception (R139 to R142). -/
def Segment.raiseExc (g : Segment) (cycle c : Nat) (op : BitVec 8) (code : BitVec 4) (info : Word) : Segment :=
  if c < 16 then g.courierExc cycle c op code info else g.fwExc (tickOf cycle) c op code info

/-! ## Saving (R114, R115, R170, R528) -/

/-- The save record of Table 4.7 before its protection. -/
def Core.saveBytes (k : Core) (pocket : List Byte) (pc : BitVec 32) : List Byte :=
  padTo 8192
    (pocket ++ ((k.g.drop 1).flatMap fun w => natBytes w.toNat 8) ++ natBytes (k.p.toNat / 2 * 2) 1 ++ natBytes k.rs.length 1 ++
      [0, 0] ++ natBytes pc.toNat 4 ++ padTo 128 (k.rs.flatMap fun w => natBytes w.toNat 4))

/-- The context key of a sealed context (R523). -/
def Segment.ctxKey (g : Segment) (c : BitVec 12) : Option (List Byte) :=
  (g.kpr.slots.find? fun k => k.kind == 4 && k.ctx == c && !k.lost).map fun k => k.material.take 32

/-- The key of the save records of a context (R528). -/
def Segment.saveKey (g : Segment) (key : List Byte) : List Byte :=
  kdf key (ascii "GYN save") (bigBytes (g.fld F.KPR_DEVNUM_DEVNUM) 8 ++ natBytes g.segId.toNat 1) 32

/-- The nonce of a save record (R528). -/
def saveNonce (n count : Nat) : List Byte := bigBytes n 4 ++ bigBytes count 8

/-- Where the save record of a ticket lies (R170). -/
def Segment.saveAt (g : Segment) (n : Nat) : Nat := g.fld F.TRL_SAVE_BASE_BASE * 8192 + n * 8192

/-- A save record written: under the memory cipher for a sealed context (R528). Without the context's key it is not written (R540). -/
def Segment.putSave (g : Segment) (ctx : BitVec 12) (n : Nat) (rec_ : List Byte) : Segment :=
  if !g.sealedCtx ctx then g.put 0 (g.saveAt n) rec_
  else
    match g.ctxKey ctx with
    | none => g
    | some k =>
      let key := g.saveKey k
      let cnt := (lookupKey ctx g.kpr.saveCounts).getD 0
      let g := { g with kpr := { g.kpr with saveCounts := insertKey ctx (cnt + 1) g.kpr.saveCounts } }
      let nonce := saveNonce n cnt
      let ct := padTo 0x1180 (Config.gcmCrypt key nonce (rec_.take 0x1180))
      g.put 0 (g.saveAt n) (padTo 8192 (ct ++ natBytes cnt 8 ++ List.replicate 8 0 ++ padTo 16 (Config.gcmTag key nonce [] ct)))

/-- The courier saves its ticket and is freed; a pocket that fails its check ends the ticket as EX_POISON does (R99, R114). -/
def Segment.saveTicket (g : Segment) (cycle c n : Nat) (op : BitVec 8) (pc : BitVec 32) (mask : BitVec 16) (any : Bool) : Segment :=
  let k := g.core c
  match lbEngineRead k 0 4096 with
  | none =>
    let w := ((List.range 512).find? fun w => k.lbBad.contains w).getD 0
    g.courierExc cycle c op 0x6 (BitVec.ofNat 64 (8 * w))
  | some pocket =>
    let g := g.putSave k.ctx n (k.saveBytes pocket pc)
    ((g.freeCourier c).modTicket n fun t => { t with st := .saved mask any, disp := none }).board cycle

/-- Whether a core stands at an instruction boundary or in a wait it can leave (R115, R172). -/
def Core.canStop (k : Core) : Bool :=
  k.st == .running || k.st == .stopped ||
  (match k.wait with
   | some (.waits _ _ _ _ _ _) => true
   | some (.waite _ _ _ _) => true
   | some (.fence _ _ _) => true
   | _ => false)

/-- The ticket of a courier is suspended for residency (R115), now or at its next instruction boundary. -/
def Segment.suspend (g : Segment) (cycle c : Nat) : Segment :=
  let k := g.core c
  match k.ticket with
  | none => g
  | some n =>
    if k.canStop then g.saveTicket cycle c n (g.opcodeAt c) k.pc 0 false else g.modCore c fun k => { k with stopPending := true }

/-- A running ticket is stopped (R172), now or at its next instruction boundary. -/
def Segment.cancelRunning (g : Segment) (cycle c n reason : Nat) : Segment :=
  if (g.core c).canStop then ((g.freeCourier c).endTicket cycle n csAborted reason 0).board cycle
  else g.modTicket n fun t => { t with cancel := some reason }

/-- The ticks a courier has run since its dispatch or resume, where they have reached its limit (Table 3.12). -/
def Segment.watchdog (g : Segment) (tick c : Nat) : Option Nat :=
  let limit := g.fld (F.CUR_CTRL_RUN_LIMIT.core c) * 65536
  let ran := tick - (g.core c).startTick
  if c < 16 && (g.core c).ticket.isSome && limit != 0 && limit ≤ ran then some ran else none

/-- What awaits an instruction boundary happens there: EX_WATCHDOG before all else (R140, R150). -/
def Segment.boundary (g : Segment) (cycle c : Nat) : Segment :=
  let k := g.core c
  match k.ticket with
  | none => g
  | some n =>
    if !k.canStop then g
    else
      match g.watchdog (tickOf cycle) c, (g.ticket? n).bind Ticket.cancel with
      | some ran, _ => g.courierExc cycle c (g.opcodeAt c) 0xA (BitVec.ofNat 64 ran)
      | none, some r => ((g.freeCourier c).endTicket cycle n csAborted r 0).board cycle
      | none, none => if k.stopPending then g.suspend cycle c else g

/-! ## The frame of an instruction (R104, R140) -/

/-- Whether STOP holds a core at its boundary (R143, R144). -/
def Segment.stopHeld (g : Segment) (c : Nat) : Bool :=
  g.fld (F.CUR_CTRL_STOP.core c) == 1 && !((g.core c).ticket.isSome && g.sealedCtx (g.core c).ctx)

/-- What an instruction comes to: the next instruction, a jump, leaving the core to its new state, a wait, or an exception. -/
inductive Res where
  | go (s : State)
  | jump (s : State) (pc : BitVec 32)
  | off (s : State)
  | wait (s : State)
  | exc (code : BitVec 4) (info : Word)
  deriving DecidableEq, Repr

/-- What a result does to the core: the PC moves on and the instruction is counted, or it has none of its effect. -/
def Res.apply (x : Res) (sg c : Nat) (op : BitVec 8) (s : State) : State :=
  match x with
  | .go t => t.mod sg fun g => ((g.modCore c fun k => { k with pc := k.pc + 8 }).bump (F.CUR_COUNT_RETIRED.core c)).boundary t.time c
  | .jump t pc => t.mod sg fun g => ((g.modCore c fun k => { k with pc := pc }).bump (F.CUR_COUNT_RETIRED.core c)).boundary t.time c
  | .off t => t.mod sg fun g => g.bump (F.CUR_COUNT_RETIRED.core c)
  | .wait t => t
  | .exc code info => s.mod sg fun g => g.raiseExc s.time c op code info

/-- One instruction on a core (R104, R140): the fetch, the guard, EX_ILLEGAL, EX_PRIV, then the instruction itself. A core that
does not run, that STOP holds, whose fast clock is off (R42), or whose domain's wake is not over, executes nothing. -/
def runCore (sg : Fin 8) (c : Fin 18) (op : BitVec 8) (level : Nat) (f : IFields) (ill : Bool) (body : State → Core → Res)
    (s : State) : Out :=
  onSeg sg s fun s =>
    let g := s.seg sg
    let k := g.core c
    if k.st != .running || !g.clocked || g.stopHeld c || (16 ≤ c.val && !g.usable s.tick (c.val - 15)) then s
    else
      match k.fetchExc c with
      | some (code, info) => Res.apply (.exc code info) sg c op s
      | none =>
        if !k.guarded f then s.mod sg fun g => g.modCore c fun k => { k with pc := k.pc + 8 }
        else if ill then Res.apply (.exc 0x1 0) sg c op s
        else if levelOf c < level then Res.apply (.exc 0x2 0) sg c op s
        else (body s k).apply sg c op s

/-- The state with one core changed. -/
def State.modCore (s : State) (sg c : Nat) (f : Core → Core) : State := s.mod sg fun g => g.modCore c f

end Sys2Proof.Machine
end

