-- ==== Sys2Proof/Machine/Alu.lean ====
section
/-! DEFINITION. The ALU, compare and predicate instructions, MOVS and SETS (Table 3.5, R105 to R110). -/

namespace Sys2Proof.Machine

open Sys2Proof

/-! ## Results -/

/-- The signed quotient of R107. -/
def divS (a b : Word) : Word := if b == 0 then BitVec.allOnes 64 else a.sdiv b

/-- The unsigned quotient of R107. -/
def divU (a b : Word) : Word := if b == 0 then BitVec.allOnes 64 else a / b

/-- The signed remainder of R107. -/
def remS (a b : Word) : Word := if b == 0 then a else a.srem b

/-- The unsigned remainder of R107. -/
def remU (a b : Word) : Word := if b == 0 then a else a % b

/-- The field of EXTU: shift B′[5:0], width B′[11:6] + 1. -/
def extu (a b : Word) : Word :=
  (a >>> (b.toNat % 64)) &&& BitVec.ofNat 64 (2 ^ (b.toNat / 64 % 64 + 1) - 1)

/-- MOVH. -/
def movh (a : Word) (imm : BitVec 37) : Word :=
  BitVec.ofNat 64 (a.toNat % 2 ^ 37) ||| BitVec.ofNat 64 (imm.toNat % 2 ^ 27 * 2 ^ 37)

/-- The number of 1 bits. -/
def popc (a : Word) : Word := BitVec.ofNat 64 ((List.range 64).filter fun i => a.getLsbD i).length

/-- Leading zeros. -/
def clz (a : Word) : Word := BitVec.ofNat 64 (((List.range 64).find? fun i => a.getLsbD (63 - i)).getD 64)

/-- Trailing zeros. -/
def ctz (a : Word) : Word := BitVec.ofNat 64 (((List.range 64).find? fun i => a.getLsbD i).getD 64)

/-! ## The three shapes -/

/-- An instruction that writes g[d] from the core's registers, and does nothing else. -/
def aluOp (sg : Fin 8) (c : Fin 18) (op : BitVec 8) (f : IFields) (v : Core → Word) (s : State) : Out :=
  runCore sg c op 0 f false (fun s k => .go (s.modCore sg c fun k' => k'.setR f.d (v k))) s

/-- A compare: p[d] from g[a] and B′; D above 7 is illegal (R108). -/
def cmpOp (sg : Fin 8) (c : Fin 18) (op : BitVec 8) (f : IFields) (t : Word → Word → Bool) (s : State) : Out :=
  runCore sg c op 0 f (f.d.toNat > 7)
    (fun s k => .go (s.modCore sg c fun k' => k'.setP f.d.toNat (t (k.r f.a) (k.b' f)))) s

/-- A predicate instruction: p[d] from p[a] and p[b]; D, A or B above 7 is illegal (R108). -/
def predOp (sg : Fin 8) (c : Fin 18) (op : BitVec 8) (f : IFields) (t : Bool → Bool → Bool) (s : State) : Out :=
  runCore sg c op 0 f (f.d.toNat > 7 || f.a.toNat > 7 || f.b.toNat > 7)
    (fun s k => .go (s.modCore sg c fun k' => k'.setP f.d.toNat (t (k.pr f.a.toNat) (k.pr f.b.toNat)))) s

/-! ## ALU -/

/-- ADD: g[d] = g[a] + B′ (R105, Table 3.5). -/
def execAdd (sg : Fin 8) (c : Fin 18) (f : IFields) (s : State) : Out :=
  aluOp sg c 0x01 f (fun k => let a := k.r f.a; let b := k.b' f; a + b) s

/-- SUB: g[d] = g[a] − B′ (R105, Table 3.5). -/
def execSub (sg : Fin 8) (c : Fin 18) (f : IFields) (s : State) : Out :=
  aluOp sg c 0x02 f (fun k => let a := k.r f.a; let b := k.b' f; a - b) s

/-- AND (R105, Table 3.5). -/
def execAnd (sg : Fin 8) (c : Fin 18) (f : IFields) (s : State) : Out :=
  aluOp sg c 0x03 f (fun k => let a := k.r f.a; let b := k.b' f; a &&& b) s

/-- OR (R105, Table 3.5). -/
def execOr (sg : Fin 8) (c : Fin 18) (f : IFields) (s : State) : Out :=
  aluOp sg c 0x04 f (fun k => let a := k.r f.a; let b := k.b' f; a ||| b) s

/-- XOR (R105, Table 3.5). -/
def execXor (sg : Fin 8) (c : Fin 18) (f : IFields) (s : State) : Out :=
  aluOp sg c 0x05 f (fun k => let a := k.r f.a; let b := k.b' f; a ^^^ b) s

/-- SHL: by B′[5:0] (R105, Table 3.5). -/
def execShl (sg : Fin 8) (c : Fin 18) (f : IFields) (s : State) : Out :=
  aluOp sg c 0x06 f (fun k => let a := k.r f.a; let b := k.b' f; a <<< (b.toNat % 64)) s

/-- SHR: logical, by B′[5:0] (R105, Table 3.5). -/
def execShr (sg : Fin 8) (c : Fin 18) (f : IFields) (s : State) : Out :=
  aluOp sg c 0x07 f (fun k => let a := k.r f.a; let b := k.b' f; a >>> (b.toNat % 64)) s

/-- SRA: arithmetic, by B′[5:0] (R105, Table 3.5). -/
def execSra (sg : Fin 8) (c : Fin 18) (f : IFields) (s : State) : Out :=
  aluOp sg c 0x08 f (fun k => let a := k.r f.a; let b := k.b' f; a.sshiftRight (b.toNat % 64)) s

/-- MUL: the low 64 bits of the product (R105, Table 3.5). -/
def execMul (sg : Fin 8) (c : Fin 18) (f : IFields) (s : State) : Out :=
  aluOp sg c 0x09 f (fun k => let a := k.r f.a; let b := k.b' f; a * b) s

/-- MULH: the high 64 bits of the signed product (R105, Table 3.5). -/
def execMulh (sg : Fin 8) (c : Fin 18) (f : IFields) (s : State) : Out :=
  aluOp sg c 0x0A f (fun k => let a := k.r f.a; let b := k.b' f; BitVec.ofInt 64 (a.toInt * b.toInt / 2 ^ 64)) s

/-- MULHU: the high 64 bits of the unsigned product (R105, Table 3.5). -/
def execMulhu (sg : Fin 8) (c : Fin 18) (f : IFields) (s : State) : Out :=
  aluOp sg c 0x0B f (fun k => let a := k.r f.a; let b := k.b' f; BitVec.ofNat 64 (a.toNat * b.toNat / 2 ^ 64)) s

/-- DIV (R105, R107, Table 3.5). -/
def execDiv (sg : Fin 8) (c : Fin 18) (f : IFields) (s : State) : Out :=
  aluOp sg c 0x0C f (fun k => let a := k.r f.a; let b := k.b' f; divS a b) s

/-- DIVU (R105, R107, Table 3.5). -/
def execDivu (sg : Fin 8) (c : Fin 18) (f : IFields) (s : State) : Out :=
  aluOp sg c 0x0D f (fun k => let a := k.r f.a; let b := k.b' f; divU a b) s

/-- REM (R105, R107, Table 3.5). -/
def execRem (sg : Fin 8) (c : Fin 18) (f : IFields) (s : State) : Out :=
  aluOp sg c 0x0E f (fun k => let a := k.r f.a; let b := k.b' f; remS a b) s

/-- REMU (R105, R107, Table 3.5). -/
def execRemu (sg : Fin 8) (c : Fin 18) (f : IFields) (s : State) : Out :=
  aluOp sg c 0x0F f (fun k => let a := k.r f.a; let b := k.b' f; remU a b) s

/-- MIN: signed (R105, Table 3.5). -/
def execMin (sg : Fin 8) (c : Fin 18) (f : IFields) (s : State) : Out :=
  aluOp sg c 0x10 f (fun k => let a := k.r f.a; let b := k.b' f; if a.slt b then a else b) s

/-- MAX: signed (R105, Table 3.5). -/
def execMax (sg : Fin 8) (c : Fin 18) (f : IFields) (s : State) : Out :=
  aluOp sg c 0x11 f (fun k => let a := k.r f.a; let b := k.b' f; if a.slt b then b else a) s

/-- MINU (R105, Table 3.5). -/
def execMinu (sg : Fin 8) (c : Fin 18) (f : IFields) (s : State) : Out :=
  aluOp sg c 0x12 f (fun k => let a := k.r f.a; let b := k.b' f; if a.ult b then a else b) s

/-- MAXU (R105, Table 3.5). -/
def execMaxu (sg : Fin 8) (c : Fin 18) (f : IFields) (s : State) : Out :=
  aluOp sg c 0x13 f (fun k => let a := k.r f.a; let b := k.b' f; if a.ult b then b else a) s

/-- EXTU: B′[5:0] and B′[11:6] (R105, Table 3.5). -/
def execExtu (sg : Fin 8) (c : Fin 18) (f : IFields) (s : State) : Out :=
  aluOp sg c 0x18 f (fun k => let a := k.r f.a; let b := k.b' f; extu a b) s

/-- MOVH: g[a][36:0] OR IMM[26:0] shifted left by 37 (Table 3.5). -/
def execMovh (sg : Fin 8) (c : Fin 18) (f : IFields) (s : State) : Out := aluOp sg c 0x14 f (fun k => movh (k.r f.a) f.imm) s

/-- POPC (Table 3.5). -/
def execPopc (sg : Fin 8) (c : Fin 18) (f : IFields) (s : State) : Out := aluOp sg c 0x15 f (fun k => popc (k.r f.a)) s

/-- CLZ: 64 for zero (Table 3.5). -/
def execClz (sg : Fin 8) (c : Fin 18) (f : IFields) (s : State) : Out := aluOp sg c 0x16 f (fun k => clz (k.r f.a)) s

/-- CTZ: 64 for zero (Table 3.5). -/
def execCtz (sg : Fin 8) (c : Fin 18) (f : IFields) (s : State) : Out := aluOp sg c 0x17 f (fun k => ctz (k.r f.a)) s

/-! ## Compares and predicates -/

/-- CEQ (R105, R108, Table 3.5). -/
def execCeq (sg : Fin 8) (c : Fin 18) (f : IFields) (s : State) : Out := cmpOp sg c 0x20 f (fun a b => a == b) s

/-- CNE (R105, R108, Table 3.5). -/
def execCne (sg : Fin 8) (c : Fin 18) (f : IFields) (s : State) : Out := cmpOp sg c 0x21 f (fun a b => a != b) s

/-- CLT (R105, R108, Table 3.5). -/
def execClt (sg : Fin 8) (c : Fin 18) (f : IFields) (s : State) : Out := cmpOp sg c 0x22 f (fun a b => a.slt b) s

/-- CLTU (R105, R108, Table 3.5). -/
def execCltu (sg : Fin 8) (c : Fin 18) (f : IFields) (s : State) : Out := cmpOp sg c 0x23 f (fun a b => a.ult b) s

/-- CGE (R105, R108, Table 3.5). -/
def execCge (sg : Fin 8) (c : Fin 18) (f : IFields) (s : State) : Out := cmpOp sg c 0x24 f (fun a b => !a.slt b) s

/-- CGEU (R105, R108, Table 3.5). -/
def execCgeu (sg : Fin 8) (c : Fin 18) (f : IFields) (s : State) : Out := cmpOp sg c 0x25 f (fun a b => !a.ult b) s

/-- PAND (R108, Table 3.5). -/
def execPand (sg : Fin 8) (c : Fin 18) (f : IFields) (s : State) : Out := predOp sg c 0x28 f (fun a b => a && b) s

/-- POR (R108, Table 3.5). -/
def execPor (sg : Fin 8) (c : Fin 18) (f : IFields) (s : State) : Out := predOp sg c 0x29 f (fun a b => a || b) s

/-- PXOR (R108, Table 3.5). -/
def execPxor (sg : Fin 8) (c : Fin 18) (f : IFields) (s : State) : Out := predOp sg c 0x2A f (fun a b => a != b) s

/-- PSET: p[d] = IMM[0] (R108, Table 3.5). -/
def execPset (sg : Fin 8) (c : Fin 18) (f : IFields) (s : State) : Out :=
  runCore sg c 0x2B 0 f (f.d.toNat > 7) (fun s _ => .go (s.modCore sg c fun k => k.setP f.d.toNat (f.imm.getLsbD 0))) s

/-! ## Special registers (R95, R110) -/

/-- TICK as a core reads it (R95). -/
def State.coreTick (s : State) (sg c : Nat) : Nat := if c < 16 then (s.seg sg).coarseTick s.tick else s.tick

/-- MOVS: CTX or TICK (R95, R110). -/
def execMovs (sg : Fin 8) (c : Fin 18) (f : IFields) (s : State) : Out :=
  runCore sg c 0x40 0 f (f.imm.toNat > 1)
    (fun s k =>
      let v : Word := if f.imm == 0 then k.ctx.zeroExtend 64 else BitVec.ofNat 64 (s.coreTick sg c)
      .go (s.modCore sg c fun k => k.setR f.d v)) s

/-- SETS: CTX = g[a][11:0] (R106, R110). -/
def execSets (sg : Fin 8) (c : Fin 18) (f : IFields) (s : State) : Out :=
  runCore sg c 0x41 2 f false (fun s k => .go (s.modCore sg c fun k' => { k' with ctx := (k.r f.a).truncate 12 })) s

end Sys2Proof.Machine
end

