-- ==== Sys2Proof/Machine/Bridge.lean ====
section
/-! DEFINITION. The die bridge and the package's identity (chapter 01): credits, contained resets, and SEG_NODEID. -/

namespace Sys2Proof.Machine

open Sys2Proof

/-! ## Contained resets (R29 to R33) -/

/-- The states of SEG_BRG0_STATUS.STATE (Table 1.5). -/
def BridgeState.code : BridgeState → Nat
  | .training => 0
  | .up => 1
  | .contained => 2
  | .down => 3

/-- An end begins a contained reset: landing and sending stop, the reset is counted, and the third within 1 s will leave the link
down (R29, R33). -/
def BridgeEnd.contain (e : BridgeEnd) (tick start : Nat) : BridgeEnd :=
  let ticks := (start :: e.resetTicks).filter fun t => start - t < 50000000
  { e with
    st := .contained
    lastReset := BitVec.ofNat 32 tick
    resetCount := BitVec.ofNat 8 (sat 8 (e.resetCount.toNat + 1))
    resetTicks := ticks
    resetStart := some start
    settled := false
    goingDown := ticks.length ≥ 3 }

/-- The record of a parity error, or of a link that will be left down (class BRIDGE, Table 12.7). -/
def Segment.bridgeFault (g : Segment) (tick b : Nat) : Segment :=
  let e := g.bend b
  g.raise tick { cls := 4, unit := 14, sev := if e.goingDown then 3 else 2, index := b, info := e.failLane.zeroExtend 32 }

/-- A bridge reset message with LANDED goes to the other end, and arrives a tick later (Timeline 1.1). -/
def State.resetMessage (s : State) (sg b : Nat) : State :=
  let landed := ((s.seg sg).bend b).landedTotal
  let (sg', b') := bridgePartner s.n sg b
  s.mod sg' fun g => g.modBend b' fun e => { e with partnerLanded := some (s.tick + 1, landed) }

/-- An end starts a contained reset of its link: groups that a link on its way down cuts off fail (R194). -/
def State.startReset (s : State) (sg b : Nat) (isFault : Bool) : State :=
  let s := s.mod sg fun g =>
    let g := g.modBend b fun e => e.contain s.tick s.tick
    if isFault || (g.bend b).goingDown then g.bridgeFault s.tick b else g
  let s := s.resetMessage sg b
  if ((s.seg sg).bend b).goingDown then s.failRoutes else s

/-- Synthetic completions for flits that the partner never landed (R30): a collective flit has none. -/
def Segment.dropSent (g : Segment) (cycle : Nat) (fs : List BFlit) : Segment :=
  fs.foldl (fun g x => g.dropFlit cycle x.flit csLinkDown false) g

/-- The end settles what it sent against the partner's LANDED (R30). -/
def Segment.settleSent (g : Segment) (cycle b : Nat) (landed : BitVec 16) : Segment :=
  let e := g.bend b
  let lost := (e.sentTotal - landed).toNat
  let g := g.dropSent cycle (e.sent.drop (e.sent.length - lost))
  g.modBend b fun e => { e with sent := [], due := [], partnerLanded := none, settled := true }

/-! ## Parity on the wire (R27, R28) -/

/-- The even parity bit over the data bits of a run. -/
def parityBit (data : List Bool) : Bool := data.foldl xor false

/-- A run as it is sent: 31 data bits and their parity bit. -/
def sendRun (data : List Bool) : List Bool := data ++ [parityBit data]

/-- Whether a run that was received passes its check. -/
def runPasses (run : List Bool) : Bool := run.foldl xor false == false

/-- A run with the bits at some places flipped on the way. -/
def flipBits (run : List Bool) (bad : List Nat) : List Bool := run.zipIdx.map fun (b, i) => if bad.contains i then !b else b

/-- The data bits of a flit in the runs that carry it: 38 runs of 31, the last filled with zeros. DESIGN CHOICE (log 61): the spec does
not say which lane carries which bit. -/
def flitRuns (f : Flit) : List (List Bool) :=
  let bits := (slotBytes f).flatMap fun b => bitsDown b.toNat 8
  (List.range 38).map fun k => (List.range 31).map fun i => bits.getD (31 * k + i) false

/-- The bytes of bits, first bit most significant. -/
def bitsBytes (bits : List Bool) (n : Nat) : List Byte :=
  (List.range n).map fun k => BitVec.ofNat 8 ((List.range 8).foldl (fun v i => 2 * v + (bits.getD (8 * k + i) false).toNat) 0)

/-- The places within run `k` that bad bits name: each bit is named by its run and its place within the run's 32. -/
def badIn (flips : List (Fin 38 × Fin 32)) (k : Nat) : List Nat := (flips.filter fun x => x.1.val == k).map fun x => x.2.val

/-- The runs of a flit as they arrive, with bits flipped on the way. -/
def wireRuns (f : Flit) (flips : List (Fin 38 × Fin 32)) : List (List Bool) :=
  (flitRuns f).zipIdx.map fun (r, k) => flipBits (sendRun r) (badIn flips k)

/-- The flit that the receiver makes of its runs; none where one fails its check. An even number of bad bits in a run goes unseen. -/
def receiveFlit (f : Flit) (flips : List (Fin 38 × Fin 32)) : Option Flit :=
  let runs := wireRuns f flips
  if runs.all runPasses then some (flitOf (bitsBytes (runs.flatMap fun r => r.take 31) 144)) else none

/-- The flit that a bridge port presents next is what its runs carried: where bits were bad and none of the runs fails, another one,
looked up as such (R332). -/
def Segment.bridgeHit (g : Segment) (cycle b : Nat) (flips : List (Fin 38 × Fin 32)) : Option Segment :=
  match g.landable cycle with
  | none => some g
  | some x =>
    if flips.isEmpty || x.port != 6 + b then some g
    else
      (receiveFlit x.bf.flit flips).map fun f =>
        let (g, w) := g.lookup (tickOf cycle) f
        g.modBend b fun e => { e with landing := modAt e.landing x.idx fun y => { y with flit := f, entry := w } }

/-! ## The commands -/

/-- BRIDGE_FLIT_LAND (R27, R28): a flit of the bridge landing whose parity runs have all passed lands, and its credit starts back. A
run that fails is BRIDGE_PARITY_ERROR's. -/
def execBridgeFlitLand (sg : Fin 8) (x : BridgeFlit) (s : State) : Out :=
  onSeg sg s fun s =>
    match ((s.seg sg).newCycle s.time).bridgeHit s.time x.b x.flips with
    | none => s
    | some g => (s.setSeg sg g).landFrom sg (6 + x.b.val)

/-- BRIDGE_CREDIT (R28): a credit that is due reaches the sender, which releases its oldest copy. -/
def execBridgeCredit (sg : Fin 8) (b : Fin 2) (s : State) : Out :=
  onSeg sg s fun s =>
    let e := (s.seg sg).bend b
    match e.due with
    | [] => s
    | t :: rest =>
      if s.time < t || e.st != .up then s
      else s.mod sg fun g => g.modBend b fun e => { e with due := rest, sent := e.sent.drop 1, credits := e.credits + 1 }

/-- BRIDGE_PARITY_ERROR (R29, R33): fatal to a link that is up; ignored otherwise. -/
def execBridgeParityError (sg : Fin 8) (b : Fin 2) (lane : Fin 128) (s : State) : Out :=
  onSeg sg s fun s =>
    if ((s.seg sg).bend b).st != .up then s
    else
      let s := s.mod sg fun g => (g.modBend b fun e => { e with parityErr := true, failLane := BitVec.ofNat 8 lane.val }).hwMark
        (0x100 + 8 * b.val) 4
      s.startReset sg b true

/-- BRIDGE_RESET_MESSAGE (R29, R30): the other end's message has arrived: an end that is not yet in the reset joins it and
answers, and each end settles the flits it sent. LAST_RESET_TICK is written at such an end too, with the tick of receipt: DESIGN CHOICE
(log 61), since Timeline 1.1 lists the write for the detecting end alone. -/
def execBridgeResetMessage (sg : Fin 8) (b : Fin 2) (s : State) : Out :=
  onSeg sg s fun s =>
    match ((s.seg sg).bend b).partnerLanded with
    | none => s
    | some (t, landed) =>
      if s.tick < t then s
      else
        let s := if ((s.seg sg).bend b).st == .contained then s
          else
            let (sg', b') := bridgePartner s.n sg b
            let start := (((s.seg sg').bend b').resetStart).getD s.tick
            let s := s.mod sg fun g =>
              let g := g.modBend b fun e => e.contain s.tick start
              if (g.bend b).goingDown then g.bridgeFault s.tick b else g
            let s := s.resetMessage sg b
            if ((s.seg sg).bend b).goingDown then s.failRoutes else s
        s.mod sg fun g => g.settleSent s.time b landed

/-- An end whose modules have been retrained: up with full credits, or left down (R28, R33). -/
def BridgeEnd.retrained (e : BridgeEnd) (isDown : Bool) : BridgeEnd :=
  { e with
    st := if isDown then .down else .up
    credits := 64
    sentTotal := 0
    landedTotal := 0
    sent := []
    landing := []
    due := []
    partnerLanded := none
    resetStart := none
    settled := false
    goingDown := false }

/-- Whether an end may come up: it trains after a reset of the segment, or its contained reset has settled and lasted 2,000
ticks (Timeline 1.1). -/
def BridgeEnd.readyUp (e : BridgeEnd) (tick : Nat) : Bool :=
  match e.st with
  | .training => true
  | .contained => e.settled && (match e.resetStart with | some t => t + 2000 ≤ tick | none => false)
  | _ => false

/-- BRIDGE_LINK_UP (R26, R29, R33): the training of the link's modules ends, at both of its ends. A link whose modules cannot be repaired
at training does not come up: it reads down. -/
def execBridgeLinkUp (sg : Fin 8) (x : BridgeUp) (s : State) : Out :=
  onSeg sg s fun s =>
    let b := x.b
    let (sg', b') := bridgePartner s.n sg b
    let e := (s.seg sg).bend b
    let e' := (s.seg sg').bend b'
    if (s.seg sg).boot.pllAt.isNone || (s.seg sg').boot.pllAt.isNone || !e.readyUp s.tick || !e'.readyUp s.tick then s
    else
      let isDown := !x.repaired || e.goingDown || e'.goingDown
      let s := (s.mod sg fun g => g.modBend b fun e => e.retrained isDown).mod sg' fun g => g.modBend b' fun e => e.retrained isDown
      if isDown then s.failRoutes else s

/-- A write of 1 to RETRY of a link: one contained reset of a link that is down (R33), unless the fast clock does not run (R42). -/
def State.bridgeRetry (s : State) (sg b : Nat) : State :=
  if (s.seg sg).clocked && ((s.seg sg).bend b).st == .down then s.startReset sg b false else s

/-- BRIDGE_RETRY (R33). -/
def execBridgeRetry (sg : Fin 8) (b : Fin 2) (ag : Agent) (s : State) : Out :=
  onCtl sg ag s fun s => (s.bridgeRetry sg b).mod sg fun g => g.answer csOk 0

/-! ## SEG_NODEID (R20) -/

/-- A port that does not block a write of SEG_NODEID. -/
def Port.idle (p : Port) : Bool := p.st == .disabled || p.st == .down

/-- A write of SEG_NODEID: on segment 0 while every fabric port of the package is DISABLED or DOWN, the new identity is
held by every segment; any other write is ignored with a record. -/
def State.nodeidWrite (s : State) (sg : Nat) (sz : Sz) (v : Word) : State :=
  if sg == 0 && s.segs.all (fun g => g.ports.all Port.idle) then
    if sz.covers 14 0 then s.modAll fun g => g.setReg 0x10 (sz.place v &&& 0x7FFF) else s
  else s.mod sg fun g => g.accessFault s.tick 0 0x10 v

/-- SEG_NODEID_WRITE (R20). -/
def execSegNodeidWrite (sg : Fin 8) (ag : Agent) (sz : Sz) (v : Word) (s : State) : Out :=
  onCtl sg ag s fun s => (s.nodeidWrite sg sz v).mod sg fun g => g.answer csOk 0

end Sys2Proof.Machine
end

