-- ==== Sys2Proof/Machine/Scoreboard.lean ====
section
/-! DEFINITION. The waypoint scoreboard (R151 to R172): translation for it, ticket records, admission, completion, rings and
cancellation. -/

namespace Sys2Proof.Machine

open Sys2Proof

/-! ## Translation by the range unit for the scoreboard -/

/-- One address looked up: the cache, then the table; a search is a miss and fills the cache (R291, R292). -/
def Segment.lookRange (g : Segment) (c : BitVec 12) (va : Nat) : Segment × Option RangeEntry :=
  match g.cached c va with
  | some r => (g.touch [r], some r)
  | none =>
    let g := g.bump F.XLT_COUNT_MISSES
    let (r, bad) := g.searchRange c va
    let g := if bad then g.bump F.XLT_COUNT_BAD_ENTRIES else g
    match r with
    | some r => (g.fillRange r, some r)
    | none => (g, none)

/-- A whole span looked up, entry by entry: its pieces and whether every entry grants the need; none where a byte is not
covered. The limit of four entries is R120's, for moves. -/
def Segment.lookSpan (c : BitVec 12) (need : BitVec 3) : Nat → Segment → Nat → Nat → List Piece → Bool → Segment × Option (List Piece × Bool)
  | 0, g, _, _, _, _ => (g, none)
  | k + 1, g, va, len, acc, ok =>
    if len == 0 then (g, some (acc.reverse, ok))
    else if va ≥ 2 ^ 48 then (g, none)
    else
      match g.lookRange c va with
      | (g, none) => (g, none)
      | (g, some r) =>
        let n := min len (r.va + r.len - va)
        let p : Piece :=
          { va := va, len := n, ga := r.target + (va - r.va), count := r.perm.getLsbD 2, entVa := r.va, entLen := r.len }
        Segment.lookSpan c need k g (va + n) (len - n) (p :: acc) (ok && r.perm &&& need == need)

/-- Memory of this segment that its own units read and write directly: present, and outside the fabric-homed window. -/
def Segment.homedHere (g : Segment) (p : Piece) : Bool :=
  g.owns p.ga && gaSpace p.ga < 2 && !(gaSpace p.ga == 0 && g.inWindow (gaOff p.ga)) && g.present (gaSpace p.ga) (gaOff p.ga) p.len

/-- A span homed on this segment with a permission, its pieces; otherwise the status that says why not. -/
def Segment.localSpan (g : Segment) (c : BitVec 12) (va len : Nat) (need : BitVec 3) : Segment × (List Piece ⊕ BitVec 4) :=
  match Segment.lookSpan c need 4096 g va len [] true with
  | (g, none) => (g, .inr csUnmapped)
  | (g, some (ps, ok)) => (g, if ok && ps.all g.homedHere then .inl ps else .inr csDenied)

/-- Bytes of a local global address. -/
def Segment.gaBytes (g : Segment) (a n : Nat) : List Byte := memBytes (g.mem (gaSpace a)) (gaOff a) n

/-- The bytes of a translated local span. -/
def Segment.spanBytes (g : Segment) (ps : List Piece) : List Byte := ps.flatMap fun p => g.gaBytes p.ga p.len

/-! ## Rings of trails (R166 to R168) -/

/-- Completed tickets whose records have been written free their entries; a trail whose end record has been written frees its
slot (R158, R168). -/
def Segment.trailSettle (g : Segment) (slot : Nat) (endWritten : Bool) : Segment :=
  match g.trail? slot with
  | none => g
  | some x =>
    let held (n : Nat) : Bool := x.cq.waiting.any fun r => !r.last && field r.bytes 4 2 == n
    let g := { g with trl := { g.trl with
      tickets := g.trl.tickets.filter fun t => !(t.trail == slot && t.st == .done && !held t.n) } }
    if endWritten then { g with trl := { g.trl with trails := g.trl.trails.filter fun y => y.slot != slot } } else g

/-- A record offered to a trail's ring. -/
def Segment.trailPush (g : Segment) (tick slot : Nat) (r : RingRec) : Segment :=
  match g.trail? slot with
  | none => g
  | some x =>
    let (g, ring, e) := g.ringPush tick 7 true x.cq r
    (g.modTrail slot fun y => { y with cq := ring }).trailSettle slot e

/-- The records that wait on a trail's ring are written as far as it has space. -/
def Segment.trailDrain (g : Segment) (tick slot : Nat) : Segment :=
  match g.trail? slot with
  | none => g
  | some x =>
    let (g, ring, e) := g.ringDrain tick 7 true (x.cq.waiting.length + 1) x.cq
    (g.modTrail slot fun y => { y with cq := ring }).trailSettle slot e

/-- A completion record before its PHASE and TICK (Table 4.5). -/
def trailRecord (index number : Nat) (status : BitVec 4) (reason exc failed : Nat) : List Byte :=
  natBytes index 4 ++ natBytes number 2 ++ natBytes (status.toNat + 16 * reason) 1 ++ natBytes exc 1 ++ natBytes (sat 32 failed) 4 ++
  [0, 0, 0, 0]

/-- The trail ends once every array ticket has completed or will never be admitted, and every spawned ticket has completed
(R168). -/
def Segment.trailEnd (g : Segment) (tick slot : Nat) : Segment :=
  match g.trail? slot with
  | none => g
  | some x =>
    let live := g.trl.tickets.any fun t => t.trail == slot && t.st != .done
    if x.ended || live || !(x.next ≥ x.count || x.cancelled) then g
    else if x.torn then { g with trl := { g.trl with trails := g.trl.trails.filter fun y => y.slot != slot } }
    else
      let never := x.count - x.next
      let worst := if never == 0 then x.worst else worse x.worst csAborted
      let r : RingRec := { bytes := trailRecord (2 ^ 30) slot worst 7 0 (x.failed + never),
                           irq := if x.endIrq then some x.line.toNat else none, last := true }
      (g.modTrail slot fun y => { y with ended := true }).trailPush tick slot r

/-! ## Completion (R158, R161, R166 to R168) -/

/-- What becomes of a waiting ticket: it goes on waiting, it completes, or it is ready (R159, R161). -/
inductive Fate where
  | wait | ready | abort | join (status : BitVec 4) (reason : Nat)
  deriving DecidableEq, Repr

/-- The smallest status other than CS_OK among predecessors and parent. -/
def Ticket.worst (t : Ticket) : BitVec 4 :=
  (t.predStatus ++ [t.parentStatus]).foldl (fun w x => worse w (x.getD 0)) 0

/-- R159 and R161. -/
def Ticket.fate (t : Ticket) : Fate :=
  let met := t.predStatus.all Option.isSome && (t.parent.isNone || t.parentStatus.isSome) && t.gateOpen
  if t.rec_.typ != 2 && !t.rec_.runAnyway && t.worst != 0 then .abort
  else if !met then .wait
  else if t.rec_.typ == 2 then .join t.worst (if t.worst == 0 then 0 else 3)
  else .ready

/-- A waiting ticket learns that a ticket of its trail has completed. -/
def Ticket.learn (t : Ticket) (x : Ticket) (status : BitVec 4) : Ticket :=
  let preds := (t.predStatus.zip t.rec_.preds).map fun (s, d) =>
    if s.isNone && !x.spawned && !t.spawned && d != 0 && t.index == x.index + d then some status else s
  { t with predStatus := preds, parentStatus := if t.parent == some x.n && t.parentStatus.isNone then some status else t.parentStatus }

/-- The index word of a ticket's record. -/
def Ticket.indexWord (t : Ticket) : Nat := if t.spawned then 2 ^ 31 + t.n else t.index

/-- A ticket completes: its trail takes the status, its record goes to the ring, and its successors are released at once; a
successor that this completes does the same. -/
def Segment.complete (cycle : Nat) : Nat → Segment → Nat → BitVec 4 → Nat → Nat → Nat → Segment
  | 0, g, _, _, _, _, _ => g
  | fuel + 1, g, n, status, reason, exc, failed =>
    match g.ticket? n with
    | none => g
    | some t =>
      let tick := tickOf cycle
      let g := g.count fun t => { t with tickets := t.tickets + 1 }
      let torn : Bool := match g.trail? t.trail with | some x => x.torn | none => true
      let g := if reason == 2 then g.bump F.TRL_COUNT_BAD_RECORDS
        else if reason == 4 || reason == 5 then g.bump F.TRL_COUNT_CANCELLED else g
      let g := g.modTrail t.trail fun x =>
        { x with worst := worse x.worst status, failed := if status == 0 then x.failed else x.failed + 1,
                 window := if t.spawned then x.window else modWhere x.window (fun w => w.1 == t.index) fun w => (w.1, some status) }
      let g := if (t.rec_.quiet && status == 0) || torn then g.dropTicket n
        else
          let r : RingRec := { bytes := trailRecord t.indexWord n status reason exc failed,
                               irq := if t.rec_.notify then (g.trail? t.trail).map fun x => x.line.toNat else none }
          (g.modTicket n fun t => { t with st := .done }).trailPush tick t.trail r
      let near := g.trl.tickets.filter fun y => y.trail == t.trail && y.st == .waiting
      let g := near.foldl (fun (g : Segment) y =>
        let g := g.modTicket y.n fun y => y.learn t status
        match g.ticket? y.n with
        | none => g
        | some y =>
          if y.st != .waiting then g
          else
            match y.fate with
            | .wait => g
            | .ready => g.modTicket y.n fun y => { y with st := .ready, readyTick := tick }
            | .abort => Segment.complete cycle fuel g y.n csAborted 3 0 0
            | .join st r => Segment.complete cycle fuel g y.n st r 0 0) g
      g.trailEnd tick t.trail

/-- A ticket completes, with room for every successor. -/
def Segment.finish (g : Segment) (cycle n : Nat) (status : BitVec 4) (reason exc failed : Nat) : Segment :=
  Segment.complete cycle 4097 g n status reason exc failed

/-- A waiting ticket is looked at again. -/
def Segment.weigh (g : Segment) (cycle n : Nat) : Segment :=
  match g.ticket? n with
  | none => g
  | some t =>
    if t.st != .waiting then g
    else
      match t.fate with
      | .wait => g
      | .ready => g.modTicket n fun t => { t with st := .ready, readyTick := tickOf cycle }
      | .abort => g.finish cycle n csAborted 3 0 0
      | .join st r => g.finish cycle n st r 0 0

/-! ## Ticket records (R155, R156) -/

/-- A ticket record's fields (Table 4.2). -/
def parseTicket (b : List Byte) : TicketRec :=
  let fl := field b 6 2
  { entry := BitVec.ofNat 32 (field b 0 4), typ := field b 4 1, mop := BitVec.ofNat 8 (field b 5 1), runAnyway := fl.testBit 0,
    notify := fl.testBit 1, quiet := fl.testBit 2, lenArg := fl.testBit 3, afterParent := fl.testBit 4,
    preds := (List.range 4).map fun i => field b (8 + 2 * i) 2 % 512, gateAddr := field b 16 8, gateValue := field b 24 8,
    preloadAddr := field b 32 8, preloadLen := field b 40 2, args := (List.range 8).map fun i => BitVec.ofNat 64 (field b (64 + 8 * i) 8) }

/-- Whether a record is bad by itself (R156): the conditions beside its addresses. -/
def badTicket (b : List Byte) (spawned : Bool) (index : Nat) : Bool :=
  let r := parseTicket b
  let mops : List (BitVec 8) := [0x50, 0x51, 0x52, 0x53, 0x58]
  field b 6 2 ≥ 32 || (List.range 4).any (fun i => field b (8 + 2 * i) 2 ≥ 512) || !zeros b 42 22 || r.typ > 2 ||
  (r.typ == 0 && (r.entry.toNat % 8 != 0 || r.mop != 0)) ||
  (r.typ != 0 && r.entry != 0) ||
  (r.typ == 1 && (!mops.contains r.mop || r.preloadLen == 0 || (r.lenArg && r.mop == 0x53))) ||
  (r.typ == 2 && (r.mop != 0 || r.preloadLen != 0 || r.lenArg)) ||
  (!spawned && r.preds.any fun d => d > index) ||
  (!spawned && r.afterParent) || (spawned && r.preds.any fun d => d != 0) ||
  (r.gateAddr != 0 && r.gateAddr % 8 != 0) || r.preloadAddr % 8 != 0 || r.preloadLen > 4064 || r.preloadLen % 8 != 0

/-- The gate word's and the preload's places; none where one is not homed here or not readable (R156). -/
def Segment.ticketPlaces (g : Segment) (c : BitVec 12) (r : TicketRec) : Segment × Option (Option Nat × List Piece) :=
  let (g, gate) : Segment × Option (Option Nat) :=
    if r.gateAddr == 0 then (g, some none)
    else
      match g.localSpan c r.gateAddr 8 1 with
      | (g, .inl ps) => (g, (ps.head?).map fun p => some p.ga)
      | (g, .inr _) => (g, none)
  match gate with
  | none => (g, none)
  | some gate =>
    if r.preloadLen == 0 then (g, some (gate, []))
    else
      match g.localSpan c r.preloadAddr r.preloadLen 1 with
      | (g, .inl ps) => (g, some (gate, ps))
      | (g, .inr _) => (g, none)

/-- A ticket takes its entry (R157, R169). `reads` says that its gate word is read now, with what status. -/
def Segment.takeTicket (g : Segment) (cycle n slot index : Nat) (spawned : Bool) (parent : Option Nat) (ctx : BitVec 12) (b : List Byte)
    (reads : Option DpmStatus) : Segment :=
  let r := parseTicket b
  let bad := badTicket b spawned index
  let (g, places) := if bad then (g, none) else g.ticketPlaces ctx r
  let window : List (Nat × Option (BitVec 4)) := match g.trail? slot with | some x => x.window | none => []
  let preds : List (Option (BitVec 4)) := r.preds.map fun d =>
    if d == 0 then some 0 else ((window.find? fun w => w.1 == index - d).map Prod.snd).getD (some 0)
  let gate := (places.map Prod.fst).getD none
  let word : Nat := match gate with | some a => bytesNat (g.gaBytes a 8) | none => 0
  let g := match gate, reads with | some _, some st => g.dpmLate (tickOf cycle) st | _, _ => g
  let open_ : Bool := gate.isNone || ((match reads with | some (some st) => st == 0 | _ => false) && word ≥ r.gateValue)
  let t : Ticket :=
    { n := n, trail := slot, index := if spawned then n else index, spawned := spawned, rec_ := r, gateGa := gate, gateOpen := open_,
      gateAt := if reads.isSome then cycle + 1024 else cycle, preload := (places.map Prod.snd).getD [],
      parent := if spawned && r.afterParent then parent else none, predStatus := if spawned then [some 0, some 0, some 0, some 0] else preds,
      ctx := ctx }
  let g := { g with trl := { g.trl with tickets := g.trl.tickets ++ [t] } }
  let poison : Bool := gate.isSome && (match reads with | some (some st) => st != 0 | _ => false)
  if places.isNone then g.finish cycle n csDenied 2 0 0
  else if poison then g.finish cycle n csPoison 6 0 0
  else g.weigh cycle n

/-! ## Cancellation (R172) -/

/-- A ticket is cancelled or torn down, wherever it stands. -/
def Segment.doom (g : Segment) (cycle reason n : Nat) : Segment :=
  match g.ticket? n with
  | none => g
  | some t =>
    match t.st with
    | .waiting => g.finish cycle n csAborted reason 0 0
    | .ready => g.finish cycle n csAborted reason 0 0
    | .running =>
      (match (List.range 16).find? fun c => (g.core c).ticket == some n with
       | some c => g.cancelRunning cycle c n reason
       | none => g)
    | .saved _ _ => g.endTicket cycle n csAborted reason 0
    | .move => g.endTicket cycle n csAborted reason 0
    | .ending _ _ _ => g
    | .done => g

/-- Every live ticket that a test selects, cancelled in the order of the entries' admission. None of those that wait learns of another's
end: each ends for the cancellation. -/
def Segment.doomAll (g : Segment) (cycle reason : Nat) (p : Ticket → Bool) : Segment :=
  let ns := (g.trl.tickets.filter fun t => p t && t.st != .done).map Ticket.n
  let g := { g with trl := { g.trl with tickets := modWhere g.trl.tickets (fun t => p t && t.st == .waiting) fun t => { t with st := .ready } } }
  ns.foldl (fun (g : Segment) n => g.doom cycle reason n) g

/-- Every ticket of a context is cancelled, and the admission of its trails ends (R172). -/
def Segment.cancelContext (g : Segment) (cycle reason : Nat) (ctx : BitVec 12) : Segment :=
  let torn := reason == 5
  let slots := (g.trl.trails.filter fun x => x.ctx == ctx).map Trail.slot
  let g := { g with trl := { g.trl with trails := modWhere g.trl.trails (fun x => x.ctx == ctx) fun x =>
    { x with cancelled := true, torn := x.torn || torn, cq := if torn then { x.cq with waiting := [] } else x.cq } } }
  let g := if torn then slots.foldl (fun (g : Segment) sl => g.trailSettle sl ((g.trail? sl).any Trail.ended)) g else g
  let g := g.doomAll cycle reason fun t => t.ctx == ctx
  slots.foldl (fun (g : Segment) sl => g.trailEnd (tickOf cycle) sl) g

end Sys2Proof.Machine
end

