-- ==== Sys2Proof/Machine/Lines.lean ====
section
/-! DEFINITION. The lines of busy descriptors (R79, R119, R126, R178 to R183) and the access counters they feed (R305). -/

namespace Sys2Proof.Machine

open Sys2Proof

/-! ## Access counters (R305, R306) -/

def Segment.modResident (g : Segment) (c : BitVec 12) (f : Resident → Resident) : Segment :=
  { g with xlt := { g.xlt with resident := modWhere g.xlt.resident (fun r => r.ctx == c) f } }

def Segment.resident? (g : Segment) (c : BitVec 12) : Option Resident := g.xlt.resident.find? fun r => r.ctx == c

/-- The bytes of a migration record before its PHASE and TICK (Table 7.8). -/
def migRecord (addr ctx kind n : Nat) : List Byte := natBytes addr 8 ++ natBytes ctx 2 ++ natBytes kind 1 ++ natBytes n 1 ++ [0, 0, 0, 0]

/-- A record offered to a context's migration ring; a HOT record that finds the ring full is dropped and counted (R306). -/
def Segment.migPush (g : Segment) (tick : Nat) (r : Resident) (hot : Bool) (bytes : List Byte) : Segment :=
  let ring := g.ringSee r.mig
  if hot && (ring.isFull || !ring.waiting.isEmpty) then
    (g.modResident r.ctx fun x => { x with mig := ring.stuck tick }).bump F.XLT_COUNT_HOT_DROPPED
  else
    let (g, ring, _) := g.ringPush tick 10 true ring { bytes := bytes, irq := r.entry.line.map BitVec.toNat }
    g.modResident r.ctx fun x => { x with mig := ring }

/-- One line issues through a range entry with COUNT set: every 64th is sampled into the hot table (R305). -/
def Segment.countLine (g : Segment) (tick : Nat) (c : BitVec 12) (ga : Nat) : Segment :=
  match g.resident? c with
  | none => g
  | some r =>
    if r.entry.migrate != 1 && r.entry.migrate != 2 then g
    else
      let k := r.sample + 1
      if k % 64 != 0 then g.modResident c fun x => { x with sample := k }
      else
        let region := ga / regionSize
        let hot := hotBump r.hot region
        let n := (lookupKey region hot).getD 0
        let th := max 1 (g.fld F.XLT_HOT_CTRL_THRESHOLD)
        if n < th then g.modResident c fun x => { x with sample := 0, hot := hot }
        else
          let hot := modWhere hot (fun x => x.1 == region) fun x => (x.1, th / 2)
          let g := g.modResident c fun x => { x with sample := 0, hot := hot }
          match g.resident? c with
          | some r => g.migPush tick r true (migRecord (region * regionSize) c.toNat 1 n)
          | none => g

/-- The piece an address lies in. -/
def pieceOf (ps : List Piece) (va : Nat) : Option Piece := ps.find? fun p => p.va ≤ va && va < p.va + p.len

/-- The count of one side of a line. -/
def Segment.countSide (g : Segment) (tick : Nat) (c : BitVec 12) (side : Side) (m : Nat) : Segment :=
  match side with
  | .lunchbox _ => g
  | .span va ps =>
    match pieceOf ps (va + m) with
    | some p => if p.count then g.countLine tick c (p.ga + (va + m - p.va)) else g
    | none => g

/-- The lines of a shape counted by the entries they issue through. -/
def Segment.countLines (g : Segment) (tick : Nat) (c : BitVec 12) (ps : List Piece) (ls : List Nat) : Segment :=
  ls.foldl (fun (g : Segment) l =>
    match ps.find? fun p => p.ga / 128 ≤ l && l * 128 < p.ga + p.len with
    | some p => if p.count then g.countLine tick c (l * 128) else g
    | none => g) g

/-! ## Linear moves (R125, R126) -/

/-- Whether byte `m` of a side lies in the lunchbox, and its address. -/
def Side.place (s : Side) (m : Nat) : Bool × Nat :=
  match s with
  | .lunchbox o => (true, o + m)
  | .span va ps => (false, (pieceAt ps (va + m)).getD 0)

/-- How a line goes: 0 read and written by the store, 1 RD of a GET, 2 CPY (R79). -/
def Segment.lineKind (g : Segment) (op : Nat) (src : Side) (relay : Bool) (m m1 : Nat) : Nat :=
  let (lb, sx) := src.place m
  if lb || g.owns sx then 0
  else if op == 0x50 then 1
  else if op == 0x52 && m1 - m == 128 && !relay then 2
  else 0

/-- The end of the line that begins at byte `m`. -/
def lineEnd (anchor : Side) (len m : Nat) : Nat := min len (m + 128 - (anchor.place m).2 % 128)

/-- Whether the next line extends a burst: the source line follows on, neither side crosses a 64 KiB boundary (R53). -/
def extendsBurst (kind : Nat) (src dst : Side) (first last next : Nat × Nat) : Bool :=
  let sl (m : Nat) : Nat := (src.place m).2 / 128
  let (dlb, _) := dst.place first.1
  let db (m : Nat) : Nat := (dst.place m).2 / 65536
  let dl (m : Nat) : Nat := (dst.place m).2 / 128
  sl next.1 == sl last.1 + 1 && sl next.1 % 512 != 0 &&
  (if kind == 1 then dlb || (db first.1 == db (first.2 - 1) && db next.1 == db first.1 && db (next.2 - 1) == db first.1)
   else dl next.1 == dl last.1 + 1 && dl next.1 % 512 != 0)

/-- The lines of the burst that begins with the lines already taken, up to 16. -/
def Segment.burst (g : Segment) (op : Nat) (src dst : Side) (len : Nat) (relay : Bool) (kind : Nat) (first : Nat × Nat) :
    Nat → Nat × Nat → List (Nat × Nat)
  | 0, _ => []
  | k + 1, last =>
    if last.2 ≥ len then []
    else
      let next := (last.2, lineEnd (if op == 0x50 then src else dst) len last.2)
      if g.lineKind op src relay next.1 next.2 == kind && extendsBurst kind src dst first last next then
        next :: g.burst op src dst len relay kind first k next
      else []

/-- The next unit of a linear move: its kind and its lines. -/
def Segment.moveUnit (g : Segment) (op : Nat) (src dst : Side) (len : Nat) (relay : Bool) (pos : Nat) : Nat × List (Nat × Nat) :=
  let first := (pos, lineEnd (if op == 0x50 then src else dst) len pos)
  let kind := g.lineKind op src relay first.1 first.2
  (kind, if kind == 0 then [first] else first :: g.burst op src dst len relay kind first 15 first)

/-- A job for each line of a unit. -/
def Segment.lineJobs (g : Segment) (d : Nat) (waits : Nat × Nat → List Nat) : List (Nat × Nat) → Segment × List Nat
  | [] => (g, [])
  | x :: r =>
    let (g, id) := g.newJob d (.linear x.1 (x.2 - x.1)) (waits x)
    let (g, ids) := g.lineJobs d waits r
    (g, id :: ids)

/-- Requests made since an id leave in order; none where one may not leave (R56). -/
def Segment.issueNew (g : Segment) (cycle from_ : Nat) : Option Segment :=
  let ids := (g.txn.reqs.filter fun r => from_ ≤ r.id).map Req.id
  ids.foldl (fun (o : Option Segment) id =>
    match o with
    | none => none
    | some g =>
      match g.req? id with
      | some r => if g.canIssue r then some (g.issueReq cycle r) else none
      | none => some g) (some g)

/-- The unit's jobs and requests: the lines of a burst under one request, a line of the store's own as its reads, or with a
lunchbox source as its writes. -/
def Segment.makeUnit (g : Segment) (cycle : Nat) (d : Desc) (src dst : Side) (kind : Nat) (ls : List (Nat × Nat)) : Segment :=
  let m := (ls.headD (0, 0)).1
  let line (side : Side) (k : Nat) : Nat := (side.place k).2 / 128
  if kind == 1 then
    let (g, js) := g.lineJobs d.idx (fun x => [line src x.1]) ls
    g.addReq cycle 0 d.ctx d.agent (line src m) ls.length [] [] ((js.zip ls).map fun (j, x) => .src j (line src x.1))
  else if kind == 2 then
    let (g, js) := g.lineJobs d.idx (fun _ => []) ls
    g.addReq cycle 5 d.ctx d.agent (line src m) ls.length (natBytes (dst.place m).2 8 ++ natBytes (ls.length - 1) 1) []
      (js.map fun j => .cpy j)
  else
    match ls with
    | [] => g
    | x :: _ =>
      let lines : List Nat := match src with
        | .lunchbox _ => []
        | .span _ _ => ((List.range (x.2 - x.1)).map fun i => line src (x.1 + i)).eraseDups
      let (g, id) := g.newJob d.idx (.linear x.1 (x.2 - x.1)) lines
      if lines.isEmpty then g.jobProgress cycle id
      else lines.foldl (fun (g : Segment) l => g.addReq cycle 0 d.ctx d.agent l 1 [] [] [.src id l]) g

/-! ## Issuing (R119) -/

/-- Whether a job is a tile's signal. -/
def Job.isSig (j : Job) : Bool :=
  match j.kind with
  | .tileSig _ => true
  | _ => false

/-- The next line or burst of a descriptor leaves; none while a gate, its cycle or R56 holds it. -/
def Segment.nextLine (g : Segment) (cycle : Nat) (d : Desc) : Option Segment :=
  let from_ := g.txn.nextReq
  if cycle < d.nextCycle then none
  else
    match d.body with
    | .move op src dst len relay =>
      if d.pos ≥ d.total then none
      else
        let (kind, ls) := g.moveUnit op src dst len relay d.pos
        let g := g.modDesc d.idx fun x => { x with pos := (ls.getLastD (0, len)).2, nextCycle := cycle + ls.length }
        let g := ls.foldl (fun (g : Segment) x => (g.countSide (tickOf cycle) d.ctx src x.1).countSide (tickOf cycle) d.ctx dst x.1) g
        ((g.makeUnit cycle d src dst kind ls).issueNew cycle from_).map Segment.wake
    | .atom kind ps payload _ _ =>
      if d.pos ≥ d.total then none
      else
        match ps with
        | [] => none
        | p :: _ =>
          let g := g.modDesc d.idx fun x => { x with pos := 1, nextCycle := cycle + 1 }
          let g := if p.count then g.countLine (tickOf cycle) d.ctx p.ga else g
          let (g, _) := g.newJob d.idx .single []
          (g.addReq cycle kind.toNat d.ctx d.agent (p.ga / 128) 1 payload [] [.atomRes d.idx]).issueNew cycle from_
    | .shape _ _ _ sig =>
      match g.txn.reqs.find? fun r => r.waiting && g.shapeReq r == some d.idx with
      | some r =>
        if g.canIssue r then
          -- a tile signal is a line of its own (R180, R305)
          let isSig : Bool := match r.uses.head? with
            | some (.dst j) => (g.job? j).any Job.isSig
            | _ => false
          let g := if isSig then g.countLines (tickOf cycle) d.ctx sig [r.line] else g
          some ((g.modDesc d.idx fun x => { x with nextCycle := cycle + r.len }).issueReq cycle r)
        else none
      | none => none

/-- Whether a step put something into the router. -/
def injected (g g' : Segment) : Bool := g.rte.injL.length < g'.rte.injL.length

/-- The order in which lines and requests leave (R55, R183): the cycle they became ready, then their key, then the order they were made. -/
def issueBefore (a b : Nat × Nat × Nat) : Bool :=
  if a.1 ≠ b.1 then a.1 < b.1 else if a.2.1 ≠ b.2.1 then a.2.1 < b.2.1 else a.2.2 < b.2.2

/-- The place of a waiting request in that order. -/
def Segment.reqRank (g : Segment) (r : Req) : Nat × Nat × Nat := (r.ready, g.reqKey r, r.ord)

/-- The place of a descriptor's next line in that order: its age is the cycle after its previous line issued. -/
def Desc.rank (d : Desc) : Nat × Nat × Nat := (d.nextCycle, d.agent.index * 1024 + d.idx, 0)

/-- Whether an older line of a descriptor, or an older request, that may leave for the router waits beside the one of a rank. -/
def Segment.olderWaits (g : Segment) (cycle : Nat) (rank : Nat × Nat × Nat) (desc req : Option Nat) : Bool :=
  (g.trl.descs.any fun e => some e.idx != desc && issueBefore e.rank rank &&
    (match g.nextLine cycle e with | some x => injected g x | none => false)) ||
  (g.txn.reqs.any fun e => some e.id != req && e.waiting && (g.shapeReq e).isNone && !g.goesDirect e && g.canIssue e &&
    issueBefore (g.reqRank e) rank)

/-- LINE_ISSUE (R55, R119, R183): the next line of a descriptor leaves, unless an older line or request waits for the router. -/
def execLineIssue (sg : Fin 8) (desc : Fin 1024) (s : State) : Out :=
  onSeg sg s fun s =>
    let g := s.seg sg
    match g.desc? desc with
    | none => s
    | some d =>
      match g.nextLine s.time d with
      | none => s
      | some g' => if injected g g' && g.olderWaits s.time d.rank (some d.idx) none then s else s.setSeg sg g'

/-- REQUEST_ISSUE (R55, R56, R183): a waiting request leaves when it may and nothing older waits for the router; one whose guard word
was awaited looks at the word again (R295). -/
def execRequestIssue (sg : Fin 8) (req : Nat) (s : State) : Out :=
  onSeg sg s fun s =>
    let g := s.seg sg
    match g.req? req with
    | none => s
    | some r =>
      if r.unguarded then s.setSeg sg (g.issueDirect s.time r)
      else if (g.shapeReq r).isSome || !g.canIssue r then s
      else if !g.goesDirect r && g.olderWaits s.time (g.reqRank r) none (some r.id) then s
      else s.setSeg sg (g.issueReq s.time r)

/-! ## Tiles (R178) -/

/-- The source lines a tile needs, ascending. -/
def tileSources (s : Shape) (src : List Piece) (k : Nat) : List Nat :=
  let ls := (s.tilePositions k).flatMap fun (_, p) =>
    match p with
    | .elem sa => (List.range (2 ^ s.elem)).filterMap fun i => (pieceAt src (sa + i)).map fun ga => ga / 128
    | _ => []
  ls.eraseDups.foldl (fun acc l => ins l acc) []
where
  /-- A number put into an ascending list. -/
  ins (x : Nat) : List Nat → List Nat
    | [] => [x]
    | y :: ys => if x < y then x :: y :: ys else y :: ins x ys

/-- Ascending lines cut into bursts of at most 16 that cross no 64 KiB boundary (R126). -/
def cutBursts (ls : List Nat) : List (List Nat) :=
  (ls.foldl (fun (acc : List (List Nat)) l =>
    match acc with
    | b :: bs => if b.headD 0 + 1 == l && l % 512 != 0 && b.length < 16 then (l :: b) :: bs else [l] :: b :: bs
    | [] => [[l]]) []).reverse.map List.reverse


/-- A tile's reads begin. -/
def Segment.tileRead (g : Segment) (cycle : Nat) (d : Desc) (s : Shape) (src : List Piece) : Segment :=
  let lines := tileSources s src d.pos
  let (g, id) := g.newJob d.idx (.tile d.pos) lines
  let g := g.modDesc d.idx fun x => { x with pos := x.pos + 1 }
  let g := g.countLines (tickOf cycle) d.ctx src lines
  (cutBursts lines).foldl (fun (g : Segment) b =>
    g.addReq cycle 0 d.ctx d.agent (b.headD 0) b.length [] [] (b.map fun l => .src id l)) g

/-- The tiles of a descriptor that are being read or wait to be written. -/
def Segment.tileJobs (g : Segment) (desc : Nat) : List Job :=
  g.trl.jobs.filter fun j => j.desc == desc && (match j.kind with | .tile _ => true | _ => false)

/-- The next tile's reads begin, and the landed tiles are written (R178 to R180). -/
def Segment.tileStep (g : Segment) (cycle : Nat) (d : Desc) (sh : Shape) (src dst : List Piece) : Segment :=
  let tiles := g.tileJobs d.idx
  let g := if d.pos < d.total then g.tileRead cycle d sh src else g
  let g := tiles.foldl (fun (g : Segment) j =>
    match j.kind with
    | .tile k => (g.countLines (tickOf cycle) d.ctx dst (tileLines sh dst k)).tileWrite cycle d j sh src dst k
    | _ => g) g
  ((g.tileSignals cycle d.idx (d.total + 1)).descCheck d.idx).wake

/-- MOVT_TILE_START (R178 to R180): once the reads of the tile before have landed, the next tile's reads begin and the landed
tile's destination lines are issued. -/
def execMovtTileStart (sg : Fin 8) (desc : Fin 1024) (s : State) : Out :=
  onSeg sg s fun s =>
    let g := s.seg sg
    match g.desc? desc with
    | none => s
    | some d =>
      match d.body with
      | .shape sh src dst _ =>
        let tiles := g.tileJobs d.idx
        if tiles.any (fun j => !j.waits.isEmpty) || (tiles.isEmpty && d.pos ≥ d.total) then s
        else
          s.setSeg sg (g.tileStep s.time d sh src dst)
      | _ => s

end Sys2Proof.Machine
end

