-- ==== Sys2Proof/Machine/Recall.lean ====
section
/-! DEFINITION. Recalls (R298 to R303) and the withdrawal of replicas (R316). -/

namespace Sys2Proof.Machine

open Sys2Proof

/-- Whether two spans overlap. -/
def overlaps (a n b m : Nat) : Bool := a < b + m && b < a + n

/-- The translations a side holds. -/
def Side.pieces : Side → List Piece
  | .lunchbox _ => []
  | .span _ ps => ps

/-- The translations a descriptor holds. -/
def Body.pieces : Body → List Piece
  | .move _ src dst _ _ => src.pieces ++ dst.pieces
  | .shape _ src dst sig => src ++ dst ++ sig
  | .atom _ ps _ _ _ => ps

/-- Whether a piece came through an entry that overlaps a range. -/
def Piece.through (p : Piece) (start len : Nat) : Bool := overlaps p.entVa p.entLen start len

/-! ## Replicas (R316) -/

/-- The first byte of a replica's region as a global address. -/
def Segment.replicaGa (g : Segment) (r : Replica) : Nat := gaMake g.node.toNat r.home 0 (r.region * regionSize)

/-- Replicas are withdrawn: their entries serve nothing more. A copy of such a region that is under way is given up with its
frame. -/
def Segment.withdraw (g : Segment) (p : Replica → Bool) : Segment :=
  let k := (g.plc.replicas.filter fun r => !r.withdrawn && p r).length
  let hit (c : ReplicaCopy) : Bool := p { region := c.region, home := c.home, guard := c.guard, frame := c.frame, installed := 0 }
  let frames := (g.plc.copies.filter hit).map ReplicaCopy.frame
  { g with plc := { g.plc with
      replicas := modWhere g.plc.replicas p fun r => { r with withdrawn := true }
      copies := g.plc.copies.filter fun c => !hit c
      framesUsed := g.plc.framesUsed.filter fun f => !frames.contains f } }.bumpBy F.PLC_COUNT_REPLICAS_WITHDRAWN k

/-- Every replica in the package of a segment's regions that a test selects is withdrawn. -/
def State.withdrawOf (s : State) (home : Nat) (p : Nat → Bool) : State :=
  s.modAll fun g => g.withdraw fun r => r.home == home && p r.region

/-- Whether a read is being served from a frame. -/
def Segment.frameBusy (g : Segment) (frame : Nat) : Bool :=
  let a := (g.fld F.PLC_POOL_BASE + frame) * regionSize
  g.txn.dpm.any fun d => d.space == 0 && a ≤ d.addr && d.addr < a + regionSize

/-! ## Recalls -/

/-- The recalls that mark a translation obtained in this cycle (R137). -/
def Segment.markedBy (g : Segment) (cycle : Nat) (ctx : BitVec 12) (ps : List Piece) : List Nat :=
  (g.xlt.marks.filter fun (m : RecallMark) => m.at_ == cycle && m.ctx == ctx && ps.any fun p => p.through m.start m.len).map RecallMark.key

/-- A recall's key within the package. -/
def recallKey (sg id : Nat) : Nat := sg * 2 ^ 32 + id

/-- An operation of a group queue loses the translations that a recall withdraws: its later lines fail with CS_UNMAPPED. -/
def COp.recalled (op : COp) (start len : Nat) : COp :=
  if (op.src ++ op.dst).any fun p => p.through start len then
    { op with src := op.src.filter fun p => !p.through start len, dst := op.dst.filter fun p => !p.through start len,
              launch := worse op.launch csUnmapped }
  else op

/-- A MAPPING recall on one segment (R299, steps 1 to 3). -/
def Segment.recallMap (g : Segment) (cycle key : Nat) (ctx : BitVec 12) (start len : Nat) : Segment :=
  let mark : RecallMark := { key := key, ctx := ctx, start := start, len := len, at_ := cycle }
  let g := { g with xlt := { g.xlt with
    cache := g.xlt.cache.filter fun r => !(r.ctx == ctx && overlaps r.va r.len start len)
    marks := (g.xlt.marks.filter fun (m : RecallMark) => m.at_ == cycle) ++ [mark] } }
  let hit := g.trl.descs.filter fun d => d.ctx == ctx && d.body.pieces.any fun p => p.through start len
  let g := hit.foldl (fun (g : Segment) d =>
    (g.modDesc d.idx fun x => { x with recalls := x.recalls ++ [key] }).descStop cycle d csUnmapped) g
  { g with groups := g.groups.map fun x =>
      if x.ctx != ctx then x
      else
        { x with queue := x.queue.map fun op => op.recalled start len,
                 head := x.head.map fun h =>
                   let op := h.op.recalled start len
                   if op == h.op then h else { h with op := op, worst := worse h.worst csUnmapped } } }

/-- A recall record's faults (R298): a reserved byte, a misaligned field. -/
def badRecall (b : List Byte) : Bool :=
  field b 0 8 % 65536 != 0 || field b 8 8 % 65536 != 0 || field b 8 8 == 0 || field b 16 2 ≥ 4096 || field b 18 1 > 1 || !zeros b 20 12

/-- A recall starts (R298 to R300). -/
def State.startRecall (s : State) (sg : Nat) (b : List Byte) (submitted : Bool) (owner : Option (Owner × Option Nat)) : State :=
  let g := s.seg sg
  let isReplica := field b 18 1 == 1
  let segs := (List.range s.n).filter fun t => t == sg || ((field b 19 1).testBit t && s.reachable sg t)
  let start := field b 0 8
  let len := field b 8 8
  let ctx := BitVec.ofNat 12 (field b 16 2)
  let r : Recall := { id := g.xlt.nextRecall, replica := isReplica, start := start, len := len, ctx := ctx, segs := segs,
                      submitted := submitted, owner := owner }
  let s := s.setSeg sg { g with xlt := { g.xlt with recalls := g.xlt.recalls ++ [r], nextRecall := g.xlt.nextRecall + 1 } }
  if isReplica then s.modAll fun g => g.withdraw fun x => overlaps (g.replicaGa x) regionSize start len
  else segs.foldl (fun (s : State) t => s.mod t fun g => g.recallMap s.time (recallKey sg r.id) ctx start len) s

/-- Whether every segment of a recall has finished (R299 step 4, R300). -/
def State.recallOver (s : State) (sg : Nat) (r : Recall) : Bool :=
  if r.replica then
    s.segs.all fun g => !g.plc.replicas.any fun x => x.withdrawn && overlaps (g.replicaGa x) regionSize r.start r.len && g.frameBusy x.frame
  else
    r.segs.all fun t =>
      let g := s.seg t
      !(g.trl.descs.any fun d => d.recalls.contains (recallKey sg r.id)) &&
      !(g.txn.dpm.any fun d => match d.use with
        | .contrib n _ _ => (match g.grp? n with | some x => x.ctx == r.ctx | none => false)
        | _ => false)

/-- RECALL_SUBMIT (R298): a record with a fault is refused, counted, and acknowledged with no effect. -/
def execRecallSubmit (sg : Fin 8) (ag : Agent) (v : Word) (s : State) : Out :=
  onDoms sg ag [domRange] s fun s =>
    let g := s.seg sg
    if !ag.admin then s.setSeg sg ((g.accessFault s.tick 10 0x140030 v).answer csOk 0)
    else
      let off := bitsOf v 43 5 * 32
      let b := g.hbmBytes off 32
      let g := (g.setFld F.XLT_RECALL_STATUS_SUBMITTED ((g.fld F.XLT_RECALL_STATUS_SUBMITTED + 1) % 2 ^ 32)).answer csOk 0
      if !g.present 0 off 32 || badRecall b then
        let r : Recall := { id := g.xlt.nextRecall, replica := false, start := 0, len := 0, ctx := 0, segs := [], submitted := true, owner := none }
        let g := { g with xlt := { g.xlt with recalls := g.xlt.recalls ++ [r], nextRecall := g.xlt.nextRecall + 1 } }
        s.setSeg sg (g.bump F.XLT_COUNT_REFUSED)
      else (s.setSeg sg g).startRecall sg b true none

/-- The first recall that may be acknowledged: submitted ones in submission order (R301). -/
def State.ackable (s : State) (sg : Nat) (held : Bool) : List Recall → Option Recall
  | [] => none
  | r :: rest =>
    if s.recallOver sg r && !(r.submitted && held) then some r else s.ackable sg (held || r.submitted) rest

/-- RECALL_ACK (R301): a recall that every segment has finished is acknowledged. -/
def execRecallAck (sg : Fin 8) (s : State) : Out :=
  onSeg sg s fun s =>
    let g := s.seg sg
    match s.ackable sg false g.xlt.recalls with
    | none => s
    | some r =>
      let g := { g with xlt := { g.xlt with recalls := g.xlt.recalls.filter fun x => x.id != r.id } }
      let g := if r.submitted then g.setFld F.XLT_RECALL_STATUS_ACKED ((g.fld F.XLT_RECALL_STATUS_ACKED + 1) % 2 ^ 32) else g
      let g := match r.owner with
        | some (o, some i) => (g.modSlot o i fun x => { x with st := .done }).wake
        | _ => g
      s.setSeg sg g

end Sys2Proof.Machine
end

