-- ==== Sys2Proof/Machine/Issue.lean ====
section
/-! DEFINITION. Instructions that issue work: GET, PUT, COPY, MOVT, ATOM, ATOMF, SIG (R117 to R128, R132), CJOIN, CAMP, VOTE
and RIDE (R129, R131, R196 to R203), CHUNK (R130), and the range misses that hold them (R120, R291, R307, R308). -/

namespace Sys2Proof.Machine

open Sys2Proof

/-- What an issue comes to: it is issued or settled, an exception, nothing yet, or a range miss at a context address. -/
inductive Iss where
  | ok (s : State)
  | exc (code : BitVec 4) (info : Word)
  | hold
  | miss (va : Nat)
  deriving DecidableEq, Repr

/-! ## Checks in the order of R140 -/

/-- A D that names neither a slot nor untallied work (R117). -/
def badSlot (f : IFields) : Bool := f.d.toNat > 15 && f.d.toNat != 31

/-- The slot that D names; none for untallied work. -/
def slotOf (f : IFields) : Option Nat := if f.d.toNat < 16 then some f.d.toNat else none

/-- EX_ALIGN, EX_BOUNDS and EX_POISON of a descriptor of `n` bytes (R99, R119). -/
def descExc (k : Core) (a : Word) (n : Nat) : Option (BitVec 4 × Word) :=
  if a.toNat % 8 != 0 then some (0x3, a)
  else if a.toNat + n > 0x10000 then some (0x4, a)
  else
    match (List.range (ceilDiv n 8)).find? fun i => k.lbBad.contains (a.toNat / 8 + i) with
    | some i => some (0x6, BitVec.ofNat 64 (a.toNat + 8 * i))
    | none => none

/-- EX_SLOT of an issue (R117). -/
def Segment.slotExc (g : Segment) (o : Owner) (slot : Option Nat) : Option (BitVec 4 × Word) :=
  match slot with
  | some i => if (g.slot o i).st == .busy then some (0x9, BitVec.ofNat 64 i) else none
  | none => none

/-- The first exception of a list of checks. -/
def firstExc : List (Option (BitVec 4 × Word)) → Option (BitVec 4 × Word)
  | [] => none
  | some x :: _ => some x
  | none :: r => firstExc r

/-! ## Settling and storing -/

/-- The work is settled at issue (R117, R120, R121). -/
def Segment.settleIssue (g : Segment) (tick c : Nat) (slot : Option Nat) (st : BitVec 4) : Segment :=
  let o := g.ownerOf c
  match slot with
  | some i => g.modSlot o i fun _ => { st := .done, status := st }
  | none => if st == 0 then g else g.untallied tick c o (g.core c).ctx 1 st

/-- A descriptor enters the store (R118, R119); its first line may issue after the times of Table 3.11. One whose translation a recall
marks in this cycle is marked with it (R137). -/
def Segment.newDesc (g : Segment) (cycle c : Nat) (slot : Option Nat) (body : Body) (total bytes : Nat) (used : List RangeEntry) :
    Segment :=
  let o := g.ownerOf c
  let keys := g.markedBy cycle (g.core c).ctx body.pieces
  let d : Desc :=
    { idx := (firstFree (g.trl.descs.map Desc.idx) 1024).getD 0, serial := g.trl.nextDesc, owner := o, slot := slot, core := c,
      ctx := (g.core c).ctx, body := body, total := total, recalls := keys,
      nextCycle := cycle + 4 + ceilDiv bytes 32 + 4 * used.length }
  let g := g.touch used
  let g := { g with trl := { g.trl with descs := g.trl.descs ++ [d], nextDesc := g.trl.nextDesc + 1 } }
  let g := match slot with
    | some i => g.modSlot o i fun _ => { st := .busy }
    | none => g
  if keys.isEmpty then g else g.descStop cycle d csUnmapped

/-- Whether the store is full (R118): with the moves, atomics and signals it holds the descriptors of the collective operations. -/
def Segment.storeFull (g : Segment) : Bool :=
  1024 ≤ g.trl.descs.length + (g.groups.flatMap fun x => x.queue.filter fun op => op.code == 0x58).length

/-- Several sides judged together (R120): a miss to be searched, the smallest status, or the pieces of every side. `force` is the
status a driver answered with (R308). -/
inductive Sides where
  | ok (sides : List (List Piece)) (used : List RangeEntry)
  | bad (status : BitVec 4)
  | miss (va : Nat)
  deriving DecidableEq, Repr

/-- One more side. -/
def Sides.join (x : Tr) (y : Sides) : Sides :=
  match x, y with
  | .miss va, _ => .miss va
  | _, .miss va => .miss va
  | .bad a, .bad b => .bad (worse a b)
  | .bad a, .ok _ _ => .bad a
  | .ok _ _, .bad b => .bad b
  | .ok ps u, .ok qs v => .ok (ps :: qs) (u ++ v.filter fun r => !u.contains r)

/-- The sides of a move. -/
def judge (force : Option (BitVec 4)) (ts : List Tr) : Sides :=
  match force with
  | some st => .bad st
  | none => ts.foldr Sides.join (.ok [] [])

/-- The state after an issue that is settled. -/
def State.settled (s : State) (sg c : Nat) (slot : Option Nat) (st : BitVec 4) : Iss :=
  .ok (s.mod sg fun g => g.settleIssue s.tick c slot st)

/-! ## GET, PUT and COPY (R121, R124 to R126) -/

/-- One side of a linear move: the lunchbox, or the translation of its span. -/
def Segment.moveSide (g : Segment) (ctx : BitVec 12) (lb : Bool) (va n : Nat) (need : BitVec 3) (unc : List Nat) : Tr :=
  if lb then .ok [] [] else g.translate ctx va n need unc

/-- A linear move, with its opcode. -/
def State.issueMove (s : State) (sg c op : Nat) (f : IFields) (unc : List Nat) (force : Option (BitVec 4)) : Iss :=
  let g := s.seg sg
  let k := g.core c
  let a := k.descAt f
  match descExc k a 32 with
  | some (e, i) => .exc e i
  | none =>
    let b := memBytes k.lb a.toNat 32
    let src := field b 0 8
    let dst := field b 8 8
    let planned := field b 16 8
    let fl := field b 24 1
    let srcLb := fl % 2 == 1
    let dstLb := fl / 2 % 2 == 1
    let bad := !zeros b 25 7 || fl ≥ 4 || (srcLb && op != 0x51) || (dstLb && op != 0x50) || planned > 2 ^ 44
    let n := if f.b == 0 then planned else (k.r f.b).toNat
    let beyond (lb : Bool) (x : Nat) : Option (BitVec 4 × Word) :=
      if lb && 0 < n && n ≤ planned && x + n > 0x10000 then some (0x4, BitVec.ofNat 64 x) else none
    let slot := slotOf f
    match firstExc [beyond srcLb src, beyond dstLb dst, g.slotExc (g.ownerOf c) slot, if bad then some (0x8, a) else none] with
    | some (e, i) => .exc e i
    | none =>
      if g.storeFull then .hold
      else if n == 0 then s.settled sg c slot csOk
      else if n > planned then s.settled sg c slot csExtent
      else
        match judge force [g.moveSide k.ctx srcLb src n 1 unc, g.moveSide k.ctx dstLb dst n 2 unc] with
        | .miss va => .miss va
        | .bad st => s.settled sg c slot st
        | .ok sides used =>
          let ps := sides.getD 0 []
          let pd := sides.getD 1 []
          let away (x : List Piece) : Bool := !x.all fun p => g.owns p.ga
          if (op == 0x50 && away pd) || (op == 0x51 && away ps) then s.settled sg c slot csDenied
          else
            let relay := op == 0x52 && (dst % 128 != 0 || src % 128 != 0)
            let body : Body := .move op (if srcLb then .lunchbox src else .span src ps) (if dstLb then .lunchbox dst else .span dst pd) n relay
            .ok (s.mod sg fun g => g.newDesc s.time c slot body n 32 used)

/-! ## MOVT (R127, R174 to R182) -/

/-- The run-time counts of a shape whose INDIRECT is set: the record's words, or the status that says why it cannot be read
(R181). -/
def Segment.shapeCounts (g : Segment) (c : BitVec 12) (b : List Byte) (sh : Shape) : Segment × (List Nat ⊕ BitVec 4) :=
  match shapeIndirect b with
  | none => (g, .inl sh.counts)
  | some va =>
    match g.localSpan c va 20 1 with
    | (g, .inl ps) =>
      let rec_ := g.spanBytes ps
      (g, .inl ((List.range sh.axes.length).map fun i => field rec_ (4 * i) 4))
    | (g, .inr st) => (g, .inr st)

/-- Whether a run-time count exceeds its window (R182). -/
def tooWide (sh : Shape) (counts : List Nat) : Bool := (counts.zip (sh.axes.map Axis.win)).any fun (x, w) => x > w

/-- The translation of a span that may be empty. -/
def Segment.trSpan (g : Segment) (c : BitVec 12) (span : Option (Nat × Nat)) (need : BitVec 3) (unc : List Nat) : Tr :=
  match span with
  | some (va, n) => g.translate c va n need unc
  | none => .ok [] []

/-- A tiled move. -/
def State.issueShape (s : State) (sg c : Nat) (f : IFields) (unc : List Nat) (force : Option (BitVec 4)) : Iss :=
  let g := s.seg sg
  let k := g.core c
  let a := k.descAt f
  match descExc k a 64 with
  | some (e, i) => .exc e i
  | none =>
    let rank := (memRead k.lb a.toNat).toNat
    let size := 64 + 40 * (if rank ≤ 5 then rank else 0)
    let b := memBytes k.lb a.toNat size
    let slot := slotOf f
    match firstExc [descExc k a size, g.slotExc (g.ownerOf c) slot], parseShape b with
    | some (e, i), _ => .exc e i
    | none, none => .exc 0x8 a
    | none, some sh =>
      if g.storeFull then .hold
      else
        let (g, counts) := g.shapeCounts k.ctx b sh
        let s := s.setSeg sg g
        match counts with
        | .inr st => s.settled sg c slot st
        | .inl cs =>
          if tooWide sh cs then s.settled sg c slot csExtent
          else if cs.any fun x => x == 0 then s.settled sg c slot csOk
          else
            let sh := { sh with counts := cs }
            match judge force [g.trSpan k.ctx sh.srcSpan 1 unc, g.trSpan k.ctx sh.dstSpan 2 unc,
                g.trSpan k.ctx (sh.sigAddr.map fun va => (va, 8)) 3 unc] with
            | .miss va => .miss va
            | .bad st => s.settled sg c slot st
            | .ok sides used =>
              .ok (s.mod sg fun g =>
                g.newDesc s.time c slot (.shape sh (sides.getD 0 []) (sides.getD 1 []) (sides.getD 2 [])) sh.tiles size used)

/-! ## ATOM, ATOMF and SIG (R128, R132) -/

/-- The result field of an atomic written with zeros (R128). -/
def Segment.zeroResult (g : Segment) (c at_ : Nat) : Segment := g.modCore c fun k => (lbEngineWrite k at_ (List.replicate 16 0)).1

/-- The bytes of the operand of an atomic descriptor that are translated (R128). -/
def atomSpan (isF : Bool) (b : List Byte) : Nat :=
  if !isF then max 1 (atomWidth (field b 9 1))
  else
    match atomFmt (field b 11 1) with
    | none => 1
    | some t => if field b 10 1 / 2 % 2 == 1 then 64 else t.width / 8

/-- The role of an atomic (Table 2.6): 0 reader, 1 writer, 2 updater. -/
def atomRole (isF : Bool) (op : Nat) : Nat := if isF then 2 else if op == 0 then 0 else if op == 1 then 1 else 2

/-- ATOM and ATOMF. -/
def State.issueAtom (s : State) (sg c : Nat) (isF : Bool) (f : IFields) (unc : List Nat) (force : Option (BitVec 4)) : Iss :=
  let g := s.seg sg
  let k := g.core c
  let a := k.descAt f
  let slot := slotOf f
  let b := memBytes k.lb a.toNat 112
  match firstExc [descExc k a 112, g.slotExc (g.ownerOf c) slot, if zeros b 12 4 then none else some (0x8, a)] with
  | some (e, i) => .exc e i
  | none =>
    if g.storeFull then .hold
    else
      let role := atomRole isF (field b 8 1)
      let need : BitVec 3 := if role == 0 then 1 else if role == 1 then 2 else 3
      match judge force [g.translate k.ctx (field b 0 8) (atomSpan isF b) need unc] with
      | .miss va => .miss va
      | .bad st => (s.mod sg fun g => g.zeroResult c (a.toNat + 96)).settled sg c slot st
      | .ok sides used =>
        let ps := sides.getD 0 []
        let ga := (ps.head?.map Piece.ga).getD 0
        let vec := isF && field b 10 1 / 2 % 2 == 1
        let payload := padTo 128 ((b.drop 8).take 4 ++ natBytes (ga % 128) 2 ++ List.replicate 10 0 ++
          (if vec then (b.drop 16).take 64 else (b.drop 16).take 16 ++ (b.drop 80).take 16))
        .ok (s.mod sg fun g =>
          g.newDesc s.time c slot (.atom (if isF then 4 else 3) ps payload (some (a.toNat + 96)) role) 1 112 used)

/-- SIG (R132), once what RELEASE waits for has completed. -/
def State.issueSig (s : State) (sg c : Nat) (f : IFields) (unc : List Nat) (force : Option (BitVec 4)) : Iss :=
  let g := s.seg sg
  let k := g.core c
  let a := k.r f.a
  let slot := slotOf f
  match firstExc [if a.toNat % 8 != 0 then some (0x3, a) else none, g.slotExc (g.ownerOf c) slot] with
  | some (e, i) => .exc e i
  | none =>
    if g.storeFull then .hold
    else
      match judge force [g.translate k.ctx a.toNat 8 3 unc] with
      | .miss va => .miss va
      | .bad st => s.settled sg c slot st
      | .ok sides used =>
        let ps := sides.getD 0 []
        let v := k.r f.b + BitVec.ofNat 64 f.off
        .ok (s.mod sg fun g =>
          g.newDesc s.time c slot (.atom 3 ps (padTo 128 (addPayload ((ps.head?.map Piece.ga).getD 0) v)) none 2) 1 0 used)

/-! ## CJOIN, CAMP, VOTE and RIDE (R129, R131, R196 to R203) -/

/-- The fingerprint of R199. -/
def fingerprint (x : Grp) (code : Nat) (d : CDesc) (opByte : Nat) : BitVec 32 :=
  crc32 (natBytes x.hash.toNat 4 ++ natBytes code 1 ++ natBytes opByte 1 ++ natBytes d.redop 1 ++ natBytes d.inF 1 ++
    natBytes d.carryF 1 ++ natBytes d.wireF 1 ++ natBytes d.outF 1 ++ natBytes d.round 1 ++ natBytes d.flags 1 ++ natBytes d.root 2 ++
    [0] ++ natBytes d.seed.toNat 4 ++ natBytes d.count 8 ++ natBytes x.chunkLog2 1 ++ [0, 0, 0])

/-- The refusals of R197 that do not look at the descriptor; none where the group takes the operation. -/
def Segment.groupRefuses (g : Segment) (n ctx : BitVec 12) : Option (BitVec 4) :=
  match g.grp? n with
  | none => some csDenied
  | some x =>
    if x.ctx != ctx || x.st == .opening || x.st == .closing then some csDenied
    else if x.st == .failed then some csAborted else none

/-- A queue with an operation at its tail: of those that were issued in the same cycle, and have not begun, the lower courier goes first
(R196, R9). -/
def queueUp (op : COp) (begun : Option Nat) : List COp → List COp
  | [] => [op]
  | x :: r => if x.at_ == op.at_ && op.core < x.core && begun != some x.opId then op :: x :: r else x :: queueUp op begun r

/-- An operation enters its group's queue (R196); its slot is busy until R122 frees it. -/
def Segment.joinQueue (g : Segment) (n : BitVec 12) (op : COp) (kind : SlotKind) : Segment :=
  let g := g.modGrp n fun x =>
    { x with queue := queueUp op (x.head.map fun h => h.op.opId) x.queue, nextOp := x.nextOp + 1 }
  match op.slot with
  | some i => g.modSlot op.owner i fun _ => { st := .busy, kind := kind }
  | none => g

/-- The group that a collective instruction of a core names. -/
def Core.groupNamed (k : Core) (op : BitVec 8) (f : IFields) : BitVec 12 :=
  if op == 0x58 then BitVec.ofNat 12 (memNat k.lb (k.descAt f).toNat 2) else (k.r f.a).truncate 12

/-- The cycle in which the issue of a core began: now, or where it has stalled, then. -/
def Core.issueAge (k : Core) (cycle : Nat) : Nat :=
  match k.wait with
  | some (.issue x) => x.start
  | _ => cycle

/-- Whether a queue has no room for a core's operation: it is full, or an older issue waits for it (R196, R9). -/
def Segment.queueHeld (g : Segment) (cycle c : Nat) (n : BitVec 12) (x : Grp) : Bool :=
  let age := (g.core c).issueAge cycle
  16 ≤ x.queue.length || (List.range 18).any fun i =>
    i != c && (match (g.core i).wait with
      | some (.issue y) =>
        y.held && (y.op == 0x58 || y.op == 0x5A || y.op == 0x5B || y.op == 0x5C) && (g.core i).groupNamed y.op y.f == n &&
        (y.start < age || (y.start == age && i < c))
      | _ => false)

/-- CAMP, VOTE and RIDE: operation `code`, with the operation number of a RIDE and the operand. -/
def State.issueRound (s : State) (sg c code : Nat) (f : IFields) (rideOp : Nat) (value : Word) : Iss :=
  let g := s.seg sg
  let k := g.core c
  let slot := slotOf f
  let n : BitVec 12 := (k.r f.a).truncate 12
  match g.slotExc (g.ownerOf c) slot, g.groupRefuses n k.ctx, g.grp? n with
  | some (e, i), _, _ => .exc e i
  | none, some st, _ => s.settled sg c slot st
  | none, none, none => s.settled sg c slot csDenied
  | none, none, some x =>
    if g.storeFull || g.queueHeld s.time c n x then .hold
    else
      let op : COp :=
        { opId := x.nextOp, code := code, owner := g.ownerOf c, slot := slot, core := c, fp := fingerprint x code {} rideOp, d := {},
          raw := [], n := 0, launch := 0, shape := none, src := [], dst := [], srcVa := 0, dstVa := 0, gated := false, ready := 0,
          rideOp := rideOp, value := value, at_ := k.issueAge s.time }
      .ok (s.mod sg fun g => g.joinQueue n op (.round n x.nextOp))

/-- The fields of a collective descriptor (Table 5.4). -/
def parseCDesc (b : List Byte) : CDesc :=
  { op := field b 2 1, redop := field b 3 1, inF := field b 4 1, carryF := field b 5 1, wireF := field b 6 1, outF := field b 7 1,
    round := field b 8 1, flags := field b 9 1, root := field b 10 2, seed := BitVec.ofNat 32 (field b 12 4), count := field b 16 8 }

/-- A member's planned count (R203). -/
def Grp.planned (x : Grp) (d : CDesc) : Nat :=
  match d.op with
  | 2 => let (a, b) := x.piece d.count x.rank; b - a
  | 4 => if x.rank == d.root then d.count else 0
  | _ => d.count

/-- Whether R202 refuses a descriptor. `sh` is its shape, when SHAPE_OFF is set and R175 passes it. -/
def Grp.badCDesc (x : Grp) (b : List Byte) (sh : Option Shape) : Bool :=
  let d := parseCDesc b
  let off := field b 40 2
  field b 0 2 ≥ 2 ^ 12 || d.flags > 1 || d.round ≥ 16 || !zeros b 42 22 || d.op > 4 || d.root ≥ x.members.length ||
  d.count == 0 || d.count > 2 ^ 40 || !d.allowed (sh.map fun y => 2 ^ y.elem) ||
  (off != 0 && (sh.isNone || !zeros b 24 16)) ||
  (match sh with | some y => y.axes.foldl (fun n (a : Axis) => n * a.win) 1 != x.planned d | none => false)

/-- Bytes of `n` elements of a format. -/
def elemBytes (code n : Nat) : Nat := if isBlock code then ceilDiv n 32 * blockSize code else n * scalarSize code

/-- Whether the guard words of a piece on this segment let a context's role pass, and no pool frame lies in it (R291, R294, R297). -/
def Segment.guardsLet (g : Segment) (ctx : BitVec 12) (role : Role) (p : Piece) : Bool :=
  let sp := gaSpace p.ga
  (List.range (ceilDiv (gaOff p.ga % regionSize + p.len) regionSize)).all fun i =>
    let off := (gaOff p.ga / regionSize + i) * regionSize
    !(sp == 0 && g.inPool off) &&
    (if !g.guardsOn then ctx == 0
     else
       match g.guardIdx sp off with
       | none => false
       | some i => guardPass ((lookupKey i g.xlt.guards).getD (g.guardMem i)) ctx role)

/-- A side of a collective held on this segment and open to its context; otherwise the status that fails it (R46, R129, R294, R297). -/
def Segment.sideHome (g : Segment) (ctx : BitVec 12) (role : Role) (ps : List Piece) : BitVec 4 :=
  if ps.all fun p => g.owns p.ga && gaSpace p.ga < 2 && !(gaSpace p.ga == 0 && g.inWindow (gaOff p.ga)) then
    (if !ps.all g.homedHere then csUnmapped else if ps.all (g.guardsLet ctx role) then csOk else csDenied)
  else csDenied

/-- The bytes of an inline shape descriptor; empty where SHAPE_OFF is 0 or the descriptor leaves its 512 bytes (R200). -/
def inlineSize (k : Core) (a off : Nat) : Nat :=
  if off % 8 != 0 || off < 64 || off + 64 > 512 then 0
  else
    let rank := (memRead k.lb (a + off)).toNat
    if rank == 0 || rank > 5 || off + 64 + 40 * rank > 512 then 0 else 64 + 40 * rank

/-- The run-time counts of a CJOIN (R121, R181, R200): of its shape, or of one axis, its element count. -/
def Segment.joinCounts (g : Segment) (c : Nat) (f : IFields) (x : Grp) (b : List Byte) (sh : Option Shape) (shb : List Byte) :
    Segment × (List Nat ⊕ BitVec 4) :=
  match sh with
  | some y => g.shapeCounts (g.core c).ctx shb y
  | none => (g, .inl [if f.b == 0 then x.planned (parseCDesc b) else ((g.core c).r f.b).toNat])

/-- The run-time count of a CJOIN in elements; 0 where it could not be read. -/
def runCount : List Nat ⊕ BitVec 4 → Nat
  | .inl cs => cs.foldl (· * ·) 1
  | .inr _ => 0

/-- The operation that a CJOIN enters, with the status its counts give it (R121, R182, R199). -/
def Grp.joinOp (x : Grp) (g : Segment) (c : Nat) (f : IFields) (b : List Byte) (sh : Option Shape) (counts : List Nat ⊕ BitVec 4) : COp :=
  let d := parseCDesc b
  let cs := match counts with | .inl l => l | .inr _ => []
  let lost : BitVec 4 := match counts with | .inl _ => 0 | .inr st => st
  let wide := match sh with | some y => tooWide y cs | none => cs.headD 0 > x.planned d
  { opId := x.nextOp, code := 0x58, owner := g.ownerOf c, slot := slotOf f, core := c, fp := fingerprint x 0x58 d d.op, d := d, raw := b,
    n := if wide then 0 else runCount counts, launch := worse lost (if wide then csExtent else csOk),
    shape := sh.map fun y => { y with counts := cs }, src := [], dst := [], srcVa := field b 24 8,
    dstVa := field b 32 8, gated := f.imm.getLsbD 16, ready := 0, rideOp := 0, value := 0 }

/-- An operation as it enters its queue with its sides translated, and the status of their translation and their homes: its launch
status (R129, R217). Sides that a recall marks in this cycle are lost (R137). -/
def COp.enter (op : COp) (g : Segment) (cycle : Nat) (ctx : BitVec 12) (src dst : List Piece) : COp :=
  let launch := worse op.launch (worse (g.sideHome ctx .reader src) (g.sideHome ctx .writer dst))
  let launch := if (g.markedBy cycle ctx (src ++ dst)).isEmpty then launch else worse launch csUnmapped
  { op with src := src, dst := dst, launch := launch }

/-- The spans of the two sides of a CJOIN that are translated, at its run-time count (R129, R200). A root that broadcasts nothing, as
every member without a share, has none. -/
def Grp.joinSpans (x : Grp) (op : COp) (count : Nat) : Option (Nat × Nat) × Option (Nat × Nat) :=
  let (p, q) := x.received { op with n := count } 0 op.d.count
  let span (va bytes : Nat) : Option (Nat × Nat) := if bytes == 0 then none else some (va, bytes)
  if count == 0 && (op.shape.isSome || (op.d.op == 4 && x.rank == op.d.root)) then (none, none)
  else
    match op.shape with
    | some y => (y.srcSpan, y.dstSpan)
    | none => (span op.srcVa (elemBytes op.d.inF count), span op.dstVa (elemBytes op.d.outF (q - p)))

/-- CJOIN. -/
def State.issueJoin (s : State) (sg c : Nat) (f : IFields) (unc : List Nat) (force : Option (BitVec 4)) : Iss :=
  let g := s.seg sg
  let k := g.core c
  let a := k.descAt f
  let slot := slotOf f
  let b := memBytes k.lb a.toNat 64
  let off := field b 40 2
  let size := if off == 0 then 0 else inlineSize k a.toNat off
  match firstExc [descExc k a 64, descExc k a (if size == 0 then 64 else off + size), g.slotExc (g.ownerOf c) slot] with
  | some (e, i) => .exc e i
  | none =>
    let n : BitVec 12 := BitVec.ofNat 12 (field b 0 2)
    let shb := memBytes k.lb (a.toNat + off) size
    let sh := if size == 0 then none else parseShape shb
    match g.groupRefuses n k.ctx, g.grp? n with
    | some st, _ => s.settled sg c slot st
    | none, none => s.settled sg c slot csDenied
    | none, some x =>
      if x.badCDesc b sh then s.settled sg c slot csDenied
      else if g.storeFull || g.queueHeld s.time c n x then .hold
      else
        let (g, counts) := g.joinCounts c f x b sh shb
        let s := s.setSeg sg g
        let raw := memBytes k.lb a.toNat (if size == 0 then 64 else off + size)
        let op := { x.joinOp g c f b sh counts with at_ := k.issueAge s.time, raw := raw }
        let (srcSpan, dstSpan) := x.joinSpans op (runCount counts)
        match judge force [g.trSpan k.ctx srcSpan 1 unc, g.trSpan k.ctx dstSpan 2 unc] with
        | .miss va => .miss va
        | .bad st => .ok (s.mod sg fun g => g.joinQueue n { op with launch := worse op.launch st } (.cjoin op.gated n x.nextOp))
        | .ok sides used =>
          .ok (s.mod sg fun g => (g.touch used).joinQueue n (op.enter g s.time k.ctx (sides.getD 0 []) (sides.getD 1 []))
            (.cjoin op.gated n x.nextOp))

/-! ## RECALL (R137, R298) -/

/-- RECALL: PL1, or PL0 in a privileged context, which recalls its own ranges only. -/
def State.issueRecall (s : State) (sg c : Nat) (f : IFields) : Iss :=
  let g := s.seg sg
  let k := g.core c
  let a := k.descAt f
  let slot := slotOf f
  let o := g.ownerOf c
  let b := memBytes k.lb a.toNat 32
  let bad := badRecall b || (c < 16 && field b 16 2 != k.ctx.toNat)
  if c < 16 && !g.privileged k.ctx then .exc 0x2 0
  else
    match firstExc [descExc k a 32, g.slotExc o slot, if bad then some (0x8, a) else none] with
    | some (code, info) => .exc code info
    | none =>
      if g.storeFull then .hold
      else
        let s := match slot with
          | some i => s.mod sg fun g => g.modSlot o i fun _ => { st := .busy }
          | none => s
        .ok (s.startRecall sg b false (some (o, slot)))

/-! ## One issue, and its instruction -/

/-- The issue of an instruction, by opcode. `unc` are the context addresses that searches found uncovered, `force` the status a driver
answered with. -/
def State.issue (s : State) (sg c : Nat) (op : BitVec 8) (f : IFields) (unc : List Nat) (force : Option (BitVec 4)) : Iss :=
  let k := (s.seg sg).core c
  if op == 0x50 || op == 0x51 || op == 0x52 then s.issueMove sg c op.toNat f unc force
  else if op == 0x53 then s.issueShape sg c f unc force
  else if op == 0x54 || op == 0x55 then s.issueAtom sg c (op == 0x55) f unc force
  else if op == 0x58 then s.issueJoin sg c f unc force
  else if op == 0x5A then s.issueRound sg c 0x5A f 0 0
  else if op == 0x5B then s.issueRound sg c 0x5B f 0 (k.r f.b)
  else if op == 0x5C then s.issueRound sg c 0x5C f (f.flags % 16) (k.r f.b)
  else if op == 0x66 then s.issueRecall sg c f
  else s.issueSig sg c f unc force

/-- A core that waits. -/
def State.stall (s : State) (sg c : Nat) (w : Wait) : State := s.modCore sg c fun k => { k with st := .waiting, wait := some w }

/-- What an issue comes to for the core: it stalls where it meets a range miss (R120) or finds no room (R118, R196). -/
def Iss.res (x : Iss) (sg c : Nat) (op : BitVec 8) (f : IFields) (s : State) : Res :=
  match x with
  | .ok t => .go t
  | .exc code info => .exc code info
  | .hold => .wait (s.stall sg c (.issue { op := op, f := f, start := s.time, held := true }))
  | .miss _ => .wait (s.stall sg c (.issue { op := op, f := f, start := s.time }))

/-- An issuing instruction. -/
def issueOp (sg : Fin 8) (c : Fin 18) (op : BitVec 8) (f : IFields) (ill : Bool) (s : State) : Out :=
  runCore sg c op 0 f (badSlot f || ill) (fun s _ => (s.issue sg c op f [] none).res sg c op f s) s

/-- GET (R119 to R125). -/
def execGet (sg : Fin 8) (c : Fin 18) (f : IFields) (s : State) : Out := issueOp sg c 0x50 f false s

/-- PUT (R119 to R125). -/
def execPut (sg : Fin 8) (c : Fin 18) (f : IFields) (s : State) : Out := issueOp sg c 0x51 f false s

/-- COPY (R119 to R126). -/
def execCopy (sg : Fin 8) (c : Fin 18) (f : IFields) (s : State) : Out := issueOp sg c 0x52 f false s

/-- MOVT (R127). -/
def execMovt (sg : Fin 8) (c : Fin 18) (f : IFields) (s : State) : Out := issueOp sg c 0x53 f false s

/-- ATOM (R128). -/
def execAtom (sg : Fin 8) (c : Fin 18) (f : IFields) (s : State) : Out := issueOp sg c 0x54 f false s

/-- ATOMF (R128). -/
def execAtomf (sg : Fin 8) (c : Fin 18) (f : IFields) (s : State) : Out := issueOp sg c 0x55 f false s

/-- CJOIN (R129, R196, R197). -/
def execCjoin (sg : Fin 8) (c : Fin 18) (f : IFields) (s : State) : Out := issueOp sg c 0x58 f false s

/-- CAMP (R131, R196, R197). -/
def execCamp (sg : Fin 8) (c : Fin 18) (f : IFields) (s : State) : Out := issueOp sg c 0x5A f false s

/-- VOTE (R131, R196, R197). -/
def execVote (sg : Fin 8) (c : Fin 18) (f : IFields) (s : State) : Out := issueOp sg c 0x5B f false s

/-- RIDE (R131, Table 3.10, R196, R197). -/
def execRide (sg : Fin 8) (c : Fin 18) (f : IFields) (s : State) : Out := issueOp sg c 0x5C f (f.flags % 16 > 9) s

/-- SIG (R132): with RELEASE it first waits as FENCE with selector 1 does. -/
def execSig (sg : Fin 8) (c : Fin 18) (f : IFields) (s : State) : Out :=
  runCore sg c 0x60 0 f (badSlot f)
    (fun s k =>
      let g := s.seg sg
      let ds := if f.imm.getLsbD 16 && (k.r f.a).toNat % 8 == 0 then g.fenceSet (g.ownerOf c) 1 else []
      if ds.isEmpty then (s.issue sg c 0x60 f [] none).res sg c 0x60 f s
      else .wait (s.stall sg c (.fence ds 1 (some { op := 0x60, f := f, start := s.time })))) s

/-- RECALL (R137, R298). -/
def execRecall (sg : Fin 8) (c : Fin 18) (f : IFields) (s : State) : Out := issueOp sg c 0x66 f false s

/-! ## CHUNK (R130, R146) -/

/-- The ready cursor of a gated operation raised, limited to its chunk count. -/
def Grp.setReady (x : Grp) (opId tick v : Nat) : Grp :=
  let up (op : COp) : COp := if op.opId == opId then { op with ready := min (x.newHead op tick).chunks (max op.ready v) } else op
  { x with queue := x.queue.map up, head := x.head.map fun h => { h with op := up h.op } }

/-- CHUNK. -/
def execChunk (sg : Fin 8) (c : Fin 18) (f : IFields) (s : State) : Out :=
  runCore sg c 0x59 0 f (f.d.toNat > 15)
    (fun s k =>
      let g := s.seg sg
      let sl := g.slot (g.ownerOf c) f.d.toNat
      match sl.st, sl.kind with
      | .busy, .cjoin true n o => .go (s.mod sg fun g => g.modGrp n fun x => x.setReady o s.tick (k.r f.a).toNat)
      | _, _ => .exc 0x9 (f.d.zeroExtend 64)) s

/-! ## Range misses (R291, R292, R307, R308) -/

/-- An issue that stalled has gone through: the core goes on at its next instruction; the courier of a MOVE ticket is freed
(R164). -/
def State.resumed (s : State) (sg c : Nat) : State :=
  s.mod sg fun g =>
    let k := g.core c
    let mv : Bool := match k.ticket.bind g.ticket? with | some t => t.rec_.typ == 1 | none => false
    match mv, k.ticket with
    | true, some n =>
      let g := (g.freeCourier c).modTicket n fun t => { t with st := .move }
      (match (g.ticket? n).bind Ticket.cancel with
       | some r => g.endTicket s.time n csAborted r 0
       | none => g)
    | _, _ =>
      (((g.modCore c fun k => { k with pc := k.pc + 8, st := .running, wait := none }).bump (F.CUR_COUNT_RETIRED.core c)).boundary
        s.time c).board s.time

/-- The status that ends a stalled issue: a driver's answer (R308). -/
def Stall.force (x : Stall) : Option (BitVec 4) :=
  match x.mig with
  | .refused st => some st
  | _ => none

/-- A stalled issue is tried again; where it still stalls, it keeps what it has come to. -/
def State.reissue (s : State) (sg c : Nat) (x : Stall) : State :=
  match s.issue sg c x.op x.f x.unc x.force with
  | .ok t => t.resumed sg c
  | .exc code info => s.mod sg fun g => (g.modCore c fun k => { k with st := .running, wait := none }).raiseExc s.time c x.op code info
  | .hold => s.stall sg c (.issue { x with held := true })
  | .miss _ => s.stall sg c (.issue { x with held := false })

/-- WAITS looks its word up again after a fill: EX_DESC where it is not mapped or not local. Its limit counts from its start (R133). -/
def State.rewaits (s : State) (sg c : Nat) (x : Stall) : State :=
  let g := s.seg sg
  let k := g.core c
  let va := k.r x.f.a
  let stop (info : Word) : State := s.mod sg fun g => (g.modCore c fun k => { k with st := .running, wait := none }).raiseExc s.time c 0x61 0x8 info
  match g.translate k.ctx va.toNat 8 1 x.unc with
  | .miss _ => s.stall sg c (.issue x)
  | .bad _ => stop va
  | .ok ps used =>
    if !ps.all g.homedHere then stop va
    else
      let deadline := if x.f.imm == 0 then none else some (tickOf x.start + x.f.imm.toNat)
      (s.mod sg fun g => g.touch used).modCore sg c fun k =>
        { k with st := .waiting, wait := some (.waits va ((ps.head?.map Piece.ga).getD 0) (k.r x.f.b) x.f.d deadline s.time) }

/-- The miss that a stalled core's instruction stands at. -/
def State.missOf (s : State) (sg c : Nat) (x : Stall) : Option Nat :=
  if x.op == 0x61 then
    let k := (s.seg sg).core c
    match (s.seg sg).translate k.ctx (k.r x.f.a).toNat 8 1 x.unc with | .miss va => some va | _ => none
  else
    match s.issue sg c x.op x.f x.unc x.force with
    | .miss va => some va
    | _ => none

/-- The instruction of a stalled core goes on. -/
def State.goAgain (s : State) (sg c : Nat) (x : Stall) : State :=
  if x.op == 0x61 then s.rewaits sg c x else s.reissue sg c x

def pageOf (va : Nat) : Nat := va / regionSize

/-- The next free request number (R307). -/
def Segment.freeReq (g : Segment) : Option Nat := firstFree (g.xlt.migs.map MigReq.n) 16

/-- An uncovered page of a class 2 context: a FAULT record under a free number, or a wait for one (R307). -/
def State.askPage (s : State) (sg c : Nat) (x : Stall) (page : Nat) : State :=
  let g := s.seg sg
  let ctx := (g.core c).ctx
  match g.freeReq, g.resident? ctx with
  | some n, some r =>
    let g := { g with xlt := { g.xlt with migs := g.xlt.migs ++ [({ n := n, core := c, page := page, tick := s.tick } : MigReq)] } }
    let g := g.migPush s.tick r false (migRecord (page * regionSize) ctx.toNat 2 n)
    (s.setSeg sg g).stall sg c (.issue { x with mig := .asked page n })
  | _, _ => s.stall sg c (.issue { x with mig := .needs page })

/-- Whether a stalled issue waits for a driver (R307). -/
def Stall.asks (x : Stall) : Bool :=
  match x.mig with
  | .asked _ _ => true
  | .needs _ => true
  | _ => false

/-- RANGE_MISS_FILL (R291, R292, R307, R308): the table is searched for the address a stalled core stands at. An address that the table
does not cover stays so for the issue. -/
def execRangeMissFill (sg : Fin 8) (c : Fin 18) (st : DpmStatus) (s : State) : Out :=
  onSeg sg s fun s =>
    match ((s.seg sg).core c).wait with
    | some (.issue x) =>
      if x.asks then s
      else
        match s.missOf sg c x with
        | none => s.goAgain sg c x
        | some va =>
          let g := s.seg sg
          let ctx := (g.core c).ctx
          let g := (g.bump F.XLT_COUNT_MISSES).dpmLate s.tick st
          let lost := { x with unc := va :: x.unc }
          if dpmStatus st != 0 then (s.setSeg sg g).goAgain sg c lost
          else
            let (r, bad) := g.searchRange ctx va
            let g := if bad then g.bump F.XLT_COUNT_BAD_ENTRIES else g
            match r with
            | some r => (s.setSeg sg (g.fillRange r)).goAgain sg c x
            | none =>
              let s := s.setSeg sg g
              let migrates : Bool := x.op != 0x61 && (match g.ctxEntry ctx with | some e => ctx != 0 && e.migrate == 2 | none => false)
              if migrates && x.mig != .answered (pageOf va) then s.askPage sg c x (pageOf va)
              else s.goAgain sg c lost
    | _ => s

/-- The page that a stalled core waits to ask for, with its issue. -/
def Core.needsPage (k : Core) : Option (Stall × Nat) :=
  match k.wait with
  | some (.issue x) => (match x.mig with | .needs page => some (x, page) | _ => none)
  | _ => none

/-- A number has become free: of the cores that wait for one the oldest issue takes it, then the lowest core (R307, R9). -/
def State.giveReq (s : State) (sg : Nat) : State :=
  let waiting := (List.range 18).filterMap fun c => ((s.seg sg).core c).needsPage.map fun x => (c, x)
  match waiting.foldl (fun (m : Option (Nat × Stall × Nat)) x =>
      match m with | some y => if x.2.1.start < y.2.1.start then some x else m | none => some x) none with
  | some (c, x, page) => s.askPage sg c x page
  | none => s

/-- A request is answered with a status (R308): the number is free, and the page is searched again, or the issue ends with the
status. -/
def State.answerMig (s : State) (sg : Nat) (m : MigReq) (status : BitVec 4) : State :=
  let s := s.mod sg fun g => { g with xlt := { g.xlt with migs := g.xlt.migs.filter fun x => x.n != m.n } }
  let s := match ((s.seg sg).core m.core).wait with
    | some (.issue x) =>
      (match x.mig with
       | .asked page n =>
         if n != m.n then s
         else if status != 0 then s.reissue sg m.core { x with mig := .refused status }
         else s.stall sg m.core (.issue { x with mig := .answered page, unc := x.unc.filter fun va => pageOf va != page })
       | _ => s)
    | _ => s
  s.giveReq sg

/-- A stalled issue that needs no search is tried again in each cycle, the oldest first (R118, R196, R132). -/
def State.retryStalls (s : State) (sg : Nat) : State :=
  let mine := (List.range 18).filterMap fun c =>
    match ((s.seg sg).core c).wait with
    | some (.issue x) => if x.asks || x.op == 0x61 then none else some (x.start, c)
    | _ => none
  (mine.foldl (fun (l : List (Nat × Nat)) a => place a l) []).foldl (fun (s : State) a =>
    match ((s.seg sg).core a.2).wait with
    | some (.issue x) => if (s.missOf sg a.2 x).isSome then s else s.goAgain sg a.2 x
    | _ => s) s
where
  /-- A core put behind those whose issue is not younger. -/
  place (a : Nat × Nat) : List (Nat × Nat) → List (Nat × Nat)
    | [] => [a]
    | b :: r => if a.1 < b.1 then a :: b :: r else b :: place a r

/-- The cycle's stalls counted in units of 1,024 (Table 3.13). -/
def Segment.countStalls (g : Segment) : Segment :=
  (List.range 18).foldl (fun (g : Segment) c =>
    match (g.core c).wait with
    | some (.issue x) =>
      if x.op == 0x61 then g
      else if (g.core c).stallCycles < 1023 then g.modCore c fun k => { k with stallCycles := k.stallCycles + 1 }
      else (g.modCore c fun k => { k with stallCycles := 0 }).bump (F.CUR_COUNT_STALLS.core c)
    | _ => g) g

/-- MIGRATE_DONE (R308): a free number is ignored. -/
def execMigrateDone (sg : Fin 8) (ag : Agent) (v : Word) (s : State) : Out :=
  onDoms sg ag [domRange] s fun s =>
    let g := s.seg sg
    let s := s.setSeg sg (g.answer csOk 0)
    match g.xlt.migs.find? fun m => m.n == bitsOf v 3 0 with
    | some m => s.answerMig sg m (BitVec.ofNat 4 (bitsOf v 7 4))
    | none => s

/-- MIGRATE_TIMEOUT (R308): as if answered with CS_UNMAPPED, with a record. -/
def execMigrateTimeout (sg : Fin 8) (req : Fin 16) (s : State) : Out :=
  onSeg sg s fun s =>
    let g := s.seg sg
    match g.xlt.migs.find? fun m => m.n == req.val with
    | some m =>
      if s.tick < m.tick + max 1 (g.fld F.XLT_MIGRATE_CTRL_TIMEOUT) then s
      else
        (s.mod sg fun g => g.raise s.tick
          { cls := 20, unit := 10, ctx := some (g.core m.core).ctx, info := BitVec.ofNat 32 m.n, status := csUnmapped,
            addr := BitVec.ofNat 64 (m.page * regionSize) }).answerMig sg m csUnmapped
    | none => s

end Sys2Proof.Machine
end

