-- ==== Sys2Proof/Machine/Control.lean ====
section
/-! DEFINITION. Control flow (R112 to R116), waits (R133 to R135), RDT (R123), TKT (R136, R169), RECALL (R137), the watchdog
(R139, R140), instruction fetch misses (R100) and the core registers with an effect of their own (R99, R101, R143 to R145). -/

namespace Sys2Proof.Machine

open Sys2Proof

/-! ## BR, CALL, RET (R112) -/

/-- The target of BR and CALL, modulo 2^32. -/
def Core.target (k : Core) (f : IFields) : BitVec 32 :=
  (if f.a == 0 then k.pc else (k.r f.a).truncate 32) + (f.simm.truncate 32) * 8

/-- BR (R112). -/
def execBr (sg : Fin 8) (c : Fin 18) (f : IFields) (s : State) : Out :=
  runCore sg c 0x48 0 f false
    (fun s k =>
      let t := k.target f
      if t.toNat % 8 != 0 then .exc 0x3 (t.zeroExtend 64) else .jump s t) s

/-- CALL (R112): EX_STACK with 32 entries on the stack. -/
def execCall (sg : Fin 8) (c : Fin 18) (f : IFields) (s : State) : Out :=
  runCore sg c 0x49 0 f false
    (fun s k =>
      let t := k.target f
      if t.toNat % 8 != 0 then .exc 0x3 (t.zeroExtend 64)
      else if 32 ≤ k.rs.length then .exc 0x7 0
      else .jump (s.modCore sg c fun k => { k with rs := k.rs ++ [k.pc + 8] }) t) s

/-- RET (R112): EX_STACK with an empty stack. -/
def execRet (sg : Fin 8) (c : Fin 18) (f : IFields) (s : State) : Out :=
  runCore sg c 0x4A 0 f false
    (fun s k =>
      match k.rs.getLast? with
      | none => .exc 0x7 0
      | some t => .jump (s.modCore sg c fun k => { k with rs := k.rs.dropLast }) t) s

/-! ## HALT, YIELD, ERET (R113, R114, R116) -/

/-- The keeper or steward sleeps at HALT: it goes on at the next instruction when a wake event comes. -/
def Segment.sleepCore (g : Segment) (c : Nat) : Segment := (g.modCore c fun k => { k with pc := k.pc + 8, st := .asleep }).idlePoint c

/-- HALT (R113). -/
def execHalt (sg : Fin 8) (c : Fin 18) (f : IFields) (s : State) : Out :=
  runCore sg c 0x4C 0 f false
    (fun s k =>
      let status : BitVec 4 := (k.r f.a).truncate 4
      if 16 ≤ c.val then .off (s.mod sg fun g => g.sleepCore c)
      else if status ≥ 0xC then .exc 0x1 0
      else
        .off (s.mod sg fun g =>
          let g := g.freeCourier c
          match k.ticket with
          | some n => (g.modTicket n fun t => { t with st := .ending status 0 0 }).board s.time
          | none => g)) s

/-- YIELD (R114): the courier saves its ticket. On a core without a ticket it does nothing. -/
def execYield (sg : Fin 8) (c : Fin 18) (f : IFields) (s : State) : Out :=
  runCore sg c 0x4B 0 f false
    (fun s k =>
      match k.ticket with
      | none => .go s
      | some n =>
        match firstExc [descExc k 0 4096] with
        | some (code, info) => .exc code info
        | none =>
          .off (s.mod sg fun g =>
            (g.saveTicket s.time c n 0x4B (k.pc + 8) (f.imm.truncate 16) (f.imm.getLsbD 16)).board s.time)) s

/-- ERET (R116). -/
def execEret (sg : Fin 8) (c : Fin 18) (f : IFields) (s : State) : Out :=
  runCore sg c 0x4D 1 f false (fun s k => .jump (s.modCore sg c fun k => { k with handler := false }) k.epc) s

/-! ## Waits (R133 to R135) -/

/-- A core enters a wait. -/
def State.waitIn (s : State) (sg c : Nat) (w : Wait) : Res := .wait (s.stall sg c w)

/-- WAITS (R133): the word is read through a DPM channel at issue. -/
def execWaits (sg : Fin 8) (c : Fin 18) (f : IFields) (st : DpmStatus) (s : State) : Out :=
  runCore sg c 0x61 0 f (f.d.toNat > 7)
    (fun s k =>
      let g := s.seg sg
      let a := k.r f.a
      if a.toNat % 8 != 0 then .exc 0x3 a
      else
        match g.translate k.ctx a.toNat 8 1 [] with
        | .miss _ => s.waitIn sg c (.issue { op := 0x61, f := f, start := s.time })
        | .bad _ => .exc 0x8 a
        | .ok ps used =>
          if !ps.all g.homedHere then .exc 0x8 a
          else
            let ga := (ps.head?.map Piece.ga).getD 0
            let s := s.mod sg fun g => (g.touch used).dpmLate s.tick st
            let v := bytesNat (g.gaBytes ga 8)
            if st.isSome && dpmStatus st != 0 then .exc 0x6 a
            else if st.isSome && (k.r f.b).toNat ≤ v then .go (s.modCore sg c fun k => k.setP f.d.toNat true)
            else
              let deadline := if f.imm == 0 then none else some (s.tick + f.imm.toNat)
              s.waitIn sg c (.waits a ga (k.r f.b) f.d deadline (s.time + 1024))) s

/-- WAITE (R134). -/
def execWaite (sg : Fin 8) (c : Fin 18) (f : IFields) (s : State) : Out :=
  runCore sg c 0x62 0 f (f.d.toNat > 7)
    (fun s k =>
      let g := s.seg sg
      let mask : BitVec 16 := f.imm.truncate 16
      let any := f.imm.getLsbD 16
      let limit := k.r f.b
      if waiteMet (g.slots (g.ownerOf c)) mask any then .go (s.modCore sg c fun k => k.setP f.d.toNat true)
      else s.waitIn sg c (.waite mask any f.d (if limit == 0 then none else some (s.tick + limit.toNat)))) s

/-- FENCE (R135). -/
def execFence (sg : Fin 8) (c : Fin 18) (f : IFields) (s : State) : Out :=
  runCore sg c 0x63 0 f (f.imm.toNat % 4 == 3)
    (fun s _ =>
      let g := s.seg sg
      let ds := g.fenceSet (g.ownerOf c) (f.imm.toNat % 4)
      if ds.isEmpty then .go s else s.waitIn sg c (.fence ds (f.imm.toNat % 4) none)) s

/-- A wait ends and the core goes on; what awaits an instruction boundary happens. -/
def Segment.endWait (g : Segment) (cycle c : Nat) (pd : Option (BitVec 5 × Bool)) : Segment :=
  ((g.modCore c fun k => k.goOn pd).bump (F.CUR_COUNT_RETIRED.core c)).boundary cycle c

/-- WAITS_POLL (R133): the signal word of a waiting WAITS is read again. -/
def execWaitsPoll (sg : Fin 8) (c : Fin 18) (st : DpmStatus) (s : State) : Out :=
  onSeg sg s fun s =>
    let g := s.seg sg
    match (g.core c).wait with
    | some (.waits va addr val pd dl due) =>
      if s.time < due then s
      else
        let g := g.dpmLate s.tick st
        if st.isSome && dpmStatus st != 0 then s.setSeg sg (g.raiseExc s.time c 0x61 0x6 va)
        else if st.isSome && val.toNat ≤ bytesNat (g.gaBytes addr 8) then s.setSeg sg (g.endWait s.time c (some (pd, true)))
        else s.setSeg sg (g.modCore c fun k => { k with wait := some (.waits va addr val pd dl (s.time + 1024)) })
    | _ => s

/-- WAITS_TIMEOUT (R133): at the end of the deadline's tick, in which a satisfying read wins. -/
def execWaitsTimeout (sg : Fin 8) (c : Fin 18) (s : State) : Out :=
  onSeg sg s fun s =>
    match ((s.seg sg).core c).wait with
    | some (.waits _ _ _ pd (some dl) _) => if !s.lapsed dl then s else s.mod sg fun g => g.endWait s.time c (some (pd, false))
    | _ => s

/-- WAITE_TIMEOUT (R134): at the end of the deadline's tick, in which a slot that becomes done wins. -/
def execWaiteTimeout (sg : Fin 8) (c : Fin 18) (s : State) : Out :=
  onSeg sg s fun s =>
    match ((s.seg sg).core c).wait with
    | some (.waite _ _ pd (some dl)) => if !s.lapsed dl then s else s.mod sg fun g => g.endWait s.time c (some (pd, false))
    | _ => s

/-! ## RDT (R123) -/

/-- What a busy CJOIN has come to so far: its chunk stamps, its norm and its spoil count. The stile may hold it formed (R448). -/
def Segment.soFar (g : Segment) (k : SlotKind) : Nat × BitVec 32 × Nat :=
  match k with
  | .cjoin _ n o =>
    match (g.grp? n).bind Grp.head, g.stile.find? fun f => f.grp == n && f.op.opId == o with
    | _, some f => (f.lines, f.norm, f.spoil)
    | some h, none => if h.op.opId == o then (h.stampsPosted, norm32 h.norm, h.spoil) else (0, 0, 0)
    | none, none => (0, 0, 0)
  | _ => (0, 0, 0)

/-- Table 3.6. -/
def Segment.rdtValue (g : Segment) (sl : Slot) (sel : Nat) : Word :=
  match sl.st with
  | .idle => 0
  | st =>
    if sel == 0 then BitVec.ofNat 64 (sl.failed * 2 ^ 32 + (if st == .busy then 16 else 32) + sl.status.toNat)
    else if sel == 1 then sl.result
    else
      let (lines, norm, spoil) := if st == .busy then g.soFar sl.kind else (0, 0, 0)
      if sel == 2 then (if st == .busy then norm else sl.norm).zeroExtend 64
      else if sel == 3 then (if st == .busy then BitVec.ofNat 64 spoil else sl.spoil)
      else BitVec.ofNat 64 (sl.lines + lines)

/-- RDT (R123). -/
def execRdt (sg : Fin 8) (c : Fin 18) (f : IFields) (s : State) : Out :=
  runCore sg c 0x64 0 f (f.imm.toNat / 16 % 16 > 4)
    (fun s _ =>
      let g := s.seg sg
      let v := g.rdtValue (g.slot (g.ownerOf c) (f.imm.toNat % 16)) (f.imm.toNat / 16 % 16)
      .go (s.modCore sg c fun k => k.setR f.d v)) s

/-! ## TKT and RECALL (R136, R137, R169) -/

/-- A ticket that a cancelled trail's ticket submits: it has a number and completes at once (R172). -/
def Segment.admitDead (g : Segment) (cycle n slot : Nat) (ctx : BitVec 12) (b : List Byte) : Segment :=
  let t : Ticket := { n := n, trail := slot, index := n, spawned := true, rec_ := parseTicket b, ctx := ctx }
  { g with trl := { g.trl with tickets := g.trl.tickets ++ [t] } }.finish cycle n csAborted 4 0 0

/-- TKT (R136, R169, R172). A core without a ticket has no trail for the new ticket to join: it is given no number. The record need only
be 8-byte aligned in the lunchbox, as every descriptor is: DESIGN CHOICE (log 61). -/
def execTkt (sg : Fin 8) (c : Fin 18) (f : IFields) (s : State) : Out :=
  runCore sg c 0x65 0 f false
    (fun s k =>
      let g := s.seg sg
      let a := k.descAt f
      match descExc k a 128 with
      | some (code, info) => .exc code info
      | none =>
        match k.ticket.bind g.ticket?, g.freeEntry with
        | some t, some n =>
          if (g.ticketsOf k.ctx).length ≥ g.ticketQuota then .go (s.modCore sg c fun k => k.setR f.d (BitVec.allOnes 64))
          else
            let b := memBytes k.lb a.toNat 128
            let dead : Bool := match g.trail? t.trail with | some x => x.cancelled | none => true
            let s := s.modCore sg c fun k => k.setR f.d (BitVec.ofNat 64 n)
            .go (s.mod sg fun g =>
              (if dead then g.admitDead s.time n t.trail k.ctx b
               else g.takeTicket s.time n t.trail n true (some t.n) k.ctx b none).board s.time)
        | _, _ => .go (s.modCore sg c fun k => k.setR f.d (BitVec.allOnes 64))) s

/-! ## The watchdog (R139, R140) -/

/-- EX_WATCHDOG of a courier that runs, or waits in WAITS, WAITE or FENCE. It comes at the end of the tick in a wait, which may be
satisfied in that tick, and after the cycle in which a HALT may complete. A courier that STOP holds (state stopped) raises none while it
is held: DESIGN CHOICE (log 61). -/
def execExWatchdog (sg : Fin 8) (c : Fin 18) (s : State) : Out :=
  onSeg sg s fun s =>
    let g := s.seg sg
    let k := g.core c
    let due := k.startTick + g.fld (F.CUR_CTRL_RUN_LIMIT.core c) * 65536
    match g.watchdog s.tick c with
    | none => s
    | some ran =>
      if k.st == .stopped || !k.canStop || (if k.st == .running then s.time ≤ 21 * due else !s.lapsed due) then s
      else s.setSeg sg ((g.courierExc s.time c (g.opcodeAt c) 0xA (BitVec.ofNat 64 ran)).board s.time)

/-! ## Instruction fetch (R100, R101) -/

/-- INSTRUCTION_FETCH_MISS (R100): the line of the PC comes into the instruction cache, or EX_POISON is raised. The opcode of the
word that could not be read is not given by the spec: a free value. -/
def execInstructionFetchMiss (sg : Fin 8) (c : Fin 18) (st : DpmStatus) (s : State) : Out :=
  onSeg sg s fun s =>
    let g := s.seg sg
    let k := g.core c
    let line := k.pc.toNat / 128
    if k.st != .running || g.stopHeld c || !inCode c k || k.icache.contains line then s
    else
      let g := g.dpmLate s.tick st
      if dpmStatus st == 0 then s.setSeg sg (g.modCore c fun k => { k with icache := (line :: k.icache).take 128 })
      else (s.setSeg sg (g.raiseExc s.time c (Config.freeByte s.freeCtr) 0x6 (k.pc.zeroExtend 64))).fresh

/-- ICINV (R101, R143, R145). -/
def execIcinv (sg : Fin 8) (c : Fin 18) (ag : Agent) (s : State) : Out :=
  onDoms sg ag [coreDomain c] s fun s =>
    let g := (s.seg sg).answer csOk 0
    if c.val == 16 && !ag.isKeeper then s.setSeg sg (g.accessFault s.tick 13 (0x180008 + c.val * 0x1000) 4)
    else
      let g := (g.setFld (F.CUR_CTRL_ICINV.core c) 1).modCore c fun k => { k with icinv := true }
      let st := (g.core c).st
      s.setSeg sg (if st == .idle || st == .asleep then g.idlePoint c else g)

/-- CUR_CODE_WRITE (R101, R143, R145): the new window and the invalidation take effect when the core is idle or asleep. -/
def execCurCodeWrite (sg : Fin 8) (c : Fin 18) (ag : Agent) (sz : Sz) (v : Word) (s : State) : Out :=
  onDoms sg ag (if 16 ≤ c.val then [coreDomain c] else []) s fun s =>
    let g := (s.seg sg).answer csOk 0
    let off := 0x180010 + c.val * 0x1000
    if c.val == 16 && !ag.isKeeper then s.setSeg sg (g.accessFault s.tick 13 off v)
    else
      let w := mergeSize (g.reg off) sz v
      let g := (g.setReg off (setBits w 31 28 0)).modCore c fun k => { k with icinv := true }
      let st := (g.core c).st
      s.setSeg sg (if st == .idle || st == .asleep then g.idlePoint c else g)

/-- CORE_STOP (R143, R144): STOP holds a running core at its boundary, and a courier without a ticket; with STOP clear the core goes
on. -/
def execCoreStop (sg : Fin 8) (c : Fin 18) (s : State) : Out :=
  onSeg sg s fun s =>
    s.mod sg fun g =>
      let st := (g.core c).st
      if (st == .running || (st == .idle && c.val < 16)) && g.stopHeld c then g.modCore c fun k => { k with st := .stopped }
      else if st == .stopped && !g.stopHeld c then
        g.modCore c fun k => { k with st := if c.val < 16 && k.ticket.isNone then .idle else .running }
      else g

/-! ## CUR_LB_DATA (R99, R143, R144) -/

/-- CUR_LB_DATA_ACCESS: a read, or a write of a word; each access adds 8 to the address. A write of another agent in the keeper's
window, which is refused, leaves the address as it is, and an access that R144 shuts off adds to it: DESIGN CHOICE (log 61). -/
def execCurLbDataAccess (sg : Fin 8) (c : Fin 18) (ag : Agent) (v : Option Word) (s : State) : Out :=
  onDoms sg ag [coreDomain c] s fun s =>
    let g := s.seg sg
    let k := g.core c
    let addr := F.CUR_LB_ADDR_ADDR.core c
    let w := g.fld addr
    let next (g : Segment) : Segment := g.setFld addr ((w + 1) % 8192)
    let shut := (k.ticket.isSome && g.sealedCtx k.ctx)
    match v with
    | none =>
      if (c.val == 16 && !ag.isKeeper) || shut then s.setSeg sg ((next g).answer csOk 0)
      else if k.lbBad.contains w then s.setSeg sg ((next g).answer csPoison 0)
      else s.setSeg sg ((next g).answer csOk (BitVec.ofNat 64 (memNat k.lb (8 * w) 8)))
    | some v =>
      if c.val == 16 && !ag.isKeeper then s.setSeg sg ((g.accessFault s.tick 13 (0x180040 + c.val * 0x1000) v).answer csOk 0)
      else if shut then s.setSeg sg ((next g).answer csOk 0)
      else
        s.setSeg sg (((next g).modCore c fun k =>
          { k with lb := memPut k.lb (8 * w) (natBytes v.toNat 8), lbBad := k.lbBad.filter fun x => x != w }).answer csOk 0)

end Sys2Proof.Machine
end

