-- ==== Sys2Proof/Machine/Link.lean ====
section
/-! DEFINITION. The reliable link layer (chapter 09): frames, sequence, credits, retraining, dropped traffic and
sealed frames. The commands that take a port down are in LinkDown. -/

namespace Sys2Proof.Machine

open Sys2Proof

/-! ## Frames on the wire (R47, R357 to R360) -/

/-- Header bits [95:24] of a frame (Table 9.1). -/
def frameHeader (f : Frame) : Nat :=
  f.typ.toNat * 2 ^ 69 + f.seq.toNat * 2 ^ 57 + f.ack.toNat * 2 ^ 45 + f.credRet.toNat * 2 ^ 41 + f.credTotal.toNat * 2 ^ 25 +
  f.stamp.toNat * 2 ^ 15 + f.valid.toNat * 2 ^ 13 + f.key.toNat * 2 ^ 7 + f.run.toNat * 2 ^ 3 + f.fidx.toNat

/-- One step of the frame CRC (R359). -/
def crcStep (crc : Nat) (b : Bool) : Nat :=
  let c := crc * 2 % 2 ^ 24
  if (crc.testBit 23) != b then c ^^^ 0x864CFB else c

/-- The bits of a frame that the CRC covers, in the order sent. -/
def crcBits (f : Frame) : List Bool :=
  bitsDown (frameHeader f) 72 ++ (f.slot0 ++ f.slot1).flatMap fun b => bitsDown b.toNat 8

/-- The frame CRC (R359). -/
def frameCrc (f : Frame) : BitVec 24 := BitVec.ofNat 24 ((crcBits f).foldl crcStep 0xB704CE)

/-- Whether a received frame's CRC holds. -/
def crcOk (f : Frame) : Bool := f.crc == frameCrc f

/-- A byte count in ten-bit symbols: the 240 data symbols of a frame (R360). -/
def symbols : List Bool → Nat → List Nat
  | _, 0 => []
  | bs, n + 1 => (bs.take 10).foldl (fun a b => a * 2 + b.toNat) 0 :: symbols (bs.drop 10) n

/-- Multiplication by α in GF(2^10) with x^10 + x^3 + 1. -/
def gfDouble (a : Nat) : Nat := let d := a * 2; if d ≥ 1024 then (d % 1024) ^^^ 9 else d

/-- Multiplication in GF(2^10). -/
def gfMul (a b : Nat) : Nat :=
  ((List.range 10).foldl (fun (r, x) i => (if b.testBit i then r ^^^ x else r, gfDouble x)) (0, a)).1

/-- The coefficients of the generator polynomial below the leading one, highest first (R360). -/
def rsGenerator : List Nat :=
  ((List.range 8).foldl (fun (g, r) _ =>
    -- multiply g (highest first) by (x − r)
    ((g ++ [0]).zipWith (· ^^^ ·) (0 :: g.map (gfMul r)), gfDouble r)) ([1], 1)).1.drop 1

/-- The eight parity symbols of a frame (R360). -/
def rsParity (data : List Nat) : List Nat :=
  data.foldl (fun reg d =>
    match reg with
    | [] => []
    | r :: rest =>
      let q := d ^^^ r
      ((rest ++ [0]).zip rsGenerator).map fun (x, g) => x ^^^ gfMul q g) (List.replicate 8 0)

/-- The 248 symbols of a frame, parity last; symbol i is sent on active lane i mod W (R360). -/
def frameSymbols (f : Frame) : List Nat :=
  let d := symbols (bitsDown (frameHeader f * 2 ^ 24 + f.crc.toNat) 96 ++ (f.slot0 ++ f.slot1).flatMap fun b => bitsDown b.toNat 8) 240
  d ++ rsParity d

/-! ## Sending -/

def blankSlot : List Byte := List.replicate 144 0

/-- The answers of the lane features (Table 10.3): HUSH, FLASK, ROTATE; none in Dziat mode (R425). -/
def Segment.ownCap (g : Segment) (p : Nat) : BitVec 4 :=
  if g.fld (F.LNE_CFG_RATE.port p) == 1 then 0
  else BitVec.ofNat 4 (8 * g.fld (F.LNE_CFG_HUSH_EN.port p) + 4 * g.fld (F.LNE_CFG_FLASK_EN.port p) + 2 * g.fld (F.LNE_CFG_ROTATE_EN.port p))

/-- Whether both ends advertise a feature bit. -/
def Segment.bothCap (g : Segment) (p bit : Nat) : Bool := (g.ownCap p).getLsbD bit && (g.port p).partnerCap.getLsbD bit

/-- A counter kept in units of 1,024: the remainder and the field. -/
def Segment.bump1024 (g : Segment) (p : Nat) (get : Port → Nat) (set : Port → Nat → Port) (f : Fld) : Segment :=
  let n := get (g.port p) + 1
  let g := g.modPort p fun x => set x (n % 1024)
  if n == 1024 then g.bump (f.port p) else g

/-- A frame goes out with fresh ACK, credits, stamp and CRC (R358, R368, R372). -/
def Segment.emit (g : Segment) (cycle p : Nat) (x : SFrame) : Segment :=
  let q := g.port p
  let ret := min 15 q.owed
  let total := q.credTotal + BitVec.ofNat 16 ret
  let f : Frame := { typ := x.typ, seq := x.seq, ack := q.expected - 1, credRet := BitVec.ofNat 4 ret, credTotal := total,
                     stamp := BitVec.ofNat 10 (g.ageClock cycle), valid := x.valid, key := x.key, run := x.run, fidx := x.fidx,
                     crc := 0, slot0 := x.slot0, slot1 := x.slot1 }
  let f := { f with crc := frameCrc f }
  let g := (if x.key == 0 then g else g.charge 280).modPort p fun q =>
    { q with frames := q.frames ++ [f], owed := q.owed - ret, credTotal := total, sent := q.sent + 1, ackOwed := false, idleFt := q.ft }
  g.bump1024 p Port.fracTx (fun q n => { q with fracTx := n }) F.LNK_FRAME_COUNT_FRAMES_TX

/-- A frame that is not sequenced (R358). -/
def Segment.emitPlain (g : Segment) (cycle p typ : Nat) (slot0 : List Byte) : Segment :=
  g.emit cycle p { typ := BitVec.ofNat 3 typ, seq := (g.port p).nextSeq, valid := 0, key := 0, run := 0, fidx := 0,
                   slot0 := slot0, slot1 := blankSlot, flits := [] }

/-- A control message (Table 9.5). -/
def Segment.ctrlSlot (g : Segment) (p msg arg : Nat) : List Byte :=
  let q := g.port p
  let tail := match msg, q.resume with
    | 5, some (e, f) => natBytes e.toNat 2 ++ natBytes f 2
    | _, _ => natBytes 0 4
  padTo 144 (natBytes msg 1 ++ natBytes arg 1 ++ natBytes 0 6 ++ natBytes (g.fld F.KPR_DEVNUM_DEVNUM) 8 ++
    natBytes g.node.toNat 2 ++ natBytes g.segId.toNat 1 ++ natBytes p 1 ++ tail)

/-- A replay starts (R367 to R369). -/
def Segment.startReplay (g : Segment) (tick p : Nat) (from_ : BitVec 12) : Segment :=
  let q := g.port p
  if from_ == q.nextSeq then g
  else
    let g := g.modPort p fun q => { q with replaying := some (from_, from_), replays := q.replays + 1, timerAt := tick }
    g.bump (F.LNK_ERR_COUNT_REPLAY_EVENTS.port p)

/-! ## Dropped traffic (R386) -/

/-- Flits discarded by a port: synthetic completions and counts. -/
def Segment.discard (g : Segment) (cycle p : Nat) (fs : List BFlit) (doubt : Bool) : Segment :=
  fs.foldl (fun (g : Segment) b =>
    if b.flit.cls.toNat == 3 then g.bump (F.LNK_DROP_COUNT_COLLECTIVE_DROPPED.port p)
    else
      match synthFor b.flit csLinkDown doubt with
      | some r => (g.injectL cycle r).bump (F.LNK_DROP_COUNT_SYNTH_SENT.port p)
      | none => g) g

/-- A port drops its traffic and its seal state on entering DOWN, QUARANTINED or DISABLED (R386, R388). -/
def Segment.dropTraffic (g : Segment) (cycle p : Nat) : Segment :=
  let q := g.port p
  let g := g.discard cycle p q.stage false
  let g := g.discard cycle p (q.replay.flatMap SFrame.flits) true
  let g := g.discard cycle p q.land false
  g.modPort p fun q =>
    { q with stage := [], replay := [], land := [], replaying := none, slots := [], txRuns := [], rxRuns := [],
             trailerDue := false, nakDue := false, ctrlDue := [], req := none, lanesUp := false, resume := none,
             resumed := false, wait := none, phase := 0, width := 0, mapTx := List.replicate 8 15, spareTx := 15,
             calTx := 15, mapRx := List.replicate 8 15, spareRx := 15, calRx := 15, rotTx := {}, rotRx := {},
             txPwr := .notTrained, rxPwr := .notTrained, dozeReq := false, flaskReq := false, flask := 0,
             relock := none, cmd := 0, target := 0, wantWidth := none, owed := 0 }

/-- The partner's node for a record, when a RESUME has been taken since the last training from DOWN (R582). -/
def Segment.partnerNode (g : Segment) (p : Nat) : Option (BitVec 15) :=
  if (g.port p).partnerKnown then some (BitVec.ofNat 15 (g.fld (F.LNK_PARTNER_NODE.port p))) else none

/-- A port enters QUARANTINED (R385). -/
def Segment.quarantine (g : Segment) (cycle p : Nat) (slot : Nat) (ctx : Option (BitVec 12)) : Segment :=
  let g := (g.dropTraffic cycle p).modPort p fun q => { q with st := .quarantined }
  g.raise (tickOf cycle) { cls := 7, unit := 5, index := p, node := g.partnerNode p, ctx := ctx, info := BitVec.ofNat 32 slot }

/-! ## Retraining (R376 to R381) -/

/-- The count of a list of ticks within the last second. -/
def within1s (now : Nat) (ts : List Nat) : List Nat := ts.filter fun t => now - t < 50000000

/-- The lanes of a port begin training at a phase (R378 step 2, R407). -/
def Port.beginPhase (q : Port) (tick phase : Nat) : Port :=
  { q with phase := phase, phaseTick := tick, req := none, lanesUp := false, resume := none, resumed := false, resumeFt := none }

/-- A width request of this end that has no answer (R399). -/
def Port.askedWidth (q : Port) : Option Nat := match q.req with | some (true, w, _) => some w | _ => q.wantWidth

/-- A retrain starts at this end (R377, R378 step 1), or the third VIOLATION retrain to start quarantines (R385). A width request that is
pending is made again afterwards (R399). -/
def Segment.retrainStart (g : Segment) (cycle p cause : Nat) : Segment :=
  let tick := tickOf cycle
  let q := g.port p
  let viol := if cause == 3 then tick :: within1s tick q.violTicks else q.violTicks
  let g := g.modPort p fun q => { q with violTicks := viol }
  let g := g.setFld (F.LNK_STATE_LAST_CAUSE.port p) cause
  let g := g.setFld (F.LNK_RETRAIN_STATUS_LAST_TICK.port p) (tick % 2 ^ 32)
  let g := g.bump (F.LNK_RETRAIN_STATUS_RETRAINS.port p)
  if cause == 3 && viol.length ≥ 3 then g.quarantine cycle p 0 none
  else
    let g := g.modPort p fun q =>
      { q with st := .retrain, cause := cause, start := tick, left := (if q.st == .active then some tick else q.left),
               wantWidth := q.askedWidth,
               req := some (false, cause, tick), reqFt := q.ft, ctrlDue := [(1, cause)], nakDue := false, replaying := none,
               lanesUp := false, resume := none, resumed := false, resumeFt := none, wait := none, phase := 0, isLeader := true,
               rotTx := {}, rotRx := {}, calTx := 15, calRx := 15, cmd := 0, dozeReq := false, flaskReq := false, flask := 0,
               relock := none,
               txPwr := (if q.txPwr == .doze then .active else q.txPwr) }
    -- lanes that are off cannot carry a request: full training at once (R424)
    if (g.port p).txPwr == .flask then g.modPort p fun q => { (q.beginPhase tick 1) with ctrlDue := [] } else g

/-- A cause arises (R377): discarded unless the port is ACTIVE. -/
def Segment.retrainCause (g : Segment) (cycle p cause : Nat) : Segment :=
  if (g.port p).st == .active then g.retrainStart cycle p cause else g

/-- An end follows its partner's retrain request (R378 step 1, R379, R381). -/
def Segment.follow (g : Segment) (cycle p : Nat) : Segment :=
  let tick := tickOf cycle
  let g := g.retrainStart cycle p 4
  g.modPort p fun q => { (q.beginPhase tick 1) with ctrlDue := [(2, 0)], isLeader := false }

/-- A width change is agreed (R380, R414): phases 4 and 7 with the agreed width. -/
def Segment.enterWidth (g : Segment) (cycle p w : Nat) (leads : Bool) (due : List (Nat × Nat)) : Segment :=
  let tick := tickOf cycle
  g.modPort p fun q =>
    { (q.beginPhase tick 4) with
        st := .width, start := tick, left := (if q.st == .active then some tick else q.left), leaderWidth := w,
        isLeader := leads, ctrlDue := due, nakDue := false, replaying := none, rotTx := {}, rotRx := {}, calTx := 15,
        calRx := 15, cmd := 0, dozeReq := false, flaskReq := false, wantWidth := none,
        txPwr := (if q.txPwr == .doze then .active else q.txPwr) }

/-- This end asks for a width change (R380). -/
def Segment.askWidth (g : Segment) (cycle p w : Nat) : Segment :=
  let q := g.port p
  if q.st == .active && q.req.isNone then
    g.modPort p fun q => { q with req := some (true, w, tickOf cycle), ctrlDue := q.ctrlDue ++ [(3, w)], wantWidth := none,
                                  txPwr := (if q.txPwr == .doze then .active else q.txPwr) }
  else g.modPort p fun q => { q with wantWidth := some w }

/-- A width request left pending is made again once the port is ACTIVE (R399). -/
def Segment.remakeWidth (g : Segment) (cycle p : Nat) : Segment :=
  match (g.port p).wantWidth with
  | some w => if (g.port p).st == .active && w != (g.port p).width then g.askWidth cycle p w else g
  | none => g

/-! ## Violations (R383, R384) -/

/-- A NAK becomes due under the repeat limit (R366). -/
def Segment.dueNak (g : Segment) (tick p : Nat) : Segment :=
  g.modPort p fun q =>
    let a := q.expected - 1
    let rep := max 1 (g.fld (F.LNK_TIMERS_NAK_REPEAT.port p))
    let recent := match q.nakLast with | some (x, t) => x == a && tick < t + rep | none => false
    if recent || q.st != .active then q else { q with nakDue := true }

/-- A violation is counted, recorded at the first of its window, and may start a retrain (R376, R383, R384). -/
def Segment.violation (g : Segment) (cycle p cls : Nat) : Segment :=
  let tick := tickOf cycle
  let v := (g.port p).viols + 1
  let g := g.modPort p fun q => { q with viols := v }
  let g := g.bump { (F.LNK_VIOL_COUNT_CLASS5_to_CLASS0.port p) with hi := 8 * cls + 7, lo := 8 * cls }
  let g := g.setFld (F.LNK_VIOL_LAST_TICK.port p) (tick % 2 ^ 32)
  let g := g.setFld (F.LNK_VIOL_LAST_CLASS.port p) cls
  let g := if v == 1 then g.raise tick { cls := 6, unit := 5, index := p, node := g.partnerNode p, info := BitVec.ofNat 32 cls } else g
  if v == max 1 (g.fld (F.LNK_ERR_CTRL_VIOL_LIMIT.port p)) then g.retrainCause cycle p 3 else g

/-- A frame dropped for a violation: it is not taken, and a NAK answers it (R383). -/
def Segment.dropFrame (g : Segment) (cycle p cls : Nat) : Segment :=
  let g := g.modPort p fun q => { q with prevTaken := false }
  (g.dueNak (tickOf cycle) p).violation cycle p cls

/-! ## Sealed frames (R388 to R392) -/

/-- The bytes of one frame of a run under the counter-mode cipher: its place in the run fixes the key stream. -/
def frameCrypt (key nonce : List Byte) (idx : Nat) (data : List Byte) : List Byte :=
  (Config.gcmCrypt key nonce (List.replicate (288 * idx) 0 ++ data)).drop (288 * idx)

/-- The nonce of a run (R390). -/
def runNonce (salt : List Byte) (ctr : Nat) : List Byte := salt ++ bigBytes ctr 8

/-- The additional data of a frame (R390). -/
def frameAad (typ seq valid key run fidx : Nat) : List Byte :=
  natBytes (typ * 2 ^ 27 + seq * 2 ^ 15 + valid * 2 ^ 13 + key * 2 ^ 7 + run * 2 ^ 3 + fidx) 4

/-- The armed slot of a context. -/
def Port.slotOfCtx (q : Port) (c : BitVec 12) : Option SealSlot := q.slots.find? fun s => s.ctx == c

def Port.slotN (q : Port) (n : Nat) : Option SealSlot := q.slots.find? fun s => s.n == n

/-- The KEY of a flit: 0 plain, its seal slot, or none when a sealed flit has no slot (R389, R426). -/
def Segment.keyOf (g : Segment) (p : Nat) (f : Flit) : Option Nat :=
  if g.sealedCtx f.ctx then
    (if g.fld (F.LNE_CFG_RATE.port p) == 1 then none else ((g.port p).slotOfCtx f.ctx).map SealSlot.n)
  else some 0

/-- Sealed flits without a slot leave the staging (R389). -/
def Segment.dropUnsealed (g : Segment) (cycle p : Nat) : Segment :=
  let bad := (g.port p).stage.filter fun b => (g.keyOf p b.flit).isNone
  let g := g.modPort p fun q => { q with stage := q.stage.filter fun b => !bad.contains b }
  bad.foldl (fun g b =>
    let g := (g.bump (F.LNK_SEAL_COUNT_NO_SLOT_DROPS.port p)).dropFlit cycle b.flit csDenied false
    g.raise (tickOf cycle) { cls := 9, unit := 5, index := p, ctx := some b.flit.ctx, node := some b.flit.dstNode,
                             addr := BitVec.ofNat 64 b.flit.ga, info := b.flit.kind.zeroExtend 32, status := csDenied }) g

/-- The fenced seal slot of a port (R532). -/
def Segment.fencedKey (g : Segment) (p : Nat) : Option Nat :=
  if g.fld F.KPR_FENCE_SHARE != 0 && (g.fld F.KPR_FENCE_PORTS).testBit p then
    ((g.port p).slotOfCtx (BitVec.ofNat 12 (g.fld F.KPR_FENCE_CTX))).map SealSlot.n
  else none

/-- The bit-reversal of a 4-bit number. -/
def rev4 (n : Nat) : Nat := n % 2 * 8 + n / 2 % 2 * 4 + n / 4 % 2 * 2 + n / 8 % 2

/-- Whether the present frame time is reserved for the fenced slot (R532). -/
def Segment.reservedTime (g : Segment) (p : Nat) : Bool :=
  (g.fencedKey p).isSome && rev4 ((g.port p).ft % 16) < min 12 (g.fld F.KPR_FENCE_SHARE)

/-- The flits the next DATA frame would take: one or two of one KEY, within the credits (R363, R371, R532). -/
def Segment.nextFlits (g : Segment) (p : Nat) : List BFlit :=
  let q := g.port p
  let room := q.window - q.out
  let isFence (b : BFlit) : Bool := (g.fencedKey p).isSome && g.keyOf p b.flit == g.fencedKey p
  let may := q.stage.filter fun b => isFence b == g.reservedTime p || (g.fencedKey p).isNone
  match may.take (min 2 room) with
  | [a, b] => if g.keyOf p a.flit == g.keyOf p b.flit then [a, b] else [a]
  | l => l

/-- A wake event reaches a transmit side: a Doze request of its cycle is discarded (R429). -/
def Port.wakeEvent (q : Port) (cycle : Nat) : Port :=
  { q with wokeAt := some cycle, dozeReq := q.dozeReq && q.dozeAt != some cycle }

/-- A sequenced frame is sent or taken: a Doze or Flask request of its cycle is discarded (R460). -/
def Port.seqEvent (q : Port) (cycle : Nat) : Port :=
  let q := { q.wakeEvent cycle with seqTick := tickOf cycle }
  if q.flaskAt != some cycle then q
  else { q with flaskAt := none, flaskReq := false, flask := if q.flask == 1 then 0 else q.flask, cmd := if q.flask == 1 then 0 else q.cmd }

/-- A sequenced frame is kept in the replay buffer and goes out (R364). -/
def Segment.sendSeq (g : Segment) (cycle p : Nat) (x : SFrame) : Segment :=
  let g := g.modPort p fun q =>
    let q := q.seqEvent cycle
    { q with nextSeq := q.nextSeq + 1, replay := q.replay ++ [x], seqFt := q.ft, dozeReq := false,
             timerAt := if q.replay.isEmpty then tickOf cycle else q.timerAt,
             txPwr := if q.txPwr == .kettle then .active else q.txPwr }
  g.emit cycle p x

/-- A TRAILER goes out and ends every open run (R391). -/
def Segment.sendTrailer (g : Segment) (cycle p : Nat) : Segment :=
  let q := g.port p
  let tags := q.txRuns.flatMap fun r =>
    match q.slotN r.slot with
    | some s => padTo 16 (Config.gcmTag s.txKey (runNonce s.txSalt r.ctr) r.aad r.ct)
    | none => List.replicate 16 0
  let bytes := padTo 288 tags
  let n := q.txRuns.length
  let open_ := (q.txRuns.filter fun r => !r.closed).map Run.slot
  let g := g.modPort p fun q =>
    { q with txRuns := [], trailerDue := false,
             slots := q.slots.map fun s => if open_.contains s.n then { s with txCtr := s.txCtr + 1 } else s }
  let g := open_.foldl (fun g _ => g.bump1024 p Port.fracRuns (fun q n => { q with fracRuns := n }) F.LNK_SEAL_COUNT_RUNS) g
  let g := g.bump1024 p Port.fracTrailers (fun q n => { q with fracTrailers := n }) F.LNK_SEAL_COUNT_TRAILERS
  g.sendSeq cycle p { typ := 3, seq := q.nextSeq, valid := 0, key := 0, run := BitVec.ofNat 4 (n / 8), fidx := BitVec.ofNat 3 n,
                      slot0 := bytes.take 144, slot1 := bytes.drop 144, flits := [] }

/-- A DATA frame goes out with the flits given (R363, R390). -/
def Segment.sendData (g : Segment) (cycle p : Nat) (fs : List BFlit) : Segment :=
  let q := g.port p
  let s0 := match fs with | a :: _ => slotBytes a.flit | [] => blankSlot
  let s1 := match fs with | _ :: b :: _ => slotBytes b.flit | _ => blankSlot
  let valid : BitVec 2 := if fs.length == 2 then 3 else 1
  let g := g.modPort p fun q => { q with stage := q.stage.filter fun b => !fs.contains b, out := q.out + fs.length }
  let g := g.count fun t => { t with tx := t.tx.set p (t.tx.getD p 0 + fs.length) }
  let key := match fs with | a :: _ => (g.keyOf p a.flit).getD 0 | [] => 0
  match if key == 0 then none else q.slotN key with
  | none =>
    g.sendSeq cycle p { typ := 0, seq := q.nextSeq, valid := valid, key := 0, run := 0, fidx := 0, slot0 := s0, slot1 := s1, flits := fs }
  | some s =>
    let old := q.txRuns.find? fun r => r.slot == key && !r.closed
    let r := old.getD { slot := key, ctr := s.txCtr, seq := q.nextSeq, ft := q.ft, frames := 0, aad := [], ct := [], closed := false }
    let run := BitVec.ofNat 4 r.ctr
    let ct := padTo 288 (frameCrypt s.txKey (runNonce s.txSalt r.ctr) r.frames (s0 ++ s1))
    let aad := frameAad 0 q.nextSeq.toNat valid.toNat key run.toNat r.frames
    let r' := { r with frames := r.frames + 1, aad := r.aad ++ aad, ct := r.ct ++ ct, closed := r.frames == 7 }
    let g := g.modPort p fun q =>
      { q with txRuns := (match old with
                 | some _ => q.txRuns.map fun x => if x.slot == key && !x.closed then r' else x
                 | none => q.txRuns ++ [r'])
               slots := if r'.closed then q.slots.map fun x => if x.n == key then { x with txCtr := x.txCtr + 1 } else x else q.slots }
    let g := if r'.closed then g.bump1024 p Port.fracRuns (fun q n => { q with fracRuns := n }) F.LNK_SEAL_COUNT_RUNS else g
    g.sendSeq cycle p { typ := 0, seq := q.nextSeq, valid := valid, key := BitVec.ofNat 6 key, run := run, fidx := BitVec.ofNat 3 r.frames,
                        slot0 := ct.take 144, slot1 := ct.drop 144, flits := fs }

/-- Whether a TRAILER goes before the flits that are ready (R391). -/
def Segment.trailerNow (g : Segment) (p : Nat) (fs : List BFlit) : Bool :=
  let q := g.port p
  let starts := match fs with
    | a :: _ => let k := (g.keyOf p a.flit).getD 0
                k != 0 && !q.txRuns.any fun r => r.slot == k && !r.closed
    | [] => false
  let old := q.txRuns.head?.any fun r => q.ft ≥ r.ft + 256
  !q.txRuns.isEmpty && !g.reservedTime p && (q.trailerDue || old || fs.isEmpty || (starts && q.txRuns.length ≥ 18))

/-- Whether a transmit side is quiet enough for Doze (R421). -/
def Port.dozeOk (q : Port) : Bool :=
  q.txPwr == .kettle && q.replay.isEmpty && q.stage.isEmpty && !q.ackOwed && q.owed == 0 &&
  (q.rotTx.step == 0 || q.rotTx.step == 4)

/-- A transmit side enters Doze: one IDLE frame, then the quiet pattern (R421). -/
def Segment.enterDoze (g : Segment) (cycle p : Nat) : Segment :=
  let g := (g.emitPlain cycle p 1 blankSlot).modPort p fun q => { q with txPwr := .doze, dozeReq := false }
  g.bump (F.LNE_PWR_COUNT_DOZE_ENTRIES.port p)

/-- An IDLE or a hush, as the lane state asks (R362, R420), or a Doze request carried out (R421). -/
def Segment.sendIdle (g : Segment) (cycle p : Nat) : Segment :=
  let q := g.port p
  let pace := max 1 (min 16 (g.fld (F.LNE_PWR_CTRL_KETTLE_PACE.port p)))
  if q.dozeReq && q.dozeOk then g.enterDoze cycle p
  else if q.txPwr == .kettle && g.bothCap p 3 && !q.ackOwed && q.owed == 0 && q.ft < q.idleFt + pace then
    g.modPort p fun q => { q with hushes := q.hushes + 1 }
  else g.emitPlain cycle p 1 blankSlot

/-- The frame time of an ACTIVE end, after NAK and CTRL (R362 steps 2 to 4). -/
def Segment.sendActive (g : Segment) (cycle p : Nat) : Segment :=
  let q := g.port p
  match q.replaying with
  | some (st, pos) =>
    match q.replay.find? fun x => x.seq == pos with
    | some x =>
      let next := pos + 1
      let g := g.modPort p fun q =>
        { q.seqEvent cycle with replaying := if next == q.nextSeq then none else some (st, next), seqFt := q.ft }
      (g.emit cycle p x).bump (F.LNK_REPLAY_COUNT_FRAMES_REPLAYED.port p)
    | none => g.modPort p fun q => { q with replaying := none }
  | none =>
    let g := g.dropUnsealed cycle p
    let fs := g.nextFlits p
    if q.replay.length ≥ 512 then g.sendIdle cycle p
    else if g.trailerNow p fs then g.sendTrailer cycle p
    else if !fs.isEmpty then g.sendData cycle p fs
    else g.sendIdle cycle p

/-- Whether a RESUME is due (R378 step 3). -/
def Port.resumeDue (q : Port) : Bool :=
  q.lanesUp && match q.resumeFt with | none => true | some t => q.ft ≥ t + 64

/-- What an end sends in one frame time (R362): the first that applies of a NAK, a RESUME, a CTRL message, and what its state sends. -/
def Segment.frameTime (g : Segment) (cycle p : Nat) : Segment :=
  let g := g.modPort p fun q => { q with ft := q.ft + 1 }
  let q := g.port p
  if q.nakDue then
    let g := g.modPort p fun q => { q with nakDue := false, nakLast := some (q.expected - 1, tickOf cycle) }
    (g.emitPlain cycle p 2 blankSlot).bump (F.LNK_REPLAY_COUNT_NAKS_SENT.port p)
  else if q.resumeDue then
    let g := g.modPort p fun q => { q with resumeFt := some q.ft }
    g.emitPlain cycle p 4 (g.ctrlSlot p 5 0)
  else
    match q.ctrlDue with
    | (m, a) :: rest =>
      let g := g.modPort p fun q => { q with ctrlDue := rest, reqFt := q.ft }
      g.emitPlain cycle p 4 (g.ctrlSlot p m a)
    | [] =>
      match q.st, q.req with
      | .retrain, some (false, cause, _) =>
        if q.ft ≥ q.reqFt + 64 then
          (g.modPort p fun q => { q with reqFt := q.ft }).emitPlain cycle p 4 (g.ctrlSlot p 1 cause)
        else g.emitPlain cycle p 1 blankSlot
      | .active, _ => g.sendActive cycle p
      | _, _ => if q.lanesUp then g.emitPlain cycle p 1 blankSlot else g

/-- FRAME_TRANSMIT (R362): one frame time of a port's transmit side. -/
def execFrameTransmit (sg : Fin 8) (p : Fin 6) (s : State) : Out :=
  onSeg sg s fun s =>
    let g := s.seg sg
    let q := g.port p
    let runs := match q.st with
      | .active => q.txPwr == .active || q.txPwr == .kettle
      | .retrain => q.wait.isNone
      | .width => true
      | .training => q.lanesUp
      | _ => false
    if !runs then s
    else
      s.setSeg sg (g.frameTime s.time p)

/-! ## Taking frames (R361, R365 to R367, R373) -/

/-- How far `b` lies ahead of `a` modulo 2^12. -/
def ahead (a b : BitVec 12) : Nat := (b - a).toNat

/-- Whether an ACK is valid (R367). -/
def Port.ackOk (q : Port) (a : BitVec 12) : Bool := ahead q.acked a ≤ ahead q.acked (q.nextSeq - 1)

/-- Replay entries up to an acknowledgement are freed (R367, R369). -/
def Port.freeAcked (q : Port) (tick : Nat) (a : BitVec 12) : Port :=
  let n := ahead q.acked a
  if n == 0 then q
  else
    let gone := (q.replay.filter fun x => ahead q.acked x.seq ≤ n && ahead q.acked x.seq != 0)
    let replaying := match q.replaying with
      | some (s, pos) =>
        if ahead q.acked pos ≤ n && pos != q.acked then (if a + 1 == q.nextSeq then none else some (s, a + 1)) else some (s, pos)
      | none => none
    { q with acked := a, timerAt := tick, replay := q.replay.filter fun x => !gone.contains x, replaying := replaying }

/-- The credits of a taken frame (R373). OUT stays at 0 where more are returned than were out (log 68). -/
def Port.takeCredits (q : Port) (ret : Nat) (total : BitVec 16) : Port :=
  let seen := q.seen + BitVec.ofNat 16 ret
  let d := (total - seen).toInt
  if d == 0 then { q with seen := seen, out := q.out - ret }
  else
    let q := { q with seen := total, out := ((q.out : Int) - ret - d).toNat }
    if q.prevTaken then
      let leaked := q.leaked + d.natAbs
      { q with leaked := leaked, window := 256 - leaked }
    else q

/-- AGE as a landing rewrites it (R331). -/
def Segment.rewriteAge (g : Segment) (cycle p : Nat) (stamp : BitVec 10) (age : BitVec 10) : BitVec 10 :=
  let d := max 1 (g.fld (F.LNK_TIMING_LINK_UNITS.port p))
  age + BitVec.ofNat 10 (g.ageClock cycle) - stamp - BitVec.ofNat 10 d

/-- A flit of an accepted frame: malformed ones are dropped with their credit owed, the others enter the landing
buffer (R50, R331, R383). -/
def Segment.acceptFlit (g : Segment) (cycle p : Nat) (stamp : BitVec 10) (slotCtx : Option (BitVec 12)) (f : Flit) : Segment :=
  let isBad := f.malformed || (match slotCtx with | some c => f.ctx != c | none => g.sealedCtx f.ctx)
  if isBad then (g.modPort p fun q => { q with owed := q.owed + 1 }).violation cycle p 1
  else
    let f := { f with age := g.rewriteAge cycle p stamp f.age }
    let (g, w) := g.lookup (tickOf cycle) f
    let g := (g.count fun t => { t with rx := t.rx.set p (t.rx.getD p 0 + 1) }).modPort p fun q =>
      { q with land := q.land ++ [{ flit := f, entry := w, at_ := cycle }] }
    { g with rte := { g.rte with occMax := max g.rte.occMax (g.port p).land.length } }

/-- An accepted DATA frame (R365, R392). -/
def Segment.acceptData (g : Segment) (cycle p : Nat) (f : Frame) : Segment :=
  let q := g.port p
  let g := (if f.key == 0 then g else g.charge 280).modPort p fun q => { q with expected := q.expected + 1, gap := false, ackOwed := true }
  let put (g : Segment) (c : Option (BitVec 12)) (bytes : List Byte) : Segment :=
    let g := g.acceptFlit cycle p f.stamp c (flitOf (bytes.take 144))
    if f.valid == 3 then g.acceptFlit cycle p f.stamp c (flitOf (bytes.drop 144)) else g
  match if f.key == 0 then none else q.slotN f.key.toNat with
  | none => put g none (f.slot0 ++ f.slot1)
  | some s =>
    let old := q.rxRuns.find? fun r => r.slot == s.n && !r.closed
    let r := old.getD { slot := s.n, ctr := s.rxCtr, seq := f.seq, ft := q.ft, frames := 0, aad := [], ct := [], closed := false }
    let ct := f.slot0 ++ f.slot1
    let r' := { r with frames := r.frames + 1, ct := r.ct ++ ct, closed := r.frames == 7,
                       aad := r.aad ++ frameAad 0 f.seq.toNat f.valid.toNat f.key.toNat f.run.toNat f.fidx.toNat }
    let g := g.modPort p fun q =>
      { q with rxRuns := (match old with
                 | some _ => q.rxRuns.map fun x => if x.slot == s.n && !x.closed then r' else x
                 | none => q.rxRuns ++ [r'])
               slots := if r'.closed then q.slots.map fun x => if x.n == s.n then { x with rxCtr := x.rxCtr + 1 } else x else q.slots }
    put g (some s.ctx) (padTo 288 (frameCrypt s.rxKey (runNonce s.rxSalt r.ctr) r.frames ct))

/-- An accepted TRAILER (R391, R392): each run's tag is checked. -/
def Segment.acceptTrailer (g : Segment) (cycle p : Nat) (f : Frame) : Segment :=
  let q := g.port p
  let bytes := f.slot0 ++ f.slot1
  let bad := q.rxRuns.zipIdx.find? fun (r, k) =>
    match q.slotN r.slot with
    | some s => padTo 16 (Config.gcmTag s.rxKey (runNonce s.rxSalt r.ctr) r.aad r.ct) != (bytes.drop (16 * k)).take 16
    | none => true
  let open_ := (q.rxRuns.filter fun r => !r.closed).map Run.slot
  let g := g.modPort p fun q =>
    { q with expected := q.expected + 1, gap := false, ackOwed := true, rxRuns := [],
             slots := q.slots.map fun s => if open_.contains s.n then { s with rxCtr := s.rxCtr + 1 } else s }
  match bad with
  | none => g
  | some (r, _) =>
    let g := (g.violation cycle p 5).bump (F.LNK_SEAL_COUNT_TAG_FAILS.port p)
    g.quarantine cycle p r.slot ((q.slotN r.slot).map SealSlot.ctx)

/-- COUNT of a TRAILER (R391). -/
def tagCount (f : Frame) : Nat := f.run.toNat * 8 + f.fidx.toNat

/-- Whether an in-order frame breaks the order of its runs or its count of tags (Table 9.6, class 0). -/
def Port.runsBad (q : Port) (f : Frame) : Bool :=
  if f.typ == 0 then
    if f.key == 0 then f.run != 0 || f.fidx != 0
    else
      match q.slotN f.key.toNat with
      | none => true
      | some s =>
        match q.rxRuns.find? fun r => r.slot == s.n && !r.closed with
        | some r => f.run != BitVec.ofNat 4 r.ctr || f.fidx.toNat != r.frames
        | none => f.run != BitVec.ofNat 4 s.rxCtr || f.fidx != 0
  else f.typ == 3 && tagCount f != q.rxRuns.length

/-- A control message out of range (R382). -/
def ctrlBad (f : Frame) : Bool :=
  let b := f.slot0
  let msg := field b 0 1
  let arg := field b 1 1
  msg == 0 || msg > 5 || (msg == 1 && (arg == 0 || arg > 7)) || ((msg == 3 || msg == 4) && arg != 2 && arg != 4 && arg != 8) ||
  ((msg == 2 || msg == 5) && arg != 0) || !zeros b 2 6 || field b 16 2 ≥ 2 ^ 15 || field b 18 1 > 7 || field b 19 1 > 7 ||
  (msg == 5 && (field b 20 2 ≥ 4096 || field b 22 2 > 256)) || (msg != 5 && !zeros b 20 4) || !zeros b 24 120 ||
  !zeros f.slot1 0 144

/-- A frame malformed by its header alone (Table 9.6, class 0). -/
def frameBad (f : Frame) : Bool :=
  f.typ.toNat > 4 || (f.typ == 0 && f.valid != 1 && f.valid != 3) || (f.typ != 0 && f.valid != 0) ||
  (f.typ != 0 && f.key != 0) || (f.typ != 0 && f.typ != 3 && (f.run != 0 || f.fidx != 0)) || (f.typ == 4 && ctrlBad f)

/-- Whether a frame is malformed whatever its order: by its header alone, by a KEY whose slot is not armed, or by a COUNT out of range. -/
def Port.headBad (q : Port) (f : Frame) : Bool :=
  frameBad f || (f.typ == 0 && f.key != 0 && (q.slotN f.key.toNat).isNone) || (f.typ == 3 && (tagCount f == 0 || tagCount f > 18))

/-- Whether a frame is a hush: every symbol zero (R420). -/
def isHush (f : Frame) : Bool := frameHeader f == 0 && f.crc == 0 && (f.slot0 ++ f.slot1).all fun b => b == 0

/-! ### Control messages (R378 to R381) -/

/-- Whether this end's key is the higher (R379). -/
def Segment.leads (g : Segment) (p : Nat) (b : List Byte) : Bool :=
  let own := (g.fld F.KPR_DEVNUM_DEVNUM * 8 + g.segId.toNat) * 8 + p
  let other := (field b 8 8 * 8 + field b 18 1) * 8 + field b 19 1
  own > other

/-- The partner's first RESUME of an attempt (R378 step 4, R387). -/
def Segment.takeResume (g : Segment) (cycle p : Nat) (b : List Byte) : Segment :=
  let tick := tickOf cycle
  let exp := BitVec.ofNat 12 (field b 20 2)
  let free := field b 22 2
  let g := g.setFld (F.LNK_PARTNER_NODE.port p) (field b 16 2)
  let g := g.setFld (F.LNK_PARTNER_SEG.port p) (field b 18 1)
  let g := g.setFld (F.LNK_PARTNER_PORT.port p) (field b 19 1)
  let g := g.setFld (F.LNK_PARTNER_DEV_DEVNUM.port p) (field b 8 8)
  let q := g.port p
  let n := ahead (q.acked + 1) exp
  let kept := q.replay.filter fun x => ahead (q.acked + 1) x.seq ≥ n
  let late : Bool := match q.left with | some t => tick - t ≥ 3200 | none => false
  let up (q : Port) : Port :=
    { q with st := .active, resumed := true, partnerKnown := true, acked := exp - 1, window := 256, leaked := 0, seen := 0,
             credTotal := 0, owed := 0, timerAt := tick, hotRun := 0, prevTaken := true, nakDue := false, nakLast := none, gap := false,
             replaying := none, req := none, wait := none, phase := 0, left := none, txPwr := .active, rxPwr := .active,
             seqFt := q.ft, idleFt := q.ft, seqTick := tick, rotAt := tick, ctrlDue := [] }
  let g :=
    if late then
      let g := g.discard cycle p q.land false
      let g := g.discard cycle p q.stage false
      let g := g.discard cycle p (kept.flatMap SFrame.flits) false
      -- a dropped flit of the landing buffer leaves a credit owed (R372)
      g.modPort p fun q => { (up q) with land := [], stage := [], replay := [], nextSeq := exp, out := 256 - free, owed := q.land.length }
    else
      let g := g.modPort p fun q =>
        { (up q) with replay := kept, out := 256 - free + (kept.flatMap SFrame.flits).length }
      g.startReplay tick p exp
  let g := g.setFld (F.LNK_STATE_LEADER.port p) (g.port p).isLeader.toNat
  g.remakeWidth cycle p

/-- A control message taken (Table 9.5). -/
def Segment.takeCtrl (g : Segment) (cycle p : Nat) (b : List Byte) : Segment :=
  let tick := tickOf cycle
  let q := g.port p
  let msg := field b 0 1
  let arg := field b 1 1
  -- whether a request of the partner is carried out at this end (R379, R381)
  let answer : Bool := match q.st with
    | .active => q.req.isNone || !g.leads p b
    | .retrain => q.wait.isSome || (match q.req with | some (false, _, _) => !g.leads p b | _ => false)
    | _ => false
  if msg == 1 then (if answer then g.follow cycle p else g)
  else if msg == 2 then
    (match q.st, q.req with
     | .retrain, some (false, _, _) => g.modPort p fun q => q.beginPhase tick 1
     | _, _ => g)
  else if msg == 3 then (if answer && q.wait.isNone then g.enterWidth cycle p arg false [(4, arg)] else g)
  else if msg == 4 then
    (match q.st, q.req with
     | .active, some (true, w, _) => g.enterWidth cycle p w true []
     | _, _ => g)
  else if msg == 5 then
    (if q.lanesUp && !q.resumed && (q.st == .training || q.st == .retrain || q.st == .width) then g.takeResume cycle p b else g)
  else g

/-- What a taken frame does by its SEQ (Table 9.3). -/
def Segment.bySeq (g : Segment) (cycle p : Nat) (f : Frame) : Segment :=
  let tick := tickOf cycle
  let d := ahead (g.port p).expected f.seq
  if f.typ == 0 || f.typ == 3 then
    let g := g.modPort p fun q =>
      { q.seqEvent cycle with ackOwed := true, rxPwr := if q.rxPwr == .kettle then .active else q.rxPwr }
    if d == 0 then (if f.typ == 0 then g.acceptData cycle p f else g.acceptTrailer cycle p f)
    else if d < 512 then (g.modPort p fun q => { q with gap := true }).dueNak tick p
    else g.bump (F.LNK_REPLAY_COUNT_DUPLICATES.port p)
  else if d == 0 then g
  else (g.modPort p fun q => { q with gap := true }).dueNak tick p

/-- Whether SEQ lies outside Table 9.3. -/
def Port.seqBad (q : Port) (f : Frame) : Bool :=
  let d := ahead q.expected f.seq
  if f.typ == 0 || f.typ == 3 then 511 < d && d < 3584 else d > 512

/-- Flits an in-order DATA frame brings. -/
def frameFlits (f : Frame) : Nat := if f.typ != 0 then 0 else if f.valid == 3 then 2 else 1

/-- A frame that is neither bad nor a hush reaches a port (R361, R365, R383). -/
def Segment.receive (g : Segment) (cycle p : Nat) (f : Frame) : Segment :=
  let tick := tickOf cycle
  let q := g.port p
  let countRx (g : Segment) : Segment := g.bump1024 p Port.fracRx (fun q n => { q with fracRx := n }) F.LNK_FRAME_COUNT_FRAMES_RX
  if q.headBad f then g.dropFrame cycle p 0
  else if q.st != .active then
    let g := countRx g
    if f.typ == 4 then g.takeCtrl cycle p f.slot0 else g
  else
    let inOrder := (f.typ == 0 || f.typ == 3) && f.seq == q.expected
    if q.seqBad f then g.dropFrame cycle p 3
    else if !q.ackOk f.ack then g.dropFrame cycle p 4
    else if inOrder && q.runsBad f then g.dropFrame cycle p 0
    else if inOrder && q.land.length + frameFlits f > 256 then g.dropFrame cycle p 2
    else
      let g := countRx g
      let notResume := !(f.typ == 4 && field f.slot0 0 1 == 5)
      let g := g.modPort p fun q =>
        let q := (q.freeAcked tick f.ack).takeCredits f.credRet.toNat f.credTotal
        { q with prevTaken := true, lanesUp := q.lanesUp && !notResume, rxPwr := if q.rxPwr == .doze then .active else q.rxPwr }
      let g :=
        if f.typ == 2 then
          let q := g.port p
          -- an expiry and a NAK of one tick start one replay (R369)
          let again := match q.replaying with | some (st, _) => st == f.ack + 1 || q.expiredAt == some tick | none => false
          if again then g else g.startReplay tick p (f.ack + 1)
        else g
      let g := g.bySeq cycle p f
      let g := if f.typ == 4 then g.takeCtrl cycle p f.slot0 else g
      if (g.port p).window < 128 then g.retrainCause cycle p 2 else g

/-- A bad frame is discarded whole and counted (R361). -/
def Segment.takeBad (g : Segment) (p : Nat) : Segment :=
  (g.modPort p fun q => { q with prevTaken := false }).bump (F.LNK_ERR_COUNT_BAD_FRAMES.port p)

/-- Whether the receive side of a port takes frames at all. -/
def Port.hears (q : Port) : Bool :=
  (q.st == .active && q.rxPwr != .flask) || (q.st == .retrain && (q.lanesUp || q.phase ≤ 1)) || (q.st == .width) ||
  (q.st == .training && q.lanesUp)

/-- A frame arrives with the number of symbols the decoder corrected (R360, R361, R420). -/
def State.frameIn (s : State) (sg : Fin 8) (p : Fin 6) (f : Frame) (corr : Fin 5) (mine : Bool) : State :=
  let g := s.seg sg
  if !mine || !(g.port p).hears || isHush f then s
  else
    let g := g.bumpBy (F.LNK_ERR_COUNT_CORRECTED.port p) corr.val
    s.setSeg sg (if crcOk f then g.receive s.time p f else g.takeBad p)

/-- Whether a CTRL frame holds a message. -/
def isMsg (f : Frame) (m : Nat) : Bool := f.typ == 4 && field f.slot0 0 1 == m

/-- DATA_FRAME (R365). -/
def execDataFrame (sg : Fin 8) (p : Fin 6) (f : Frame) (corr : Fin 5) (s : State) : Out :=
  onSeg sg s fun s => s.frameIn sg p f corr (f.typ == 0)

/-- IDLE_FRAME (R365); a frame of a reserved TYPE, or a CTRL frame of no listed message, arrives here too. -/
def execIdleFrame (sg : Fin 8) (p : Fin 6) (f : Frame) (corr : Fin 5) (s : State) : Out :=
  onSeg sg s fun s => s.frameIn sg p f corr (f.typ == 1 || f.typ.toNat > 4 || (f.typ == 4 && ctrlBad f))

/-- NAK_FRAME (R367). -/
def execNakFrame (sg : Fin 8) (p : Fin 6) (f : Frame) (corr : Fin 5) (s : State) : Out :=
  onSeg sg s fun s => s.frameIn sg p f corr (f.typ == 2)

/-- TRAILER_FRAME (R391, R392). -/
def execTrailerFrame (sg : Fin 8) (p : Fin 6) (f : Frame) (corr : Fin 5) (s : State) : Out :=
  onSeg sg s fun s => s.frameIn sg p f corr (f.typ == 3)

/-- BAD_FRAME (R361). -/
def execBadFrame (sg : Fin 8) (p : Fin 6) (s : State) : Out :=
  onSeg sg s fun s => if ((s.seg sg).port p).hears then s.setSeg sg ((s.seg sg).takeBad p) else s

/-- HUSH_FRAME (R420): none of its fields is used, and it counts in nothing; the receive side follows its partner
into Kettle (R419). -/
def execHushFrame (sg : Fin 8) (p : Fin 6) (s : State) : Out :=
  onSeg sg s fun s => s.mod sg fun g => g.modPort p fun q =>
    if q.st == .active && q.rxPwr == .active then { q with rxPwr := .kettle } else q

/-- RETRAIN_REQ (R378, R379, R381). -/
def execRetrainReq (sg : Fin 8) (p : Fin 6) (f : Frame) (corr : Fin 5) (s : State) : Out :=
  onSeg sg s fun s => s.frameIn sg p f corr (isMsg f 1)

/-- RETRAIN_ACK (R378). -/
def execRetrainAck (sg : Fin 8) (p : Fin 6) (f : Frame) (corr : Fin 5) (s : State) : Out :=
  onSeg sg s fun s => s.frameIn sg p f corr (isMsg f 2)

/-- WIDTH_REQ (R379, R380). -/
def execWidthReq (sg : Fin 8) (p : Fin 6) (f : Frame) (corr : Fin 5) (s : State) : Out :=
  onSeg sg s fun s => s.frameIn sg p f corr (isMsg f 3)

/-- WIDTH_ACK (R380). -/
def execWidthAck (sg : Fin 8) (p : Fin 6) (f : Frame) (corr : Fin 5) (s : State) : Out :=
  onSeg sg s fun s => s.frameIn sg p f corr (isMsg f 4)

/-- RESUME (R378 step 4, R387). -/
def execResume (sg : Fin 8) (p : Fin 6) (f : Frame) (corr : Fin 5) (s : State) : Out :=
  onSeg sg s fun s => s.frameIn sg p f corr (isMsg f 5)

/-! ## Timers -/

/-- REPLAY_TIMER_EXPIRY (R369). -/
def execReplayTimerExpiry (sg : Fin 8) (p : Fin 6) (s : State) : Out :=
  onSeg sg s fun s =>
    let g := s.seg sg
    let q := g.port p
    let lim := max 1 (g.fld (F.LNK_TIMERS_REPLAY_TIMER.port p))
    if q.st == .active && !q.replay.isEmpty && s.tick ≥ q.timerAt + lim then
      s.setSeg sg ((g.startReplay s.tick p (q.acked + 1)).modPort p fun q => { q with expiredAt := some s.tick })
    else s

/-- NAK_REPEAT_EXPIRY (R366, R370): with the gap still open, the NAK is sent again. -/
def execNakRepeatExpiry (sg : Fin 8) (p : Fin 6) (s : State) : Out :=
  onSeg sg s fun s =>
    let g := s.seg sg
    let q := g.port p
    if q.st == .active && q.gap && q.nakLast.isSome then s.setSeg sg (g.dueNak s.tick p) else s

/-- The counts of a window that has ended are set apart: what comes from its boundary tick on belongs to the next one (R8). -/
def Port.closeWindow (q : Port) (tick : Nat) : Port :=
  if q.windowEnd ≤ tick && q.closed.isNone then { q with closed := some (q.sent, q.replays), sent := 0, replays := 0, viols := 0 } else q

/-- ERROR_WINDOW_END (R376): at the first tick of each window of 50,000 ticks. -/
def execErrorWindowEnd (sg : Fin 8) (p : Fin 6) (s : State) : Out :=
  onSeg sg s fun s =>
    let g := s.seg sg
    let q := (g.port p).closeWindow s.tick
    if s.tick < q.windowEnd then s
    else
      let ppb := g.fld (F.LNK_ERR_CTRL_REPLAY_PPB.port p)
      let (sent, replays) := q.closed.getD (0, 0)
      let isHot := replays > 0 && replays * 1000000000 > ppb * sent
      let run := if isHot then q.hotRun + 1 else 0
      let fire := ppb != 0 && run ≥ max 1 (g.fld (F.LNK_ERR_CTRL_HOT_WINDOWS.port p))
      let g := g.modPort p fun q =>
        { q.closeWindow s.tick with hotRun := if fire then 0 else run, closed := none, windowEnd := (s.tick / 50000 + 1) * 50000 }
      s.setSeg sg (if fire then g.retrainCause s.time p 1 else g)

/-- REQUEST_REPEAT_LIMIT (R378 step 1). -/
def execRequestRepeatLimit (sg : Fin 8) (p : Fin 6) (s : State) : Out :=
  onSeg sg s fun s =>
    let g := s.seg sg
    let q := g.port p
    match q.st, q.req with
    | .retrain, some (false, _, t) => if s.tick ≥ t + 50 then s.setSeg sg (g.modPort p fun q => q.beginPhase s.tick 1) else s
    | _, _ => s

/-- RETRAIN_WAIT_END (R381): the port retrains again with the same cause, as the starting end. -/
def execRetrainWaitEnd (sg : Fin 8) (p : Fin 6) (s : State) : Out :=
  onSeg sg s fun s =>
    let g := s.seg sg
    let q := g.port p
    match q.st, q.wait with
    | .retrain, some t => if s.tick ≥ t then s.setSeg sg (g.retrainStart s.time p q.cause) else s
    | _, _ => s

/-- WIDTH_LIMIT_EXPIRY (R380): the width change becomes a retrain with cause WIDTH. -/
def execWidthLimitExpiry (sg : Fin 8) (p : Fin 6) (s : State) : Out :=
  onSeg sg s fun s =>
    let g := s.seg sg
    let q := g.port p
    let lapsed : Bool := match q.st, q.req with
      | .width, _ => s.tick ≥ q.start + 500
      | .active, some (true, _, t) => s.tick ≥ t + 50
      | _, _ => false
    if lapsed then s.setSeg sg ((g.modPort p fun q => { q with req := none }).retrainStart s.time p 7) else s

/-- TRAILER_DUE (R391): 256 frame times after the first frame of the oldest run awaiting its tag. -/
def execTrailerDue (sg : Fin 8) (p : Fin 6) (s : State) : Out :=
  onSeg sg s fun s =>
    let g := s.seg sg
    let q := g.port p
    match q.txRuns with
    | r :: _ => if q.ft ≥ r.ft + 256 then s.setSeg sg (g.modPort p fun q => { q with trailerDue := true }) else s
    | [] => s

/-! ## Commands of LNK_CTRL (R375, R394) -/

/-- A register write that R394 ignores. -/
def State.refuse394 (s : State) (sg : Nat) (off : Nat) (v : Word) : State :=
  s.mod sg fun g => (g.accessFault s.tick 5 off v).answer csOk 0

/-- The offset of a port's link register. -/
def lnkOff (p off : Nat) : Nat := 0x80000 + p * 0x10000 + off

/-- A write of ENABLE or RETRY wakes the two domains of its port (Table 11.1). -/
def Segment.wakePort (g : Segment) (tick p : Nat) : Segment := (g.wakeDom tick (domTx p)).wakeDom tick (domRx p)

/-- ENABLE written 1 (R375): a DISABLED port enters DOWN. -/
def Segment.portEnable (g : Segment) (tick p : Nat) : Segment :=
  ((g.setFld (F.LNK_CTRL_ENABLE.port p) 1).wakePort tick p).modPort p fun q => if q.st == .disabled then { q with st := .down } else q

/-- LINK_ENABLE (R375). -/
def execLinkEnable (sg : Fin 8) (p : Fin 6) (ag : Agent) (s : State) : Out :=
  onCtl sg ag s fun s =>
    if !ag.admin then s.refuse394 sg (lnkOff p 8) 1
    else
      s.setSeg sg (((s.seg sg).portEnable s.tick p).answer csOk 0)

/-- A port starts TRAINING: every count of chapter 09 from zero (R375), the taps at their first values (R411). Held in reset while
the fast clock does not run (R42), it does not. -/
def Segment.startTraining (g : Segment) (tick p : Nat) : Segment :=
  if !g.clocked then g else
  let g := g.modPort p fun q =>
    { (q.beginPhase tick 1) with
        st := .training, start := tick, nextSeq := 0, acked := 0xFFF, expected := 0, replay := [], replaying := none, out := 0,
        window := 256, leaked := 0, seen := 0, credTotal := 0, owed := 0, sent := 0, replays := 0, viols := 0, closed := none, hotRun := 0,
        left := none, fails := [], violTicks := [], prevTaken := true, nakDue := false, nakLast := none, gap := false, partnerKnown := false,
        ctrlDue := [], wait := none, isLeader := false }
  (List.range 9).foldl (fun g n => g.setReg (0x81100 + p * 0x10000 + 8 * n) (BitVec.ofNat 64 (54 * 65536 + 8 * 256 + 2))) g

/-- RETRY written (R375): a DOWN port enters TRAINING, unless RATE is 3 (Table 10.1). -/
def Segment.portRetry (g : Segment) (tick p : Nat) : Segment :=
  let g := g.wakePort tick p
  if (g.port p).st == .down && g.fld (F.LNE_CFG_RATE.port p) != 3 then g.startTraining tick p else g

/-- LINK_RETRY (R375). -/
def execLinkRetry (sg : Fin 8) (p : Fin 6) (ag : Agent) (s : State) : Out :=
  onCtl sg ag s fun s =>
    if !ag.admin then s.refuse394 sg (lnkOff p 8) 4
    else
      s.setSeg sg (((s.seg sg).portRetry s.tick p).answer csOk 0)

/-- RELEASE written (R385): a QUARANTINED port enters TRAINING. -/
def Segment.portRelease (g : Segment) (tick p : Nat) : Segment := if (g.port p).st == .quarantined then g.startTraining tick p else g

/-- LINK_RELEASE (R385). -/
def execLinkRelease (sg : Fin 8) (p : Fin 6) (ag : Agent) (s : State) : Out :=
  onDoms sg ag [domTx p, domRx p] s fun s =>
    if !ag.admin then s.refuse394 sg (lnkOff p 8) 8
    else
      s.setSeg sg (((s.seg sg).portRelease s.tick p).answer csOk 0)

/-- A port in Flask, or on its way there, is woken (R424). -/
def Port.wakeFlask (q : Port) (tick : Nat) : Port :=
  if q.txPwr == .flask then (if q.relock.isNone then { q with relock := some tick, wakeHeld := false } else q)
  else if q.flask == 2 then { q with wakeHeld := true }
  else q

/-- A retrain of a cause that the steward writes: one that finds the entry to Flask committed waits until the lanes are off, and runs full
training in place of the relock (R424). -/
def Segment.stewardCause (g : Segment) (cycle p cause : Nat) : Segment :=
  if (g.port p).st == .active && (g.port p).flask == 2 then g.modPort p fun q => { q with pendingCause := some cause, wakeHeld := true }
  else g.retrainCause cycle p cause

/-- LINK_RETRAIN (R377, R424): a retrain with cause STEWARD; a port in Flask wakes into full training. -/
def execLinkRetrain (sg : Fin 8) (p : Fin 6) (ag : Agent) (s : State) : Out :=
  onDoms sg ag [domTx p, domRx p] s fun s =>
    if !ag.admin then s.refuse394 sg (lnkOff p 8) 2
    else s.setSeg sg (((s.seg sg).stewardCause s.time p 5).answer csOk 0)

/-- WIDTH_REQ written (R380, R399, R424): a width that differs from WIDTH in ACTIVE requests a change, and of a port in Flask a retrain;
the write of the present width wakes such a port. -/
def Segment.portWidth (g : Segment) (cycle p width : Nat) : Segment :=
  let g := g.setFld (F.LNK_CTRL_WIDTH_REQ.port p) width
  let w := if width == 2 || width == 4 then width else 8
  let q := g.port p
  if q.st != .active then g
  else if w == q.width then g.modPort p fun q => q.wakeFlask (tickOf cycle)
  else if q.txPwr == .flask || q.flask == 2 then g.stewardCause cycle p 7
  else g.askWidth cycle p w

/-- LINK_WIDTH_REQUEST (R380, R399). -/
def execLinkWidthRequest (sg : Fin 8) (p : Fin 6) (ag : Agent) (width : BitVec 4) (s : State) : Out :=
  onCtl sg ag s fun s =>
    if !ag.admin then s.refuse394 sg (lnkOff p 8) (width.zeroExtend 64 <<< 8)
    else
      s.setSeg sg (((s.seg sg).portWidth s.time p width.toNat).answer csOk 0)

/-! ## Seal slots (R388, R426, R524) -/

/-- The end name of R524. -/
def hopEnd (dev seg port : Nat) : List Byte := bigBytes dev 8 ++ natBytes seg 1 ++ natBytes port 1

/-- A slot armed for a context: the keys of the hop are derived from the context key (R524). A port in Dziat mode and slot 0
ignore it (R426, Table 9.8); a port that is not ACTIVE, a slot already armed and a context without a key refuse it with a
record. Answers whether the arm was refused. -/
def Segment.sealArm (g : Segment) (tick p slot : Nat) (ctx : BitVec 12) : Segment × Bool :=
  let q := g.port p
  if slot == 0 || g.fld (F.LNE_CFG_RATE.port p) == 1 then (g, false)
  else
    match g.kpr.slots.find? fun k => k.kind == 4 && k.ctx == ctx && !k.lost with
    | none => (g.raise tick { cls := 29, unit := 4, index := p, ctx := some ctx, info := 8 }, true)
    | some k =>
      if q.st != .active || (q.slotN slot).isSome then (g.raise tick { cls := 29, unit := 4, index := p, ctx := some ctx, info := 8 }, true)
      else
        let serial := bigBytes (g.fld F.KPR_SEAL_SERIAL_SERIAL) 8
        let own := hopEnd (g.fld F.KPR_DEVNUM_DEVNUM) g.segId.toNat p
        let other := hopEnd (g.fld (F.LNK_PARTNER_DEV_DEVNUM.port p)) (g.fld (F.LNK_PARTNER_SEG.port p)) (g.fld (F.LNK_PARTNER_PORT.port p))
        let key := k.material.take 32
        let tx := kdf key (ascii "GYN hop") (serial ++ own ++ other) 36
        let rx := kdf key (ascii "GYN hop") (serial ++ other ++ own) 36
        let new : SealSlot := { n := slot, ctx := ctx, txKey := tx.take 32, txSalt := padTo 4 (tx.drop 32),
                                rxKey := rx.take 32, rxSalt := padTo 4 (rx.drop 32) }
        (g.modPort p fun q => { q with slots := q.slots ++ [new] }, false)

/-- SEAL_SLOT_ARM (R388, R426, R524): an arm command written by the keeper. -/
def execSealSlotArm (sg : Fin 8) (p : Fin 6) (ag : Agent) (slot : BitVec 6) (ctx : BitVec 12) (s : State) : Out :=
  onCtl sg ag s fun s =>
    if !ag.isKeeper then s.refuse394 sg (lnkOff p 0x80) (BitVec.ofNat 64 (0x40000 + slot.toNat * 4096 + ctx.toNat))
    else s.setSeg sg (((s.seg sg).sealArm s.tick p slot.toNat ctx).1.answer csOk 0)

/-- A seal slot is disarmed: its runs go with it. -/
def Port.disarm (q : Port) (n : Nat) : Port :=
  { q with slots := q.slots.filter fun s => s.n != n, txRuns := q.txRuns.filter fun r => r.slot != n,
           rxRuns := q.rxRuns.filter fun r => r.slot != n }

/-- SEAL_SLOT_DISARM (R388). -/
def execSealSlotDisarm (sg : Fin 8) (p : Fin 6) (ag : Agent) (slot : BitVec 6) (s : State) : Out :=
  onCtl sg ag s fun s =>
    if !ag.isKeeper then s.refuse394 sg (lnkOff p 0x80) (BitVec.ofNat 64 (0x80000 + slot.toNat * 4096))
    else s.setSeg sg (((s.seg sg).modPort p fun q => q.disarm slot.toNat).answer csOk 0)

end Sys2Proof.Machine
end

