-- ==== Sys2Proof/Machine/Blocks.lean ====
section
/-! DEFINITION. The symbols and blocks of a lane and its scrambler (R403 to R405, R408 to R410, R421): PAM4, the preamble, sync headers,
marker blocks, block groups, training blocks and PRBS31. A bit list is in the order of sending. -/

namespace Sys2Proof.Machine

open Sys2Proof

/-! ## Symbols (R403, R408) -/

/-- The PAM4 level of two bits, the more significant first. -/
def pamLevel : Bool → Bool → Int
  | false, false => -3
  | false, true => -1
  | true, true => 1
  | true, false => 3

/-- The two bits of a level; none where it is none of the four. -/
def pamBits (level : Int) : Option (Bool × Bool) :=
  if level == -3 then some (false, false) else if level == -1 then some (false, true)
  else if level == 1 then some (true, true) else if level == 3 then some (true, false) else none

/-- The symbols of a list of bits. -/
def pamSymbols : List Bool → List Int
  | a :: b :: r => pamLevel a b :: pamSymbols r
  | _ => []

/-- The preamble word of a physical lane (R408). -/
def preamble (lane : Nat) : List Int :=
  List.replicate 8 3 ++ List.replicate 4 (-3) ++ (bitsDown lane 4).map fun b => if b then 1 else -1

/-- Whether a lane arrives inverted: the mean of a plain lane's levels is positive (R408). -/
def isInverted (levels : List Int) : Bool := levels.foldl (· + ·) 0 < 0

/-- The levels of a lane once an inverted one has the more significant bit of every symbol inverted. -/
def upright (levels : List Int) : List Int := if isInverted levels then levels.map fun x => -x else levels

/-- The physical lane number in a preamble word. -/
def laneNumber (word : List Int) : Nat := (word.drop 12).foldl (fun n x => n * 2 + if 0 < x then 1 else 0) 0

/-- How the lanes arrive, by the number read on each receive lane that has signal: 0 straight, 1 reversed, 2 another arrangement (R408). -/
def arrival (read : List (Nat × Nat)) : Nat :=
  if read.all fun x => x.2 == x.1 then 0 else if read.all fun x => x.2 == 8 - x.1 then 1 else 2

/-! ## The scrambler (R404) -/

/-- One step of the sequence x^31 + x^28 + 1: its next bit, and the generator, whose bit 0 is the latest bit of the sequence. That the
SEED stands for the 31 bits before the first is the model's choice (log 63). -/
def prbsStep (s : BitVec 31) : Bool × BitVec 31 :=
  let b := s.getLsbD 30 ^^ s.getLsbD 27
  (b, s <<< 1 ||| if b then 1 else 0)

/-- The generator after some steps. -/
def prbsAt : Nat → BitVec 31 → BitVec 31
  | 0, s => s
  | n + 1, s => prbsAt n (prbsStep s).2

/-- Payload bits scrambled, or unscrambled, from a generator. -/
def scramble : List Bool → BitVec 31 → List Bool
  | [], _ => []
  | b :: bs, s => (b ^^ (prbsStep s).1) :: scramble bs (prbsStep s).2

/-! ## Blocks (R404) -/

/-- The kinds of blocks a lane carries: the blocks of operation, and those of training and service. -/
inductive BlockKind where
  | ordinary | marker | training | service
  deriving DecidableEq, Repr

/-- The sync header of a block, sent first: 0b01 opens an ordinary block, 0b10 a marker block. -/
def BlockKind.header : BlockKind → List Bool
  | .ordinary => [false, true]
  | _ => [true, false]

/-- Whether the payload of a block is scrambled. -/
def BlockKind.scrambled : BlockKind → Bool
  | .ordinary => true
  | .marker => true
  | _ => false

/-- A block as it is sent with a lane's generator, which its payload advances by 128 steps whether or not it is scrambled. -/
def BlockKind.bits (k : BlockKind) (payload : List Bool) (gen : BitVec 31) : List Bool :=
  k.header ++ if k.scrambled then scramble payload gen else payload

/-- A block of operation as it is read: whether it is a marker block, and its payload; none where its header is invalid. -/
def readBlock (bits : List Bool) (gen : BitVec 31) : Option (Bool × List Bool) :=
  match bits with
  | false :: true :: r => some (false, scramble r gen)
  | true :: false :: r => some (true, scramble r gen)
  | _ => none

/-- Whether a sync header is one of the two that are valid. -/
def headerOk (h : BitVec 2) : Bool := h == 1 || h == 2

/-- Whether a lane in operation loses block lock: 16 of 64 consecutive headers are invalid (R409). -/
def losesLock (heads : List (BitVec 2)) : Bool :=
  heads.length == 64 && 16 ≤ (heads.filter fun h => !headerOk h).length

/-! ## Block groups (R405) -/

/-- The bits of a frame symbol, most significant first. -/
def symbolBits (s : BitVec 10) : List Bool := (List.range 10).map fun i => s.getLsbD (9 - i)

/-- The payload bits that logical lane `l` of `w` carries of frames given by their symbols. -/
def lanePayload (w l : Nat) (frames : List (List (BitVec 10))) : List Bool :=
  frames.flatMap fun syms => ((syms.zipIdx.filter fun x => x.2 % w == l).map Prod.fst).flatMap symbolBits

/-- Blocks of 128 payload bits, of which the first may be the marker block. -/
def blocksFrom : Nat → Bool → List Bool → BitVec 31 → List (List Bool)
  | 0, _, _, _ => []
  | n + 1, isFirst, bs, gen =>
    (if isFirst then BlockKind.marker else .ordinary).bits (bs.take 128) gen :: blocksFrom n false (bs.drop 128) (prbsAt 128 gen)

/-- A block group of a lane: 155 blocks, of which a marker block is the first. -/
def blockGroup (payload : List Bool) (gen : BitVec 31) : List (List Bool) := blocksFrom 155 true payload gen

/-! ## The generators of a port -/

/-- A lane rate in Gbit/s (Table 10.1). -/
def gigabits (rate : Nat) : Nat := if rate == 0 then 128 else if rate == 1 then 64 else if rate == 2 then 32 else 0

/-- The payload bit periods in a number of fast-clock cycles, of 20/21 ns each. -/
def payloadPeriods (rate cycles : Nat) : Nat := cycles * 20 * gigabits rate * 128 / (21 * 130)

/-- The generators of a port run in a cycle, but for lanes in Flask, and for a link in DOWN or DISABLED (R404). -/
def Port.runGens (q : Port) : Port :=
  if q.st == .down || q.st == .disabled then q
  else { q with genTx := if q.txPwr == .flask then q.genTx else q.genTx + 1, genRx := if q.rxPwr == .flask then q.genRx else q.genRx + 1 }

/-- Both directions start from the seeds sent and received (R404): those of the own transmitter are in the command, since the spec does
not say how they are chosen (log 63). -/
def Port.seed (q : Port) (own theirs : List (BitVec 31)) : Port := { q with ownSeeds := own, seeds := theirs, genTx := 0, genRx := 0 }

/-- The generator of a physical transmit lane of a port. -/
def Segment.txGen (g : Segment) (p lane : Nat) : BitVec 31 :=
  let q := g.port p
  prbsAt (payloadPeriods (g.fld (F.LNE_CFG_RATE.port p)) q.genTx) (q.ownSeeds.getD lane 0)

/-- The generator with which a physical receive lane of a port is read. -/
def Segment.rxGen (g : Segment) (p lane : Nat) : BitVec 31 :=
  let q := g.port p
  prbsAt (payloadPeriods (g.fld (F.LNE_CFG_RATE.port p)) q.genRx) (q.seeds.getD lane 0)

/-- The block group that a port sends on a logical lane, of the frames it holds (R405). -/
def Segment.sentGroup (g : Segment) (p l : Nat) (frames : List (List (BitVec 10))) : List (List Bool) :=
  let q := g.port p
  blockGroup (lanePayload q.width l frames) (g.txGen p (q.mapTx.getD l 15))

/-- A block of operation read on a logical lane of a port. -/
def Segment.readLane (g : Segment) (p l : Nat) (bits : List Bool) : Option (Bool × List Bool) :=
  readBlock bits (g.rxGen p ((g.port p).mapRx.getD l 15))

/-! ## Block lock (R409) -/

/-- The hunt of a lane for block lock in the bits that arrive: the place of the first of 64 blocks in a row with valid headers. -/
def hunt : Nat → Nat → List Bool → Nat → Option Nat
  | 0, _, _, _ => none
  | n + 1, run, bits, pos =>
    match bits with
    | a :: b :: _ =>
      if a != b then (if run == 63 then some (pos - 63 * 130) else hunt n (run + 1) (bits.drop 130) (pos + 130))
      else hunt n 0 (bits.drop 1) (pos + 1)
    | _ => none

/-! ## Training and service blocks (R410, Table 10.3) -/

/-- The fields of a training or service block. -/
structure TrainBlock where
  count : BitVec 8 := 0
  lane : BitVec 4 := 0
  phase : BitVec 3 := 0
  good : BitVec 9 := 0
  reqLane : BitVec 4 := 0
  preReq : BitVec 2 := 0
  postReq : BitVec 2 := 0
  cmd : BitVec 4 := 0
  target : BitVec 4 := 0
  width : BitVec 4 := 0
  cap : BitVec 4 := 0
  seed : BitVec 31 := 0
  preNow : BitVec 5 := 0
  postNow : BitVec 5 := 0
  deriving DecidableEq, Repr, Inhabited

/-- The 128 payload bits of a block, bit 127 first. -/
def TrainBlock.payload (b : TrainBlock) : List Bool :=
  bitsDown 0xA5 8 ++ bitsDown b.count.toNat 8 ++ bitsDown b.lane.toNat 4 ++ bitsDown b.phase.toNat 3 ++ bitsDown b.good.toNat 9 ++
  bitsDown b.reqLane.toNat 4 ++ bitsDown b.preReq.toNat 2 ++ bitsDown b.postReq.toNat 2 ++ bitsDown b.cmd.toNat 4 ++
  bitsDown b.target.toNat 4 ++ bitsDown b.width.toNat 4 ++ bitsDown b.cap.toNat 4 ++ bitsDown b.seed.toNat 31 ++
  bitsDown b.preNow.toNat 5 ++ bitsDown b.postNow.toNat 5 ++ bitsDown 0 31

/-- The number that bits spell, the first the most significant. -/
def bitsNat (bs : List Bool) : Nat := bs.foldl (fun n b => n * 2 + b.toNat) 0

/-- A block read from its 128 payload bits; none where the ID is not 0xA5. -/
def readTrain (bs : List Bool) : Option TrainBlock :=
  let f (at_ n : Nat) : Nat := bitsNat ((bs.drop at_).take n)
  if bs.length != 128 || f 0 8 != 0xA5 then none
  else some
    { count := BitVec.ofNat 8 (f 8 8), lane := BitVec.ofNat 4 (f 16 4), phase := BitVec.ofNat 3 (f 20 3), good := BitVec.ofNat 9 (f 23 9),
      reqLane := BitVec.ofNat 4 (f 32 4), preReq := BitVec.ofNat 2 (f 36 2), postReq := BitVec.ofNat 2 (f 38 2), cmd := BitVec.ofNat 4 (f 40 4),
      target := BitVec.ofNat 4 (f 44 4), width := BitVec.ofNat 4 (f 48 4), cap := BitVec.ofNat 4 (f 52 4), seed := BitVec.ofNat 31 (f 56 31),
      preNow := BitVec.ofNat 5 (f 87 5), postNow := BitVec.ofNat 5 (f 92 5) }

/-- The receive lanes that passed phase 6 and have not been marked failed since. -/
def Segment.goodRx (g : Segment) (p : Nat) : BitVec 9 :=
  (List.range 9).foldl (fun (m : BitVec 9) n =>
    if g.fld ((F.LNE_LANE_ERR_FAILED.port p).add (8 * n)) == 1 then m &&& ~~~((1 : BitVec 9) <<< n) else m) (g.port p).good

/-- The block that a port sends on a physical lane outside its block groups, but for its tap requests: those of training, of a relock in
Flask, and of service. -/
def Segment.laneBlock (g : Segment) (p lane count : Nat) : TrainBlock :=
  let q := g.port p
  let taps := g.reg (0x81100 + p * 0x10000 + 8 * lane)
  { count := BitVec.ofNat 8 count, lane := BitVec.ofNat 4 lane,
    phase := BitVec.ofNat 3 (if q.st == .active then (if q.txPwr == .flask then 1 else 0) else q.phase)
    good := if q.phase == 7 then g.goodRx p else 0
    cmd := if q.st == .active then BitVec.ofNat 4 q.cmd else 0
    target := if q.st == .active then BitVec.ofNat 4 q.target else 0
    width := BitVec.ofNat 4 (g.fld (F.LNK_CTRL_WIDTH_REQ.port p)), cap := g.ownCap p, seed := q.ownSeeds.getD lane 0
    preNow := BitVec.ofNat 5 (bitsOf taps 7 0), postNow := BitVec.ofNat 5 (bitsOf taps 15 8) }

/-! ## The quiet pattern (R421) -/

/-- A block of the quiet pattern: an ordinary header, then 64 symbols that alternate −1 and +1, at one third of full swing. -/
def quietBlock : List Int := pamLevel false true :: (List.range 64).map fun i => if i % 2 == 0 then -1 else 1

end Sys2Proof.Machine
end

