-- ==== Sys2Proof/Machine/Lanes.lean ====
section
/-! DEFINITION. The lanes of a port (chapter 10): training phases, the rotating spare, lane power states. The
training steps that may fail a retrain are in LinkDown. -/

namespace Sys2Proof.Machine

open Sys2Proof

/-! ## Widths and maps (R413) -/

/-- WIDTH_REQ of a port as it acts (Table 9.8). -/
def Segment.wantedWidth (g : Segment) (p : Nat) : Nat :=
  let w := g.fld (F.LNK_CTRL_WIDTH_REQ.port p)
  if w == 2 || w == 4 then w else 8

/-- The physical lanes of a mask, ascending. -/
def lanesOf (m : BitVec 9) : List Nat := (List.range 9).filter fun i => m.getLsbD i

/-- The widest of 8, 4 and 2 within a bound; 0 when none is (R413). -/
def widthWithin (n : Nat) : Nat := if n ≥ 8 then 8 else if n ≥ 4 then 4 else if n ≥ 2 then 2 else 0

/-- The map of W logical lanes over the good lanes, and the spare (R413). -/
def mapOf (good : List Nat) (w : Nat) : List Nat × Nat :=
  let used := good.take w
  (used ++ List.replicate (8 - used.length) 15, (good.drop w).headD 15)

/-- The width bound of phase 7 (R413, R414). -/
def Segment.widthBound (g : Segment) (p : Nat) : Nat :=
  let q := g.port p
  match q.st with
  | .width => q.leaderWidth
  | .retrain => if q.isLeader then g.wantedWidth p else q.partnerWidth
  | _ => min (g.wantedWidth p) q.partnerWidth

/-! ## Training phases (R407) -/

/-- TAP_TICKS and PRBS_TICKS as they act (Table 10.6). -/
def Segment.tapTicks (g : Segment) (p : Nat) : Nat := min 1000 (g.fld (F.LNE_TRAIN_CTRL_TAP_TICKS.port p))
def Segment.prbsTicks (g : Segment) (p : Nat) : Nat := min 2000 (max 1 (g.fld (F.LNE_TRAIN_CTRL_PRBS_TICKS.port p)))

/-- The limit of a phase (Table 10.2). -/
def Segment.phaseLimit (g : Segment) (p phase : Nat) : Nat :=
  if phase == 1 then 250 else if phase == 5 then g.tapTicks p else if phase == 6 then g.prbsTicks p else 50

/-- Training restarts at phase 1, counted with its failure code (R407); a width change, which has the phases 4 and 7 only, at phase 4. -/
def Segment.restartTraining (g : Segment) (tick p code : Nat) : Segment :=
  let g := g.setFld (F.LNE_TRAIN_STATUS_FAIL.port p) code
  let g := g.bump (F.LNE_TRAIN_STATUS_RESTARTS.port p)
  g.modPort p fun q => { q with phase := if q.st == .width then 4 else 1, phaseTick := tick }

/-- The failure code of a phase that reached its limit. -/
def limitCode (phase : Nat) : Nat :=
  if phase == 1 then 1 else if phase == 2 then 2 else if phase == 3 then 4 else if phase == 4 then 5 else 7

/-- The port moves on to a phase. -/
def Segment.toPhase (g : Segment) (tick p phase : Nat) : Segment :=
  g.modPort p fun q => { q with phase := phase, phaseTick := tick }

/-- The transmit taps of a lane, kept within the ranges of R411. -/
def Segment.setTaps (g : Segment) (p n pre post : Nat) : Segment :=
  if pre ≤ 16 && post ≤ 24 && 64 - pre - post ≥ 24 then
    g.setReg (0x81100 + p * 0x10000 + 8 * n) (BitVec.ofNat 64 ((64 - pre - post) * 65536 + post * 256 + pre))
  else g

/-- Phase 6 judged (R412): the error counts and the GOOD mask. -/
def Segment.judge (g : Segment) (p : Nat) (obs : TrainObs) : Segment :=
  let lim := g.fld (F.LNE_TRAIN_CTRL_PRBS_LIMIT.port p)
  let g := (List.range 9).foldl (fun (g : Segment) n =>
    let e := (obs.errs.getD n 0).toNat
    let g := g.setFld ((F.LNE_LANE_ERR_PRBS_ERR.port p).add (8 * n)) (min e 65535)
    g.setFld ((F.LNE_LANE_ERR_FAILED.port p).add (8 * n)) 0) g
  let good := (List.range 9).foldl (fun (m : BitVec 9) n =>
    if obs.signal.getLsbD n && obs.lock.getLsbD n && (obs.errs.getD n 0).toNat ≤ lim then m ||| ((1 : BitVec 9) <<< n) else m) 0
  let g := g.setFld (F.LNE_TRAIN_STATUS_GOOD.port p) good.toNat
  g.modPort p fun q => { q with good := good }

/-- Phase 7 done (R407, R413, R378 step 3): the width, the maps and the spare, and RESUME may be sent. -/
def Segment.trained (g : Segment) (tick p w : Nat) (obs : TrainObs) : Segment :=
  let q := g.port p
  let (tx, stx) := mapOf (lanesOf q.partnerGood) w
  let (rx, srx) := mapOf (lanesOf (g.goodRx p)) w
  let g := g.modPort p fun q =>
    { q with phase := 0, width := w, mapTx := tx, spareTx := stx, calTx := 15, mapRx := rx, spareRx := srx, calRx := 15,
             rotTx := {}, rotRx := {}, rotAt := tick, cmd := 0, lanesUp := true, resumed := false, resumeFt := none,
             resume := some (q.expected, 256 - q.land.length), txPwr := .active, rxPwr := .active, flask := 0, relock := none }
  let g := g.setFld (F.LNE_TRAIN_STATUS_LAST_TICK.port p) (tick % 2 ^ 32)
  if q.st == .width then g
  else
    -- half the round trip in age units of 134.4 cycles, rounded up (R331)
    let units := max 1 ((obs.rtt.toNat * 5 + 1343) / 1344)
    (g.setFld (F.LNK_TIMING_RTT.port p) obs.rtt.toNat).setFld (F.LNK_TIMING_LINK_UNITS.port p) (min 255 units)

/-- What the end of a phase does short of failing the attempt: the new state, and whether phase 7 failed (R407 to R413). -/
def Segment.phaseEnd (g : Segment) (tick p : Nat) (obs : TrainObs) : Segment × Bool :=
  let q := g.port p
  let count (m : BitVec 9) : Nat := (lanesOf m).length
  match q.phase with
  | 1 => (if count obs.signal ≥ 2 then g.toPhase tick p 2 else g, false)
  | 2 =>
    if obs.order > 1 then (g.restartTraining tick p 3, false)
    else
      let g := g.setFld (F.LNE_TRAIN_STATUS_INVERTED.port p) obs.inverted.toNat
      let g := g.setFld (F.LNE_TRAIN_STATUS_REVERSED.port p) obs.order
      (g.toPhase tick p 3, false)
  | 3 => (if count (obs.lock &&& obs.signal) ≥ 2 then g.toPhase tick p 4 else g, false)
  | 4 =>
    if !obs.skewOk then (g.restartTraining tick p 5, false)
    else
      let g := g.modPort p fun q =>
        { q.seed obs.ownSeeds obs.seeds with
                 partnerCap := obs.partnerCap
                 partnerWidth := if obs.partnerWidth == 2 || obs.partnerWidth == 4 then obs.partnerWidth.toNat else 8 }
      (g.toPhase tick p (if q.st == .width then 7 else 5), false)
  | 5 =>
    let g := (List.range 9).foldl (fun (g : Segment) n =>
      match obs.taps[n]? with
      | some (pre, post) => g.setTaps p n pre.toNat post.toNat
      | none => g) g
    (if obs.tapsOpen then g else g.toPhase tick p 6, false)
  | 6 => if tick ≥ q.phaseTick + g.prbsTicks p then ((g.judge p obs).toPhase tick p 7, false) else (g, false)
  | 7 =>
    if obs.partnerPhase != 7 then (g, false)
    else
      -- a width change leaves out the lanes that have failed since the maps were formed (R418)
      let g := g.modPort p fun q => { q with partnerGood := if q.st == .width then q.partnerGood &&& obs.partnerGood else obs.partnerGood }
      let w := widthWithin (min (min (count (g.goodRx p)) (count (g.port p).partnerGood)) (g.widthBound p))
      if w == 0 then (g.restartTraining tick p 7, true) else (g.trained tick p w obs, false)
  | _ => (g, false)

/-- Whether a port is training its lanes. -/
def Port.isTraining (q : Port) : Bool := q.phase != 0 && (q.st == .training || q.st == .retrain || q.st == .width)

/-- TRAINING_PHASE_LIMIT (R407, R411): a phase at its limit restarts training; TAPS at its limit goes on to PRBS. -/
def execTrainingPhaseLimit (sg : Fin 8) (p : Fin 6) (s : State) : Out :=
  onSeg sg s fun s =>
    let g := s.seg sg
    let q := g.port p
    if !q.isTraining || q.phase == 6 || s.tick < q.phaseTick + g.phaseLimit p q.phase then s
    else if q.phase == 5 then s.setSeg sg (g.toPhase s.tick p 6)
    else s.setSeg sg (g.restartTraining s.tick p (limitCode q.phase))

/-! ## The rotating spare (R415 to R418) -/

/-- A record of class LANE (R416, R418). -/
def Segment.laneFault (g : Segment) (tick p lane : Nat) : Segment :=
  g.raise tick { cls := 8, unit := 5, sev := 1, index := p, node := g.partnerNode p, info := BitVec.ofNat 32 lane }

/-- Whether a direction has a service lane: its idle spare or its lane under calibration (R417). A spare that a handover has taken is
not idle. -/
def Port.serviceTx (q : Port) : Bool := (q.spareTx != 15 && q.rotTx.step != 1) || q.calTx != 15
def Port.serviceRx (q : Port) : Bool := (q.spareRx != 15 && q.rotRx.step != 1) || q.calRx != 15

/-! ### Flask conditions (R423) -/

/-- A side is quiet enough for Flask (R423). -/
def Segment.flaskOk (g : Segment) (p : Nat) : Bool :=
  let q := g.port p
  let quiet (x : LanePwr) : Bool := x == .kettle || x == .doze
  q.st == .active && quiet q.txPwr && quiet q.rxPwr && q.replay.isEmpty && q.stage.isEmpty && !q.ackOwed && q.owed == 0 &&
  g.bothCap p 2 && q.serviceTx && q.serviceRx

/-- Whether a handover of either direction is in progress. -/
def Port.inHandover (q : Port) : Bool := (q.rotTx.step != 0 && q.rotTx.step != 4) || q.rotRx.step == 1 || q.rotRx.step == 2

/-- A Flask request is checked at this end: sent, refused, or kept until a handover ends (R418, R423). -/
def Segment.askFlask (g : Segment) (tick p : Nat) : Segment :=
  let q := g.port p
  if q.inHandover && q.st == .active then g.modPort p fun q => { q with flaskReq := true }
  else if g.flaskOk p && q.flask == 0 then
    g.modPort p fun q =>
      { q with flask := 1, flaskTick := tick, cmd := 5, target := 0, flaskReq := false,
               txPwr := if q.txPwr == .doze then .kettle else q.txPwr }
  else (g.bump (F.LNE_PWR_COUNT_FLASK_REFUSED.port p)).modPort p fun q => { q with flaskReq := false }

/-- A Flask request that waited for a handover goes on (R418). -/
def Segment.handoverOver (g : Segment) (tick p : Nat) : Segment := if (g.port p).flaskReq then g.askFlask tick p else g

/-- Four block groups in ticks: 80,600 bits at the lane rate (R405). -/
def fourGroups (rate : Nat) : Nat := (80600 + 20 * gigabits rate - 1) / (20 * gigabits rate)

/-- The active lane that follows the one retired last, in ascending order with wrap-around, skipping the spare (R415). -/
def nextRetired (map : List Nat) (after : Nat) : Option Nat :=
  ((List.range 9).map fun i => (after + 1 + i) % 9).find? fun k => map.contains k

/-- A handover of a physical lane begins (R416 step 1). -/
def Segment.beginHandover (g : Segment) (tick p k : Nat) : Segment :=
  g.modPort p fun q =>
    let l := (q.mapTx.findIdx? fun x => x == k).getD 0
    { q with rotTx := { step := 1, l := l, k := k, s := q.spareTx, tick := tick }, cmd := 1, target := l, retired := k }

/-- Whether a direction may rotate (R415, R416, R431). -/
def Segment.mayRotate (g : Segment) (p : Nat) : Bool :=
  let q := g.port p
  q.st == .active && q.spareTx != 15 && g.bothCap p 1 && (q.txPwr == .active || q.txPwr == .kettle) && q.rotTx.step == 0

/-- HANDOVER_START (R415, R416). -/
def execHandoverStart (sg : Fin 8) (p : Fin 6) (s : State) : Out :=
  onSeg sg s fun s =>
    let g := s.seg sg
    let q := g.port p
    if !g.mayRotate p || s.tick < q.rotAt + max 5000 (g.fld (F.LNE_ROTATE_PERIOD.port p)) then s
    else
      match nextRetired q.mapTx q.retired with
      | some k => s.setSeg sg ((g.beginHandover s.tick p k).modPort p fun q => { q with rotAt := s.tick })
      | none => s

/-- SHADOW (R416 step 1): the receiver begins to compare the spare with the lane announced. -/
def execShadow (sg : Fin 8) (p : Fin 6) (l : Fin 8) (s : State) : Out :=
  onSeg sg s fun s =>
    let g := s.seg sg
    let q := g.port p
    let k := q.mapRx.getD l 15
    if q.st == .active && q.spareRx != 15 && k != 15 then
      s.setSeg sg (g.modPort p fun q => { q with rotRx := { step := 1, l := l, k := k, s := q.spareRx, tick := s.tick } })
    else s


/-- HANDOVER_SWAP (R416 step 3, R417): after 64 equal blocks the logical lane moves to the spare. -/
def execHandoverSwap (sg : Fin 8) (p : Fin 6) (s : State) : Out :=
  onSeg sg s fun s =>
    let g := s.seg sg
    let q := g.port p
    if q.st == .active && q.rotRx.step == 1 && q.spareRx == q.rotRx.s && q.serviceTx then
      s.setSeg sg (g.modPort p fun q =>
        { q with mapRx := q.mapRx.set q.rotRx.l q.rotRx.s, calRx := q.rotRx.k, spareRx := 15, cmd := 2, target := q.rotRx.l,
                 rotRx := { q.rotRx with step := 2, tick := s.tick } })
    else s

/-- SWAPPED (R416 step 4): the transmitter takes the old lane out for calibration. -/
def execSwapped (sg : Fin 8) (p : Fin 6) (l : Fin 8) (s : State) : Out :=
  onSeg sg s fun s =>
    let g := s.seg sg
    let q := g.port p
    if q.st == .active && q.rotTx.step == 1 && q.rotTx.l == l.val then
      s.setSeg sg (g.modPort p fun q =>
        { q with mapTx := q.mapTx.set l q.rotTx.s, calTx := q.rotTx.k, spareTx := 15, cmd := 0, target := 0,
                 rotTx := { q.rotTx with step := 3, tick := s.tick } })
    else s

/-- A receive lane's calibration fails (R416 step 6, R409, R430). -/
def Segment.calFailRx (g : Segment) (tick p lane : Nat) : Segment :=
  let g := g.bump ((F.LNE_LANE_ERR_CAL_FAILS.port p).add (8 * lane))
  let g := g.setFld ((F.LNE_LANE_ERR_FAILED.port p).add (8 * lane)) 1
  let g := g.modPort p fun q =>
    { q with cmd := 4, target := 0, calRx := if q.calRx == lane then 15 else q.calRx,
             spareRx := if q.spareRx == lane then 15 else q.spareRx, rotRx := { q.rotRx with step := 4, tick := tick } }
  (g.laneFault tick p lane).handoverOver tick p

/-- BLOCK_LOCK_LOSS (R409, R377): 64 consecutive headers of a lane are given, and 16 of them are invalid, which SYNC_BAD counts. Of a
logical lane, a retrain with cause LANE; of the spare or the lane under calibration, that lane's calibration fails. -/
def execBlockLockLoss (sg : Fin 8) (p : Fin 6) (x : LaneHeads) (s : State) : Out :=
  onSeg sg s fun s =>
    let lane := x.lane
    let g := s.seg sg
    let q := g.port p
    let g := g.bumpBy ((F.LNE_LANE_ERR_SYNC_BAD.port p).add (8 * lane.val)) (x.heads.filter fun h => !headerOk h).length
    if q.st != .active || q.rxPwr == .flask || !losesLock x.heads then s
    else if q.mapRx.contains lane.val then s.setSeg sg (g.retrainCause s.time p 6)
    else if q.spareRx == lane.val || q.calRx == lane.val then s.setSeg sg (g.calFailRx s.tick p lane)
    else s

/-- CALIBRATION_COUNT_END (R416 step 5). -/
def execCalibrationCountEnd (sg : Fin 8) (p : Fin 6) (errs : BitVec 32) (s : State) : Out :=
  onSeg sg s fun s =>
    let g := s.seg sg
    let q := g.port p
    let k := q.rotRx.k
    if q.st != .active || q.rotRx.step != 2 || q.calRx != k ||
       s.tick < q.rotRx.tick + max 1 (g.fld (F.LNE_ROTATE_CAL_PRBS_TICKS.port p)) then s
    else
      let g := g.setFld ((F.LNE_LANE_ERR_PRBS_ERR.port p).add (8 * k)) (min errs.toNat 65535)
      if errs.toNat ≤ g.fld (F.LNE_TRAIN_CTRL_PRBS_LIMIT.port p) then
        s.setSeg sg ((g.modPort p fun q =>
          { q with cmd := 3, target := 0, spareRx := k, calRx := 15, rotRx := { q.rotRx with step := 0 } }).handoverOver s.tick p)
      else s.setSeg sg (g.calFailRx s.tick p k)

/-- CAL_DONE (R416 step 6): the calibrated lane is the spare. -/
def execCalDone (sg : Fin 8) (p : Fin 6) (s : State) : Out :=
  onSeg sg s fun s =>
    let g := s.seg sg
    let q := g.port p
    if q.st == .active && q.rotTx.step == 3 then
      let g := g.modPort p fun q => { q with spareTx := q.rotTx.k, calTx := 15, rotTx := { q.rotTx with step := 0 } }
      s.setSeg sg ((g.bump (F.LNE_ROTATE_STATUS_HANDOVERS.port p)).handoverOver s.tick p)
    else s

/-- The lane under calibration, or without one the spare, is marked failed at the transmit side: the direction has no spare (R416 step 6,
R409, R430). -/
def Segment.calFailTx (g : Segment) (tick p : Nat) : Segment :=
  let q := g.port p
  let k := if q.calTx != 15 then q.calTx else q.spareTx
  let g := g.modPort p fun q =>
    { q with calTx := 15, spareTx := 15, partnerGood := q.partnerGood &&& ~~~((1 : BitVec 9) <<< k),
             cmd := if q.rotTx.step == 1 then 0 else q.cmd, rotTx := { q.rotTx with step := 4, tick := tick } }
  ((g.bump (F.LNE_ROTATE_STATUS_CAL_FAILS.port p)).laneFault tick p k).handoverOver tick p

/-- CAL_FAIL (R416 step 6, R430). -/
def execCalFail (sg : Fin 8) (p : Fin 6) (s : State) : Out :=
  onSeg sg s fun s =>
    let g := s.seg sg
    let q := g.port p
    if q.st == .active && (q.calTx != 15 || q.spareTx != 15) then s.setSeg sg (g.calFailTx s.tick p) else s

/-- CAL_LIMIT_EXPIRY (R416 step 6, R417): without SWAPPED the copy stops and the handover ends; without a report the
lane has failed. -/
def execCalLimitExpiry (sg : Fin 8) (p : Fin 6) (s : State) : Out :=
  onSeg sg s fun s =>
    let g := s.seg sg
    let q := g.port p
    let lim := max 600 (g.fld (F.LNE_ROTATE_CAL_LIMIT.port p))
    if q.rotTx.step == 1 && s.tick ≥ q.rotTx.tick + fourGroups (g.fld (F.LNE_CFG_RATE.port p)) + lim then
      s.setSeg sg ((g.modPort p fun q => { q with rotTx := {}, cmd := 0, target := 0 }).handoverOver s.tick p)
    else if q.rotTx.step == 3 && s.tick ≥ q.rotTx.tick + lim then s.setSeg sg (g.calFailTx s.tick p)
    else s

/-- SYNC_ERROR_HANDOVER (R418): an immediate handover of the lane, or, without a spare, a request for the next
narrower width. -/
def execSyncErrorHandover (sg : Fin 8) (p : Fin 6) (lane : Fin 9) (s : State) : Out :=
  onSeg sg s fun s =>
    let g := s.seg sg
    let q := g.port p
    if q.st != .active || !q.mapTx.contains lane.val then s
    else
      let g := g.bumpBy ((F.LNE_LANE_ERR_SYNC_BAD.port p).add (8 * lane.val)) 8
      let g := g.laneFault s.tick p lane
      if q.spareTx == 15 then
        -- the narrower map leaves the lane out
        let g' := g.modPort p fun q => { q with partnerGood := q.partnerGood &&& ~~~((1 : BitVec 9) <<< lane.val) }
        s.setSeg sg (if q.width == 8 then g'.askWidth s.time p 4 else if q.width == 4 then g'.askWidth s.time p 2 else g)
      else if g.mayRotate p then s.setSeg sg (g.beginHandover s.tick p lane)
      else s.setSeg sg g

/-! ## Lane power states (R419 to R424) -/

/-- KETTLE_ENTRY (Table 10.4). -/
def execKettleEntry (sg : Fin 8) (p : Fin 6) (s : State) : Out :=
  onSeg sg s fun s =>
    let g := s.seg sg
    let q := g.port p
    if q.st == .active && q.txPwr == .active && q.stage.isEmpty && q.replaying.isNone && q.txRuns.isEmpty &&
       q.ft ≥ q.seqFt + max 1 (g.fld (F.LNE_PWR_CTRL_KETTLE_ENTRY.port p)) then
      s.setSeg sg (g.modPort p fun q => { q with txPwr := .kettle, idleFt := q.ft })
    else s

/-- A Doze request of the transmit side: discarded in the cycle of a wake event (R429), and carried out at the first frame time at which
the side is quiet (R421). -/
def Segment.askDoze (g : Segment) (cycle p : Nat) : Segment :=
  let q := g.port p
  if q.st != .active || !(q.txPwr == .active || q.txPwr == .kettle) || q.wakeHeld || q.wokeAt == some cycle then g
  else g.modPort p fun q => { q with dozeReq := true, dozeAt := some cycle }

/-- A dozing transmit side is woken (R422). -/
def Port.wakeDoze (q : Port) (cycle : Nat) : Port :=
  { q.wakeEvent cycle with txPwr := .active, wakeHeld := false, seqFt := q.ft, idleFt := q.ft }

/-- DOZE_REQUEST (R421, R394): LNE_PWR_CTRL.DOZE written. -/
def execDozeRequest (sg : Fin 8) (p : Fin 6) (ag : Agent) (s : State) : Out :=
  onDoms sg ag [domTx p, domRx p] s fun s =>
    if !ag.admin then s.refuse394 sg (lnkOff p 0x1040) 1
    else s.setSeg sg (((s.seg sg).askDoze s.time p).answer csOk 0)

/-- DOZE_WAKE (R422): a wake event of a dozing side. -/
def execDozeWake (sg : Fin 8) (p : Fin 6) (s : State) : Out :=
  onSeg sg s fun s =>
    let g := s.seg sg
    let q := g.port p
    if q.txPwr == .doze && (q.wakeHeld || q.ackOwed || q.owed != 0 || !q.stage.isEmpty || q.st != .active) then
      s.setSeg sg (g.modPort p fun q => q.wakeDoze s.time)
    else s

/-- LANE_WAKE (R422, R424): LNE_PWR_CTRL.WAKE written. -/
def execLaneWake (sg : Fin 8) (p : Fin 6) (ag : Agent) (s : State) : Out :=
  onDoms sg ag [domTx p, domRx p] s fun s =>
    if !ag.admin then s.refuse394 sg (lnkOff p 0x1040) 4
    else
      let g := (s.seg sg).modPort p fun q => if q.txPwr == .doze then q.wakeDoze s.time else (q.wakeEvent s.time).wakeFlask s.tick
      s.setSeg sg (g.answer csOk 0)

/-- FLASK_REQUEST (R423): LNE_PWR_CTRL.FLASK written. -/
def execFlaskRequest (sg : Fin 8) (p : Fin 6) (ag : Agent) (s : State) : Out :=
  onDoms sg ag [domTx p, domRx p] s fun s =>
    if !ag.admin then s.refuse394 sg (lnkOff p 0x1040) 2
    else s.setSeg sg (((s.seg sg).askFlask s.tick p).answer csOk 0)

/-- FLASK_REQ (R423): the partner asks for Flask. -/
def execFlaskReq (sg : Fin 8) (p : Fin 6) (s : State) : Out :=
  onSeg sg s fun s =>
    let g := s.seg sg
    let q := g.port p
    if q.st != .active then s
    else if q.flask == 1 then s.setSeg sg (g.modPort p fun q => { q with flask := 2, flaskTick := s.tick })
    else if g.flaskOk p && !q.inHandover && q.flask == 0 then
      s.setSeg sg (g.modPort p fun q => { q with flask := 2, flaskTick := s.tick, cmd := 6, target := 0 })
    else s.setSeg sg (g.modPort p fun q => { q with cmd := 7, target := 0 })

/-- FLASK_ACK (R423, R424): entry is committed. -/
def execFlaskAck (sg : Fin 8) (p : Fin 6) (s : State) : Out :=
  onSeg sg s fun s =>
    let g := s.seg sg
    let q := g.port p
    if q.st == .active && q.flask == 1 then s.setSeg sg (g.modPort p fun q => { q with flask := 2, flaskTick := s.tick }) else s

/-- FLASK_NAK (R423). -/
def execFlaskNak (sg : Fin 8) (p : Fin 6) (s : State) : Out :=
  onSeg sg s fun s =>
    let g := s.seg sg
    let q := g.port p
    if q.flask == 1 then
      s.setSeg sg ((g.bump (F.LNE_PWR_COUNT_FLASK_REFUSED.port p)).modPort p fun q => { q with flask := 0, cmd := 0 })
    else s

/-- A retrain that waited for the lanes to be off begins (R424). -/
def Segment.runPending (g : Segment) (cycle p : Nat) : Segment :=
  match (g.port p).pendingCause with
  | some c => (g.modPort p fun q => { q with pendingCause := none }).retrainCause cycle p c
  | none => g

/-- FLASK_ENTRY (R423, R424): drivers, transmit PLL and clock recovery go off; a wake held begins the relock, or the retrain it is for. -/
def execFlaskEntry (sg : Fin 8) (p : Fin 6) (s : State) : Out :=
  onSeg sg s fun s =>
    let g := s.seg sg
    let q := g.port p
    if q.st == .active && q.flask == 2 then
      let g := g.modPort p fun q =>
        { q with txPwr := .flask, rxPwr := .flask, flask := 3, cmd := 0, dozeReq := false,
                 relock := if q.wakeHeld then some s.tick else none, wakeHeld := false }
      s.setSeg sg ((g.bump (F.LNE_PWR_COUNT_FLASK_ENTRIES.port p)).runPending s.time p)
    else s

/-- SIGNAL_DETECT (R424): the partner's signal on a port in Flask. -/
def execSignalDetect (sg : Fin 8) (p : Fin 6) (s : State) : Out :=
  onSeg sg s fun s => s.mod sg fun g => g.modPort p fun q => if q.txPwr == .flask then q.wakeFlask s.tick else q

/-- RELOCK_DONE (R424): frames resume and the port opens for routing. -/
def execRelockDone (sg : Fin 8) (p : Fin 6) (seeds : LaneSeeds) (s : State) : Out :=
  onSeg sg s fun s => s.mod sg fun g => g.modPort p fun q =>
    if q.st == .active && q.txPwr == .flask && q.relock.isSome then
      { q.seed seeds.own seeds.theirs with
          txPwr := .active, rxPwr := .active, flask := 0, relock := none, wakeHeld := false, seqFt := q.ft, idleFt := q.ft, rotAt := s.tick }
    else q

/-- RELOCK_TIMEOUT (R424): a relock not complete in 2,500 ticks starts a retrain with cause LANE. -/
def execRelockTimeout (sg : Fin 8) (p : Fin 6) (s : State) : Out :=
  onSeg sg s fun s =>
    let g := s.seg sg
    let q := g.port p
    match q.relock with
    | some t =>
      if q.st == .active && s.tick ≥ t + 2500 then
        s.setSeg sg ((g.bump (F.LNE_PWR_COUNT_RELOCK_FAILS.port p)).retrainCause s.time p 6)
      else s
    | none => s

/-- PREAMBLE_DETECT (R381, R407): the wait after a failed retrain ends, and the end follows with its own preamble. -/
def execPreambleDetect (sg : Fin 8) (p : Fin 6) (s : State) : Out :=
  onSeg sg s fun s => s.mod sg fun g => g.modPort p fun q =>
    if q.st == .retrain && q.wait.isSome then
      { (q.beginPhase s.tick 1) with wait := none, start := s.tick, isLeader := false }
    else q

/-- LANE_RATE_WRITE (R428, R394): LNE_CFG written; RATE only while the port is DISABLED or DOWN. -/
def execLaneRateWrite (sg : Fin 8) (p : Fin 6) (ag : Agent) (sz : Sz) (v : Word) (s : State) : Out :=
  onCtl sg ag s fun s =>
    let off := lnkOff p 0x1000
    if !ag.admin then s.refuse394 sg off v
    else
      let g := s.seg sg
      let old := g.reg off
      let new := mergeSize old sz v &&& 0xE3
      let stopped := (g.port p).st == .disabled || (g.port p).st == .down
      let g' := g.setReg off (if stopped then new else setBits new 1 0 (bitsOf old 1 0))
      s.setSeg sg ((if stopped || bitsOf new 1 0 == bitsOf old 1 0 then g' else g'.accessFault s.tick 5 off v).answer csOk 0)

end Sys2Proof.Machine
end

