-- ==== Sys2Proof/Machine/Faults.lean ====
section
/-! DEFINITION. The commands of the fault unit (chapter 12): the queue's head, posted records, the overflow counters, the
suppression table, and the known-down list. -/

namespace Sys2Proof.Machine

open Sys2Proof

/-- A write of the FLT window that an agent rule ignores (R492). -/
def Segment.refuse492 (g : Segment) (tick off : Nat) (v : Word) : Segment := g.accessFault tick 2 off v

/-- FLT_HEAD takes the consumed count, unless it would pass FLT_TAIL (R483). -/
def Segment.headWrite (g : Segment) (v : BitVec 16) : Segment :=
  if (v - g.flt.head).toNat ≤ g.flt.pendingCount then { g with flt := { g.flt with head := v } } else g

/-- FLT_HEAD_WRITE (R483). -/
def execFltHeadWrite (sg : Fin 8) (ag : Agent) (v : Word) (s : State) : Out :=
  onCtl sg ag s fun s => s.mod sg fun g => (g.headWrite (v.truncate 16)).answer csOk 0

/-- A FIRMWARE record posted by the keeper or the steward (R492). -/
def Segment.fltPost (g : Segment) (tick : Nat) (ag : Agent) (v : Word) : Segment :=
  if ag.cls == .keeper || ag.cls == .steward then
    g.raise tick { cls := 30, unit := 2, sev := bitsOf v 33 32, info := v.truncate 32 }
  else g.refuse492 tick 0x20028 v

/-- FLT_POST (R492). -/
def execFltPost (sg : Fin 8) (ag : Agent) (v : Word) (s : State) : Out :=
  onCtl sg ag s fun s => s.mod sg fun g => (g.fltPost s.tick ag v).answer csOk 0

/-- The counters of the classes whose bits are 1 are zeroed (Table 12.8), before what counts in this tick (R497). -/
def Segment.ovfClear (g : Segment) (tick : Nat) (v : Word) : Segment :=
  { g with flt := { g.flt with ovf := g.flt.ovf.zipIdx.map fun (o, c) => if v.getLsbD c then o.clear tick else o } }

/-- OVF_CLEAR (R492). -/
def execOvfClear (sg : Fin 8) (ag : Agent) (v : Word) (s : State) : Out :=
  onCtl sg ag s fun s => s.mod sg fun g => (g.ovfClear s.tick v).answer csOk 0

/-- FLT_SUPP.CLEAR (R489, R492). -/
def Segment.suppClear (g : Segment) (tick : Nat) (ag : Agent) : Segment :=
  if ag.admin then { g with flt := { g.flt with supp := [] } } else g.refuse492 tick 0x20020 0x10000

/-- SUPP_CLEAR (R489). -/
def execSuppClear (sg : Fin 8) (ag : Agent) (s : State) : Out :=
  onCtl sg ag s fun s => s.mod sg fun g => (g.suppClear s.tick ag).answer csOk 0

/-! ## The known-down list (R490, R491) -/

/-- A segment's list replaced: the version advances and one record is raised. -/
def Segment.knownSet (g : Segment) (tick : Nat) (known : List (BitVec 15)) (op : Nat) (node : Option (BitVec 15)) : Segment :=
  { g with flt := { g.flt with known := known, version := g.flt.version + 1 } }.raise tick
    { cls := 31, unit := 2, sev := 0, node := node, info := BitVec.ofNat 32 op }

/-- The requests to a node that passed the issuing check in the cycle in which it was listed complete with CS_NODE_DOWN, and hold no
tags (R498): their flits can leave from the next cycle on. -/
def Segment.knownTie (g : Segment) (cycle : Nat) (node : BitVec 15) : Segment :=
  let tied (r : Req) : Bool := r.node == node && r.base.any fun b => g.rte.injL.any fun x => g.ownFlit x.flit b && x.at_ == cycle + 1
  (g.txn.reqs.filter tied).foldl (fun (g : Segment) r => (g.withdrawReq r none).settleAll cycle r csNodeDown) g

/-- ADD reaches every segment; one that lists the node already is left as it is. Requests to the node at the issuing check complete
(R498), and groups with the node in a tree fail (R491). -/
def State.knownAdd (s : State) (node : BitVec 15) : State :=
  (List.range s.n).foldl (fun (s : State) t =>
    let g := s.seg t
    if g.flt.known.contains node then s
    else (s.setSeg t ((g.knownSet s.tick (node :: g.flt.known) 1 (some node)).knownTie s.time node)).failDown t node) s

/-- REMOVE reaches every segment. -/
def State.knownRemove (s : State) (node : BitVec 15) : State :=
  s.modAll fun g =>
    if g.flt.known.contains node then g.knownSet s.tick (g.flt.known.filter fun n => n != node) 2 (some node) else g

/-- CLEAR reaches every segment. -/
def State.knownClear (s : State) : State :=
  s.modAll fun g => if g.flt.known.isEmpty then g else g.knownSet s.tick [] 3 none

/-- A write to FLT_KD_CMD under the agent rule of R490. -/
def State.kdCmd (s : State) (sg : Nat) (ag : Agent) (v : Word) (f : State → State) : State :=
  if ag.admin then f s else s.mod sg fun g => g.refuse492 s.tick 0x20038 v

/-- KD_ADD (R490, R491). -/
def execKdAdd (sg : Fin 8) (ag : Agent) (node : BitVec 15) (s : State) : Out :=
  onCtl sg ag s fun s =>
    (s.kdCmd sg ag (BitVec.ofNat 64 (0x10000 + node.toNat)) fun s => s.knownAdd node).mod sg fun g => g.answer csOk 0

/-- KD_REMOVE (R490). -/
def execKdRemove (sg : Fin 8) (ag : Agent) (node : BitVec 15) (s : State) : Out :=
  onCtl sg ag s fun s =>
    (s.kdCmd sg ag (BitVec.ofNat 64 (0x20000 + node.toNat)) fun s => s.knownRemove node).mod sg fun g => g.answer csOk 0

/-- KD_CLEAR (R490). -/
def execKdClear (sg : Fin 8) (ag : Agent) (s : State) : Out :=
  onCtl sg ag s fun s => (s.kdCmd sg ag 0x30000 State.knownClear).mod sg fun g => g.answer csOk 0

end Sys2Proof.Machine
end

