-- ==== Sys2Proof/Machine/LinkDown.lean ====
section
/-! DEFINITION. The steps that may take a port down (chapters 09 and 10): they reach the groups whose routes are lost. -/

namespace Sys2Proof.Machine

open Sys2Proof

/-- A port enters DOWN: it drops its traffic (R386). -/
def Segment.portDown (g : Segment) (cycle p : Nat) : Segment :=
  (g.dropTraffic cycle p).modPort p fun q => { q with st := .down }

/-- A retrain has failed (R378, R381): the port waits 5,000 ticks, or is declared down at the third failure within 1 s. -/
def Segment.failRetrain (g : Segment) (cycle p : Nat) : Segment :=
  let tick := tickOf cycle
  let fails := tick :: within1s tick (g.port p).fails
  if fails.length ≥ 3 then
    let node := g.partnerNode p
    let g := (g.portDown cycle p).modPort p fun q => { q with fails := fails }
    g.raise tick { cls := 5, unit := 5, index := p, node := node, info := BitVec.ofNat 32 (g.port p).cause }
  else
    g.modPort p fun q =>
      { q with fails := fails, wait := some (tick + 5000), phase := 0, req := none, ctrlDue := [], lanesUp := false, resume := none,
               resumed := false, resumeFt := none }

/-- RETRAIN_LIMIT as it acts (Table 9.8). -/
def Segment.retrainLimit (g : Segment) (p : Nat) : Nat := max 5000 (g.fld (F.LNK_ERR_CTRL_RETRAIN_LIMIT.port p))

/-- RETRAIN_LIMIT_EXPIRY (R375, R378, R381): training fails into DOWN, and a retrain fails. -/
def execRetrainLimitExpiry (sg : Fin 8) (p : Fin 6) (s : State) : Out :=
  onSeg sg s fun s =>
    let g := s.seg sg
    let q := g.port p
    if s.tick < q.start + g.retrainLimit p then s
    else if q.st == .training then (s.setSeg sg (g.portDown s.time p)).failRoutes
    else if q.st == .retrain && q.wait.isNone then (s.setSeg sg (g.failRetrain s.time p)).failRoutes
    else s

/-- ENABLE written 0: the port enters DISABLED from any state (R375, R401). -/
def State.portDisable (s : State) (sg p : Nat) : State :=
  (s.mod sg fun g =>
    ((g.setFld (F.LNK_CTRL_ENABLE.port p) 0).dropTraffic s.time p).modPort p fun q => { q with st := .disabled }).failRoutes

/-- LINK_DISABLE (R375, R401). -/
def execLinkDisable (sg : Fin 8) (p : Fin 6) (ag : Agent) (s : State) : Out :=
  onCtl sg ag s fun s =>
    if !ag.admin then s.refuse394 sg (lnkOff p 8) 0
    else (s.portDisable sg p).mod sg fun g => g.answer csOk 0

/-- TRAINING_PHASE_END (R407 to R413): the receive side has finished the present phase. A retrain whose lanes cannot reach
width 2 fails (R378). Of a port that trains no lane but calibrates one, it brings the taps that the partner has asked for (R416 step 5). -/
def execTrainingPhaseEnd (sg : Fin 8) (p : Fin 6) (obs : TrainObs) (s : State) : Out :=
  onSeg sg s fun s =>
    let g := s.seg sg
    if !(g.port p).isTraining then
      let k := (g.port p).calTx
      match obs.taps[k]? with
      | some (pre, post) => if (g.port p).st == .active && k < 9 then s.setSeg sg (g.setTaps p k pre.toNat post.toNat) else s
      | none => s
    else
      let (g, failed) := g.phaseEnd s.tick p obs
      if failed && (g.port p).st == .retrain then (s.setSeg sg (g.failRetrain s.time p)).failRoutes
      else s.setSeg sg g

end Sys2Proof.Machine
end

