-- ==== Sys2Proof/Machine/Target.lean ====
section
/-! DEFINITION. The target channels (R36, R37, R82 to R84), the merge buffer and the fence (R67 to R71). -/

namespace Sys2Proof

/-- The bytes of a target-channel access; none where REQ_SIZE is invalid (R36). -/
def DptReq.bytes (r : DptReq) : Option Nat := if 2 ≤ r.size.toNat then some (2 ^ r.size.toNat) else none

def DptReq.line (r : DptReq) : Nat := r.addr.toNat / 128
def DptReq.off (r : DptReq) : Nat := r.addr.toNat % 128
def DptReq.space (r : DptReq) : Nat := Machine.gaSpace r.addr.toNat

end Sys2Proof

namespace Sys2Proof.Machine

open Sys2Proof

/-! ## Acceptance and checks -/

/-- Tags of the target channels' part that are free and not awaited by an accepted request (R37). -/
def Segment.dptReady (g : Segment) : Bool :=
  let limit := g.dptTags
  let used := (g.usedTags.filter fun t => t < limit).length
  let waiting := (g.txn.reqs.filter fun r => r.base.isNone && (match r.agent with | .dpt _ => true | .courier _ => false)).length
  used + waiting < limit

/-- Whether a channel takes a request: the fast clock runs (R42), a tag is free, and its identifier is not in use (R37). -/
def Segment.dptTakes (g : Segment) (ch : Bool) (id : BitVec 12) : Bool :=
  g.boot.pllAt.isSome && g.dptReady && !g.txn.dptBusy.contains (ch, id)

/-- A request on a target channel: it waits while the router sleeps, which REQ_VALID wakes (R438, R440), and until the channel takes
it. -/
def State.onDpt (s : State) (sg : Nat) (ch : Bool) (id : BitVec 12) (f : State → State) : State :=
  if !(s.seg sg).usable s.tick domRouter then s.mod sg fun g => g.wakeDom s.tick domRouter
  else if !(s.seg sg).dptTakes ch id then s
  else f s

/-- The status with which a target-channel access is refused at once (R36, R82, R297); none where it goes on. -/
def Segment.dptRefusal (g : Segment) (r : DptReq) : Option (BitVec 4) :=
  match r.bytes with
  | none => some csDenied
  | some n =>
    if r.addr.toNat % n != 0 || r.space == 3 || (r.space == 2 && n != 4 && n != 8) || !g.isResident r.ctx then some csDenied
    else if r.space == 0 && g.owns r.addr.toNat && g.inPool (gaOff r.addr.toNat) then some csDenied
    else none

def Segment.dptAccept (g : Segment) (r : DptReq) : Segment :=
  { g with txn := { g.txn with dptBusy := (r.ch, r.id) :: g.txn.dptBusy } }

/-! ## The merge buffer (R68 to R71) -/

/-- The posted writes that have a byte in a list of entries. -/
def postsOf (e : MergeEntry) : List Nat := (e.bytes.map fun x => x.2).eraseDups

/-- Posted writes with no byte left in the merge buffer and no write under way are complete (R71). -/
def Segment.postSweep (g : Segment) : Segment :=
  let live := g.txn.merge.flatMap postsOf
  Segment.fenceCheck { g with txn := { g.txn with posts := g.txn.posts.filter fun p => p.parts != 0 || live.contains p.id } }

/-- The writes of R68 that carry a flushed entry away, each with the posted writes whose bytes it holds (R70, R71). -/
def Segment.sendEntry (g : Segment) (cycle : Nat) (e : MergeEntry) (line : List Byte) : Segment :=
  let mask := (List.range 128).map fun i => e.bytes.any fun x => x.1 == i
  let data := (List.range 128).map fun i => if mask.getD i false then line.getD i 0 else 0
  let parts : List (List Bool) :=
    if maskCount mask ≤ 112 || maskCount mask == 128 then [mask] else let (a, b) := maskSplit 112 mask; [a, b]
  let ids (m : List Bool) : List Nat := ((e.bytes.filter fun x => m.getD x.1 false).map fun x => x.2).eraseDups
  let g := { g with txn := { g.txn with
    merge := g.txn.merge.filter fun x => x != e
    posts := g.txn.posts.map fun (p : Post) => { p with parts := p.parts + (parts.filter fun m => (ids m).contains p.id).length } } }
  if maskCount mask == 0 then g.postSweep
  else
    (parts.foldl (fun (g : Segment) m =>
      g.addReq cycle (if maskCount m == 128 then 1 else 2) e.ctx (.dpt false) e.line 1 data m [.posts (ids m)]) g).postSweep

/-- A merge entry is flushed: its line is read from the hamper and sent (R70). -/
def Segment.flushEntry (g : Segment) (cycle : Nat) (e : MergeEntry) : Segment :=
  (if e.bytes.isEmpty then g else g.chargeHmp 120).sendEntry cycle e (g.hmp.mergeLine e.slot).read

/-- Every entry that satisfies a test is flushed, the oldest first. -/
def Segment.flushWhere (g : Segment) (cycle : Nat) (p : MergeEntry → Bool) : Segment :=
  (g.txn.merge.filter p).foldl (fun g e => g.flushEntry cycle e) g

/-- The lowest of the buffer's 64 lines that no entry holds. -/
def Segment.mergeSlot (g : Segment) : Nat :=
  ((List.range 64).find? fun k => !g.txn.merge.any fun e => e.slot == k).getD 0

/-- An entry opens; where all 64 are in use, the one with the oldest first write is flushed (R69, R70). -/
def Segment.openEntry (g : Segment) (cycle line : Nat) (ctx : BitVec 12) : Segment :=
  let g := match g.txn.merge with
    | e :: _ => if g.txn.merge.length ≥ 64 then (g.flushEntry cycle e).bump F.SEG_MERGE_STATUS_EVICTIONS else g
    | [] => g
  let e : MergeEntry := { line := line, ctx := ctx, first := cycle, slot := g.mergeSlot, bytes := [] }
  { g with txn := { g.txn with merge := g.txn.merge ++ [e] } }

/-- The bytes of a write that enter an entry in a cycle: DPT1's prevail over DPT0's of the same cycle (R69). -/
def MergeEntry.takes (e : MergeEntry) (cycle : Nat) (ch : Bool) (i : Nat) : Bool :=
  ch || !(e.lateAt == cycle && e.late.contains i)

/-- A posted write's bytes enter an entry and its line of the hamper (R69, R465). -/
def Segment.putEntry (g : Segment) (cycle : Nat) (e : MergeEntry) (ch : Bool) (id : Nat) (bytes : List (Nat × Byte)) : Segment :=
  let new := bytes.filter fun b => e.takes cycle ch b.1
  let e' : MergeEntry :=
    { e with bytes := (e.bytes.filter fun x => !new.any fun y => y.1 == x.1) ++ new.map (fun y => (y.1, id)),
             late := (if e.lateAt == cycle then e.late else []) ++ (if ch then new.map Prod.fst else []), lateAt := cycle }
  ({ g with txn := { g.txn with merge := modWhere g.txn.merge (fun x => x == e) fun _ => e' } } : Segment).setMergeLine e.slot
    ((g.hmp.mergeLine e.slot).part new)

/-- A flush of this cycle, remembered until the cycle ends: a write of the same cycle comes before it (R69). -/
def Segment.noteFlush (g : Segment) (cycle line from_ : Nat) (req : Option DptReq) (entries : List (MergeEntry × List Byte)) : Segment :=
  let r : DptReading := { line := line, req := req, entries := entries, from_ := from_, upto := g.txn.nextReq, at_ := cycle }
  { g with txn := { g.txn with reads := (g.txn.reads.filter fun x => x.at_ == cycle) ++ [r] } }

/-- A flush of this cycle is taken back: its requests have not left the segment, and its entries stand again. -/
def Segment.unflush (g : Segment) (r : DptReading) : Segment :=
  let gone (q : Req) : Bool := r.from_ ≤ q.id && q.id < r.upto
  let out := g.txn.reqs.filter gone
  let back (p : Post) : Post := { p with parts := p.parts - (out.filter fun q => q.uses.any fun u => match u with
    | .posts ids => ids.contains p.id
    | _ => false).length }
  let g := { g with txn := { g.txn with reqs := g.txn.reqs.filter (fun q => !gone q), posts := g.txn.posts.map back,
                                        reads := g.txn.reads.erase r } }
  r.entries.foldl (fun (g : Segment) x =>
    let slot := g.mergeSlot
    ({ g with txn := { g.txn with merge := g.txn.merge ++ [{ x.1 with slot := slot }] } } : Segment).setMergeLine slot (HmpLine.whole x.2)) g

/-- The flush of this cycle that a write to a line takes back: all its requests still wait. -/
def Segment.flushOf (g : Segment) (cycle : Nat) (r : DptReq) : Option DptReading :=
  g.txn.reads.find? fun x => x.at_ == cycle && x.line == r.line &&
    (x.req.isSome || (!r.ch && x.entries.any fun e => e.1.ctx == r.ctx)) &&
    (List.range (x.upto - x.from_)).all fun i => g.txn.reqs.any fun q => q.id == x.from_ + i && q.base.isNone

/-- A read on a target channel: every entry of its line is flushed and an RD of one line is made ready behind (R70, R83). -/
def Segment.readLine (g : Segment) (cycle : Nat) (r : DptReq) : Segment :=
  let from_ := g.txn.nextReq
  let es := (g.txn.merge.filter fun e => e.line == r.line).map fun e => (e, (g.hmp.mergeLine e.slot).read)
  let g := g.flushWhere cycle fun e => e.line == r.line
  (g.addReq cycle 0 r.ctx (.dpt r.ch) r.line 1 [] [] [.dptRead r.ch r.id r.addr ((r.bytes).getD 4)]).noteFlush cycle r.line from_ (some r) es

/-- A write enters the merge buffer (R69). -/
def Segment.mergeBytes (g : Segment) (cycle : Nat) (r : DptReq) (n : Nat) : Segment :=
  let bytes := ((List.range n).map fun i => r.off + i).filterMap fun i =>
    if r.strb.getD i false then some (i, r.data.getD i 0) else none
  let id := g.txn.nextPost
  let p : Post := { id := id, ctx := r.ctx, parts := 0, status := 0 }
  let g := { g with txn := { g.txn with nextPost := id + 1, posts := g.txn.posts ++ [p] } }
  let same (e : MergeEntry) : Bool := e.line == r.line && e.ctx == r.ctx
  let g := if g.txn.merge.any same then g else g.openEntry cycle r.line r.ctx
  match g.txn.merge.find? same with
  | none => g
  | some e =>
    let g := (g.putEntry cycle e r.ch id bytes).postSweep
    match g.txn.merge.find? same with
    | some e =>
      if e.bytes.length == 128 then
        (g.flushEntry cycle e).noteFlush cycle r.line g.txn.nextReq none [(e, (g.hmp.mergeLine e.slot).read)]
      else g
    | none => g

/-- A write of a target channel. A read of its line in the same cycle follows it, so what that read flushed is formed again with
the write in it, and a write of DPT1 that completed the entry does not hide it from one of DPT0 (R69). -/
def Segment.mergeWrite (g : Segment) (cycle : Nat) (r : DptReq) (n : Nat) : Segment :=
  match g.flushOf cycle r with
  | none => g.mergeBytes cycle r n
  | some x =>
    let g := (g.unflush x).mergeBytes cycle r n
    match x.req with
    | some q => g.readLine cycle q
    | none => g.flushWhere cycle fun e => e.line == r.line && e.ctx == r.ctx

/-! ## Commands -/

/-- DPT_WRITE (R69, R82): a write to space 00 or 01 is posted. A write to space 10 is DPT_CONTROL_ACCESS. -/
def execDptWrite (sg : Fin 8) (req : DptReq) (s : State) : Out :=
  onSeg sg s fun s => s.onDpt sg req.ch req.id fun s =>
    let g := s.seg sg
    if req.space == 2 then s
    else
      match g.dptRefusal req with
      | some st => s.setSeg sg (g.dptRespond req.ch req.id st (List.replicate 128 0))
      | none => s.setSeg sg ((g.mergeWrite s.time req ((req.bytes).getD 4)).dptRespond req.ch req.id csOk (List.replicate 128 0))

/-- DPT_READ (R70, R82, R83): any merge entry of the line is flushed, and an RD of one line is made ready. -/
def execDptRead (sg : Fin 8) (req : DptReq) (s : State) : Out :=
  onSeg sg s fun s => s.onDpt sg req.ch req.id fun s =>
    let g := s.seg sg
    if req.space == 2 then s
    else
      match g.dptRefusal req with
      | some st => s.setSeg sg (g.dptRespond req.ch req.id st (List.replicate 128 0))
      | none =>
        s.setSeg sg ((g.dptAccept req).readLine s.time req)

/-- MERGE_FLUSH_AGE (R70): an entry is flushed FLUSH_CYCLES after its first write. `bad` is its line when it fails its
CRC, which only a valid line can: every posted write with a byte in it fails with CS_POISON (R465, R468). -/
def execMergeFlushAge (sg : Fin 8) (idx : Nat) (bad : Option BadLine) (s : State) : Out :=
  onSeg sg s fun s =>
    let g := s.seg sg
    match g.txn.merge[idx]? with
    | none => s
    | some e =>
      if s.time < e.first + max 1 (g.fld F.SEG_MERGE_CTRL_FLUSH_CYCLES) then s
      else
        match bad.filter fun _ => (g.hmp.mergeLine e.slot).valid with
        | none => s.setSeg sg (g.flushEntry s.time e)
        | some l =>
          (s.crcFail sg l false).mod sg fun g =>
            let ids := postsOf e
            let g := { g with txn := { g.txn with merge := g.txn.merge.filter fun x => x != e,
                                                  posts := g.txn.posts.filter fun p => !ids.contains p.id } }
            (ids.foldl (fun (g : Segment) _ => g.fenceFail e.ctx csPoison) g).fenceCheck

/-- MERGE_FLUSH_CMD (R70): 1 written to SEG_MERGE_CTRL.FLUSH, by any agent. -/
def execMergeFlushCmd (sg : Fin 8) (ag : Agent) (s : State) : Out :=
  onCtl sg ag s fun s => s.mod sg fun g => (g.flushWhere s.time fun _ => true).answer csOk 0

/-- A read of SEG_FENCE by a target channel (R71). -/
def Segment.fenceRead (g : Segment) (cycle : Nat) (ch : Bool) (id ctx : BitVec 12) (sz : Sz := .w64) : Segment :=
  let g := g.flushWhere cycle fun e => e.ctx == ctx
  let waits := (g.txn.posts.filter fun p => p.ctx == ctx).map Post.id
  let r : FenceRead := { ch := ch, id := id, ctx := ctx, waits := waits, sz := sz }
  Segment.fenceCheck { g with txn := { g.txn with fenceReads := g.txn.fenceReads ++ [r], dptBusy := (ch, id) :: g.txn.dptBusy } }

/-- SEG_FENCE_READ (R71, R82). -/
def execSegFenceRead (sg : Fin 8) (ch : Bool) (id : BitVec 12) (ctx : BitVec 12) (s : State) : Out :=
  onSeg sg s fun s => s.onDpt sg ch id fun s =>
    let g := s.seg sg
    if !g.isResident ctx then s.setSeg sg (g.dptRespond ch id csDenied (List.replicate 128 0))
    else s.setSeg sg (g.fenceRead s.time ch id ctx)

end Sys2Proof.Machine
end

