-- ==== Sys2Proof/Machine/TicketSteps.lean ====
section
/-! DEFINITION. The commands of the waypoint scoreboard (R151 to R172): submission, admission, gates, dispatch, completion, rings
and cancellation. -/

namespace Sys2Proof.Machine

open Sys2Proof

/-! ## Submission (R151 to R154) -/

/-- TRAIL_SUBMIT (R151, R153): bits [43:6] of the header's offset enter the FIFO of 64. -/
def execTrailSubmit (sg : Fin 8) (ag : Agent) (v : Word) (s : State) : Out :=
  onDoms sg ag [domRange] s fun s =>
    let g := (s.seg sg).answer csOk 0
    if 64 ≤ g.trl.fifo.length then s.setSeg sg ((g.bump F.TRL_SUBMIT_STATUS_DROPPED).raise s.tick { cls := 18, unit := 12 })
    else s.setSeg sg { g with trl := { g.trl with fifo := g.trl.fifo ++ [(bitsOf v 43 6 * 64, ag)] } }

/-- A header's fields that are out of range, reserved or misaligned (R153). -/
def badHeader (b : List Byte) : Bool :=
  field b 0 8 % 128 != 0 || field b 8 4 == 0 || field b 8 4 ≥ 2 ^ 20 || field b 12 2 ≥ 4096 || field b 14 1 ≥ 32 || !zeros b 15 1 ||
  field b 16 8 % 16 != 0 || field b 24 8 % 4 != 0 || field b 32 1 < 4 || field b 32 1 > 16 || !zeros b 33 31

/-- The ring of a trail's header, when CQ_BASE, CQ_HEAD and CQ_LOG2 are usable (R154). -/
def Segment.headerRing (g : Segment) (b : List Byte) : Segment × (Ring ⊕ BitVec 4) :=
  let ctx := BitVec.ofNat 12 (field b 12 2)
  let base := field b 16 8
  let log2 := field b 32 1
  if base % 16 != 0 || field b 24 8 % 4 != 0 || log2 < 4 || log2 > 16 || field b 12 2 ≥ 4096 then (g, .inr csDenied)
  else
    match g.localSpan ctx base (16 * 2 ^ log2) 2 with
    | (g, .inr st) => (g, .inr st)
    | (g, .inl ps) =>
      match g.localSpan ctx (field b 24 8) 4 1 with
      | (g, .inr st) => (g, .inr st)
      | (g, .inl hs) =>
        let h := (hs.head?.map Piece.ga).getD 0
        (g, .inl { parts := ps.map fun p => { off := p.va - base, len := p.len, space := gaSpace p.ga, at_ := gaOff p.ga },
                   head := gaOff h, headSpace := gaSpace h, log2 := log2 })

/-- A refused trail (R154): counted, with a fault record, and where its ring is usable a refusal record. -/
def Segment.refuseTrail (g : Segment) (tick slot : Nat) (ctx : Option (BitVec 12)) (st : BitVec 4) (ring : Option Ring) : Segment :=
  let g := (g.bump F.TRL_SUBMIT_STATUS_REFUSED).raise tick
    { cls := 18, unit := 12, ctx := ctx, info := BitVec.ofNat 32 slot, status := st }
  match ring with
  | some r => (g.ringPush tick 7 true r { bytes := trailRecord (2 ^ 30) slot st 8 0 0 }).1
  | none => g

/-- TRAIL_ADMIT (R153, R154): the oldest offset is taken into the lowest free trail slot. -/
def execTrailAdmit (sg : Fin 8) (st : DpmStatus) (s : State) : Out :=
  onSeg sg s fun s =>
    let g := s.seg sg
    match g.trl.fifo, firstFree (g.trl.trails.map Trail.slot) 32 with
    | (off, ag) :: rest, some slot =>
      let g := { g with trl := { g.trl with fifo := rest } }
      if !g.present 0 off 64 then s.setSeg sg (g.refuseTrail s.tick slot none csUnmapped none)
      else
        let g := g.dpmLate s.tick st
        if dpmStatus st != 0 then s.setSeg sg (g.refuseTrail s.tick slot none (dpmStatus st) none)
        else
          let b := g.hbmBytes off 64
          let ctx := BitVec.ofNat 12 (field b 12 2)
          let named := if field b 12 2 < 4096 then some ctx else none
          let (g, ring) := g.headerRing b
          let usable : Option Ring := match ring with | .inl r => some r | .inr _ => none
          if badHeader b then s.setSeg sg (g.refuseTrail s.tick slot named csDenied usable)
          else
            let count := field b 8 4
            let (g, array) := g.localSpan ctx (field b 0 8) (128 * count) 1
            let missing : Bool := (match ring with | .inr st => st == csUnmapped | _ => false) ||
              (match array with | .inr st => st == csUnmapped | _ => false)
            match ring, array with
            | .inl r, .inl ps =>
              if !(ag.admin || ag.ctx == ctx) then s.setSeg sg (g.refuseTrail s.tick slot named csDenied usable)
              else
                let x : Trail :=
                  { slot := slot, tickets := ps, ticketsVa := field b 0 8, count := count, ctx := ctx, line := BitVec.ofNat 4 (field b 14 1),
                    endIrq := field b 14 1 ≥ 16, cq := r }
                s.setSeg sg ({ g with trl := { g.trl with trails := g.trl.trails ++ [x] } }.board s.time)
            | _, _ => s.setSeg sg (g.refuseTrail s.tick slot named (if missing then csUnmapped else csDenied) usable)
    | _, _ => s

/-! ## Admission (R157, R160) -/

/-- The trail whose next ticket is admitted now (R157). -/
def Segment.nextTrail (g : Segment) : Option Trail :=
  (g.trl.trails.filter fun x => x.since.isSome && g.admissible x).foldl (fun (m : Option Trail) x =>
    match m with
    | none => some x
    | some y =>
      let a := x.since.getD 0
      let b := y.since.getD 0
      if a < b || (a == b && x.slot < y.slot) then some x else some y) none

/-- The next ticket of a trail read, numbered and admitted (R157). -/
def Segment.admitNext (g : Segment) (cycle : Nat) (x : Trail) (n : Nat) (st gateSt : DpmStatus) : Segment :=
  let i := x.next
  let g := (g.modTrail x.slot fun y =>
    { y with next := i + 1, since := none, window := (y.window.filter fun w => w.1 + 512 > i) ++ [(i, none)] }).dpmLate (tickOf cycle) st
  let g := { g with trl := { g.trl with admitAt := some cycle } }
  let b := (List.range 128).map fun k =>
    match pieceAt x.tickets (x.ticketsVa + 128 * i + k) with
    | some a => memRead (g.mem (gaSpace a)) (gaOff a)
    | none => 0
  let g :=
    if dpmStatus st == 0 then g.takeTicket cycle n x.slot i false none x.ctx b (some gateSt)
    else
      let t : Ticket :=
        { n := n, trail := x.slot, index := i, spawned := false, rec_ := parseTicket (List.replicate 128 0), ctx := x.ctx }
      { g with trl := { g.trl with tickets := g.trl.tickets ++ [t] } }.finish cycle n (dpmStatus st) 6 0 0
  g.board cycle

/-- TICKET_ADMIT (R157): the next ticket of the trail is read, numbered and admitted; at most one a cycle. A record that cannot
be read gives a ticket that completes at once. -/
def execTicketAdmit (sg : Fin 8) (slot : Fin 32) (st : DpmStatus) (gateSt : DpmStatus) (s : State) : Out :=
  onSeg sg s fun s =>
    let g := s.seg sg
    match g.nextTrail, g.freeEntry with
    | some x, some n =>
      if x.slot != slot.val || g.trl.admitAt == some s.time then s else s.setSeg sg (g.admitNext s.time x n st gateSt)
    | _, _ => s

/-- GATE_POLL (R159, R160). -/
def execGatePoll (sg : Fin 8) (n : Fin 4096) (st : DpmStatus) (s : State) : Out :=
  onSeg sg s fun s =>
    let g := s.seg sg
    match g.ticket? n with
    | none => s
    | some t =>
      match t.gateGa with
      | none => s
      | some a =>
        if t.st != .waiting || t.gateOpen || s.time < t.gateAt then s
        else
          let g := g.dpmLate s.tick st
          let g :=
            if st.isSome && dpmStatus st != 0 then g.finish s.time n csPoison 6 0 0
            else if st.isSome && t.rec_.gateValue ≤ bytesNat (g.gaBytes a 8) then
              (g.modTicket n fun t => { t with gateOpen := true }).weigh s.time n
            else g.modTicket n fun t => { t with gateAt := s.time + 1024 }
          s.setSeg sg (g.board s.time)

/-! ## Dispatch (R98, R102, R162 to R165, R171, R528) -/

/-- The fixed key of a ticket (R163). -/
def Ticket.key (t : Ticket) : Nat := t.trail * 2 ^ 21 + (if t.spawned then 2 ^ 20 + t.n else t.index)

/-- The ticket dispatched now (R163). -/
def Segment.nextTicket (g : Segment) : Option Ticket :=
  (g.trl.tickets.filter fun t => t.disp.isSome && g.dispatchable t).foldl (fun (m : Option Ticket) t =>
    match m with
    | none => some t
    | some u =>
      let a := t.disp.getD 0
      let b := u.disp.getD 0
      if a < b || (a == b && t.key < u.key) then some t else some u) none

/-- Whether a courier is free in an awake quad. -/
def Segment.courierFree (g : Segment) (tick c : Nat) : Bool :=
  (g.core c).st == .idle && (g.core c).ticket.isNone && g.usable tick (domQuad (c / 4))

/-- The courier a ticket goes to (R164). -/
def Segment.pickCourier (g : Segment) (tick : Nat) (ctx : BitVec 12) : Option Nat :=
  let free := (List.range 16).filter fun c => g.courierFree tick c
  match free.find? fun c => (g.core c).lastCtx == some ctx with
  | some c => some c
  | none => free.head?

/-- The wake of the lowest-numbered sleeping quad is requested, with at most one outstanding (R164). -/
def Segment.wantQuad (g : Segment) (tick : Nat) : Segment :=
  let quads := (List.range 4).map domQuad
  if quads.any fun d => g.pwr.pending.contains d || (g.pwrReq d && !g.pwrAck d) then g
  else
    match quads.find? fun d => !g.pwrReq d with
    | some d => g.wakeDom tick d
    | none => g

/-- The ticket head of Table 4.4. -/
def Segment.ticketHead (g : Segment) (tick : Nat) (t : Ticket) : List Byte :=
  natBytes t.indexWord 4 ++ natBytes t.n 2 ++ natBytes t.worst.toNat 1 ++
  natBytes (match t.parent with | some _ => (t.parentStatus.getD 0).toNat | none => 0) 1 ++
  (t.predStatus.flatMap fun p => natBytes ((p.getD 0).toNat) 1) ++ [0, 0, 0, 0] ++ natBytes (g.coarseTick t.readyTick) 8 ++
  natBytes (g.coarseTick tick) 8

/-- The courier takes a ticket; its lunchbox is cleared where R98 requires. -/
def Core.take (k : Core) (n : Nat) (ctx : BitVec 12) (tick : Nat) : Core :=
  let k := if k.lastCtx == some ctx then k else { k with lb := [], lbBad := [] }
  { k with g := List.replicate 32 0, p := 1, pc := 0, rs := [], ctx := ctx, st := .running, wait := none, ticket := some n, startTick := tick }

/-- A new ticket's first state on its courier (R102, R162). -/
def Core.begin (k : Core) (t : Ticket) (preload head : List Byte) : Core :=
  let k := (lbEngineWrite k 0 preload).1
  let k := (lbEngineWrite k 0xFE0 head).1
  { k with pc := t.rec_.entry, g := [0] ++ t.rec_.args ++ [BitVec.ofNat 64 t.n] ++ List.replicate 22 0 }

/-- A saved ticket's state restored from its record (Table 4.7). -/
def Core.restore (k : Core) (b : List Byte) : Core :=
  let k := (lbEngineWrite k 0 (b.take 4096)).1
  { k with
    g := 0 :: (List.range 31).map fun i => BitVec.ofNat 64 (field b (0x1000 + 8 * i) 8)
    p := BitVec.ofNat 8 (field b 0x10F8 1 / 2 * 2 + 1)
    pc := BitVec.ofNat 32 (field b 0x10FC 4)
    rs := (List.range (min 32 (field b 0x10F9 1))).map fun i => BitVec.ofNat 32 (field b (0x1100 + 4 * i) 4) }

/-- A save record as it is read back: the plain record, or none where its tag fails (R528) or the context's key is lost (R540). -/
def Segment.openSave (g : Segment) (ctx : BitVec 12) (n : Nat) (b : List Byte) : Option (List Byte) :=
  if !g.sealedCtx ctx then some b
  else
    (g.ctxKey ctx).bind fun k =>
      let key := g.saveKey k
      let nonce := saveNonce n (field b 0x1180 8)
      let ct := b.take 0x1180
      if padTo 16 (Config.gcmTag key nonce [] ct) == (b.drop 0x1190).take 16 then some (padTo 8192 (Config.gcmCrypt key nonce ct)) else none

/-- A saved ticket goes on (R97, R171): its courier takes the saved state. -/
def Segment.resumeTicket (g : Segment) (cycle c : Nat) (t : Ticket) (st : BitVec 4) : Segment :=
  let g := g.modCore c fun k => k.take t.n t.ctx (tickOf cycle)
  match st == 0, g.openSave t.ctx t.n (g.hbmBytes (g.saveAt t.n) 8192) with
  | true, some b => (g.modCore c fun k => k.restore b).modTicket t.n fun t => { t with st := .running, disp := none }
  | true, none =>
    ((g.freeCourier c).raise (tickOf cycle) { cls := 29, unit := 4, info := 4, ctx := some t.ctx, status := csPoison }).endTicket cycle t.n csPoison 6 0
  | false, _ => (g.freeCourier c).endTicket cycle t.n st 6 0

/-- A new ticket begins: a program runs; a MOVE issues its move into slot 0 and frees its courier (R162, R165). -/
def State.startTicket (s : State) (sg c : Nat) (t : Ticket) (st : BitVec 4) : State :=
  let g := s.seg sg
  let head := g.ticketHead s.tick t
  let preload := g.spanBytes t.preload
  let g := g.modCore c fun k => k.take t.n t.ctx s.tick
  if st != 0 then s.setSeg sg (((g.freeCourier c).modTicket t.n fun t => { t with st := .running }).finish s.time t.n st 6 0 0)
  else
    let g := (g.modCore c fun k => k.begin t preload head).modTicket t.n fun t => { t with st := .running, disp := none }
    let s := s.setSeg sg g
    if t.rec_.typ != 1 then s
    else
      let f : IFields := { d := 0, a := 0, b := if t.rec_.lenArg then 1 else 0, pred := 0, inv := false, imm := 0 }
      match s.issue sg c t.rec_.mop f [] none with
      | .ok u => u.resumed sg c
      | .exc code info => s.mod sg fun g => g.courierExc s.time c t.rec_.mop code info
      | .hold => s.stall sg c (.issue { op := t.rec_.mop, f := f, start := s.time, held := true })
      | .miss _ => s.stall sg c (.issue { op := t.rec_.mop, f := f, start := s.time })

/-- The energy that governs a dispatch: one window of a running courier (R446). -/
def runCost : Nat := 400000

/-- A ticket dispatched to a courier (R162 to R165): it starts, or goes on from its save record. -/
def State.dispatchTo (s : State) (sg c : Nat) (t : Ticket) (st : DpmStatus) : State :=
  let g := s.seg sg
  let g := g.chargeHeld runCost
  let saved : Bool := match t.st with | .saved _ _ => true | _ => false
  let reads := saved || !t.preload.isEmpty
  let bad : BitVec 4 := if reads then (if dpmStatus st == 0 then 0 else csPoison) else 0
  let g := if reads then g.dpmLate s.tick st else g
  let g := { g with trl := { g.trl with dispatchAt := some s.time } }.bump F.TRL_COUNT_DISPATCHES
  let s := s.setSeg sg g
  let s := if saved then s.mod sg fun g => g.resumeTicket s.time c t bad else s.startTicket sg c t bad
  s.mod sg fun g => g.board s.time

/-- TICKET_RESUME (R114, R171): a saved ticket whose condition holds becomes dispatchable. -/
def execTicketResume (sg : Fin 8) (n : Fin 4096) (s : State) : Out :=
  onSeg sg s fun s =>
    let g := s.seg sg
    match g.ticket? n with
    | some t =>
      (match t.st with
       | .saved mask any =>
         if mask != 0 && waiteMet t.slots mask any then
           s.setSeg sg ((g.modTicket n fun t => { t with st := .saved 0 false }).board s.time)
         else s
       | _ => s)
    | none => s

/-! ## Completion and rings (R113, R141, R165 to R167) -/

/-- Whether nothing of a ticket is left: no busy slot and no descriptor. -/
def Segment.spent (g : Segment) (t : Ticket) : Bool :=
  !(t.slots.any fun x => x.st == .busy) && !(g.trl.descs.any fun d => d.owner == .ticket t.n)

/-- TICKET_DISPATCH (R163 to R165, R446): at most one ticket a cycle, and none while dispatch is stopped for an update (R559). `st` is
the status of the reads of the preload or of the save record. -/
def execTicketDispatch (sg : Fin 8) (st : DpmStatus) (s : State) : Out :=
  onSeg sg s fun s =>
    let g := s.seg sg
    if g.trl.stopUntil.isSome || g.trl.dispatchAt == some s.time then s
    else
      match g.nextTicket with
      | none => s
      | some t =>
        match g.pickCourier s.tick t.ctx with
        | none => s.setSeg sg (g.wantQuad s.tick)
        | some c =>
          if !g.budgetOk runCost then s.setSeg sg g.governedWait else s.dispatchTo sg c t st

/-- TICKET_COMPLETE (R113, R141, R165). -/
def execTicketComplete (sg : Fin 8) (n : Fin 4096) (s : State) : Out :=
  onSeg sg s fun s =>
    let g := s.seg sg
    match g.ticket? n with
    | none => s
    | some t =>
      let slot0 := t.slots.getD 0 {}
      let failed := if t.rec_.typ == 1 then slot0.failed else 0
      match t.st with
      | .ending st reason exc => if g.spent t then s.setSeg sg ((g.finish s.time n st reason exc failed).board s.time) else s
      | .move => if slot0.st == .done then s.setSeg sg ((g.finish s.time n slot0.status 0 0 failed).board s.time) else s
      | _ => s

/-- The migration ring of a context slot read in its turn (R167, R306); it stays in its episode while it stays full. -/
def Segment.migPoll (g : Segment) (cycle : Nat) (r : Resident) : Segment :=
  let ring := g.ringPoll cycle r.mig
  if ring.isFull then g.modResident r.ctx fun x => { x with mig := ring }
  else
    let (g, m, _) := g.ringDrain (tickOf cycle) 10 true (ring.waiting.length + 1) ring
    g.modResident r.ctx fun x => { x with mig := m }

/-- CQ_HEAD_POLL (R167, R223, R306): the consumer index of a full ring is read in its turn, and what waits is written as far as there is
space. Rings 0 to 31 are those of the trail slots, 32 on those of the groups, 4,128 on the migration rings by context slot. -/
def execCqHeadPoll (sg : Fin 8) (ring : Nat) (s : State) : Out :=
  onSeg sg s fun s =>
    s.mod sg fun g =>
      if ring < 32 then
        ((g.modTrail ring fun x => { x with cq := g.ringPoll s.time x.cq }).trailDrain s.tick ring).board s.time
      else if ring < 4128 then g.groupPoll s.time (BitVec.ofNat 12 (ring - 32))
      else
        match g.xlt.resident.find? fun r => r.slot == ring - 4128 with
        | some r => g.migPoll s.time r
        | none => g

/-- CQ_FULL_TIMEOUT (R167, R306): one record for an episode. Rings are numbered as in CQ_HEAD_POLL, but for those of groups. The spec
gives no class for a migration ring: the record is R167's, with the unit of the range unit and the context slot as INDEX (log 62). -/
def execCqFullTimeout (sg : Fin 8) (ring : Nat) (s : State) : Out :=
  onSeg sg s fun s =>
    s.mod sg fun g =>
      if ring < 32 then
        match g.trail? ring with
        | some x =>
          if x.cq.overdue s.tick then
            (g.modTrail ring fun y => { y with cq := { y.cq with fullFault := true } }).raise s.tick
              { cls := 18, unit := 12, ctx := some x.ctx, info := BitVec.ofNat 32 ring }
          else g
        | none => g
      else
        match g.xlt.resident.find? fun r => r.slot == ring - 4128 with
        | some r =>
          if 4128 ≤ ring && r.mig.overdue s.tick then
            (g.modResident r.ctx fun x => { x with mig := { x.mig with fullFault := true } }).raise s.tick
              { cls := 18, unit := 10, index := r.slot, ctx := some r.ctx }
          else g
        | none => g

/-! ## Cancellation (R152, R172) -/

/-- A cancel that R152 does not allow. -/
def Segment.cancelDenied (g : Segment) (tick mode target : Nat) : Segment :=
  g.accessFault tick 12 0x160020 (BitVec.ofNat 64 (mode * 4096 + target))

/-- TRL_CANCEL_TICKET (R152, R172). -/
def execTrlCancelTicket (sg : Fin 8) (ag : Agent) (n : Fin 4096) (s : State) : Out :=
  onDoms sg ag [domRange] s fun s =>
    let g := (s.seg sg).answer csOk 0
    match g.ticket? n with
    | none => s.setSeg sg g
    | some t =>
      if t.st == .done then s.setSeg sg g
      else if !(ag.admin || ag.ctx == t.ctx) then s.setSeg sg (g.cancelDenied s.tick 0 n)
      else s.setSeg sg ((g.doom s.time 4 n).board s.time)

/-- TRL_CANCEL_TRAIL (R152, R172). -/
def execTrlCancelTrail (sg : Fin 8) (ag : Agent) (slot : BitVec 12) (s : State) : Out :=
  onDoms sg ag [domRange] s fun s =>
    let g := (s.seg sg).answer csOk 0
    match g.trail? slot.toNat with
    | none => s.setSeg sg g
    | some x =>
      if x.ended then s.setSeg sg g
      else if !(ag.admin || ag.ctx == x.ctx) then s.setSeg sg (g.cancelDenied s.tick 1 slot.toNat)
      else
        let g := g.modTrail slot.toNat fun y => { y with cancelled := true }
        let g := g.doomAll s.time 4 fun t => t.trail == slot.toNat
        s.setSeg sg ((g.trailEnd s.tick slot.toNat).board s.time)

/-- TRL_CANCEL_CONTEXT (R152, R172). -/
def execTrlCancelContext (sg : Fin 8) (ag : Agent) (ctx : BitVec 12) (s : State) : Out :=
  onDoms sg ag [domRange] s fun s =>
    let g := (s.seg sg).answer csOk 0
    let live := (g.trl.tickets.any fun t => t.ctx == ctx && t.st != .done) || g.trl.trails.any fun x => x.ctx == ctx && !x.ended
    if !live then s.setSeg sg g
    else if !(ag.admin || ag.ctx == ctx) then s.setSeg sg (g.cancelDenied s.tick 2 ctx.toNat)
    else s.setSeg sg ((g.cancelContext s.time 4 ctx).board s.time)

/-- TRL_SAVE_BASE_WRITE (R170): ignored with a fault record while a ticket is saved. -/
def execTrlSaveBaseWrite (sg : Fin 8) (ag : Agent) (sz : Sz) (v : Word) (s : State) : Out :=
  onDoms sg ag [domRange] s fun s =>
    let g := (s.seg sg).answer csOk 0
    let saved := g.trl.tickets.any fun t => match t.st with | .saved _ _ => true | _ => false
    if saved then s.setSeg sg (g.accessFault s.tick 12 0x160018 v)
    else s.setSeg sg (g.setReg 0x160018 (setBits 0 43 13 (bitsOf (mergeSize (g.reg 0x160018) sz v) 43 13)))

end Sys2Proof.Machine
end

