-- ==== Sys2Proof/Machine/Placement.lean ====
section
/-! DEFINITION. Contexts and residency (R282 to R288), guard registers (R295), the blanket's replicas and fabric-homed regions
(R310, R313 to R322). -/

namespace Sys2Proof.Machine

open Sys2Proof

/-! ## Results of context commands (Table 7.2) -/

/-- The STATUS of a REASON. -/
def reasonStatus (reason : Nat) : BitVec 4 :=
  match reason with
  | 1 => csBusy
  | 2 => csDenied
  | 3 => csUnmapped
  | 4 => csPoison
  | 5 => csDenied
  | _ => csOk

/-- XLT_CTX_RESULT written. -/
def Segment.ctxResult (g : Segment) (ctx : BitVec 12) (reason : Nat) : Segment :=
  (((g.setFld F.XLT_CTX_RESULT_VALID 1).setFld F.XLT_CTX_RESULT_CTX ctx.toNat).setFld F.XLT_CTX_RESULT_REASON reason).setFld
    F.XLT_CTX_RESULT_STATUS (reasonStatus reason).toNat

/-- CTX_BASE_WRITE (R283, R323): the base is set and context 0's entry read and checked; ignored while another context is
resident. -/
def execCtxBaseWrite (sg : Fin 8) (ag : Agent) (sz : Sz) (v : Word) (st : DpmStatus) (s : State) : Out :=
  onDoms sg ag [domRange] s fun s =>
    let g := (s.seg sg).answer csOk 0
    if !g.xlt.resident.isEmpty then s.setSeg sg g
    else
      let g := (g.setReg 0x140000 (setBits 0 43 12 (bitsOf (mergeSize (g.reg 0x140000) sz v) 43 12))).critWrite 2
      let g := g.dpmLate s.tick st
      let at_ := g.ctxEntryAt 0
      let b := g.hbmBytes at_ 64
      let reason := if !g.present 0 at_ 64 then 3 else if dpmStatus st != 0 then 4 else g.checkEntry b true
      let g := { g with xlt := { g.xlt with sys := if reason == 0 then parseEntry b else {}, sysValid := reason == 0 } }
      s.setSeg sg (g.ctxResult 0 reason)

/-- A context command that R284 does not take: an agent it does not allow, or a command it refuses. -/
def Segment.ctxCmd (g : Segment) (tick : Nat) (ag : Agent) (cmd : Nat) (ctx : BitVec 12) (bad : Bool) : Option Segment :=
  let g := g.answer csOk 0
  if !ag.admin then some (g.accessFault tick 10 0x140008 (BitVec.ofNat 64 (cmd * 4096 + ctx.toNat)))
  else if ctx == 0 || bad then some (g.bump F.XLT_COUNT_REFUSED)
  else none

/-! ## The rucksack (Table 7.3) -/

/-- Whether every byte of a span of local HBM lies in regions sealed to a context (R523). -/
def Segment.sealedSpan (g : Segment) (ctx : BitVec 12) (off len : Nat) : Bool :=
  len == 0 || (List.range ((off + len - 1) / regionSize + 1 - off / regionSize)).all fun i =>
    match g.guardIdx 0 ((off / regionSize + i) * regionSize) with
    | some k => let w := g.guardMem k; w.getLsbD 31 && w.getLsbD 30 && w.truncate 12 == ctx
    | none => false

/-- The tables of a sealed context's entry lie in its own regions (R523). -/
def Segment.entrySealed (g : Segment) (ctx : BitVec 12) (e : CtxEntry) : Bool :=
  !g.sealedCtx ctx ||
  (g.sealedSpan ctx e.rangeBase (32 * e.rangeCount) && g.sealedSpan ctx e.rucksack e.ruckLen &&
    ((e.migrate != 1 && e.migrate != 2) || (g.sealedSpan ctx e.hotRing (16 * 2 ^ e.hotLog2) && g.sealedSpan ctx e.hotHead 4)))

/-- The hot table as a rucksack holds it. -/
def hotBytes (hot : List (Nat × Nat)) : List Byte :=
  padTo 2048 (hot.flatMap fun (r, n) => natBytes (r * regionSize + n % 256) 8)

/-- The hot table restored, entry by entry; the entries that were never used are dropped from its end. -/
def hotOf (b : List Byte) : List (Nat × Nat) :=
  ((((List.range 256).map fun i => let w := field b (8 * i) 8; (w / regionSize, w % 256)).reverse).dropWhile fun x => x == (0, 0)).reverse

/-- The groups of a context enter SUSPENDED, with their records in the places after the header of the rucksack (R224). -/
def Segment.putRecords (g : Segment) (at_ : Nat) : List Grp → Segment
  | [] => g
  | x :: r =>
    ((g.modGrp x.num fun x => { x with st := .suspended, ruckAt := some at_ }).saveGrp x.num).putRecords (at_ + 8320) r

/-- The header of a rucksack (Table 7.3), with the fence state and the hot table. -/
def Segment.putRucksack (g : Segment) (tick : Nat) (r : Resident) (records : Nat) : Segment :=
  let f := (g.txn.fences.find? fun f => f.ctx == r.ctx).getD { ctx := r.ctx, failed := 0, first := 0 }
  g.put 0 r.entry.rucksack
    (padTo 64 (natBytes r.ctx.toNat 2 ++ natBytes records 2 ++ natBytes f.failed 4 ++ natBytes f.first.toNat 1 ++ List.replicate 7 0 ++
      natBytes tick 8) ++ padTo 4032 (hotBytes r.hot))

/-! ## LOAD (R285) -/

/-- The REASON a LOAD fails with; 0 when it is done. -/
def State.loadReason (s : State) (sg : Nat) (ctx : BitVec 12) (st : DpmStatus) : Nat :=
  let g := s.seg sg
  let at_ := g.ctxEntryAt ctx
  let b := g.hbmBytes at_ 64
  if g.critLost 2 then 2
  else if !g.present 0 at_ 64 then 3
  else if dpmStatus st != 0 then 4
  else if g.checkEntry b false != 0 then g.checkEntry b false
  else if (s.segs.any fun h => h.sealedCtx ctx) && !g.sealedCtx ctx then 5
  else if !g.entrySealed ctx (parseEntry b) then 2
  else if 64 ≤ g.xlt.resident.length then 1
  else 0

/-- A suspended group goes on from its queue record (R224, R230, R285): a decision it holds is applied first. -/
def State.resumeGroup (s : State) (sg : Nat) (n : BitVec 12) : State :=
  match (s.seg sg).grp? n with
  | none => s
  | some x =>
    if x.st != .suspended then s
    else
      let x := match x.ruckAt with | some a => x.restored ((s.seg sg).hbmBytes a 128) | none => x
      let st := if x.head.isSome || !x.queue.isEmpty then GrpSt.active else GrpSt.ready
      let s := s.mod sg fun g => (g.modGrp n fun _ => { x with st := st, held := none, ruckAt := none }).progressed n s.tick
      match x.held with
      | some st => s.abortApply sg n st
      | none => s.headGoOn sg n

/-- A context becomes resident as its entry and its rucksack say (R285): its slot, hot table, fence state and migration ring, and its
suspended groups resume. -/
def Segment.residentFrom (g : Segment) (ctx : BitVec 12) : Segment :=
  let e := parseEntry (g.hbmBytes (g.ctxEntryAt ctx) 64)
  let ruck := g.hbmBytes e.rucksack 4096
  let migrates := e.migrate == 1 || e.migrate == 2
  let r : Resident :=
    { slot := (firstFree (g.xlt.resident.map Resident.slot) 64).getD 0, ctx := ctx, entry := e, hot := hotOf ((ruck.drop 64).take 2048),
      mig := if migrates then { base := e.hotRing, head := e.hotHead, log2 := e.hotLog2 } else {} }
  let failed := field ruck 4 4
  let fences := (g.txn.fences.filter fun f => f.ctx != ctx) ++
    (if failed == 0 then [] else [({ ctx := ctx, failed := failed, first := BitVec.ofNat 4 (field ruck 8 1) } : FenceSt)])
  { g with xlt := { g.xlt with resident := g.xlt.resident ++ [r] }, txn := { g.txn with fences := fences } }

def State.contextIn (s : State) (sg : Nat) (ctx : BitVec 12) : State :=
  let s := s.mod sg fun g => g.residentFrom ctx
  let mine := ((s.seg sg).groups.filter fun x => x.ctx == ctx).map Grp.num
  let s := mine.foldl (fun (s : State) n => s.resumeGroup sg n) s
  s.mod sg fun g => g.board s.time

/-- CONTEXT_LOAD (R284, R285). -/
def execContextLoad (sg : Fin 8) (ag : Agent) (ctx : BitVec 12) (st : DpmStatus) (s : State) : Out :=
  onDoms sg ag [domRange] s fun s =>
    let g := s.seg sg
    match g.ctxCmd s.tick ag 1 ctx (g.resident? ctx).isSome with
    | some g => s.setSeg sg g
    | none =>
      let reason := s.loadReason sg ctx st
      let g := ((g.answer csOk 0).dpmLate s.tick st).ctxResult ctx reason
      if reason != 0 then s.setSeg sg g else (s.setSeg sg g).contextIn sg ctx

/-! ## EVICT and TEARDOWN (R286, R287) -/

/-- The context's tickets stop being dispatchable, its running tickets are suspended and its merge entries flushed. -/
def Segment.evictStart (g : Segment) (cycle : Nat) (ctx : BitVec 12) (torn : Bool) : Segment :=
  let g := g.modResident ctx fun r => { r with evicting := true, torn := torn }
  let g := (List.range 16).foldl (fun (g : Segment) c =>
    if (g.core c).ticket.isSome && (g.core c).ctx == ctx then g.suspend cycle c else g) g
  (g.flushWhere cycle fun e => e.ctx == ctx).board cycle

/-- The active groups of a context are suspended and their records written (R224). -/
def Segment.suspendGroups (g : Segment) (ctx : BitVec 12) : Segment × Nat :=
  match g.resident? ctx with
  | none => (g, 0)
  | some r =>
    let mine := g.groups.filter fun (x : Grp) => x.ctx == ctx && x.st == GrpSt.active
    ((g.putRecords (r.entry.rucksack + 4096) mine).put 0 (r.entry.rucksack + 2) (natBytes mine.length 2), mine.length)

/-- CONTEXT_EVICT (R284, R286, steps 1 to 4). -/
def execContextEvict (sg : Fin 8) (ag : Agent) (ctx : BitVec 12) (s : State) : Out :=
  onDoms sg ag [domRange] s fun s =>
    let g := s.seg sg
    match g.ctxCmd s.tick ag 2 ctx (!g.isResident ctx) with
    | some g => s.setSeg sg g
    | none =>
      let (g, _) := ((g.answer csOk 0).evictStart s.time ctx false).suspendGroups ctx
      s.setSeg sg g

/-- Whether an eviction may end: no courier runs the context and no posted write of it is outstanding. -/
def Segment.evictReady (g : Segment) (r : Resident) : Bool :=
  r.evicting && !(g.txn.posts.any fun p => p.ctx == r.ctx) && !((g.cores.take 16).any fun k => k.ticket.isSome && k.ctx == r.ctx)

/-- The first eviction that may end does (R286, steps 4 and 5; R287). Answers its context. -/
def State.evictEnd (s : State) (sg : Nat) : State × Option (BitVec 12) :=
  let g := s.seg sg
  match g.xlt.resident.find? g.evictReady with
  | none => (s, none)
  | some r =>
    let records := if r.torn then 0 else (g.groups.filter fun x => x.ctx == r.ctx && x.ruckAt.isSome).length
    let g := g.putRucksack s.tick r records
    let g := if g.sealedResident then { g with pwr := { g.pwr with coarse := some ((s.tick / 500000 + 1) * 500000) } } else g
    let g := { g with
      xlt := { g.xlt with resident := g.xlt.resident.filter fun x => x.ctx != r.ctx, cache := g.xlt.cache.filter fun x => x.ctx != r.ctx,
                          reserved := if r.torn then eraseKey r.ctx g.xlt.reserved else g.xlt.reserved }
      txn := { g.txn with fences := g.txn.fences.filter fun f => f.ctx != r.ctx } }
    (s.setSeg sg ((g.ctxResult r.ctx 0).board s.time), some r.ctx)

/-- The outstanding tags of a context complete with CS_ABORTED (R287). -/
def Segment.abortTags (g : Segment) (cycle : Nat) (ctx : BitVec 12) : Segment :=
  let mine := (g.txn.tags.filter fun t => match t.2 with | .held _ _ c _ _ => c == ctx | _ => false).map Prod.fst
  mine.foldl (fun (g : Segment) t => g.tagDone cycle t false csAborted (List.replicate 128 0)) g

/-- TEARDOWN of a resident context (R287). -/
def State.teardown (s : State) (sg : Nat) (ctx : BitVec 12) : State :=
  let s := s.mod sg fun g => g.cancelContext s.time 5 ctx
  let mine := ((s.seg sg).groups.filter fun x => x.ctx == ctx).map Grp.num
  let s := mine.foldl (fun (s : State) n => s.closeGroup sg n) s
  s.mod sg fun g => (g.abortTags s.time ctx).evictStart s.time ctx true

/-- CONTEXT_TEARDOWN (R284, R287). -/
def execContextTeardown (sg : Fin 8) (ag : Agent) (ctx : BitVec 12) (s : State) : Out :=
  onDoms sg ag [domRange] s fun s =>
    let g := s.seg sg
    match g.ctxCmd s.tick ag 3 ctx (!g.isResident ctx) with
    | some g => s.setSeg sg g
    | none => (s.setSeg sg (g.answer csOk 0)).teardown sg ctx

/-- HOT_DECAY (R305, R313): every DECAY ticks every count is halved, those of the replicas' table among them; 0 disables. -/
def execHotDecay (sg : Fin 8) (s : State) : Out :=
  onSeg sg s fun s =>
    let g := s.seg sg
    let period := g.fld F.XLT_HOT_CTRL_DECAY
    if period == 0 || s.tick < g.xlt.decayAt + period then s
    else
      s.setSeg sg { g with
        xlt := { g.xlt with
          decayAt := s.tick
          resident := g.xlt.resident.map fun (r : Resident) => { r with hot := r.hot.map fun x => (x.1, x.2 / 2) } }
        plc := { g.plc with repCount := g.plc.repCount.map fun x => (x.1, x.2 / 2) } }

/-! ## Guard registers (R295) -/

/-- The regions of a segment whose cached guard word has REPLICATE set. -/
def Segment.replicating (g : Segment) (region : Nat) : Bool :=
  region < g.fld F.XLT_GUARD_SIZE_HBM_REGIONS &&
    (match lookupKey region g.xlt.guards with | some w => w.getLsbD 29 | none => false)

/-- A write of XLT_GUARD_BASE or XLT_GUARD_SIZE by the keeper: replicas are withdrawn, the cached words dropped. -/
def State.guardWrite (s : State) (sg : Nat) (ag : Agent) (off : Nat) (w : Word) (crit : Nat) (v : Word) : State :=
  let g := (s.seg sg).answer csOk 0
  if !ag.isKeeper then s.setSeg sg (g.accessFault s.tick 10 off v)
  else
    ((s.setSeg sg g).withdrawOf sg g.replicating).mod sg fun g =>
      let g := (g.setReg off w).critWrite crit
      { g with xlt := { g.xlt with guards := [], guardWritten := g.xlt.guardWritten || off == 0x140018 } }

/-- GUARD_BASE_WRITE (R295). -/
def execGuardBaseWrite (sg : Fin 8) (ag : Agent) (sz : Sz) (v : Word) (s : State) : Out :=
  onDoms sg ag [domRange] s fun s =>
    s.guardWrite sg ag 0x140018 (setBits 0 43 12 (bitsOf (mergeSize ((s.seg sg).reg 0x140018) sz v) 43 12)) 3 v

/-- GUARD_SIZE_WRITE (R295). -/
def execGuardSizeWrite (sg : Fin 8) (ag : Agent) (sz : Sz) (v : Word) (s : State) : Out :=
  onDoms sg ag [domRange] s fun s =>
    let w := mergeSize ((s.seg sg).reg 0x140020) sz v
    s.guardWrite sg ag 0x140020 (setBits (setBits 0 16 0 (bitsOf w 16 0)) 48 32 (bitsOf w 48 32)) 4 v

/-- A cached guard word invalidated, with the replicas of its region (R295). -/
def State.guardDrop (s : State) (sg idx : Nat) : State :=
  let g := s.seg sg
  let s := if g.replicating idx then s.withdrawOf sg fun r => r == idx else s
  s.mod sg fun g => { g with xlt := { g.xlt with guards := eraseKey idx g.xlt.guards } }

/-- GUARD_INVAL (R295). -/
def execGuardInval (sg : Fin 8) (ag : Agent) (idx : BitVec 17) (s : State) : Out :=
  onDoms sg ag [domRange] s fun s =>
    let g := (s.seg sg).answer csOk 0
    if !ag.isKeeper then s.setSeg sg (g.accessFault s.tick 10 0x140028 (idx.zeroExtend 64))
    else ((s.setSeg sg g).guardDrop sg idx.toNat).mod sg fun g => g.setFld F.XLT_GUARD_INVAL_INDEX idx.toNat

/-! ## Loads (R310) -/

/-- The flits of a segment that wait for one of its ports. -/
def Segment.portLoad (g : Segment) (p : Nat) : Nat :=
  let q := (g.rte.injL ++ g.rte.injX).filter fun b => b.egress == some (g.segId.toNat, p)
  min 15 ((q.length + (g.port p).stage.length) / 16)

/-- LOAD_PUBLISH (R310): every 50 ticks. -/
def execLoadPublish (sg : Fin 8) (s : State) : Out :=
  onSeg sg s fun s =>
    if s.tick % 50 != 0 then s
    else
      let g := s.seg sg
      let mine := (List.range 6).map fun p => (sg.val, p, g.portLoad p)
      (List.range s.n).foldl (fun (s : State) t =>
        if s.reachable sg t then
          s.mod t fun h => { h with plc := { h.plc with published := mine ++ h.plc.published.filter fun x => x.1 != sg.val } }
        else s) s

/-! ## Frames (R314) -/

/-- A range of a memory copied to another place, of the same memory or another. -/
def memCopy (dst : Memory) (at_ : Nat) (src : Memory) (a n : Nat) : Memory :=
  let body := (src.filter fun c => a ≤ c.1 && c.1 < a + n).map fun c => (c.1 - a + at_, c.2)
  (dst.filter fun c => c.1 < at_) ++ body ++ dst.filter fun c => at_ + n ≤ c.1

/-- The free frames of a segment's pool. -/
def Segment.freeFrames (g : Segment) : List Nat :=
  (List.range (g.fld F.PLC_POOL_FRAMES)).filter fun f =>
    !g.plc.framesUsed.contains f || (g.plc.freeing.contains f && !g.frameBusy f)

/-- A frame taken from the pool. -/
def Segment.takeFrame (g : Segment) (f : Nat) : Segment :=
  { g with plc := { g.plc with framesUsed := f :: g.plc.framesUsed.filter (fun x => x != f), freeing := g.plc.freeing.filter fun x => x != f } }

/-- A frame returned to the pool once the accesses to it have ended. -/
def Segment.giveFrame (g : Segment) (f : Nat) : Segment :=
  if g.frameBusy f then { g with plc := { g.plc with freeing := f :: g.plc.freeing } }
  else { g with plc := { g.plc with framesUsed := g.plc.framesUsed.filter (fun x => x != f), freeing := g.plc.freeing.filter fun x => x != f } }

/-! ## Replicas (R313 to R316) -/

/-- REPLICA_INSTALL (R313): a copy that has taken its 780 ticks is installed. -/
def execReplicaInstall (sg : Fin 8) (s : State) : Out :=
  onSeg sg s fun s =>
    let g := s.seg sg
    match g.plc.copies.find? fun c => c.start + 780 ≤ s.tick with
    | none => s
    | some c =>
      let m := memCopy g.hbm (g.frameOff c.frame) (s.seg c.home).hbm (c.region * regionSize) regionSize
      let r : Replica := { region := c.region, home := c.home, guard := c.guard, frame := c.frame, installed := g.plc.installs }
      let plc := { g.plc with copies := g.plc.copies.filter (fun x => x != c), replicas := g.plc.replicas ++ [r], installs := g.plc.installs + 1 }
      s.setSeg sg ({ g with hbm := m, plc := plc }.bump F.PLC_COUNT_REPLICAS_MADE)

/-- REPLICA_FRAME_RETURN (R316): the frame of a withdrawn replica returns once its reads have been answered. -/
def execReplicaFrameReturn (sg : Fin 8) (s : State) : Out :=
  onSeg sg s fun s =>
    let g := s.seg sg
    match g.plc.replicas.find? fun r => r.withdrawn && !g.frameBusy r.frame with
    | none => s
    | some r =>
      s.setSeg sg { g with plc := { g.plc with replicas := g.plc.replicas.filter (fun x => x != r),
                                               framesUsed := g.plc.framesUsed.filter fun x => x != r.frame } }

/-- PLC_REPLICATE_OFF (R316, R324). -/
def execPlcReplicateOff (sg : Fin 8) (ag : Agent) (s : State) : Out :=
  onDoms sg ag [domRange] s fun s =>
    let g := (s.seg sg).answer csOk 0
    if !ag.admin then s.setSeg sg (g.accessFault s.tick 11 0x150000 0)
    else s.setSeg sg ((g.setFld F.PLC_CTRL_REPLICATE 0).withdraw fun _ => true)

/-! ## Fabric-homed regions (R317 to R319) -/

/-- The declared regions of a segment's window. -/
def Segment.declared (g : Segment) (l : Nat) : List (Nat × Homing) := g.plc.homing.filter fun h => h.1 / 4096 == l

/-- FH_WINDOW_WRITE (R317, R324). -/
def execFhWindowWrite (sg : Fin 8) (ag : Agent) (sz : Sz) (v : Word) (s : State) : Out :=
  onDoms sg ag [domRange] s fun s =>
    let g := (s.seg sg).answer csOk 0
    let w := mergeSize (g.reg 0x150020) sz v
    let base := bitsOf w 54 32
    let n := bitsOf w 12 0
    if !ag.admin || base < g.fld F.XLT_GUARD_SIZE_HBM_REGIONS || base + n > 2 ^ 23 || n > 4096 || !(g.declared sg).isEmpty then
      s.setSeg sg (g.accessFault s.tick 11 0x150020 v)
    else s.setSeg sg (g.setReg 0x150020 (setBits (setBits 0 12 0 n) 54 32 base))

/-- The homing table of every segment changed. -/
def State.setHoming (s : State) (f : List (Nat × Homing) → List (Nat × Homing)) : State :=
  s.modAll fun g => { g with plc := { g.plc with homing := f g.plc.homing } }

/-- The replica of a segment installed longest ago (R314). -/
def Segment.oldestReplica (g : Segment) : Option Replica :=
  (g.plc.replicas.filter fun r => !r.withdrawn).foldl (fun (m : Option Replica) r =>
    match m with
    | none => some r
    | some q => if r.installed < q.installed then some r else some q) none

/-- Whether the bridge links on one side of the ring are up all the way from a segment to another. -/
def State.ringUp (s : State) (b sg t : Nat) : Bool :=
  let n := s.n
  if b == 0 then (List.range ((t + n - sg) % n)).all fun i => (s.seg ((sg + i) % n)).bridgeUp 0
  else (List.range ((sg + n - t) % n)).all fun i => (s.seg ((sg + n - i) % n)).bridgeUp 1

/-- Whether a segment can be reached over the bridge, on either side of the ring. -/
def State.joined (s : State) (sg t : Nat) : Bool := s.ringUp 0 sg t || s.ringUp 1 sg t

/-- The segment with the most free frames, ties to the lowest index, among those that can be reached. -/
def State.mostFree (s : State) (sg : Nat) : Nat × Nat :=
  (List.range s.n).foldl (fun (m : Nat × Nat) t =>
    let n := if s.joined sg t then (s.seg t).freeFrames.length else 0
    if n > m.2 then (t, n) else m) (sg, 0)

/-- A frame for a fabric-homed region (R314, R319): of the own segment, else of the segment with the most free frames, else that
of the replica installed longest ago, of the own segment or else of the lowest. -/
def State.placeRegion (s : State) (sg : Nat) : Option (State × Nat × Nat) :=
  match (s.seg sg).freeFrames with
  | f :: _ => some (s.mod sg fun g => g.takeFrame f, sg, f)
  | [] =>
    let (t, n) := s.mostFree sg
    if n > 0 then
      match (s.seg t).freeFrames with
      | f :: _ => some (s.mod t fun g => g.takeFrame f, t, f)
      | [] => none
    else
      match (sg :: List.range s.n).find? fun t => s.joined sg t && (s.seg t).oldestReplica.isSome with
      | none => none
      | some t =>
        match (s.seg t).oldestReplica with
        | none => none
        | some r =>
          some (s.mod t fun g =>
            let g := g.withdraw fun x => x == r
            { g with plc := { g.plc with replicas := g.plc.replicas.filter fun x => !(x.withdrawn && x.frame == r.frame) } }, t, r.frame)

/-- A region's frame is zeroed and then its entry set (R319). -/
def State.setRegion (s : State) (key : Nat) (h : Homing) : State :=
  (s.mod h.holder fun g => { g with hbm := memZero g.hbm (g.frameOff h.frame) regionSize }).setHoming fun l => insertKey key h l

/-- Regions declared one by one; one whose frame is still read as that of a replica waits for it (R314). -/
def State.declareAll (s : State) (sg : Nat) (guard : BitVec 32) : List Nat → Option State
  | [] => some s
  | r :: rest =>
    match s.placeRegion sg with
    | none => none
    | some (s, t, f) =>
      let base := (s.seg sg).fld F.PLC_FH_WINDOW_BASE
      let h : Homing := { region := base + r, guard := guard, moving := false, holder := t, frame := f }
      let key := homingKey sg r
      let s := if (s.seg t).frameBusy f then s.mod sg fun g => { g with plc := { g.plc with declaring := g.plc.declaring ++ [(key, h)] } }
        else s.setRegion key h
      s.declareAll sg guard rest

/-- A command's end: LAST_STATUS is CS_OK once nothing of it is outstanding (R319). -/
def Segment.fhDone (g : Segment) : Segment := if g.plc.fhBusy then g else { g with plc := { g.plc with lastStatus := csOk } }

/-- The frames whose requests have completed return to the pool. -/
def Segment.settleFrames (g : Segment) : Segment :=
  g.plc.freeing.foldl (fun (g : Segment) f => if g.frameBusy f then g else g.giveFrame f) g

/-- A command of R319 goes on: a region whose frame is free is declared, and a frame that has returned is waited for no longer. -/
def State.fhCycle (s : State) (sg : Nat) : State :=
  let p := (s.seg sg).plc
  if !p.fhBusy then s
  else
    let ready := p.declaring.filter fun x => !(s.seg x.2.holder).frameBusy x.2.frame
    let s := ready.foldl (fun (s : State) x => s.setRegion x.1 x.2) s
    let left := p.releasing.filter fun x => (s.seg x.1).plc.freeing.contains x.2
    s.mod sg fun g =>
      { g with plc := { g.plc with declaring := g.plc.declaring.filter fun x => !ready.contains x, releasing := left } }.fhDone

/-- Whether R319 takes a command: an agent it allows, regions within the window, and for DECLARE none declared yet and SEALED only
from the keeper. -/
def Segment.fhTakes (g : Segment) (sg : Nat) (ag : Agent) (v : Word) (declare : Bool) : Bool :=
  let first := bitsOf v 27 16
  let n := bitsOf v 12 0
  ag.admin && n != 0 && first + n ≤ g.fld F.PLC_FH_WINDOW_REGIONS &&
  (!declare || ((!v.getLsbD 62 || ag.isKeeper) &&
    !(g.declared sg ++ g.plc.declaring).any fun h => first ≤ h.1 % 4096 && h.1 % 4096 < first + n))

/-- FH_DECLARE (R319): all the regions, or none. -/
def execFhDeclare (sg : Fin 8) (ag : Agent) (v : Word) (s : State) : Out :=
  onDoms sg ag [domRange] s fun s =>
    let g := (s.seg sg).answer csOk 0
    if !g.fhTakes sg ag v true then s.setSeg sg (g.accessFault s.tick 11 0x150028 v)
    else
      let s := s.setSeg sg g
      let regions := (List.range (bitsOf v 12 0)).map fun i => bitsOf v 27 16 + i
      match s.declareAll sg (BitVec.ofNat 32 (bitsOf v 63 32)) regions with
      | some t => t.mod sg Segment.fhDone
      | none => s.mod sg fun g => { g with plc := { g.plc with lastStatus := csBusy } }

/-- A move is abandoned (R322): MOVING is cleared and the target's frame returns. -/
def State.abandonMove (s : State) (sg : Nat) (m : Move) : State :=
  let s := s.mod sg fun g =>
    { g with plc := { g.plc with moves := g.plc.moves.filter fun x => x != m } }.bump F.PLC_COUNT_ABANDONED
  let s := s.mod m.target fun g => g.giveFrame m.frame
  let s := s.mod sg fun g => { g with txn := { g.txn with homeQ := g.txn.homeQ.map fun (q : HomeReq) => { q with held := false } } }
  s.setHoming fun l => l.map fun h => if h.1 / 4096 == m.win && h.2.region == m.region then (h.1, { h.2 with moving := false }) else h

/-- A move whose target can no longer be reached is abandoned (R322). -/
def State.moveWatch (s : State) (sg : Nat) : State :=
  match (s.seg sg).plc.moves.find? fun m => !s.joined sg m.target with
  | some m => s.abandonMove sg m
  | none => s

/-- A region is released: its entry goes, a move of it is abandoned, its frame returns. -/
def State.releaseRegion (s : State) (key : Nat) (h : Homing) : State :=
  let s := match (s.seg h.holder).plc.moves.find? fun m => m.win == key / 4096 && m.region == h.region with
    | some m => s.abandonMove h.holder m
    | none => s
  let s := s.setHoming fun l => eraseKey key l
  s.mod h.holder fun g =>
    let a := g.frameOff h.frame
    let g := { g with txn := { g.txn with atoms := g.txn.atoms.filter fun x => !(x.space == 0 && a ≤ x.addr && x.addr < a + regionSize) } }
    g.giveFrame h.frame

/-- FH_RELEASE (R319). -/
def execFhRelease (sg : Fin 8) (ag : Agent) (v : Word) (s : State) : Out :=
  onDoms sg ag [domRange] s fun s =>
    let g := (s.seg sg).answer csOk 0
    if !g.fhTakes sg ag v false then s.setSeg sg (g.accessFault s.tick 11 0x150028 v)
    else
      let first := bitsOf v 27 16
      let mine := (g.declared sg).filter fun h => first ≤ h.1 % 4096 && h.1 % 4096 < first + bitsOf v 12 0
      let s := mine.foldl (fun (s : State) h => s.releaseRegion h.1 h.2) (s.setSeg sg g)
      let left := (mine.map fun h => (h.2.holder, h.2.frame)).filter fun x => (s.seg x.1).plc.freeing.contains x.2
      s.mod sg fun g => { g with plc := { g.plc with releasing := g.plc.releasing ++ left } }.fhDone

/-! ## Moves (R320 to R322) -/

/-- The landing counts of a segment published to the holders, and halved (R320). -/
def State.publishCounts (s : State) (sg : Nat) : State :=
  let g := s.seg sg
  let s := g.plc.landCount.foldl (fun (s : State) (key, n) =>
    match lookupKey key g.plc.homing with
    | none => s
    | some h =>
      s.mod h.holder fun x => { x with plc := { x.plc with
        moveCounts := (key, sg, n) :: x.plc.moveCounts.filter fun y => !(y.1 == key && y.2.1 == sg) } }) s
  s.mod sg fun g => { g with plc := { g.plc with
    landCount := (g.plc.landCount.filter fun x => x.2 != 0).map fun x => (x.1, x.2 / 2) } }

/-- A count a holder knows. -/
def Segment.moveCount (g : Segment) (key t : Nat) : Nat :=
  ((g.plc.moveCounts.find? fun x => x.1 == key && x.2.1 == t).map fun x => x.2.2).getD 0

/-- The move a holder starts: the region with the largest count, ties to the lower region, then to the lower segment. -/
def State.chooseMove (s : State) (sg : Nat) : Option (Nat × Nat) :=
  let g := s.seg sg
  let ok (x : Nat × Nat × Nat) : Bool :=
    (match lookupKey x.1 g.plc.homing with | some h => h.holder == sg | none => false) && x.2.1 != sg &&
    x.2.2 ≥ g.fld F.PLC_MOVE_THRESHOLD && x.2.2 ≥ g.moveCount x.1 sg + g.fld F.PLC_MOVE_MARGIN && s.joined sg x.2.1 &&
    !(s.seg x.2.1).freeFrames.isEmpty
  let best := (g.plc.moveCounts.filter ok).foldl (fun (m : Option (Nat × Nat × Nat)) x =>
    match m with
    | none => some x
    | some y =>
      if x.2.2 > y.2.2 || (x.2.2 == y.2.2 && (x.1 < y.1 || (x.1 == y.1 && x.2.1 < y.2.1))) then some x else some y) none
  best.map fun x => (x.1, x.2.1)

/-- A move starts (R321 step 1). -/
def State.startMove (s : State) (sg key t : Nat) : State :=
  match (s.seg t).freeFrames, lookupKey key (s.seg sg).plc.homing with
  | f :: _, some h =>
    let m : Move := { win := key / 4096, region := h.region, target := t, frame := f, dirty := [], copying := List.range 512, pass := 1,
                      start := s.time }
    let s := s.mod t fun g => g.takeFrame f
    let s := s.mod sg fun g => { g with plc := { g.plc with moves := g.plc.moves ++ [m] } }
    s.setHoming fun l => modWhere l (fun x => x.1 == key) fun x => (x.1, { x.2 with moving := true })
  | _, _ => s

/-- MOVE_PERIOD (R320): every PERIOD ticks the counts are published, and a holder that moves nothing may start one move. -/
def execMovePeriod (sg : Fin 8) (s : State) : Out :=
  onSeg sg s fun s =>
    let g := s.seg sg
    if s.tick < g.plc.moveAt + max 1 (g.fld F.PLC_MOVE_PERIOD) then s
    else
      let s := (s.publishCounts sg).mod sg fun g => { g with plc := { g.plc with moveAt := s.tick } }
      let g := s.seg sg
      if !g.plc.moves.isEmpty || g.fld F.PLC_CTRL_HOMING_MOVE == 0 then s
      else
        match s.chooseMove sg with
        | some (key, t) => s.startMove sg key t
        | none => s

/-- The blocks of a pass copied from the holder's frame to the target's. -/
def State.copyBlocks (s : State) (sg : Nat) (m : Move) (src : Nat) : State :=
  let g := s.seg sg
  s.mod m.target fun h =>
    { h with hbm := m.copying.foldl (fun (mem : Memory) b =>
        memCopy mem (h.frameOff m.frame + b * 4096) g.hbm (g.frameOff src + b * 4096) 4096) h.hbm }

/-- MOVE_PASS_DONE (R321, R322): a pass of 32 cycles a block ends; another pass, the hold and the final copy, the flip, or
abandonment follows. -/
def execMovePassDone (sg : Fin 8) (s : State) : Out :=
  onSeg sg s fun s =>
    let g := s.seg sg
    match g.plc.moves.head? with
    | none => s
    | some m =>
      match (g.plc.homing.find? fun h => h.1 / 4096 == m.win && h.2.region == m.region).map Prod.snd with
      | none => s
      | some h =>
        let a := g.frameOff h.frame
        let writing := g.txn.dpm.any fun d => d.space == 0 && d.write.isSome && a ≤ d.addr && d.addr < a + regionSize
        if m.flipping || s.time < m.start + 32 * m.copying.length || (m.hold && writing) then s
        else if !s.joined sg m.target then s.abandonMove sg m
        else
          let s := s.copyBlocks sg m h.frame
          let final := min 64 (g.fld F.PLC_MOVE_FINAL_BLOCKS)
          let next (m' : Move) : State :=
            s.mod sg fun g => { g with plc := { g.plc with moves := modWhere g.plc.moves (fun x => x == m) fun _ => m' } }
          if m.hold then next { m with copying := [], flipping := true }
          else if m.dirty.length ≤ final then next { m with copying := m.dirty, dirty := [], start := s.time, hold := true }
          else if m.pass ≥ max 1 (g.fld F.PLC_MOVE_MAX_PASSES) then s.abandonMove sg m
          else next { m with copying := m.dirty, dirty := [], start := s.time, pass := m.pass + 1 }

/-- The old holder after a flip (R321): the requests held go on to the new holder, and the frame returns. -/
def Segment.movedOut (g : Segment) (cycle : Nat) (m : Move) (frame : Nat) : Segment :=
  let a := g.frameOff frame
  let gone (f : Flit) : Bool := f.space == 0 && f.dstSeg.toNat == m.win && f.index * 128 / regionSize == m.region
  let held := g.txn.homeQ.filter fun q => q.held && gone q.flit
  let g := { g with
    txn := { g.txn with homeQ := g.txn.homeQ.filter (fun q => !(q.held && gone q.flit)),
                        atoms := g.txn.atoms.filter fun x => !(x.space == 0 && a ≤ x.addr && x.addr < a + regionSize) }
    plc := { g.plc with moves := g.plc.moves.filter fun x => x != m } }
  let g := held.foldl (fun (g : Segment) q => (g.fwdFreeAll q.flit).forwardL cycle q.flit) g
  (g.giveFrame frame).bump F.PLC_COUNT_MOVES

/-- MOVE_FLIP_DONE (R321 steps 4 and 5): every copy of the entry names the new holder, and the held requests go to it. -/
def execMoveFlipDone (sg : Fin 8) (s : State) : Out :=
  onSeg sg s fun s =>
    let g := s.seg sg
    match g.plc.moves.head? with
    | none => s
    | some m =>
      if !m.flipping then s
      else if !s.joined sg m.target then s.abandonMove sg m
      else
        match (g.plc.homing.find? fun h => h.1 / 4096 == m.win && h.2.region == m.region).map Prod.snd with
        | none => s
        | some old =>
          let s := s.setHoming fun l => l.map fun h =>
            if h.1 / 4096 == m.win && h.2.region == m.region then (h.1, { h.2 with moving := false, holder := m.target, frame := m.frame }) else h
          s.mod sg fun g => g.movedOut s.time m old.frame

end Sys2Proof.Machine
end

