-- ==== Sys2Proof/Machine/Images.lean ====
section
/-! DEFINITION. The boot area and its images (R554 to R558): headers, acceptance, and the start of the keeper and the steward. -/

namespace Sys2Proof.Machine

open Sys2Proof

/-! ## The boot area (R554) -/

def bootAreaSize : Nat := 2 ^ 24

/-- The HBM offset of the boot area. -/
def Segment.bootBase (g : Segment) : Nat := g.fld F.SEG_BOOT_AREA_BASE * bootAreaSize

/-- The header of steward image 1 (A) or 2 (B). -/
def Segment.stewardAt (g : Segment) (image : Nat) : Nat := g.bootBase + image * 2 ^ 22

/-- The header of the incoming keeper image. -/
def Segment.incomingAt (g : Segment) : Nat := g.bootBase + 12 * 2 ^ 20

/-- Whether a range of a memory reads as zero. -/
def memIsZero (m : Memory) (a n : Nat) : Bool := m.all fun c => c.1 < a || a + n ≤ c.1

/-! ## Acceptance (Table 14.5, R555) -/

/-- What becomes of an image. -/
inductive ImageResult where
  | accepted | badRecord | authFail | policy
  deriving DecidableEq, Repr, Inhabited

def Segment.imgLength (g : Segment) (at_ : Nat) : Nat := memNat g.hbm (at_ + 8) 4
def Segment.imgEntry (g : Segment) (at_ : Nat) : Nat := memNat g.hbm (at_ + 12) 4
def Segment.imgSvn (g : Segment) (at_ : Nat) : Nat := memNat g.hbm (at_ + 6) 2
def Segment.imgDigest (g : Segment) (at_ : Nat) : List Byte := g.hbmBytes (at_ + 16) 48
def Segment.imgCommits (g : Segment) (at_ : Nat) : Bool := (memRead g.hbm (at_ + 5)).getLsbD 0
def Segment.imgBody (g : Segment) (at_ : Nat) : List Byte := g.hbmBytes (at_ + 65536) (g.imgLength at_)

/-- Whether the fields of a header are valid (Table 14.5): kind 1 keeper, 2 steward. -/
def Segment.imgValid (g : Segment) (kind at_ : Nat) : Bool :=
  let len := g.imgLength at_
  let entry := g.imgEntry at_
  g.present 0 at_ 65536 && memNat g.hbm at_ 4 == 0x47594E31 && memNat g.hbm (at_ + 4) 1 == kind &&
  (memRead g.hbm (at_ + 5)).toNat < 2 && 8 ≤ len && g.present 0 at_ (65536 + len) && memIsZero g.hbm (at_ + 256) (65536 - 256) &&
  (if kind == 1 then len ≤ 57344 && entry < 65536 else len ≤ 4128768 && 0x10000 ≤ entry && entry < 0x10000 + len)

/-- The check of R555, under the floor of the kind. -/
def Segment.imgCheck (g : Segment) (kind at_ : Nat) : ImageResult :=
  let signer := g.hbmBytes (at_ + 64) 96
  if !g.imgValid kind at_ then .badRecord
  else if !(Config.signerDigests.contains (Config.sha384 signer)) ||
          !Config.ecdsaVerify signer (g.hbmBytes at_ 160) (g.hbmBytes (at_ + 160) 96) ||
          Config.sha384 (g.imgBody at_) != g.imgDigest at_ then .authFail
  else if g.imgSvn at_ < (if kind == 1 then g.boot.floorK else g.boot.floorS) then .policy
  else .accepted

def Segment.imgOk (g : Segment) (kind at_ : Nat) : Bool := g.imgCheck kind at_ == .accepted

/-! ## Key slots (R506) -/

def Segment.keySlot (g : Segment) (n : Nat) : KeySlot := g.kpr.slots.getD n {}

/-- The material of a slot of a kind; none where it is EMPTY or lost. -/
def Segment.keyMat (g : Segment) (n kind : Nat) : Option (List Byte) :=
  if (g.keySlot n).kind == kind && !(g.keySlot n).lost then some (g.keySlot n).material else none

/-- A slot written: it is lost no more (R477, R506). -/
def Segment.writeKey (g : Segment) (n : Nat) (k : KeySlot) : Segment := (g.modKey n fun _ => k).critWrite (8 + n)

def modKpr (f : Kpr → Kpr) (g : Segment) : Segment := { g with kpr := f g.kpr }

/-- A record of class KEEPER (R536). -/
def Segment.keeperFault (g : Segment) (tick : Nat) (info : BitVec 32) (ctx : Option (BitVec 12)) : Segment :=
  g.raise tick { cls := 29, unit := 4, info := info, ctx := ctx }

/-! ## Certificates (R505) -/

/-- The chain of a certificate slot: 0 the identity, 1 the wrap key; empty where the leaf does not match the key. -/
def Segment.chain (g : Segment) (n : Nat) : List Byte :=
  let c := Config.certChain n g.boot.keeperDigest
  match g.keyMat n (n + 1) with
  | some m => if Config.leafKey c == Config.ecPublic (m.take 48) then c else []
  | none => []

/-- A record for each certificate slot whose leaf does not match (R505). -/
def Segment.certCheck (g : Segment) (tick : Nat) : Segment :=
  [0, 1].foldl (fun (g : Segment) n => if (g.keyMat n (n + 1)).isSome && (g.chain n).isEmpty then g.keeperFault tick 7 none else g) g

/-! ## Stages -/

def Segment.stage (g : Segment) : Nat := g.fld F.SEG_BOOT_STAGE

def Segment.setStage (g : Segment) (n : Nat) : Segment := g.setFld F.SEG_BOOT_STAGE n

/-- The boot stops at FAILED. -/
def Segment.bootFail (g : Segment) (code : Nat) : Segment := (g.setStage 9).setFld F.SEG_BOOT_FAIL code

/-! ## Starting the cores (R557) -/

/-- A core that firmware starts on: at a PC with CTX 0, its lunchbox as it stands. -/
def Core.restart (k : Core) (pc : Nat) : Core := { k.resetState with pc := BitVec.ofNat 32 pc, st := .running }

/-- The floor of a kind follows an image with COMMIT_SVN that has started (R555). -/
def Boot.commit (b : Boot) (kind svn : Nat) (isCommit : Bool) : Boot :=
  if !isCommit then b
  else if kind == 1 then { b with floorK := max b.floorK svn } else { b with floorS := max b.floorS svn }

/-- Mask ROM copies the body of an accepted keeper image into the lunchbox and continues at ENTRY; the keeper of segment 0 checks its
certificates (R505). -/
def Segment.startKeeper (g : Segment) (tick at_ : Nat) : Segment :=
  let body := g.imgBody at_
  let entry := g.imgEntry at_
  let svn := g.imgSvn at_
  let g := { g with
    boot := { (g.boot.commit 1 svn (g.imgCommits at_)) with keeperDigest := g.imgDigest at_ }
    kpr := { g.kpr with resetAt := none } }
  let g := (g.modCore 16 fun k => (lbEngineWrite k 0 body).1.restart entry).setFld F.KPR_STATE_KEEPER_SVN svn
  if g.segId == 0 then g.certCheck tick else g

/-- The steward is started on image 1 (A) or 2 (B) at its ENTRY (R557); it owes STEWARD_READY from then on (R558). -/
def Segment.startSteward (g : Segment) (tick image : Nat) : Segment :=
  let at_ := g.stewardAt image
  let entry := g.imgEntry at_
  let svn := g.imgSvn at_
  let base := at_ / 65536
  let limit := 0x10000 + g.imgLength at_
  let g := { g with boot := { (g.boot.commit 2 svn (g.imgCommits at_)) with
    stewardDigest := g.imgDigest at_, stewardEntry := BitVec.ofNat 32 entry, stewardStart := some tick } }
  -- a write of CUR_CODE in this cycle replaces what the start sets (R14)
  let g := if (g.swWrote 0x191010).isSome then g else (g.setFld (F.CUR_CODE_BASE.core 17) base).setFld (F.CUR_CODE_LIMIT.core 17) limit
  let g := g.modCore 17 fun k => { (k.restart entry) with codeBase := BitVec.ofNat 28 base, codeLimit := BitVec.ofNat 32 limit }
  ((g.setFld F.SEG_BOOT_ACTIVE image).setFld F.SEG_BOOT_STEWARD_READY 0).setFld F.KPR_STATE_STEWARD_SVN svn

/-- The keeper's choice of a steward image (R557): the higher SVN, and A when they are equal. -/
def Segment.chooseSteward (g : Segment) : Option Nat :=
  match g.imgOk 2 (g.stewardAt 1), g.imgOk 2 (g.stewardAt 2) with
  | true, true => some (if g.imgSvn (g.stewardAt 1) ≥ g.imgSvn (g.stewardAt 2) then 1 else 2)
  | true, false => some 1
  | false, true => some 2
  | false, false => none

/-- The keeper image at offset 0 is verified and started, then a steward image (R557): FAIL 2 and FAIL 3 where none is
accepted. -/
def Segment.loadImages (g : Segment) (tick : Nat) : Segment :=
  if !g.imgOk 1 g.bootBase then g.bootFail 2
  else
    let g := (g.startKeeper tick g.bootBase).setStage 6
    match g.chooseSteward with
    | some i => { (g.startSteward tick i) with boot := { (g.startSteward tick i).boot with triedOther := false } }
    | none => g.bootFail 3

/-- The boot area of segment 0 copied to another segment, at the same place (R556). -/
def State.copyBootArea (s : State) (sg : Nat) : State :=
  if sg == 0 then s
  else
    let g0 := s.seg 0
    s.mod sg fun g =>
      (g.setReg 0x308 (g0.reg 0x308)).setMem 0 (memCopy g.hbm g0.bootBase g0.hbm g0.bootBase bootAreaSize)

/-- A segment that waits for images takes them once GO is set at segment 0 (R556, R557). -/
def State.bootImages (s : State) (sg : Nat) : State :=
  if (s.seg sg).stage == 4 && (s.seg 0).fld F.SEG_BOOT_GO == 1 then
    (s.copyBootArea sg).mod sg fun g => (g.setStage 5).loadImages s.tick
  else s

/-- GO is set at a segment; at segment 0 every segment of the package that waits takes its images (R556). -/
def State.go (s : State) (sg : Nat) : State :=
  let s := s.mod sg fun g => g.setFld F.SEG_BOOT_GO 1
  if sg == 0 then (List.range s.n).foldl (fun (s : State) k => s.bootImages k) s else s

/-! ## The commands that bring images (R556) -/

/-- The boot source in force (R544, R571): 0 HOST, 1 MGMT, 2 JTAG, 3 HALT. -/
def Segment.bootSource (g : Segment) : Nat := g.fld F.SEG_BOOT_SOURCE

/-- A write of SEG_BOOT.GO: by a host-die agent of a boot from HOST, while STAGE reads WAIT_IMAGE. -/
def State.goWrite (s : State) (sg : Nat) (ag : Agent) : State :=
  let g := s.seg sg
  if ag.isHost && g.stage == 4 && g.bootSource == 0 then s.go sg else s

/-- BOOT_GO (R556, R557). -/
def execBootGo (sg : Fin 8) (ag : Agent) (s : State) : Out :=
  onCtl sg ag s fun s => (s.goWrite sg ag).mod sg fun g => g.answer csOk 0

/-- Bytes written into the boot area of a segment that waits for images from a source. -/
def State.imageBytes (s : State) (sg source : Nat) (off : BitVec 32) (data : List Byte) : State :=
  let g := s.seg sg
  if g.stage == 4 && g.bootSource == source && off.toNat + data.length ≤ bootAreaSize && g.present 0 (g.bootBase + off.toNat) data.length
  then s.setSeg sg (g.put 0 (g.bootBase + off.toNat) data) else s

/-- IMAGE_WRITE (R556): a management message of 1 to 56 data bytes, at segment 0. -/
def execImageWrite (off : BitVec 32) (data : List Byte) (s : State) : Out :=
  onSeg 0 s fun s => if 1 ≤ data.length && data.length ≤ 56 then s.imageBytes 0 1 off data else s

/-- IMAGE_GO (R556). -/
def execImageGo (s : State) : Out :=
  onSeg 0 s fun s => if (s.seg 0).stage == 4 && (s.seg 0).bootSource == 1 then s.go 0 else s

/-- IMAGE_LOAD (R556, R569): the JTAG instruction writes the boot area, and its final word sets GO. -/
def execImageLoad (sg : Fin 8) (off : BitVec 32) (data : List Byte) (last : Bool) (s : State) : Out :=
  onSeg sg s fun s =>
    let was := s.seg sg
    let s := s.imageBytes sg 2 off data
    if last && was.stage == 4 && was.bootSource == 2 then s.go sg else s

/-- A write of SEG_BOOT_AREA, accepted while STAGE reads WAIT_IMAGE (R556). -/
def Segment.areaWrite (g : Segment) (sz : Sz) (v : Word) : Segment :=
  if g.stage == 4 then g.setReg 0x308 (setBits 0 43 24 (bitsOf (mergeSize (g.reg 0x308) sz v) 43 24)) else g

/-- SEG_BOOT_AREA_WRITE (R556). -/
def execSegBootAreaWrite (sg : Fin 8) (ag : Agent) (sz : Sz) (v : Word) (s : State) : Out :=
  onCtl sg ag s fun s => s.mod sg fun g => (g.areaWrite sz v).answer csOk 0

end Sys2Proof.Machine
end

