-- ==== Sys2Proof/Machine/Spdm.lean ====
section
/-! DEFINITION. Attestation: the SPDM responder of segment 0's keeper (R505, R511 to R514, R526). The order of negotiation, the bits
of the algorithm fields and the error codes beside those the spec names are SPDM 1.3's own (PRESUMED, log 40). -/

namespace Sys2Proof.Machine

open Sys2Proof

/-! ## Measurements (R512, R513) -/

/-- KPR_STATE.STATE (Table 13.12), from the boot stage and the keeper's core. -/
def Segment.keeperState (g : Segment) : Nat :=
  let stage := g.stage
  let fail := g.fld F.SEG_BOOT_FAIL
  if g.kpr.resetAt.isSome then 4
  else if stage == 9 && (fail == 1 || fail == 2) then 5
  else if stage < 5 || stage == 8 then 0
  else if stage == 5 then 1
  else if (g.core 16).st == .asleep then 3
  else 2

/-- KPR_STATE as it reads (Table 13.12). -/
def Segment.kprState (g : Segment) : Word :=
  let w := (g.reg 0x40000)
  let w := setBits w 2 0 g.keeperState
  let w := setBits w 4 4 g.kpr.resetAt.isSome.toNat
  let w := setBits w 5 5 g.boot.incoming.isSome.toNat
  setBits w 3 3 g.boot.strapErr.toNat

def Segment.debugOn (g : Segment) : Bool := g.fld F.KPR_STATE_DEBUG == 1

/-- The blocks of a segment (Table 13.6), by index. -/
def Segment.blocks (g : Segment) (s : Nat) : List (Nat × List Byte) :=
  let i := 1 + 8 * s
  [(i, Config.romDigest), (i + 1, g.boot.keeperDigest), (i + 2, g.boot.stewardDigest)] ++
  (match g.boot.incoming with | some d => [(i + 3, d)] | none => []) ++
  [(i + 4, Config.configBlock g.boot.sampled g.straps.secure g.debugOn g.boot.incoming.isSome (g.fld F.PWR_RAMP_CLASS)
      (g.fld F.KPR_STATE_KEEPER_SVN) (g.fld F.KPR_STATE_STEWARD_SVN))]

/-- The blocks of the package. -/
def State.blocks (s : State) : List (Nat × List Byte) := (List.range s.n).flatMap fun k => (s.seg k).blocks k

/-- The blocks an answer carries for an index: all for 0xFF, their number for 0, and in transition blocks 2 and 3 besides the one
asked for (R513); none for an absent index. -/
def State.blocksFor (s : State) (idx : Nat) : Option (List (Nat × List Byte)) :=
  let all := s.blocks
  if idx == 0xFF then some all
  else if idx == 0 then some [(0, [BitVec.ofNat 8 all.length])]
  else if all.any fun b => b.1 == idx then
    some (all.filter fun b => b.1 == idx || ((b.1 % 8 == 3 || b.1 % 8 == 4) && (s.seg (b.1 / 8)).boot.incoming.isSome))
  else none

/-- A MEASUREMENTS answer signed with the identity key (R511, R514); none while that key is EMPTY or lost. -/
def State.signedBlocks (s : State) (label : String) (nonce : List Byte) (blocks : List (Nat × List Byte)) : Option SpdmAns :=
  ((s.seg 0).keyMat 0 1).map fun k => .measurements blocks (Config.ecdsaSign (k.take 48) (Config.spdmTranscript label nonce blocks))

/-! ## Sessions -/

/-- A session of the responder: one of four of the management port, or that of HOST_SPDM. -/
def State.session (s : State) (host : Bool) (ses : Session) : Option SpdmSes :=
  if host then some (s.seg 0).kpr.host
  else ses.map fun i => (s.seg 0).kpr.sessions.getD i.val {}

def State.setSession (s : State) (host : Bool) (ses : Session) (x : SpdmSes) : State :=
  s.mod 0 (modKpr fun k =>
    if host then { k with host := x }
    else match ses with
      | some i => { k with sessions := k.sessions.set i.val x }
      | none => k)

/-- A message of an open session renews its time (R511). -/
def State.touchSession (s : State) (host : Bool) (ses : Session) : State :=
  match s.session host ses with
  | some x => if x.opened then s.setSession host ses { x with last := s.tick } else s
  | none => s

/-- The management session that a new KEY_EXCHANGE takes: a free one, else the least recently used. -/
def Kpr.nextSession (k : Kpr) : Nat :=
  match (List.range 4).find? fun i => !(k.sessions.getD i {}).opened with
  | some i => i
  | none => (List.range 4).foldl (fun m i => if (k.sessions.getD i {}).last < (k.sessions.getD m {}).last then i else m) 0

/-- Host keys installed by every keeper at FINISH of a host session (R526). -/
def State.hostKeys (s : State) (x : SpdmSes) : State :=
  let master := Config.spdmExport x.secret (x.id ++ x.random)
  let c := x.ctx.getD 0
  s.modAll fun g =>
    let slot (label : String) : KeySlot := { kind := 5, ctx := c, material := padTo 48 (kdf master (ascii label) [] 36) }
    (((g.writeKey 6 (slot "GYN host h2d")).writeKey 7 (slot "GYN host d2h")).setFld F.KPR_HOST_CTX c.toNat).setFld F.KPR_HOST_OPEN 1

/-! ## The responder (R511) -/

def spdmInvalid : SpdmAns := .error 0x01
def spdmBusy : SpdmAns := .error 0x03
def spdmUnexpected : SpdmAns := .error 0x04
def spdmUnspecified : SpdmAns := .error 0x05
def spdmDecrypt : SpdmAns := .error 0x06
def spdmUnsupported : SpdmAns := .error 0x07

/-- How far a connection's negotiation is. -/
def State.spdmStage (s : State) (host : Bool) : Nat := if host then (s.seg 0).kpr.hostStage else (s.seg 0).kpr.stage

def State.setSpdmStage (s : State) (host : Bool) (n : Nat) : State :=
  s.mod 0 (modKpr fun k => if host then { k with hostStage := n } else { k with stage := n })

/-- KEY_EXCHANGE (R511, R526): the session's secret, identifier and random data, signed with the identity key. -/
def State.spdmKeyExchange (s : State) (host : Bool) (slot : Nat) (pub : List Byte) (ctx : Option (BitVec 12)) : State × SpdmAns :=
  let g := s.seg 0
  let bound := match ctx with | some c => g.sealedCtx c | none => false
  if slot != 0 || (host && !bound) || (g.chain 0).isEmpty then (s, spdmInvalid)
  else
    match g.keyMat 0 1 with
    | none => (s, spdmUnspecified)
    | some k =>
      let own := Config.random s.freeCtr 48
      let id := Config.random (s.freeCtr + 1) 4
      let random := Config.random (s.freeCtr + 2) 32
      let s := { s with freeCtr := s.freeCtr + 3 }
      match Config.ecdh own pub with
      | none => (s, spdmInvalid)
      | some z =>
        let i := g.kpr.nextSession
        let ses : Session := if h : i < 4 then some ⟨i, h⟩ else none
        let s := match s.session host ses with
          | some x => if x.opened then s.mod 0 fun g => g.keeperFault s.tick 6 none else s
          | none => s
        let x : SpdmSes := { opened := true, last := s.tick, id := id, random := random, secret := z, ctx := if host then ctx else none }
        let signature := Config.ecdsaSign (k.take 48) (Config.spdmTranscript "key exchange" (pub ++ id ++ random) [])
        (s.setSession host ses x, .keyExchange id random (Config.ecPublic own) signature)

/-- FINISH (R511, R526): the session is secured once its verify data agree, and ends where they do not. -/
def State.spdmFinish (s : State) (host : Bool) (ses : Session) (mac : List Byte) : State × SpdmAns :=
  match s.session host ses with
  | none => (s, spdmUnexpected)
  | some x =>
    if !x.opened || x.secured then (s, spdmUnexpected)
    else if Config.spdmFinished x.secret (x.id ++ x.random) != mac then (s.setSession host ses {}, spdmDecrypt)
    else
      let x := { x with secured := true, last := s.tick }
      let s := s.setSession host ses x
      (if host then s.hostKeys x else s, .finish)

/-- The answer of the responder to a request (Table 13.5). -/
def State.spdm (s : State) (host : Bool) (ses : Session) (r : SpdmReq) : State × SpdmAns :=
  let s := s.touchSession host ses
  let g := s.seg 0
  let st := s.spdmStage host
  match r with
  | .version => (s.setSpdmStage host 1, .version)
  | .other _ => (s, spdmUnsupported)
  | .capabilities => if st == 0 then (s, spdmUnexpected) else (s.setSpdmStage host 2, .capabilities)
  | .algorithms asym hash =>
    if st < 2 then (s, spdmUnexpected)
    else if asym.getLsbD 7 && hash.getLsbD 1 then (s.setSpdmStage host 3, .algorithms)
    else (s, spdmInvalid)
  | .digests =>
    if st < 3 then (s, spdmUnexpected)
    else
      let d (n : Nat) : List Byte := if (g.chain n).isEmpty then [] else Config.sha384 (g.chain n)
      (s, .digests (d 0) (d 1))
  | .certificate slot off len =>
    if st < 3 then (s, spdmUnexpected)
    else
      let c := g.chain slot.toNat
      if 2 ≤ slot.toNat || c.length ≤ off.toNat then (s, spdmInvalid)
      else (s, .certificate slot ((c.drop off.toNat).take len.toNat))
  | .challenge slot nonce =>
    if st < 3 then (s, spdmUnexpected)
    else if slot != 0 || (g.chain 0).isEmpty then (s, spdmInvalid)
    else
      match g.keyMat 0 1 with
      | none => (s, spdmUnspecified)
      | some k => (s, .challengeAuth (Config.ecdsaSign (k.take 48) (Config.spdmTranscript "challenge" nonce s.blocks)))
  | .measurements idx nonce =>
    if st < 3 then (s, spdmUnexpected)
    else
      match s.blocksFor idx.toNat, nonce with
      | none, _ => (s, spdmInvalid)
      | some b, none => (s, .measurements b [])
      | some b, some x =>
        match s.signedBlocks "measurements" x b with
        | some a => (s.mod 0 fun g => g.bump F.KPR_COUNT_QUOTES, a)
        | none => (s, spdmUnspecified)
  | .keyExchange slot pub ctx => if st < 3 then (s, spdmUnexpected) else s.spdmKeyExchange host slot.toNat pub ctx
  | .finish mac => s.spdmFinish host ses mac

/-- The limit of a session without a message (R511): 30 min. -/
def sessionLimit : Nat := 90000000000

/-- SPDM_SESSION_TIMEOUT (R511). -/
def execSpdmSessionTimeout (ses : Session) (s : State) : Out :=
  onSeg 0 s fun s =>
    let host := ses.isNone
    match s.session host ses with
    | some x => if x.opened && s.tick ≥ x.last + sessionLimit then s.setSession host ses {} else s
    | none => s

end Sys2Proof.Machine
end

