-- ==== Sys2Proof/Machine/Seal.lean ====
section
/-! DEFINITION. The keeper's requests (R508, R509, R514, R519 to R532, R536 to R542). Multi-byte numbers in derivation inputs, nonces
and additional data are most significant byte first, as the nonces the spec states are (DEDUCED, log 41); the fields of records and
headers are little-endian (R16). -/

namespace Sys2Proof.Machine

open Sys2Proof

/-! ## The frame of a request (R502, R508, R509) -/


/-- The sender and the pointer of the request that a channel of the keeper has TAKEN, while the keeper serves none and has taken none
before it. -/
def State.keeperReq (s : State) (sg ch notice : Nat) : Option (Agent × Nat) :=
  let g := s.seg sg
  let m := g.chan ch
  if m.st == .taken && !m.lost && m.notice.toNat == notice && g.recvClass ch == 0 && g.kpr.resetAt.isNone && g.kpr.awaiting.isEmpty &&
      g.boot.update.isNone && g.stage != 10 && !g.keeperWaits ch then
    m.sender.map fun a => (a, m.msgPtr.toNat)
  else none

/-- A request answered with a code of Table 13.4. -/
def Segment.keeperAck (g : Segment) (ch code : Nat) : Segment :=
  let g := g.modChan ch fun m => { m with st := .acked, code := BitVec.ofNat 16 code }
  if code == 0 then g else g.bump F.KPR_COUNT_REFUSED

def rcOk : Nat := 0
def rcDenied : Nat := 1
def rcBadRecord : Nat := 2
def rcNotRecipient : Nat := 3
def rcPolicy : Nat := 4
def rcAuthFail : Nat := 5
def rcNoSlot : Nat := 6
def rcSerial : Nat := 7
def rcUnmapped : Nat := 8
def rcState : Nat := 9
def rcNoKey : Nat := 10

/-- A request that ends at once: its effect and its code. -/
def State.serve13 (s : State) (sg ch notice : Nat) (f : State → Agent → Nat → State × Nat) : State :=
  match s.keeperReq sg ch notice with
  | none => s
  | some (ag, ptr) =>
    let (s, code) := f s ag ptr
    s.mod sg fun g => g.keeperAck ch code

/-! ## Guard words (R295) -/

/-- A guard word written in HBM and its cached copy invalidated. -/
def State.guardPut (s : State) (sg idx : Nat) (w : BitVec 32) : State :=
  let g := s.seg sg
  let a := g.fld F.XLT_GUARD_BASE_BASE * 4096 + 4 * idx
  (s.setSeg sg (g.put 0 a (natBytes w.toNat 4))).guardDrop sg idx

/-- Whether the guard word of an index lies in present HBM. -/
def Segment.guardHeld (g : Segment) (idx : Nat) : Bool := g.present 0 (g.fld F.XLT_GUARD_BASE_BASE * 4096 + 4 * idx) 4

/-- The guard word of a sealed region (R522 step 5): VALID, SEALED, READ, WRITE, OWNER. -/
def sealedWord (ctx : BitVec 12) : BitVec 32 := BitVec.ofNat 32 (2 ^ 31 + 2 ^ 30 + 2 ^ 27 + 2 ^ 26 + ctx.toNat)

/-- The indices of a segment's guard table whose word names a context with SEALED set. -/
def Segment.sealedRegions (g : Segment) (ctx : BitVec 12) : List Nat :=
  (List.range (g.fld F.XLT_GUARD_SIZE_HBM_REGIONS + g.fld F.XLT_GUARD_SIZE_SP_REGIONS)).filter fun i =>
    let w := g.guardMem i
    w.getLsbD 31 && w.getLsbD 30 && w.truncate 12 == ctx

/-- The space and offset of the region of a guard-table index. -/
def Segment.regionAt (g : Segment) (idx : Nat) : Nat × Nat :=
  let h := g.fld F.XLT_GUARD_SIZE_HBM_REGIONS
  if idx < h then (0, idx * regionSize) else (1, (idx - h) * regionSize)

/-- A region written as zero. -/
def Segment.zeroRegion (g : Segment) (idx : Nat) : Segment :=
  let (sp, off) := g.regionAt idx
  g.setMem sp (memZero (g.mem sp) off regionSize)

/-! ## QUOTE (R514) -/

/-- QUOTE: the signed measurements of the package for a nonce, written after it. -/
def execQuote (sg : Fin 8) (ch : Fin 64) (s : State) : Out :=
  onSeg sg s fun s => s.serve13 sg ch 0x6001 fun s _ ptr =>
    let g := s.seg sg
    let nonce := g.hbmBytes ptr 32
    if !g.present 0 ptr 32 then (s, rcUnmapped)
    else
      match s.signedBlocks "quote" nonce s.blocks with
      | none => (s, rcNoKey)
      | some a =>
        let bytes := Config.spdmEncode a
        if !g.present 0 (ptr + 32) bytes.length then (s, rcUnmapped)
        else (s.setSeg sg ((g.put 0 (ptr + 32) bytes).bump F.KPR_COUNT_QUOTES), rcOk)

/-! ## HOST_SPDM (R526) -/

/-- HOST_SPDM: an SPDM request of a host agent, answered in memory after the request. Served by segment 0's keeper (R511). -/
def execHostSpdm (sg : Fin 8) (ch : Fin 64) (s : State) : Out :=
  onSeg sg s fun s => s.serve13 sg ch 0x6006 fun s ag ptr =>
    let g := s.seg sg
    if !ag.isHost || sg.val != 0 then (s, rcDenied)
    else
      let (r, len) := Config.spdmDecode (g.hbmBytes ptr 4096)
      if !g.present 0 ptr len then (s, rcUnmapped)
      else
        let (s', a) := s.spdm true none r
        let bytes := Config.spdmEncode a
        if !g.present 0 (ptr + len) bytes.length then (s, rcUnmapped)
        else (s'.mod 0 fun g => g.put 0 (ptr + len) bytes, rcOk)

/-! ## SEAL_LOAD (R519 to R522) -/

/-- A place of a seal load: its segment, its offset in space 00, its length. -/
structure SealPlace where
  seg : Nat
  off : Nat
  len : Nat
  deriving DecidableEq, Repr, Inhabited

/-- A seal load record (Table 13.9) with the bundle header it names (Table 13.8). -/
structure SealReq where
  ctx : BitVec 12
  bundleSeg : Nat
  bundleOff : Nat
  nonce : List Byte
  errSeg : Nat
  errOff : Nat
  errLog2 : Nat
  headSeg : Nat
  headOff : Nat
  places : List SealPlace
  hdr : List Byte
  deriving DecidableEq, Repr, Inhabited

def SealReq.recipients (r : SealReq) : Nat := field r.hdr 2 2
def SealReq.chunkLog2 (r : SealReq) : Nat := field r.hdr 4 1
def SealReq.payload (r : SealReq) : Nat := field r.hdr 8 8
def SealReq.policy (r : SealReq) : Nat := field r.hdr 116 1
def SealReq.chunks (r : SealReq) : Nat := (r.payload + 2 ^ r.chunkLog2 - 1) / 2 ^ r.chunkLog2
def SealReq.length (r : SealReq) : Nat := r.hdr.length + r.payload + 16 * r.chunks

/-- Whether an address lies in HBM of the package. -/
def State.inPackage (s : State) (a : Nat) : Bool := gaNode a == (s.seg 0).node.toNat && gaSeg a < s.n && gaSpace a == 0

/-- Whether a range lies inside one of the places. -/
def insidePlace (ps : List SealPlace) (seg off len : Nat) : Bool :=
  ps.any fun p => p.seg == seg && p.off ≤ off && off + len ≤ p.off + p.len

/-- The record of a seal load as the keeper checks it, or the code it is answered with. -/
def State.sealReq (s : State) (sg ptr : Nat) : Except Nat SealReq :=
  let g := s.seg sg
  let b := g.hbmBytes ptr 64
  let n := field b 18 2
  if !g.present 0 ptr 64 then .error rcUnmapped
  else if !zeros b 20 4 || !zeros b 49 7 || field b 16 2 ≥ 4096 || n == 0 || n > 256 || field b 48 1 < 4 || field b 48 1 > 12 then
    .error rcBadRecord
  else if !g.present 0 (ptr + 64) (16 * n) then .error rcUnmapped
  else
    let dest (i : Nat) : Nat := memNat g.hbm (ptr + 64 + 16 * i) 8
    let len (i : Nat) : Nat := memNat g.hbm (ptr + 72 + 16 * i) 8
    let places := (List.range n).map fun i => ({ seg := gaSeg (dest i), off := gaOff (dest i), len := len i } : SealPlace)
    let bundle := field b 0 8
    let ring := field b 40 8
    let head := field b 56 8
    let log2 := field b 48 1
    if !s.inPackage bundle ||
        !((List.range n).all fun i => s.inPackage (dest i) && dest i % regionSize == 0 && len i % regionSize == 0) ||
        !(s.inPackage ring && s.inPackage head && ring % 16 == 0 && head % 4 == 0 && insidePlace places (gaSeg ring) (gaOff ring) (32 * 2 ^ log2) &&
          insidePlace places (gaSeg head) (gaOff head) 4) then .error rcBadRecord
    else if !(places.all fun p => (s.seg p.seg).present 0 p.off p.len) then .error rcUnmapped
    else
      let h := s.seg (gaSeg bundle)
      let fixed := h.hbmBytes (gaOff bundle) 256
      let rcpts := field fixed 2 2
      if !h.present 0 (gaOff bundle) 256 then .error rcUnmapped
      else if field fixed 0 2 != 1 || rcpts == 0 || rcpts > 4096 || field fixed 4 1 < 16 || field fixed 4 1 > 21 || !zeros fixed 5 3 ||
          field fixed 116 1 ≥ 8 || !zeros fixed 117 11 || !zeros fixed 176 80 then .error rcBadRecord
      else
        let r : SealReq :=
          { ctx := BitVec.ofNat 12 (field b 16 2), bundleSeg := gaSeg bundle, bundleOff := gaOff bundle, nonce := (b.drop 24).take 16,
            errSeg := gaSeg ring, errOff := gaOff ring, errLog2 := log2, headSeg := gaSeg head, headOff := gaOff head, places := places,
            hdr := h.hbmBytes (gaOff bundle) (256 + 64 * rcpts) }
        if !((List.range rcpts).all fun i => zeros r.hdr (256 + 64 * i + 8) 8) || field b 8 8 != r.length ||
            (places.foldl (fun n p => n + p.len) 0) < r.payload then .error rcBadRecord
        else if !h.present 0 r.bundleOff r.length then .error rcUnmapped
        else .ok r

/-- The policy of a bundle on one segment (R522 step 3). In transition the incoming steward's SVN counts too. -/
def Segment.policyOk (g : Segment) (r : SealReq) : Bool :=
  let sv := field r.hdr 114 2
  let want := (r.hdr.drop 128).take 48
  let moving := g.boot.incoming.isSome
  let incomingOk := match g.boot.update with | some u => sv ≤ g.imgSvn (g.stewardAt u.image) | none => true
  field r.hdr 112 2 ≤ g.fld F.KPR_STATE_KEEPER_SVN && sv ≤ g.fld F.KPR_STATE_STEWARD_SVN && (!moving || incomingOk) &&
  (!r.policy.testBit 0 || g.straps.secure) && (!r.policy.testBit 1 || !g.debugOn) && (!r.policy.testBit 2 || !moving) &&
  (zeros want 0 48 || want == g.boot.keeperDigest)

/-- The bundle key (R520), or the code of a failure. -/
def State.bundleKey (s : State) (r : SealReq) : Except Nat (List Byte) :=
  let g := s.seg 0
  let dev := g.fld F.KPR_DEVNUM_DEVNUM
  match (List.range r.recipients).find? fun i => field r.hdr (256 + 64 * i) 8 == dev with
  | none => .error rcNotRecipient
  | some i =>
    match g.keyMat 1 2 with
    | none => .error rcNoKey
    | some wrap =>
      let eph := (r.hdr.drop 16).take 96
      match Config.ecdh (wrap.take 48) eph with
      | none => .error rcBadRecord
      | some z =>
        let kek := kdf z (ascii "GYN kek") (bigBytes dev 8 ++ eph) 32
        let ct := (r.hdr.drop (256 + 64 * i + 16)).take 32
        let tag := (r.hdr.drop (256 + 64 * i + 48)).take 16
        let nonce : List Byte := List.replicate 12 0
        if Config.gcmTag kek nonce (r.hdr.take 256) ct == tag then .ok (Config.gcmCrypt kek nonce ct) else .error rcAuthFail

/-- A free CONTEXT slot of a segment. -/
def Segment.freeCtxSlot (g : Segment) : Option Nat := (List.range 64).find? fun n => 8 ≤ n && (g.keySlot n).kind == 0

/-- The context key installed on every segment (R522 step 4); none where a segment has no free slot. -/
def State.installCtx (s : State) (ctx : BitVec 12) (key : List Byte) : Option State :=
  if s.segs.all fun g => g.freeCtxSlot.isSome then
    some (s.modAll fun g => g.writeKey (g.freeCtxSlot.getD 8) { kind := 4, ctx := ctx, material := padTo 48 key })
  else none

/-- The guard-table indices of a place, each with its segment; none for a region beyond the guarded counts. -/
def State.placeRegions (s : State) (p : SealPlace) : List (Nat × Option Nat) :=
  (List.range (p.len / regionSize)).map fun i => (p.seg, (s.seg p.seg).guardIdx 0 (p.off + i * regionSize))

/-- The regions of the places claimed one by one (R522 step 5), or the code of a failure. -/
def State.claimAll (s : State) (ctx : BitVec 12) : List (Nat × Option Nat) → Except Nat State
  | [] => .ok s
  | (sg, idx) :: rest =>
    match idx with
    | none => .error rcDenied
    | some i =>
      if !(s.seg sg).guardHeld i then .error rcUnmapped
      else if ((s.seg sg).guardMem i).getLsbD 31 then .error rcDenied
      else (s.guardPut sg i (sealedWord ctx)).claimAll ctx rest

/-- The segment and offset of a byte of the payload, by the places in order. -/
def placeOf : List SealPlace → Nat → Nat × Nat
  | [], _ => (0, 0)
  | p :: rest, off => if off < p.len then (p.seg, p.off + off) else placeOf rest (off - p.len)

/-- The additional data of a chunk (R519). -/
def chunkAad (hdr : List Byte) (i n : Nat) : List Byte :=
  Config.sha384 hdr ++ bigBytes i 8 ++ [if i + 1 == n then 1 else 0]

/-- Chunk i decrypted into its place (R522 step 6), or the code of a failed tag. -/
def State.sealChunk (s : State) (r : SealReq) (key : List Byte) (i : Nat) : Except Nat State :=
  let size := 2 ^ r.chunkLog2
  let len := min size (r.payload - i * size)
  let h := s.seg r.bundleSeg
  let at_ := r.bundleOff + r.hdr.length + i * (size + 16)
  let ct := h.hbmBytes at_ len
  let nonce := bigBytes i 12
  if Config.gcmTag key nonce (chunkAad r.hdr i r.chunks) ct != h.hbmBytes (at_ + len) 16 then .error rcAuthFail
  else
    let (sg, off) := placeOf r.places (i * size)
    .ok (s.mod sg fun g => g.put 0 off (Config.gcmCrypt key nonce ct))

def State.sealChunks (s : State) (r : SealReq) (key : List Byte) : List Nat → Except Nat State
  | [] => .ok s
  | i :: rest =>
    match s.sealChunk r key i with
    | .ok t => t.sealChunks r key rest
    | .error e => .error e

/-- The bytes of the places beyond the payload written as zero. -/
def State.zeroTail (s : State) : List SealPlace → Nat → State
  | [], _ => s
  | p :: rest, left =>
    let keep := min left p.len
    let s := s.mod p.seg fun g => { g with hbm := memZero g.hbm (p.off + keep) (p.len - keep) }
    s.zeroTail rest (left - keep)

/-- Whether any segment holds a context as resident, sealed or tearing down (R522 step 1). -/
def State.ctxBusy (s : State) (ctx : BitVec 12) : Bool :=
  s.segs.any fun g => ctx == 0 || (g.xlt.resident.any fun r => r.ctx == ctx) || g.sealedCtx ctx || g.kpr.tearing.contains ctx

/-- Steps 4 to 6 of R522 as far as a number of regions and of chunks: the state they leave, or the code with the INFO of the record
raised (0: none). -/
def State.sealPart (s : State) (r : SealReq) (key : List Byte) (regions : List (Nat × Option Nat)) (chunks : Nat) : Except (Nat × Nat) State :=
  match s.installCtx r.ctx (kdf key (ascii "GYN context") (bigBytes r.ctx.toNat 2 ++ r.nonce) 32) with
  | none => .error (rcNoSlot, 0)
  | some s1 =>
    match s1.claimAll r.ctx regions with
    | .error e => .error (e, 0)
    | .ok s2 =>
      match s2.sealChunks r key (List.range chunks) with
      | .error e => .error (e, 2)
      | .ok s3 => .ok s3

/-- The regions of the places of a load, in their order. -/
def State.sealRegions (s : State) (r : SealReq) : List (Nat × Option Nat) := r.places.flatMap s.placeRegions

/-- Steps 4 to 7 of R522: the state with the context sealed, or the code with the INFO of the record raised (0: none). -/
def State.sealSteps (s : State) (r : SealReq) (key : List Byte) : Except (Nat × Nat) State :=
  match s.sealPart r key (s.sealRegions r) r.chunks with
  | .error e => .error e
  | .ok s3 =>
    let s4 := s3.zeroTail r.places r.payload
    if s4.segs.all fun g => g.policyOk r then
      let ring : ErrRing := { ctx := r.ctx, seg := r.errSeg, base := r.errOff, log2 := r.errLog2, headSeg := r.headSeg, head := r.headOff }
      .ok (s4.mod 0 (modKpr fun k => { k with rings := ring :: k.rings.filter fun x => x.ctx != r.ctx }))
    else .error (rcPolicy, 1)

/-- A load that a reset of the keeper's domain broke off (R539): how far it had come is free, and the slot, the regions and the chunks
of the steps it had made stay. One that had failed, or that had not come to step 4, leaves nothing. -/
def State.breakLoad (s : State) (ch : Nat) : State :=
  let n := (Config.freeWord s.freeCtr).toNat
  let t := s.fresh
  let m := (s.seg 0).chan ch
  match s.sealReq 0 m.msgPtr.toNat with
  | .error _ => t
  | .ok r =>
    if n == 0 || s.ctxBusy r.ctx || !(m.sender.any fun ag => ag.ctx == 0 || ag.ctx == r.ctx) || !(s.seg 0).straps.secure ||
        s.segs.any Segment.debugOn || !(s.segs.all fun g => g.policyOk r) then t
    else
      match s.bundleKey r with
      | .error _ => t
      | .ok key =>
        let regions := s.sealRegions r
        match t.sealPart r key (regions.take (n - 1)) (min r.chunks (n - 1 - regions.length)) with
        | .error _ => t
        | .ok u => u

/-- The loads that resets of the keeper's domain broke off. -/
def State.breakLoads (s : State) : State :=
  if (s.seg 0).kpr.broken.isEmpty then s
  else ((s.seg 0).kpr.broken.foldl State.breakLoad s).mod 0 (modKpr fun k => { k with broken := [] })

/-- SEAL_LOAD (R522): taken by segment 0's keeper. A failure leaves the state as it was before steps 4 to 6. -/
def execSealLoad (sg : Fin 8) (ch : Fin 64) (s : State) : Out :=
  onSeg sg s fun s => s.serve13 sg ch 0x6002 fun s ag ptr =>
    let named := BitVec.ofNat 12 (memNat (s.seg sg).hbm (ptr + 16) 2)
    let refused (code : Nat) (info : BitVec 32) (ctx : BitVec 12) : State × Nat :=
      (if info == 0 then s else s.mod sg fun g => g.keeperFault s.tick info (some ctx), code)
    if sg.val != 0 || !(ag.ctx == 0 || ag.ctx == named) then (s, rcDenied)
    else
      match s.sealReq sg ptr with
      | .error e => (s, e)
      | .ok r =>
        if s.ctxBusy r.ctx then (s, rcState)
        else if !(s.seg 0).straps.secure || s.segs.any Segment.debugOn then (s, rcDenied)
        else
          match s.bundleKey r with
          | .error e => refused e (if e == rcNotRecipient || e == rcAuthFail then 1 else 0) r.ctx
          | .ok key =>
            if !(s.segs.all fun g => g.policyOk r) then refused rcPolicy 1 r.ctx
            else
              match s.sealSteps r key with
              | .error (e, info) => refused e (BitVec.ofNat 32 info) r.ctx
              | .ok t => (t.mod 0 fun g => g.bump F.KPR_COUNT_LOADS, rcOk)

/-! ## Teardown (R529) -/

/-- The contexts whose teardown waits for an eviction on a segment, changed. -/
def Segment.modKprTear (g : Segment) (f : List (BitVec 12) → List (BitVec 12)) : Segment := modKpr (fun k => { k with tearing := f k.tearing }) g

/-- Step 2 of R529: disarm of every seal slot bound to the context, and the end of a fence for it (R542). -/
def Segment.disarmCtx (g : Segment) (ctx : BitVec 12) : Segment :=
  let g := { g with ports := g.ports.map fun q =>
    (q.slots.filter fun x => x.ctx == ctx).foldl (fun (q : Port) x => q.disarm x.n) q }
  if g.fld F.KPR_FENCE_CTX == ctx.toNat then g.setFld F.KPR_FENCE_SHARE 0 else g

/-- Step 6 of R529: what the caches of a segment hold of a context. -/
def Segment.forgetCtx (g : Segment) (ctx : BitVec 12) : Segment :=
  { g with
    xlt := { g.xlt with cache := g.xlt.cache.filter (fun x => x.ctx != ctx), guards := g.xlt.guards.filter fun x => x.2.truncate 12 != ctx }
    cores := g.cores.map fun k => if k.lastCtx == some ctx then { k with icache := [] } else k }

/-- Steps 2 to 6 of R529 on a segment. -/
def State.sealFinish (s : State) (sg : Nat) (ctx : BitVec 12) : State :=
  let s := s.mod sg fun g => g.disarmCtx ctx
  let mine := (s.seg sg).sealedRegions ctx
  let s := mine.foldl (fun (s : State) i => s.mod sg fun g => g.zeroRegion i) s
  let g := s.seg sg
  let inRegion (x : AtomLine) : Bool :=
    mine.any fun i => (g.regionAt i).1 == x.space && (g.regionAt i).2 ≤ x.addr && x.addr < (g.regionAt i).2 + regionSize
  let s := mine.foldl (fun (s : State) i => s.guardPut sg i ((s.seg sg).guardMem i &&& 0x7FFFFFFF)) s
  s.mod sg fun g =>
    let g := (List.range 64).foldl (fun (g : Segment) n =>
      if (g.keySlot n).kind == 4 && (g.keySlot n).ctx == ctx then g.writeKey n {} else g) g
    let g := { g with txn := { g.txn with atoms := g.txn.atoms.filter fun x => !inRegion x } }
    (g.forgetCtx ctx).modKprTear fun l => l.filter fun c => c != ctx

/-- A teardown that waits for no segment is answered. -/
def State.sealSettle (s : State) : State :=
  let busy (c : BitVec 12) : Bool := s.segs.any fun g => g.kpr.tearing.contains c
  s.modAll fun g =>
    let (wait, ended) := g.kpr.awaiting.partition fun x => busy x.1
    ended.foldl (fun (g : Segment) x =>
      match x.2 with
      | some ch => g.keeperAck ch rcOk
      | none => modKpr (fun k => { k with answer := .message true }) g) (modKpr (fun k => { k with awaiting := wait }) g)

/-- A sealed context torn down on every segment: at once where it is not resident, else once its eviction has ended. -/
def State.sealTeardown (s : State) (ctx : BitVec 12) : State :=
  let s := (List.range s.n).foldl (fun (s : State) k =>
    let g := s.seg k
    match g.xlt.resident.find? fun r => r.ctx == ctx with
    | none => s.sealFinish k ctx
    | some r =>
      let s := if r.evicting then s else s.teardown k ctx
      s.mod k fun g => g.modKprTear fun l => if l.contains ctx then l else ctx :: l) s
  s.sealSettle

/-- The channels of segment 0 on which a SEAL_LOAD of a context is in progress: its request is TAKEN, and nothing refuses it at once
(R522, R537). -/
def State.loading (s : State) (ctx : BitVec 12) : List Nat :=
  let g := s.seg 0
  (List.range 64).filter fun ch =>
    let m := g.chan ch
    m.st == .taken && !m.lost && m.notice == 0x6002 && g.recvClass ch == 0 && !s.ctxBusy ctx &&
    BitVec.ofNat 12 (memNat g.hbm (m.msgPtr.toNat + 16) 2) == ctx && m.sender.any fun ag => ag.ctx == 0 || ag.ctx == ctx

/-- The loads of a context that is torn down stop: what they have done is undone, and they are answered STATE (R537). -/
def State.stopLoads (s : State) (ctx : BitVec 12) : State :=
  (s.loading ctx).foldl (fun (s : State) ch => s.mod 0 fun g => g.keeperAck ch rcState) s

/-- A teardown asked for on a channel of a segment, or by the management port of segment 0: refused where no segment holds the
context as sealed and no load of it is in progress, or a segment tears it down already. -/
def State.askTeardown (s : State) (sg : Nat) (ctx : BitVec 12) (ch : Option Nat) : Option State :=
  let none_ : Bool := !(s.segs.any fun g => g.sealedCtx ctx) && (s.loading ctx).isEmpty
  if none_ || s.segs.any fun g => g.kpr.tearing.contains ctx then none
  else some (((s.stopLoads ctx).mod sg (modKpr fun k => { k with awaiting := k.awaiting ++ [(ctx, ch)] })).sealTeardown ctx)

/-- SEAL_TEARDOWN (R529). -/
def execSealTeardown (sg : Fin 8) (ch : Fin 64) (s : State) : Out :=
  onSeg sg s fun s =>
    match s.keeperReq sg ch 0x6003 with
    | none => s
    | some (ag, ptr) =>
      let g := s.seg sg
      let n := memNat g.hbm ptr 2
      let ctx := BitVec.ofNat 12 n
      let refuse (code : Nat) : State := s.mod sg fun g => g.keeperAck ch code
      if !g.present 0 ptr 2 then refuse rcUnmapped
      else if !(ag.ctx == 0 || ag.ctx == ctx) then refuse rcDenied
      else if n ≥ 4096 then refuse rcBadRecord
      else (s.askTeardown sg ctx (some ch.val)).getD (refuse rcState)

/-! ## GUARD_SET (R523) -/

/-- The code of an entry of a GUARD_SET record for a sender, 0 where it may be set. -/
def Segment.guardEntry (g : Segment) (ag : Agent) (e : Nat) : Nat :=
  let w := BitVec.ofNat 32 e
  let owner : BitVec 12 := w.truncate 12
  match g.guardIdx (e / 2 ^ 58 % 4) (e / 2 ^ 32 % 2 ^ 26 * regionSize) with
  | none => rcBadRecord
  | some i =>
    let now := g.guardMem i
    if e ≥ 2 ^ 60 || e / 2 ^ 12 % 2 ^ 14 != 0 then rcBadRecord
    else if !g.guardHeld i then rcUnmapped
    else if ag.ctx == 0 then
      if w.getLsbD 30 || (now.getLsbD 31 && now.getLsbD 30) || (w.getLsbD 28 && g.sealedCtx owner) then rcDenied else rcOk
    else if g.sealedCtx ag.ctx && owner == ag.ctx && !now.getLsbD 31 then rcOk
    else rcDenied

/-- An entry set: a region claimed by a sealed context is zeroed before its guard word. -/
def State.guardApply (s : State) (sg : Nat) (ag : Agent) (e : Nat) : State :=
  match (s.seg sg).guardIdx (e / 2 ^ 58 % 4) (e / 2 ^ 32 % 2 ^ 26 * regionSize) with
  | none => s
  | some i =>
    if ag.ctx == 0 then s.guardPut sg i (BitVec.ofNat 32 e)
    else (s.mod sg fun g => g.zeroRegion i).guardPut sg i (sealedWord ag.ctx)

/-- GUARD_SET (R523): every entry is checked before any is set. The spec does not say how many entries a record holds: a free
value, at least 1. -/
def execGuardSet (sg : Fin 8) (ch : Fin 64) (s : State) : Out :=
  onSeg sg s fun s => s.serve13 sg ch 0x6004 fun s ag ptr =>
    let g := s.seg sg
    let n := 1 + (Config.freeWord s.freeCtr).toNat
    let s := s.fresh
    if !g.present 0 ptr (8 * n) then (s, rcUnmapped)
    else
      let es := (List.range n).map fun i => memNat g.hbm (ptr + 8 * i) 8
      let code := es.foldl (fun c e => if c != 0 then c else g.guardEntry ag e) 0
      if code != 0 then (s, code) else (es.foldl (fun (s : State) e => s.guardApply sg ag e) s, rcOk)

/-! ## SEAL_ARM_LINKS (R524) -/

/-- The ports of a segment armed for a slot; whether any was refused. -/
def Segment.armPorts (g : Segment) (tick slot : Nat) (ctx : BitVec 12) (mask : Nat) : Segment × Bool :=
  (List.range 6).foldl (fun (x : Segment × Bool) p =>
    if mask.testBit p then
      let (g, bad) := x.1.sealArm tick p slot ctx
      (g, x.2 || bad)
    else x) (g, false)

/-- The serial recorded in the CONTEXT slot and in KPR_SEAL_SERIAL. -/
def Segment.recordSerial (g : Segment) (ctx : BitVec 12) (serial : Word) : Segment :=
  let g := (List.range 64).foldl (fun (g : Segment) n =>
    if (g.keySlot n).kind == 4 && (g.keySlot n).ctx == ctx && !(g.keySlot n).lost then (g.modKey n fun k => { k with serial := serial }).critWrite (8 + n)
    else g) g
  g.setReg 0x40018 serial

/-- SEAL_ARM_LINKS (R524, R540). -/
def execSealArmLinks (sg : Fin 8) (ch : Fin 64) (s : State) : Out :=
  onSeg sg s fun s => s.serve13 sg ch 0x6005 fun s ag ptr =>
    let g := s.seg sg
    let b := g.hbmBytes ptr 24
    let ctx := BitVec.ofNat 12 (field b 0 2)
    let slot := field b 2 1
    let serial := field b 8 8
    let mask (k : Nat) : Nat := field b (16 + k) 1
    if !g.present 0 ptr 24 then (s, rcUnmapped)
    else if !(ag.ctx == 0 || ag.ctx == ctx) then (s, rcDenied)
    else if field b 0 2 ≥ 4096 || slot == 0 || slot > 63 || !zeros b 3 5 ||
        !((List.range 8).all fun k => mask k < 64 && (k < s.n || mask k == 0)) then (s, rcBadRecord)
    else
      match g.kpr.slots.find? fun k => k.kind == 4 && k.ctx == ctx with
      | none =>
        let s := (List.range s.n).foldl (fun (s : State) k => s.mod k fun g => (g.armPorts s.tick slot ctx (mask k)).1) s
        (s, rcState)
      | some k =>
        if k.lost then (s, rcNoKey)
        else if serial ≤ k.serial.toNat then (s, rcSerial)
        else
          let s := s.modAll fun g => g.recordSerial ctx (BitVec.ofNat 64 serial)
          (List.range s.n).foldl (fun (x : State × Nat) k =>
            let (g, bad) := (x.1.seg k).armPorts s.tick slot ctx (mask k)
            (x.1.setSeg k g, if bad then rcState else x.2)) (s, rcOk)

/-! ## HOST_COPY (R527, R541) -/

/-- The nonce of a page. -/
def pageNonce (material : List Byte) (seq : Nat) : List Byte := (material.drop 32).take 4 ++ bigBytes seq 8

/-- The additional data of a page. -/
def pageAad (dir local_ : Nat) : List Byte := natBytes dir 1 ++ bigBytes local_ 8

/-- Pages moved from the bounce buffer into memory until a tag fails: the pages left, the page's index. -/
def Segment.hostPages (g : Segment) (material data tags : List Byte) (seq addr : Nat) : Nat → Nat → Segment × Nat
  | 0, i => (g, i)
  | k + 1, i =>
    let nonce := pageNonce material (seq + i)
    let ct := padTo 4096 (data.drop (4096 * i))
    let tag := padTo 16 (tags.drop (16 * i))
    if Config.gcmTag (material.take 32) nonce (pageAad 0 (addr + 4096 * i)) ct != tag then (g, i)
    else
      (g.put (gaSpace addr) (gaOff addr + 4096 * i) (Config.gcmCrypt (material.take 32) nonce ct)).hostPages material data tags seq addr k (i + 1)

/-- Whether a range lies in regions sealed to a context (R527). -/
def Segment.ownsSealed (g : Segment) (ctx : BitVec 12) (space off len : Nat) : Bool :=
  len == 0 || (List.range ((off + len - 1) / regionSize + 1 - off / regionSize)).all fun i =>
    match g.guardIdx space ((off / regionSize + i) * regionSize) with
    | some k => let w := g.guardMem k; w.getLsbD 31 && w.getLsbD 30 && w.truncate 12 == ctx
    | none => false

def Segment.keySerial (g : Segment) (n serial : Nat) : Segment :=
  (g.modKey n fun k => { k with serial := BitVec.ofNat 64 serial }).critWrite (8 + n)

/-- Pages on their way to the host, encrypted, and their tags. -/
def Segment.pagesOut (g : Segment) (material : List Byte) (seq addr n : Nat) : List Byte × List Byte :=
  (List.range n).foldl (fun (x : List Byte × List Byte) i =>
    let nonce := pageNonce material (seq + i)
    let ct := padTo 4096 (Config.gcmCrypt (material.take 32) nonce (memBytes (g.mem (gaSpace addr)) (gaOff addr + 4096 * i) 4096))
    (x.1 ++ ct, x.2 ++ padTo 16 (Config.gcmTag (material.take 32) nonce (pageAad 1 (addr + 4096 * i)) ct))) ([], [])

/-- HOST_COPY (R527): the data and tags of the bounce buffer, which lies in host memory outside the block, come with the command;
those that go to the host leave the block as `Kpr.outData` and `Kpr.outTags`. -/
def execHostCopy (sg : Fin 8) (ch : Fin 64) (data tags : List Byte) (s : State) : Out :=
  onSeg sg s fun s => s.serve13 sg ch 0x6007 fun s ag ptr =>
    let g := s.seg sg
    let b := g.hbmBytes ptr 64
    let addr := field b 16 8
    let len := field b 32 4
    let dir := field b 36 1
    let n := len / 4096
    if !ag.isHost then (s, rcDenied)
    else if !g.present 0 ptr 64 then (s, rcUnmapped)
    else if field b 0 8 % 4096 != 0 || field b 8 8 % 16 != 0 || addr % 4096 != 0 || !g.owns addr || len % 4096 != 0 || len > 2 ^ 26 || dir > 1 ||
        !zeros b 37 27 then (s, rcBadRecord)
    else
      match g.keyMat (6 + dir) 5 with
      | none => (s, rcNoKey)
      | some material =>
        let k := g.keySlot (6 + dir)
        if (g.ctxKey k.ctx).isNone && g.sealedCtx k.ctx then (s, rcNoKey)
        else if !g.present (gaSpace addr) (gaOff addr) len then (s, rcUnmapped)
        else if !g.ownsSealed k.ctx (gaSpace addr) (gaOff addr) len then (s, rcDenied)
        else if dir == 0 then
          let seq := field b 24 8
          if seq ≤ k.serial.toNat then (s, rcSerial)
          else
            let (g, done) := g.hostPages material data tags seq addr n 0
            let g := if done == 0 && n != 0 then g else g.keySerial 6 (seq + done - 1)
            if done == n then (s.setSeg sg g, rcOk) else (s.setSeg sg (g.keeperFault s.tick 3 (some k.ctx)), rcAuthFail)
        else
          let seq := k.serial.toNat + 1
          let (pages, tags) := g.pagesOut material seq addr n
          let g := modKpr (fun k => { k with outData := pages, outTags := tags }) g
          (s.setSeg sg ((g.put 0 (ptr + 24) (natBytes seq 8)).keySerial 7 (k.serial.toNat + n)), rcOk)

/-! ## FENCE_LANE (R532, R542) -/

/-- FENCE_LANE: frame times reserved on the segment's ports for one sealed context. -/
def execFenceLane (sg : Fin 8) (ch : Fin 64) (s : State) : Out :=
  onSeg sg s fun s => s.serve13 sg ch 0x6008 fun s ag ptr =>
    let g := s.seg sg
    let w := memNat g.hbm ptr 4
    if ag.ctx != 0 then (s, rcDenied)
    else if !g.present 0 ptr 4 then (s, rcUnmapped)
    else if w / 2 ^ 12 % 16 != 0 || w / 2 ^ 22 % 64 != 0 then (s, rcBadRecord)
    else if !g.sealedCtx (BitVec.ofNat 12 w) then (s, rcState)
    else (s.setSeg sg (g.setReg 0x40020 (BitVec.ofNat 64 w)), rcOk)

end Sys2Proof.Machine
end

