-- ==== Sys2Proof/Machine/Resets.lean ====
section
/-! DEFINITION. Resets, the boot and live update (R2, R41, R42, R480, R481, R503, R504, R543 to R561). -/

namespace Sys2Proof.Machine

open Sys2Proof

/-! ## Straps (R2, R543, R544) -/

/-- Whether the straps sampled stop the boot (R2, R544). -/
def strapError (l : List Straps) : Bool :=
  match l with
  | [] => true
  | h :: _ =>
    l.any (fun x => x.dieCount == 0 || x.dieCount != h.dieCount || x.secure != h.secure || x.segId.toNat > x.dieCount.toNat) ||
      !decide (l.map Straps.segId).Nodup

/-- The straps in the order of their segments; where a segment's index is missing, as they stand. -/
def sortStraps (l : List Straps) : List Straps :=
  (List.range l.length).filterMap fun k =>
    match l.find? fun x => x.segId.toNat == k with
    | some x => some x
    | none => l[k]?

/-- The straps in force at a segment: the package-scope ones are segment 0's (R544). -/
def inForce (first own : Straps) : Straps :=
  { own with boot := first.boot, secure := first.secure, rampClass := first.rampClass, nodeHi := first.nodeHi }

/-! ## Cold reset (R547, R553) -/

/-- The ports as a reset leaves them (Table 9.4). -/
def portsReset (mask : BitVec 6) : List Port :=
  (List.range 6).map fun p => ({ st := if mask.getLsbD p then .down else .disabled } : Port)

/-- The PC in mask ROM at which the keeper core starts (R553). -/
def romStart : BitVec 32 := 0x10000

/-- The keeper core in mask ROM. -/
def romCores (cores : List Core) : List Core := modAt cores 16 fun k => { k with pc := romStart, st := .running }

/-- A segment right after the release of RST_N_COLD: memories keep their contents, fuses their floors. -/
def Segment.cold (g : Segment) (st sampled : Straps) (err : Bool) : Segment :=
  { straps := st, hbmSize := g.hbmSize, spSize := g.spSize, hbm := g.hbm, sp := g.sp
    cores := romCores (List.replicate 18 {})
    ports := portsReset st.portMask
    boot := { sampled := sampled, strapErr := err, floorK := g.boot.floorK, floorS := g.boot.floorS } }

/-- COLD_RESET (R543, R544, R547): the release of RST_N_COLD at a package whose segments sample these straps. -/
def execColdReset (straps : List Straps) (s : State) : Out :=
  if straps.isEmpty || 8 < straps.length then .next s
  else
    let l := sortStraps straps
    let first := l.headD s.first.straps
    let err := strapError l
    let segs := (List.range l.length).map fun k =>
      let own := l.getD k first
      let old : Segment := if k < s.n then s.seg k else { hbmSize := s.first.hbmSize, spSize := s.first.spSize }
      old.cold (inForce first own) own err
    .next { s with segs := segs, time := 0, inColdReset := false }

/-- RST_N_COLD falls: the package is held in reset until its release (R545, R547). -/
def execColdResetAssert (s : State) : Out := .next { s with inColdReset := true }

/-! ## Warm reset (R546 to R549) -/

/-- The registers a warm reset keeps (R547, Table 14.2): the SEG, FLT and MBX windows; of PWR the pins' images, CLASS, SPREAD, SALT,
HOLD, FLASK_AFTER and STEP_GAP; KPR_DEVNUM, which is not derived again. -/
def keptWarm (off : Nat) : Bool :=
  let w := off / 0x10000
  w == 0 || w == 2 || w == 3 || off == 0x40008 ||
    [0x10000, 0x10008, 0x10040, 0x10050, 0x10058, 0x10068, 0x10070].contains off

/-- What the hamper keeps: remap tables, fences, the places of the critical copies, the loss of CLASS (Table 14.2); a word with fewer
than two copies stays lost (R477). SEG_REPLY_POOL.LINES outside 1,024 to 65,536 acts as the nearer end: DESIGN CHOICE (log 61). -/
def Segment.warmHamper (g old : Segment) : Segment :=
  let g := g.modHmp fun _ =>
    { spares := old.hmp.spares, critHeld := old.hmp.critHeld, odd := old.hmp.odd.filter fun o => o.1 == 5 || 8 ≤ o.1 }
  let g := (List.range 12).foldl (fun (g : Segment) b =>
    let g := g.setFld (F.HMP_BANK_STATUS_SPARES_USED.bank b) (old.hmp.spares.getD b []).length
    if old.bankOpen b then g
    else (g.setFld (F.HMP_BANK_STATUS_STATE.bank b) 3).setBitOf F.HMP_STATUS_FENCED b true) g
  let g := (List.range 3).foldl (fun (g : Segment) c => g.setCritBank c (old.critBank c)) g
  let lost := (if old.critLost 5 then 32 else 0) + (if (old.hmp.critHeld.filter id).length < 2 then 31 else 0)
  let g := (g.setFld F.HMP_CRIT_WORD_LOST lost).setFld F.HMP_CRIT_LOST (if lost == 0 then 0 else 1)
  let g := g.setFld F.HMP_CRIT_WORD_DISAGREE (if (old.fld F.HMP_CRIT_WORD_DISAGREE).testBit 5 then 32 else 0)
  let g := g.hmpWarm
  { g with txn := { g.txn with poolLines := max 1024 (min 65536 (g.fld F.SEG_REPLY_POOL_LINES)) } }

/-- A key slot over a warm reset: CONTEXT slots have been emptied by the scrub, HOST slots are emptied. -/
def KeySlot.warm (k : KeySlot) : KeySlot := if k.kind == 1 || k.kind == 2 || k.kind == 3 then k else {}

/-- A segment over a warm reset (Table 14.2). -/
def Segment.warm (g : Segment) (tick : Nat) : Segment :=
  let new : Segment :=
    { straps := g.straps, hbmSize := g.hbmSize, spSize := g.spSize, hbm := g.hbm, sp := g.sp, acc := g.acc
      regs := g.regs.filter fun r => keptWarm r.1
      bridge := g.bridge.map fun e =>
        ({ parityErr := e.parityErr, failLane := e.failLane, lastReset := e.lastReset, resetCount := e.resetCount } : BridgeEnd)
      cores := romCores (g.cores.map fun k => ({ lb := k.lb, lbBad := k.lbBad } : Core))
      ports := portsReset g.straps.portMask
      flt := g.flt
      jtag := g.jtag
      tel := { live := g.tel.live, energy10 := g.tel.energy10 }
      kpr := { slots := g.kpr.slots.map KeySlot.warm, eid := g.kpr.eid, dynAddr := g.kpr.dynAddr }
      pwr := { reqAt := g.pwr.reqAt, timedOut := g.pwr.timedOut, pending := g.pwr.pending, usable := g.pwr.usable,
               windowEnd := (tick / 50 + 1) * 50 }
      boot := { g.boot with update := none, incoming := none, stewardStart := none, triedOther := false, scrub := none, stewardDigest := [] } }
  let new := (new.warmHamper g).setFld F.KPR_STATE_DEBUG (g.fld F.KPR_STATE_DEBUG)
  ((new.setFld F.SEG_BOOT_FAIL 0).setFld F.SEG_BOOT_ACTIVE 0).setFld F.SEG_BOOT_STEWARD_READY 0

/-- The domains of a segment are woken once its PLL has locked. DESIGN CHOICE (log 27): the spec names no wake event for them. -/
def Segment.wakeAll (g : Segment) (tick : Nat) : Segment := (List.range 35).foldl (fun (g : Segment) d => g.wakeDom tick d) g

/-- A strap error: the boot ends at FAILED with FAIL 1, and a record of class STRAP (R2, R553). -/
def Segment.strapFail (g : Segment) (tick : Nat) : Segment :=
  ((g.bootFail 1).setFld F.KPR_STATE_STRAP_ERR 1).raise tick { cls := 1, unit := 0, sev := 3, info := Config.strapWord g.boot.sampled }

/-- The boot after a warm reset goes on at KEEPER_LOAD (R548). -/
def Segment.warmBoot (g : Segment) (tick : Nat) : Segment :=
  let g := g.wakeAll tick
  if g.boot.strapErr then g.strapFail tick else (g.setStage 5).loadImages tick

/-- The segments of a test start their warm reset; one whose PLL is not locked waits for it (R42, R548). -/
def State.warmNow (s : State) (p : Segment → Bool) : State :=
  s.modAll fun g =>
    if !p g then g
    else
      let lost := g.boot.pllLost
      let g := g.warm s.tick
      if lost then g.setStage 0
      else
        let g := { g with boot := { g.boot with pllAt := some (g.boot.pllAt.getD s.time) } }
        g.warmBoot s.tick

/-- The scrub of R549 ends where no segment tears a context down any more. -/
def State.scrubEnd (s : State) : State :=
  if s.segs.any fun g => !g.kpr.tearing.isEmpty then s else s.warmNow fun g => g.boot.scrub.isSome

/-- The contexts sealed anywhere in the package. -/
def State.sealedAll (s : State) : List (BitVec 12) :=
  (s.segs.flatMap fun g => (g.kpr.slots.filter fun k => k.kind == 4).map KeySlot.ctx).eraseDups

/-- A warm reset of the package (R546, R549): in secure mode, after a scrub. -/
def State.warmReset (s : State) : State :=
  if s.first.straps.secure then
    let s := s.modAll fun g => { (g.setStage 10) with boot := { g.boot with scrub := some s.tick } }
    (s.sealedAll.foldl (fun (s : State) c => s.sealTeardown c) s).scrubEnd
  else s.warmNow fun _ => true

/-- Whether a segment takes a warm reset request: STAGE is RUNNING, HALTED or FAILED other than by the scrub's limit (R546, R549), or the
PLL has lost its lock (R42). -/
def Segment.warmOk (g : Segment) : Bool :=
  g.stage == 7 || g.stage == 8 || (g.stage == 9 && g.fld F.SEG_BOOT_FAIL != 5) || (g.boot.pllAt.isNone && g.stage != 0)

/-- WARM_RESET_REQUEST (R546): RST_N_WARM held low at a segment. -/
def execWarmResetRequest (sg : Fin 8) (s : State) : Out :=
  onSeg sg s fun s => if (s.seg sg).warmOk then s.warmReset else s

/-- A warm request written to SEG_RESET, by the keeper (R546, R551). -/
def State.warmWrite (s : State) (sg : Nat) (ag : Agent) (v : Word) : State :=
  if !ag.isKeeper then s.mod sg fun g => g.accessFault s.tick 0 0x310 v
  else if (s.seg sg).warmOk then s.warmReset
  else s

/-- SEG_RESET_WARM (R546). -/
def execSegResetWarm (sg : Fin 8) (ag : Agent) (s : State) : Out :=
  onCtl sg ag s fun s => (s.warmWrite sg ag 1).mod sg fun g => g.answer csOk 0

/-- The error line of a segment is asserted (R42, R549). -/
def Segment.errorLine (g : Segment) : Segment := g.faultIrq 3

/-- SCRUB_LIMIT_EXPIRY (R549): the segment does not reset its domains. -/
def execScrubLimitExpiry (sg : Fin 8) (s : State) : Out :=
  onSeg sg s fun s =>
    let g := s.seg sg
    match g.boot.scrub with
    | none => s
    | some t =>
      if s.tick < t + max 1 (g.fld F.SEG_RESET_SCRUB_LIMIT) then s
      else
        let g := { g with boot := { g.boot with scrub := none } }
        s.setSeg sg (g.bootFail 5).errorLine

/-- CONTEXT_EVICT_DONE (R286, R287, R529, R549): an eviction ends, and with it what waits for it. -/
def execContextEvictDone (sg : Fin 8) (s : State) : Out :=
  onSeg sg s fun s =>
    match s.evictEnd sg with
    | (s, none) => s
    | (s, some c) =>
      if (s.seg sg).kpr.tearing.contains c then
        let s := (s.sealFinish sg c).sealSettle
        if (s.seg sg).boot.scrub.isSome then s.scrubEnd else s
      else s

/-! ## The PLL (R41, R42) -/

/-- PLL_LOCK (R41): the self-test of a cold reset begins, or the boot of a warm reset goes on. -/
def execPllLock (sg : Fin 8) (s : State) : Out :=
  onSeg sg s fun s =>
    let g := s.seg sg
    if g.boot.pllAt.isSome then s
    else if g.stage != 0 then s.setSeg sg { g with boot := { g.boot with pllLost := false } }
    else
      let g := { g with boot := { g.boot with pllAt := some s.time, pllLost := false } }
      s.setSeg sg (if g.fld F.HMP_BIST_DONE == 1 then g.warmBoot s.tick else (g.setStage 1).wakeAll s.tick)

/-- The bridge links of a segment appear down to their partners (R42): what those sent is lost. -/
def State.bridgesLost (s : State) (sg : Nat) : State :=
  [0, 1].foldl (fun (s : State) b =>
    let (t, c) := bridgePartner s.n sg b
    let s := s.mod sg fun g => g.modBend b fun e =>
      ({ st := .down, parityErr := e.parityErr, failLane := e.failLane, lastReset := e.lastReset, resetCount := e.resetCount } : BridgeEnd)
    if t == sg then s
    else
      s.mod t fun g =>
        let e := g.bend c
        let g := g.dropSent s.time e.sent
        let g := g.modBend c fun e =>
          ({ st := .down, parityErr := e.parityErr, failLane := e.failLane, lastReset := e.lastReset, resetCount := e.resetCount } : BridgeEnd)
        g.raise s.tick { cls := 4, unit := 14, sev := 3, index := c, info := e.failLane.zeroExtend 32 }) s

/-- The fast domains of a segment held in reset (R42). -/
def Segment.fastHeld (g : Segment) (tick : Nat) : Segment :=
  let g := g.keeperDown tick
  { g with
    cores := g.cores.map fun k => ({ lb := k.lb, lbBad := k.lbBad } : Core)
    ports := g.ports.map fun q => ({ st := if q.st == .disabled then .disabled else .down } : Port)
    txn := {}, trl := {}, groups := [], stile := [], red := {}, rte := {}, plc := {}
    xlt := { g.xlt with resident := [], reserved := [], cache := [], guards := [], recalls := [], migs := [] }
    hmp := { g.hmp with uses := [] }
    boot := { g.boot with pllAt := none, pllLost := true, stewardStart := none } }

/-- PLL_LOSS_OF_LOCK (R42). -/
def execPllLossOfLock (sg : Fin 8) (s : State) : Out :=
  onSeg sg s fun s =>
    if (s.seg sg).boot.pllAt.isNone then s
    else
      let s := s.mod sg fun g => (g.fastHeld s.tick).raise s.tick { cls := 2, unit := 0, sev := 3 }
      ((s.bridgesLost sg).mod sg fun g => g.errorLine).failRoutes

/-! ## Self-test and mask ROM (R480, R481, R503, R504, R550, R553) -/

/-- A derived scalar of R503. -/
def deriveScalar (seg : Nat) (label : String) : List Byte :=
  bigBytes (bigNat (kdf (Config.fuseSecret seg) (ascii label) (natBytes seg 1) 56) % (Config.curveOrder - 1) + 1) 48

/-- The keys of a segment are derived (R503). -/
def Segment.deriveKeys (g : Segment) : Segment :=
  let id := g.segId.toNat
  (g.writeKey 0 { kind := 1, material := deriveScalar id "GYN identity" }).writeKey 1 { kind := 2, material := deriveScalar id "GYN wrap" }

/-- DEVNUM from segment 0's identity public key (R504). -/
def Segment.devnum (g : Segment) : Nat :=
  bigNat ((Config.sha384 (Config.ecPublic (((g.keyMat 0 1).getD []).take 48))).take 8)

/-- The failing rows of a bank in the self-test, 512 for the critical row. -/
def failingRows (rows : List (Fin 12 × BitVec 15)) (b : Nat) : List Nat :=
  ((rows.filter fun r => r.1.val == b).map fun r => min 512 r.2.toNat).eraseDups

/-- The outcome of the self-test for one bank (R481). -/
def Segment.bistBank (g : Segment) (tick : Nat) (rows : List (Fin 12 × BitVec 15)) (badCheckers : List (Fin 12)) (b : Nat) : Segment :=
  let rs := failingRows rows b
  let bad := badCheckers.any fun c => c.val == b
  let g := if bad then g.raise tick { cls := 26, unit := 9, index := b, info := 1 } else g
  let g := if rs.isEmpty then g else g.raise tick { cls := 26, unit := 9, index := b, info := 3 }
  if bad || 8 < rs.length then
    let g := (g.setFld (F.HMP_BANK_STATUS_STATE.bank b) 3).setBitOf F.HMP_STATUS_FENCED b true
    let g := g.setBitOf F.HMP_BIST_BANK_FAIL b true
    (if bad then g.setBitOf F.HMP_BIST_CHECKER_FAIL b true else g).critRebuild tick b
  else
    (g.modHmp fun h => { h with spares := modAt h.spares b fun _ => rs }).setFld (F.HMP_BANK_STATUS_SPARES_USED.bank b) rs.length

/-- The self-test ends (R481). -/
def Segment.bist (g : Segment) (time : Nat) (rows : List (Fin 12 × BitVec 15)) (badCheckers : List (Fin 12)) (voterBad : Bool) : Segment :=
  let tick := tickOf time
  let g := (List.range 12).foldl (fun (g : Segment) b => g.bistBank tick rows badCheckers b) g
  let g := if voterBad then g.raise tick { cls := 26, unit := 9, sev := 3, info := 2 } else g
  let g := (g.setFld F.HMP_BIST_DONE 1).setFld F.HMP_BIST_PASS (rows.isEmpty && badCheckers.isEmpty && !voterBad).toNat
  let g := (g.setFld F.HMP_BIST_VOTER_FAIL voterBad.toNat).setFld F.HMP_BIST_TICKS (tick - tickOf (g.boot.pllAt.getD time))
  let g := g.hmpWarm
  { g with txn := { g.txn with poolLines := max 1024 (min 65536 (g.fld F.SEG_REPLY_POOL_LINES)) } }

/-- The boot after straps and clearing: HALTED for HALT, else WAIT_IMAGE (R553, R556). -/
def State.romTakes (s : State) (sg : Nat) : State :=
  let s := s.mod sg fun g => g.setStage (if g.bootSource == 3 then 8 else 4)
  s.bootImages sg

/-- SELF_TEST_DONE (R481, R503, R504, R553): the test's outcome, the keys, the straps, and then clearing or images. -/
def execSelfTestDone (sg : Fin 8) (rows : List (Fin 12 × BitVec 15)) (badCheckers : List (Fin 12)) (voterBad : Bool) (s : State) : Out :=
  onSeg sg s fun s =>
    let g := s.seg sg
    if g.stage != 1 || g.boot.pllAt.isNone then s
    else
      let g := ((g.bist s.time rows badCheckers voterBad).setStage 2).deriveKeys
      let s := s.setSeg sg g
      let s := if sg.val == 0 then s.modAll fun h => h.setReg 0x40008 (BitVec.ofNat 64 g.devnum) else s
      if g.boot.strapErr then s.mod sg fun g => g.strapFail s.tick
      else if g.straps.secure then s.mod sg fun g => g.setStage 3
      else s.romTakes sg

/-- MEMORY_CLEAR_DONE (R550): every byte of space 00 and space 01 reads zero. -/
def execMemoryClearDone (sg : Fin 8) (s : State) : Out :=
  onSeg sg s fun s =>
    if (s.seg sg).stage != 3 then s
    else (s.mod sg fun g => { g with hbm := memZero g.hbm 0 g.hbmSize, sp := memZero g.sp 0 g.spSize }).romTakes sg

/-! ## Partial resets (R551, R552, Table 14.4) -/

/-- A lunchbox whose power was lost: every byte and every check is free. -/
def Core.loseLb (k : Core) (ctr : Nat) : Core :=
  { k with lb := memPut [] 0 ((List.range 65536).map fun i => Config.freeByte (ctr + i))
           lbBad := (List.range 8192).filter fun w => Config.freeBool (ctr + 65536 + w) }

/-- A core's lunchbox is lost. -/
def State.loseLb (s : State) (sg c : Nat) : State :=
  { (s.mod sg fun g => g.modCore c fun k => k.loseLb s.freeCtr) with freeCtr := s.freeCtr + 73728 }

/-- The couriers of a quad are reset: each running ticket ends (Table 14.4); each courier counts as having run no ticket (R98). -/
def Segment.quadDown (g : Segment) (cycle q : Nat) : Segment :=
  let g := (List.range 4).foldl (fun (g : Segment) i =>
    let c := 4 * q + i
    match (g.core c).ticket with
    | some n => (g.freeCourier c).endTicket cycle n csAborted 1 0
    | none => g) g
  let g := (List.range 4).foldl (fun (g : Segment) i => g.modCore (4 * q + i) fun k => { k with lastCtx := none, icache := [] }) g
  g.board cycle

/-- Merge entries whose lines lay in a lost bank: their posted writes fail (Table 12.2). Which lines they were is open. -/
def State.mergeLost (s : State) (sg b : Nat) : State :=
  let g := s.seg sg
  let here := (((lookupKey HmpUse.merge g.hmp.uses).getD []).getD b 0) != 0
  if !here then s
  else
    g.txn.merge.foldl (fun (s : State) e =>
      let hit := Config.freeBool s.freeCtr
      let s := s.fresh
      if !hit then s
      else
        s.mod sg fun g =>
          let ids := postsOf e
          let g := { g with txn := { g.txn with merge := g.txn.merge.filter (fun x => x != e), posts := g.txn.posts.filter fun p => !ids.contains p.id } }
          (ids.foldl (fun (g : Segment) _ => g.fenceFail e.ctx csPoison) g).fenceCheck) s

/-- A bank lost while it is unfenced is fenced, and its lines are recovered (Table 14.4). The reason its record carries is open. -/
def State.bankLost (s : State) (sg b : Nat) : State :=
  if !(s.seg sg).bankOpen b then s
  else ((s.mergeLost sg b).fresh).fenceBank sg b ((Config.freeWord s.freeCtr).toNat % 16)

/-! ## What a domain forgets while it is without power (R440, R577, Table 11.1) -/

/-- The bits of a register that its AON copy keeps: those of its RW and KO fields (R577). -/
def keptMask (off : Nat) : Word :=
  match rowAt off with
  | none => BitVec.allOnes 64
  | some r => r.fields.foldl (fun (w : Word) f =>
      if f.acc == .rw || f.acc == .ko then setBits w f.hi f.lo (2 ^ (f.hi + 1 - f.lo) - 1) else w) 0

/-- The registers from `lo` up to `hi` keep what their AON copies hold; every other field reads its reset value. -/
def Segment.forgetRegs (g : Segment) (lo hi : Nat) : Segment :=
  { g with regs := g.regs.map fun (x : Nat × Word) =>
      if lo ≤ x.1 && x.1 < hi then (x.1, (x.2 &&& keptMask x.1) ||| (resetWord g.straps x.1 &&& ~~~keptMask x.1)) else x }

/-- What a sleeping or lost domain forgets beside its work: the router keeps its signposts, its epoch state and RETIRE_LEFT. -/
def Segment.forget (g : Segment) (d : Nat) : Segment :=
  if 3 ≤ d && d ≤ 6 then
    let lo := 0x180000 + (d - 3) * 0x4000
    (List.range 4).foldl (fun (g : Segment) i =>
      g.modCore (4 * (d - 3) + i) fun k => { k with excPc := 0, excOp := 0, excCode := 0, excInfo := 0, epc := 0 })
      (g.forgetRegs lo (lo + 0x4000))
  else if d == domRouter then (g.forgetRegs 0x100000 0x100008).forgetRegs 0x100010 0x110000
  else if d == domReduction then ({ g with red := {} } : Segment).forgetRegs 0x110000 0x120000
  else if 21 ≤ d && d ≤ 32 then
    let p := (d - 21) % 6
    let lo := 0x80000 + p * 0x10000
    (g.modPort p fun q => { st := q.st, ft := q.ft, windowEnd := q.windowEnd }).forgetRegs lo (lo + 0x10000)
  else g

/-- What a domain's reset does to its contents (Table 14.4); `lost` where its kept state is lost as well (R437). -/
def State.domainDown (s : State) (sg d : Nat) (lost : Bool) : State :=
  if d == domKeeper then
    let s := s.mod sg fun g => (g.modCore 16 Core.resetState).keeperDown s.tick
    if lost then s.loseLb sg 16 else s
  else if d == domSteward then
    let s := s.mod sg fun g => g.modCore 17 Core.resetState
    if lost then s.loseLb sg 17 else s
  else if 3 ≤ d && d ≤ 6 then
    let s := s.mod sg fun g => (g.quadDown s.time (d - 3)).forget d
    (List.range 4).foldl (fun (s : State) i => s.loseLb sg (4 * (d - 3) + i)) s
  else if d == domReduction then
    s.mod sg fun g =>
      ({ g with groups := g.groups.map fun (x : Grp) =>
        { x with head := x.head.map fun h => { h with chk := h.chk.map fun k => { k with stepEnd := none, sum := none } } } } : Segment).forget d
  else if 9 ≤ d && d ≤ 20 then (if lost then s.bankLost sg (d - 9) else s)
  else if 21 ≤ d && d ≤ 32 then
    let p := (d - 21) % 6
    let q := (s.seg sg).port p
    let s := if q.st == .down || q.st == .disabled then s else (s.mod sg fun g => g.portDown s.time p).failRoutes
    s.mod sg fun g => g.forget d
  else if d == domRouter then s.mod sg fun g => g.forget d
  else s

/-- The keeper starts again after a reset of its domain (R557, R561). -/
def Segment.keeperUp (g : Segment) (tick : Nat) : Segment :=
  let g := if g.fld F.SEG_BOOT_KEEPER_NEXT == 1 then
      let g := g.setFld F.SEG_BOOT_KEEPER_NEXT 0
      if g.imgOk 1 g.incomingAt then { g with hbm := memCopy g.hbm g.bootBase g.hbm g.incomingAt (65536 + g.imgLength g.incomingAt) }
      else g.keeperFault tick 10 none
    else g
  if g.imgOk 1 g.bootBase then g.startKeeper tick g.bootBase else g.bootFail 2

/-- A domain whose power has come back after a partial reset restarts (R551, Table 14.4). -/
def Segment.domainUp (g : Segment) (tick d : Nat) : Segment :=
  if d == domKeeper then g.keeperUp tick
  else if d == domSteward then
    (if g.fld F.SEG_BOOT_ACTIVE != 0 then g.modCore 17 fun k => k.restart g.boot.stewardEntry.toNat else g)
  else g

/-- Whether a partial reset of a domain may be asked for through SEG_RESET (Table 14.4). -/
def Segment.partialOk (g : Segment) (d : Nat) : Bool :=
  (1 ≤ d && d ≤ 6) || d == domReduction || (9 ≤ d && d ≤ 20 && g.bankState (d - 9) == 3) ||
  (21 ≤ d && d ≤ 32 && ((g.port ((d - 21) % 6)).st == .down || (g.port ((d - 21) % 6)).st == .disabled))

/-- A partial reset starts (R551). -/
def State.partialReset (s : State) (sg d : Nat) : State := (s.domainDown sg d false).mod sg fun g => g.cycleDom s.tick d

/-- A write of CMD PARTIAL to SEG_RESET (R551). -/
def State.partialWrite (s : State) (sg : Nat) (ag : Agent) (d : Nat) (v : Word) : State :=
  if !(ag.cls == .keeper || ag.cls == .steward) || !(s.seg sg).partialOk d then s.mod sg fun g => g.accessFault s.tick 0 0x310 v
  else s.partialReset sg d

/-- PARTIAL_RESET (R551, R552). -/
def execPartialReset (sg : Fin 8) (ag : Agent) (domain : BitVec 6) (s : State) : Out :=
  onCtl sg ag s fun s =>
    (s.partialWrite sg ag domain.toNat (BitVec.ofNat 64 (domain.toNat * 256 + 2))).mod sg fun g => g.answer csOk 0

/-! ## The steward's start (R558, R560) -/

/-- A steward update ends with an answer: transition ends and dispatch resumes. -/
def Segment.updateEnd (g : Segment) (u : StewardUpd) (code : Nat) : Segment :=
  let g := { g with boot := { g.boot with update := none, incoming := none }, trl := { g.trl with stopUntil := none } }
  g.keeperAck u.ch code

/-- STEWARD_READY is written (R558, R560). -/
def Segment.readyWrite (g : Segment) (tick : Nat) (ag : Agent) : Segment :=
  if ag.cls != .steward then g.accessFault tick 0 0x300 0x80000000
  else
    let g := g.setFld F.SEG_BOOT_STEWARD_READY 1
    if g.boot.stewardStart.isNone then g
    else
      let g := { g with boot := { g.boot with stewardStart := none } }
      let g := if g.stage == 6 then g.setStage 7 else g
      match g.boot.update with
      | some u => if u.started then g.updateEnd u rcOk else g
      | none => g

/-- STEWARD_READY (R558). -/
def execStewardReady (sg : Fin 8) (ag : Agent) (s : State) : Out :=
  onCtl sg ag s fun s => s.mod sg fun g => (g.readyWrite s.tick ag).answer csOk 0

/-- The other steward image is started, or the boot ends at FAILED with FAIL 4 (R558). -/
def Segment.otherSteward (g : Segment) (tick : Nat) : Segment :=
  let other := 3 - g.fld F.SEG_BOOT_ACTIVE
  if !g.boot.triedOther && g.imgOk 2 (g.stewardAt other) then
    let g := g.startSteward tick other
    { g with boot := { g.boot with triedOther := true } }
  else { (g.bootFail 4) with boot := { g.boot with stewardStart := none } }

/-- STEWARD_READY_TIMEOUT (R558, R560): 5,000,000 ticks after the steward's start. -/
def execStewardReadyTimeout (sg : Fin 8) (s : State) : Out :=
  onSeg sg s fun s =>
    let g := s.seg sg
    match g.boot.stewardStart with
    | none => s
    | some t =>
      if s.tick < t + 5000000 then s
      else
        match g.boot.update with
        | some u =>
          if u.started then
            let g := ((g.updateEnd u rcState).keeperFault s.tick 9 none).startSteward s.tick u.old
            s.setSeg sg { g with boot := { g.boot with triedOther := true } }
          else s.setSeg sg (g.otherSteward s.tick)
        | none => s.setSeg sg (g.otherSteward s.tick)

/-! ## Live update (R559 to R561) -/

/-- The code of an image that is refused. -/
def ImageResult.code : ImageResult → Nat
  | .accepted => rcOk
  | .badRecord => rcBadRecord
  | .authFail => rcAuthFail
  | .policy => rcPolicy

/-- The keeper as an agent of a segment. -/
def Segment.keeperAgent (g : Segment) : Agent := { cls := .keeper, seg := g.segId, ctx := 0 }

/-- The steward's channel of PREPARE: the lowest the keeper may send on now. -/
def Segment.prepareChan (g : Segment) : Option Nat :=
  (List.range 64).find? fun ch =>
    g.recvClass ch == 1 && g.maySend ch 0 && ((g.chan ch).st == .empty || (g.chan ch).st == .acked || (g.chan ch).st == .timeout)

/-- STEWARD_UPDATE (R559, R560 steps 1 and 2). -/
def execStewardUpdate (sg : Fin 8) (ch : Fin 64) (s : State) : Out :=
  onSeg sg s fun s =>
    match s.keeperReq sg ch 0x6009 with
    | none => s
    | some (ag, ptr) =>
      let g := s.seg sg
      let b := g.hbmBytes ptr 8
      let image := field b 0 1
      let refuse (code : Nat) : State := s.setSeg sg (g.keeperAck ch code)
      if ag.ctx != 0 then refuse rcDenied
      else if !g.present 0 ptr 8 then refuse rcUnmapped
      else if !(image == 1 || image == 2) || !zeros b 1 7 then refuse rcBadRecord
      else if image == g.fld F.SEG_BOOT_ACTIVE then refuse rcState
      else
        let r := g.imgCheck 2 (g.stewardAt image)
        if r != .accepted then refuse r.code
        else
          match g.prepareChan with
          | none => refuse rcState
          | some pc =>
            let u : StewardUpd := { ch := ch.val, image := image, old := g.fld F.SEG_BOOT_ACTIVE, prepCh := pc }
            let g := { g with boot := { g.boot with update := some u, incoming := some (g.imgDigest (g.stewardAt image)) } }
            s.setSeg sg (g.notify s.tick pc g.keeperAgent 0 0x7001)

/-- The update of a segment as its PREPARE stands: abandoned once the notice has timed out or is acknowledged with another code than 0;
once it is acknowledged with 0 and the steward has halted, dispatch stops and the new image is started (R560 steps 2 to 4). -/
def Segment.prepareStep (g : Segment) (tick : Nat) : Segment :=
  match g.boot.update with
  | none => g
  | some u =>
    let m := g.chan u.prepCh
    if u.started then g
    else if m.st == .timeout || (m.st == .acked && m.code != 0) then g.updateEnd u rcState
    else if m.st == .acked && (g.core 17).st == .asleep then
      let g := { g with trl := { g.trl with stopUntil := some (tick + 10000) }, boot := { g.boot with update := some { u with started := true } } }
      ((g.modCore 17 Core.resetState).startSteward tick u.image).wakeDom tick domSteward
    else g

/-- PREPARE (R560). -/
def execPrepare (sg : Fin 8) (s : State) : Out := onSeg sg s fun s => s.mod sg fun g => g.prepareStep s.tick

/-- DISPATCH_RESUME_LIMIT (R560). -/
def execDispatchResumeLimit (sg : Fin 8) (s : State) : Out :=
  onSeg sg s fun s => s.mod sg fun g =>
    match g.trl.stopUntil with
    | some t => if t ≤ s.tick then { g with trl := { g.trl with stopUntil := none } } else g
    | none => g

/-- MAILBOX_TIMEOUT (R567, R560): a channel FULL for its TIMEOUT ticks; an update that waits for PREPARE's acknowledgement is abandoned. -/
def execMailboxTimeout (sg : Fin 8) (ch : Fin 64) (s : State) : Out :=
  onSeg sg s fun s => s.mod sg fun g =>
    let g := g.mailTimeout s.tick ch
    match g.boot.update with
    | some u => if u.prepCh == ch.val && !u.started && (g.chan ch).st == .timeout then g.updateEnd u rcState else g
    | none => g

/-- KEEPER_UPDATE (R559, R561 steps 1 and 2). -/
def execKeeperUpdate (sg : Fin 8) (ch : Fin 64) (s : State) : Out :=
  onSeg sg s fun s =>
    match s.keeperReq sg ch 0x600A with
    | none => s
    | some (ag, ptr) =>
      let g := s.seg sg
      let refuse (code : Nat) : State := s.setSeg sg (g.keeperAck ch code)
      if ag.ctx != 0 then refuse rcDenied
      else if !g.present 0 ptr 8 then refuse rcUnmapped
      else if !zeros (g.hbmBytes ptr 8) 0 8 then refuse rcBadRecord
      else
        let r := g.imgCheck 1 g.incomingAt
        if r != .accepted then refuse r.code
        else (s.setSeg sg ((g.setFld F.SEG_BOOT_KEEPER_NEXT 1).keeperAck ch rcOk)).partialReset sg domKeeper

end Sys2Proof.Machine
end

