-- ==== Sys2Proof/Machine/PowerSteps.lean ====
section
/-! DEFINITION. The wake controller, the governor, kettle hold and the pacing logic (R435 to R462). -/

namespace Sys2Proof.Machine

open Sys2Proof

/-! ## The estimate (R443, Table 11.2), in 1/64 mW -/

/-- PMAX, in mW. -/
def pMax : Nat := 46021

/-- The lane rate of a port by LNE_CFG.RATE (Table 10.1), in 1/64 of 128 Gbit/s. -/
def rate64 (rate : Nat) : Nat := if rate == 0 then 64 else if rate == 1 then 32 else if rate == 2 then 16 else 0

/-- The power of a lane in a state, in mW. -/
def LanePwr.mw : LanePwr → Nat
  | .notTrained => 0
  | .active | .kettle => 224
  | .doze => 90
  | .flask => 4

/-- The lanes of a direction in use: those of the width, the spare and the one under calibration; all nine in training. -/
def Port.lanesOf (q : Port) (spare cal : Nat) : Nat :=
  if q.st == .training then 9 else q.width + (if spare < 15 then 1 else 0) + (if cal < 15 then 1 else 0)

def Port.laneMw (q : Port) (p : LanePwr) : Nat := if q.st == .training then 224 else p.mw

/-- The lane term of a port: both directions at this end. -/
def Segment.lane64 (g : Segment) (p : Nat) : Nat :=
  let q := g.port p
  let tx := if g.pwrReq (domTx p) then q.lanesOf q.spareTx q.calTx * q.laneMw q.txPwr else 0
  let rx := if g.pwrReq (domRx p) then q.lanesOf q.spareRx q.calRx * q.laneMw q.rxPwr else 0
  (tx + rx) * rate64 (g.fld (F.LNE_CFG_RATE.port p))

/-- Whether a domain counts as awake (R443): from the rise of PWR_REQ until the fall of PWR_ACK. -/
def Segment.counts (g : Segment) (d : Nat) : Bool := g.pwrReq d || g.pwrAck d

/-- The static term of a domain beside its lanes, in mW. -/
def Segment.domMw (g : Segment) (d : Nat) : Nat :=
  if d == 0 then 120
  else if 9 ≤ d && d ≤ 20 then (if g.counts d then 150 else 19)
  else if !g.counts d then 0
  else if d == 1 || d == 2 then 150
  else if 3 ≤ d && d ≤ 6 then
    600 + 400 * ((List.range 4).filter fun i => (g.core (4 * (d - 3) + i)).ticket.isSome).length
  else if d == 7 then 2500
  else if d == 8 then 300
  else if d == 33 then 600
  else if d == 34 then 520
  else 0

/-- The static terms of a segment. -/
def Segment.static64 (g : Segment) : Nat :=
  (List.range 35).foldl (fun n d => n + 64 * g.domMw d) 0 + (List.range 6).foldl (fun n p => n + g.lane64 p) 0

/-! ## The ramp (R444, R445, R461) -/

/-- CLASS in force: class 3 while the word is lost (Table 12.3). -/
def Segment.rampClass (g : Segment) : Nat := if g.critLost 5 then 3 else g.fld F.PWR_RAMP_CLASS

/-- The slope in force, in 1/64 mW per window. -/
def Segment.slope64 (g : Segment) : Nat := slopeOf g.rampClass (g.straps.dieCount.toNat + 1)

/-- CLASS and SLOPE written. -/
def Segment.setClass (g : Segment) (c : Nat) : Segment :=
  ((g.setFld F.PWR_RAMP_CLASS c).setFld F.PWR_RAMP_SLOPE (slopeOf c (g.straps.dieCount.toNat + 1))).critWrite 5

/-- A write of PWR_RAMP: CLASS is the keeper's (R444). -/
def Segment.rampWrite (g : Segment) (tick : Nat) (ag : Agent) (sz : Sz) (v : Word) : Segment :=
  if !sz.covers 1 0 then g
  else if ag.isKeeper then g.setClass (v.toNat % 4)
  else g.accessFault tick 1 0x10040 v

/-- RAMP_CLASS_WRITE (R444). -/
def execRampClassWrite (sg : Fin 8) (ag : Agent) (sz : Sz) (v : Word) (s : State) : Out :=
  onCtl sg ag s fun s => s.mod sg fun g => (g.rampWrite s.tick ag sz v).answer csOk 0

/-! ## Sleep (R436, R438, R439, R447) -/

/-- Whether nothing of a segment stands on the fabric or the bridge (Table 11.1, router). -/
def Segment.offFabric (g : Segment) : Bool :=
  (List.range 12).all (fun i => !g.counts (21 + i)) && g.txn.tags.isEmpty && g.txn.reqs.isEmpty && g.txn.dptBusy.isEmpty &&
  g.txn.fenceReads.isEmpty && g.ports.all (fun q => q.stage.isEmpty && q.land.isEmpty && q.replay.isEmpty) &&
  g.bridge.all (fun e => e.sent.isEmpty && e.landing.isEmpty) && g.rte.injL.isEmpty && g.rte.injX.isEmpty && g.rte.ejX.isEmpty

/-- Whether a step of the reduction array waits or runs. -/
def Segment.redBusy (g : Segment) : Bool :=
  g.groups.any fun x => match x.head with
    | some h => h.op.d.isRed && h.chk.any fun k => k.stepEnd.isSome || (k.own.isSome && !k.formed)
    | none => false

/-- Whether the range unit holds nothing (Table 11.1). -/
def Segment.rangeIdle (g : Segment) : Bool :=
  g.trl.trails.isEmpty && g.trl.fifo.isEmpty && g.trl.tickets.isEmpty && g.trl.descs.isEmpty && g.xlt.recalls.isEmpty && g.xlt.migs.isEmpty &&
  g.plc.moves.isEmpty && g.plc.replicas.isEmpty && g.plc.copies.isEmpty && g.plc.homing.isEmpty && g.groups.isEmpty && g.xlt.resident.isEmpty

/-- The condition under which a domain sleeps (Table 11.1). -/
def State.sleepCond (s : State) (sg d : Nat) : Bool :=
  let g := s.seg sg
  if d == 1 then (g.core 16).st == .asleep
  else if d == 2 then (g.core 17).st == .asleep
  else if 3 ≤ d && d ≤ 6 then (List.range 4).all fun i => (g.core (4 * (d - 3) + i)).st == .idle && (g.core (4 * (d - 3) + i)).ticket.isNone
  else if d == 7 || d == 33 then s.segs.all Segment.offFabric
  else if d == 8 then !g.redBusy
  else if 9 ≤ d && d ≤ 20 then g.bankState (d - 9) != 4 && !g.pwr.pending.contains d
  else if 21 ≤ d && d ≤ 32 then
    let q := g.port ((d - 21) % 6)
    q.st == .down || q.st == .disabled
  else if d == 34 then g.rangeIdle
  else false

/-- Whether an awake domain needs a domain (R43). -/
def Segment.needed (g : Segment) (d : Nat) : Bool := (List.range 35).any fun e => (needs e).contains d && g.counts e

/-- Whether PWR_HOLD keeps a domain awake (R439). -/
def Segment.pwrHeld (g : Segment) (d : Nat) : Bool := (g.fld F.PWR_HOLD_HOLD).testBit (d - 1)

/-- The tick at which a domain's sleep became due: its condition has held for SLEEP_IDLE ticks (R439). -/
def State.sleepDue (s : State) (sg d : Nat) : Option Nat :=
  let g := s.seg sg
  let idle := g.fld F.PWR_CTRL_SLEEP_IDLE
  if idle == 0 || d < 3 || !g.awake d || g.pwrHeld d || g.needed d || !s.sleepCond sg d then none
  else
    match lookupKey d g.pwr.idleSince with
    | some t => if t + idle ≤ s.tick then some (t + idle) else none
    | none => none

/-- The idle time of a port reaches a limit at this tick (R452). -/
def Segment.idleFrom (g : Segment) (p : Nat) : Nat := (g.port p).seqTick

/-- HOLD, and FLASK_AFTER as it acts (R452). -/
def Segment.holdTicks (g : Segment) : Nat := g.fld F.PWR_KETTLE_HOLD
def Segment.flaskTicks (g : Segment) : Nat :=
  if g.fld F.PWR_KETTLE_FLASK_AFTER == 0 then 0 else max (g.fld F.PWR_KETTLE_FLASK_AFTER) g.holdTicks

/-- Whether STEP_GAP allows another request now (R452). -/
def Segment.gapOk (g : Segment) (tick : Nat) : Bool :=
  match g.pwr.stepAt with
  | some t => t + max 1 (g.fld F.PWR_KETTLE_GAP_STEP_GAP) ≤ tick
  | none => true

/-- The tick at which a port's Doze became due. -/
def Segment.dozeDue (g : Segment) (tick p : Nat) : Option Nat :=
  let q := g.port p
  let t := g.idleFrom p + g.holdTicks
  if g.holdTicks != 0 && q.st == .active && (q.txPwr == .active || q.txPwr == .kettle) && !q.dozeReq && t ≤ tick && g.gapOk tick then some t
  else none

/-- The tick at which a port's Flask became due. -/
def Segment.flaskDue (g : Segment) (tick p : Nat) : Option Nat :=
  let q := g.port p
  let t := g.idleFrom p + g.flaskTicks
  if g.holdTicks != 0 && g.flaskTicks != 0 && g.fld (F.LNE_CFG_RATE.port p) != 1 && q.st == .active && q.txPwr != .flask && q.flask == 0 &&
      !q.flaskReq && t ≤ tick && g.gapOk tick then some t
  else none

/-- The place of a drop in the order of R447: the window it became due in, domain sleeps before lane steps, the index. -/
def dropKey (due isLane index : Nat) : Nat := (due / 50 * 2 + isLane) * 64 + index

/-- The drops that are due at a segment. -/
def State.dueDrops (s : State) (sg : Nat) : List Nat :=
  let g := s.seg sg
  ((List.range 35).filterMap fun d => (s.sleepDue sg d).map fun t => dropKey t 0 d) ++
  ((List.range 6).filterMap fun p => (g.dozeDue s.tick p).map fun t => dropKey t 1 p) ++
  ((List.range 6).filterMap fun p => (g.flaskDue s.tick p).map fun t => dropKey t 1 p)

/-- Whether a drop may be taken now (R447). -/
def State.dropOk (s : State) (sg key drop64 : Nat) : Bool :=
  let g := s.seg sg
  g.rampClass == 0 || ((s.dueDrops sg).all (fun k => key ≤ k) && drop64 ≤ g.slope64 * ((s.tick - g.pwr.lastDrop) / 50))

/-- The bridge ends of a segment whose domain sleeps train again at its wake, and so do their partners (Table 11.1). -/
def State.bridgeAsleep (s : State) (sg : Nat) : State :=
  let again (e : BridgeEnd) : BridgeEnd :=
    { parityErr := e.parityErr, failLane := e.failLane, lastReset := e.lastReset, resetCount := e.resetCount, resetTicks := e.resetTicks }
  [0, 1].foldl (fun (s : State) b =>
    let (t, c) := bridgePartner s.n sg b
    (s.mod sg fun g => g.modBend b again).mod t fun g => g.modBend c again) s

/-- A domain is put to sleep (R436): its PWR_REQ falls. The sleep is final when the cycle ends (R441). -/
def State.sleepDom (s : State) (sg d : Nat) : State :=
  s.mod sg fun g =>
    { g.setBitOf F.PWR_DOMAIN_REQ_REQ d false with pwr := { g.pwr with
        slept := insertKey d g.pwr.lastDrop g.pwr.slept
        idleSince := eraseKey d g.pwr.idleSince
        lastDrop := s.tick } }

/-- What a domain that sleeps does not keep is lost (R436). -/
def State.sleepLoss (s : State) (sg d : Nat) : State :=
  let s := s.mod sg fun g => { g.forget d with pwr := { g.pwr with usable := eraseKey d g.pwr.usable } }
  if 3 ≤ d && d ≤ 6 then
    (List.range 4).foldl (fun (s : State) i =>
      (s.mod sg fun g => g.modCore (4 * (d - 3) + i) fun k => { k with lastCtx := none, icache := [] }).loseLb sg (4 * (d - 3) + i)) s
  else if d == 33 then s.bridgeAsleep sg
  else s

/-- The sleeps of the cycle that has ended. -/
def State.sleepsEnd (s : State) (sg : Nat) : State :=
  ((s.seg sg).pwr.slept.foldl (fun (s : State) x => s.sleepLoss sg x.1) s).mod sg fun g => { g with pwr := { g.pwr with slept := [], woke := [] } }

/-- DOMAIN_SLEEP (R439, R441, R447): the keeper and the steward at HALT, any other domain once it is due and its drop may be taken; not in
the cycle of a wake event. -/
def execDomainSleep (sg : Fin 8) (d : Fin 35) (s : State) : Out :=
  onSeg sg s fun s =>
    let g := s.seg sg
    let d := d.val
    if g.pwr.woke.contains d then s
    else if d == 1 || d == 2 then
      (if g.awake d && s.sleepCond sg d && !g.pwrHeld d && !g.pwr.restart.contains d then s.sleepDom sg d else s)
    else
      match s.sleepDue sg d with
      | none => s
      | some t =>
        let drop := 64 * (if 9 ≤ d && d ≤ 20 then 131 else g.domMw d)
        if s.dropOk sg (dropKey t 0 d) drop then s.sleepDom sg d else s

/-! ## Wake (R435 to R442) -/

/-- DOMAIN_WAKE (R435, R441): a wake event for a domain. -/
def execDomainWake (sg : Fin 8) (d : Fin 35) (s : State) : Out :=
  onSeg sg s fun s => s.mod sg fun g => g.wakeDom s.tick d

/-- What the waking of a router wakes: its die bridge, and the routers of the package (Table 11.1). -/
def State.routerWakes (s : State) (sg : Nat) : State :=
  (s.mod sg fun g => g.wakeDom s.tick domBridge).modAll fun g => g.wakeDom s.tick domRouter

/-- PWR_ACK_RISE (R435): the domain's kept state is restored, or it restarts after a partial reset; the core that halted goes on. -/
def execPwrAckRise (sg : Fin 8) (d : Fin 35) (s : State) : Out :=
  onSeg sg s fun s =>
    let g := s.seg sg
    let d := d.val
    if g.pwrAck d then s
    else
      let g := g.setBitOf F.PWR_DOMAIN_STATE_AWAKE d true
      if !g.pwrReq d then s.setSeg sg g
      else
        let again := g.pwr.restart.contains d
        let g := { g with pwr := { g.pwr with
          reqAt := eraseKey d g.pwr.reqAt, timedOut := g.pwr.timedOut.erase d, restart := g.pwr.restart.erase d
          usable := insertKey d (s.tick + usableAfter d) g.pwr.usable } }
        let g := if again then g.domainUp s.tick d else g.wakeOne s.tick d
        let s := s.setSeg sg (g.wakePending s.tick)
        if d == domRouter then s.routerWakes sg else s

/-- A domain whose power falls while PWR_REQ is 1 is lost (R437, R552). -/
def State.domainLost (s : State) (sg d : Nat) : State :=
  let s := s.mod sg fun g =>
    let g := (g.setBitOf F.PWR_DOMAIN_STATE_AWAKE d false).bump F.PWR_WAKE_COUNT_LOST
    g.raise s.tick { cls := 3, unit := 1, sev := 3, index := d, info := BitVec.ofNat 32 d }
  if d == domRouter || d == domBridge || d == domRange then s.warmReset
  else (s.domainDown sg d true).mod sg fun g => g.cycleDom s.tick d

/-- PWR_ACK_FALL (R436, R441): a wake that waits for it raises PWR_REQ again in the next cycle. -/
def execPwrAckFall (sg : Fin 8) (d : Fin 35) (s : State) : Out :=
  onSeg sg s fun s =>
    let g := s.seg sg
    if !g.pwrAck d || d.val == 0 then s
    else if g.pwrReq d then s.domainLost sg d
    else s.setSeg sg (g.setBitOf F.PWR_DOMAIN_STATE_AWAKE d false)

/-- DOMAIN_LOST (R437). -/
def execDomainLost (sg : Fin 8) (d : Fin 35) (s : State) : Out :=
  onSeg sg s fun s =>
    let g := s.seg sg
    if g.awake d && d.val != 0 then s.domainLost sg d else s

/-- PWR_ACK_TIMEOUT (R437). -/
def execPwrAckTimeout (sg : Fin 8) (d : Fin 35) (s : State) : Out :=
  onSeg sg s fun s =>
    let g := s.seg sg
    match lookupKey d.val g.pwr.reqAt with
    | none => s
    | some t =>
      if g.pwrAck d || !g.pwrReq d || g.pwr.timedOut.contains d || s.tick < t + max 1 (g.fld F.PWR_CTRL_WAKE_LIMIT) then s
      else
        let g := { g with pwr := { g.pwr with timedOut := d.val :: g.pwr.timedOut } }.bump F.PWR_WAKE_COUNT_ACK_TIMEOUTS
        s.setSeg sg (g.raise s.tick { cls := 3, unit := 1, index := d, info := BitVec.ofNat 32 d.val })

/-- A write of PWR_HOLD (R439, R457): bit 1 acts as KO, so that a write of another agent leaves it and raises a record (R10). Writing 1
wakes the domain. -/
def Segment.holdWrite (g : Segment) (tick : Nat) (ag : Agent) (sz : Sz) (v : Word) : Segment :=
  if !ag.admin then g.accessFault tick 1 0x10010 v
  else
    let old := g.fld F.PWR_HOLD_HOLD
    let w := bitsOf (mergeSize (g.reg 0x10010) sz v) 34 1
    let w := if ag.isKeeper then w else w / 2 * 2 + old % 2
    let g := if ag.isKeeper then g else g.accessFault tick 1 0x10010 v
    let put := bitsOf (sz.place v) 34 1
    (List.range 34).foldl (fun (g : Segment) i =>
      if put.testBit i && (i != 0 || ag.isKeeper) then g.wakeDom tick (i + 1) else g) (g.setFld F.PWR_HOLD_HOLD w)

/-- PWR_HOLD_WRITE (R439). -/
def execPwrHoldWrite (sg : Fin 8) (ag : Agent) (sz : Sz) (v : Word) (s : State) : Out :=
  onCtl sg ag s fun s => s.mod sg fun g => (g.holdWrite s.tick ag sz v).answer csOk 0

/-- A wake timer reached (R442). One that is written in the cycle fires with what it held before, and keeps what was written (R14). -/
def Segment.timer (g : Segment) (tick : Nat) (f : Fld) (d : Nat) : Segment :=
  match g.swWrote f.off with
  | some w => if w.old != 0 && w.old.toNat ≤ tick then g.wakeDom tick d else g
  | none => if g.fld f != 0 && g.fld f ≤ tick then (g.setFld f 0).wakeDom tick d else g

/-- KEEPER_TIMER (R442). -/
def execKeeperTimer (sg : Fin 8) (s : State) : Out :=
  onSeg sg s fun s => s.mod sg fun g => g.timer s.tick F.PWR_TIMER_K_TICK domKeeper

/-- STEWARD_TIMER (R442). -/
def execStewardTimer (sg : Fin 8) (s : State) : Out :=
  onSeg sg s fun s => s.mod sg fun g => g.timer s.tick F.PWR_TIMER_S_TICK domSteward

/-! ## Kettle hold and step-down (R452, R453, R460) -/

/-- A lane step-down taken: the drop counts for the spacing of later ones. -/
def Segment.stepped (g : Segment) (tick : Nat) : Segment := { g with pwr := { g.pwr with stepAt := some tick, lastDrop := tick } }

/-- The drop of a port's step to a state, in 1/64 mW: the lanes of both directions (R447). -/
def Segment.stepDrop (g : Segment) (p mw : Nat) : Nat :=
  let q := g.port p
  let n (spare cal : Nat) (w : LanePwr) : Nat := q.lanesOf spare cal * (w.mw - mw)
  (n q.spareTx q.calTx q.txPwr + n q.spareRx q.calRx q.rxPwr) * rate64 (g.fld (F.LNE_CFG_RATE.port p))

/-- KETTLE_HOLD_EXPIRY (R452, R447). -/
def execKettleHoldExpiry (sg : Fin 8) (p : Fin 6) (s : State) : Out :=
  onSeg sg s fun s =>
    let g := s.seg sg
    match g.dozeDue s.tick p with
    | none => s
    | some t => if s.dropOk sg (dropKey t 1 p) (g.stepDrop p 90) then s.setSeg sg ((g.stepped s.tick).askDoze s.time p) else s

/-- FLASK_AFTER_EXPIRY (R452, R447). -/
def execFlaskAfterExpiry (sg : Fin 8) (p : Fin 6) (s : State) : Out :=
  onSeg sg s fun s =>
    let g := s.seg sg
    match g.flaskDue s.tick p with
    | none => s
    | some t =>
      if s.dropOk sg (dropKey t 1 p) (g.stepDrop p 4) then
        s.setSeg sg (((g.stepped s.tick).modPort p fun q => { q with flaskAt := some s.time }).askFlask s.tick p)
      else s

/-- QUIET_PATTERN (R421, R447): the receive side follows the partner into Doze; the drop counts unless this end's own step took the
receive lanes with it. -/
def execQuietPattern (sg : Fin 8) (p : Fin 6) (s : State) : Out :=
  onSeg sg s fun s =>
    let g := s.seg sg
    let q := g.port p
    if q.st == .active && (q.rxPwr == .active || q.rxPwr == .kettle) then
      let g := g.modPort p fun q => { q with rxPwr := .doze }
      s.setSeg sg (if q.txPwr == .doze then g else { g with pwr := { g.pwr with lastDrop := s.tick } })
    else s

/-- The port that a release due soon wakes next: in Doze or Flask, with the shortest idle time (R453). -/
def Segment.portToWake (g : Segment) : Option Nat :=
  ((List.range 6).filter fun p => (g.port p).txPwr == .doze || (g.port p).txPwr == .flask).foldl (fun (m : Option Nat) p =>
    match m with
    | none => some p
    | some q => if g.idleFrom q < g.idleFrom p then some p else some q) none

/-- STILE_PORT_WAKE (R453): a completion of a group is due within 2,500 ticks; one port is woken every 50 ticks. -/
def execStilePortWake (sg : Fin 8) (grp : BitVec 12) (s : State) : Out :=
  onSeg sg s fun s =>
    let g := s.seg sg
    let soon := g.stile.any fun f => f.grp == grp && f.hasEntry && f.at_ ≤ s.tick + 2500
    let ready := match g.pwr.portWakeAt with | some t => t + 50 ≤ s.tick | none => true
    match g.portToWake with
    | none => s
    | some p =>
      if !soon || !ready then s
      else
        let g := { g with pwr := { g.pwr with portWakeAt := some s.tick } }
        s.setSeg sg (g.modPort p fun q =>
          if q.txPwr == .doze then q.wakeDoze s.time else (q.wakeEvent s.time).wakeFlask s.tick)

/-! ## Windows (R443 to R446, R454 to R456) -/

/-- The rounding of R456: to the nearest 1,000 mW. -/
def round1000 (mw : Nat) : Nat := (mw + 500) / 1000 * 1000

/-- LEAD of R454. -/
def Segment.lead (g : Segment) (tick : Nat) : Nat :=
  let soon := g.stile.any fun f => f.hasEntry && f.at_ ≤ tick + g.fld F.PWR_PACE_CTRL_HORIZON
  let waits := (g.trl.tickets.any fun t => g.dispatchable t) && !((List.range 4).any fun q => g.awake (domQuad q))
  if soon || waits then g.fld F.PWR_PACE_CTRL_RELEASE_LEVEL else 0

/-- OWN of R454 for a power in 1/64 mW. -/
def ownOf (p64 : Nat) : Nat := min 255 ((255 * p64 + pMax * 64 - 1) / (pMax * 64))

/-- The pacing logic as an agent of a segment (Table 14.7). -/
def Segment.pacer (g : Segment) : Agent := { cls := .pacing, seg := g.segId, ctx := 0 }

/-- HINT as it stands in the registers. -/
def Segment.hint (g : Segment) : Nat := g.fld F.PWR_PACE_HINT

/-- A hint notice sent (R455). -/
def Segment.sendHint (g : Segment) (tick v : Nat) : Segment :=
  let ch := g.fld F.PWR_PACE_CTRL_CHANNEL
  let g := g.notify tick ch g.pacer 0 (BitVec.ofNat 16 (0x5000 + v))
  { g with pwr := { g.pwr with lastHint := some v, lastLead := g.fld F.PWR_PACE_LEAD != 0, hintOwed := false, hintNext := none } }

/-- Whether an earlier hint notice has not been taken. -/
def Segment.hintWaits (g : Segment) : Bool :=
  let m := g.chan (g.fld F.PWR_PACE_CTRL_CHANNEL)
  m.st == .full && m.sender == some g.pacer

/-- Whether the channel of the hints takes another one. -/
def Segment.hintFree (g : Segment) : Bool :=
  let m := g.chan (g.fld F.PWR_PACE_CTRL_CHANNEL)
  m.st == .empty || m.st == .acked || m.st == .timeout

/-- The notice of a window (R455). -/
def Segment.paceNotice (g : Segment) (tick : Nat) : Segment :=
  if g.fld F.PWR_PACE_CTRL_ENABLE == 0 then g
  else
    match g.pwr.hintNext with
    | some v => if g.hintFree then g.sendHint tick v else g
    | none =>
      let last := g.pwr.lastHint.getD 0
      let h := g.hint
      let far := max 1 (g.fld F.PWR_PACE_CTRL_DELTA) ≤ (h - last) + (last - h)
      if far || (g.fld F.PWR_PACE_LEAD != 0) != g.pwr.lastLead then
        (if g.hintFree then g.sendHint tick h else { g with pwr := { g.pwr with hintOwed := true } })
      else g

/-- The end of a 1 ms interval: AVG and LIMITED. -/
def Segment.msEnd (g : Segment) (waited : Bool) : Segment :=
  let g := g.setFld F.PWR_EST_AVG (sat 16 (g.pwr.sumMs / 64 / 1000))
  let g := if waited then g.bump F.PWR_RAMP_STATUS_LIMITED else g
  { g with pwr := { g.pwr with sumMs := 0, limMs := waited } }

/-- The end of a 10 ms window: the average that R456 shows. -/
def Segment.tenMsEnd (g : Segment) : Segment :=
  { g with
    pwr := { g.pwr with avg10 := if g.pwr.wins10 == 0 then 0 else g.pwr.sum10 / g.pwr.wins10, sum10 := 0, wins10 := 0 }
    tel := { g.tel with energy10 := g.tel.live.energy } }

/-- The ceiling after a window of power p (R445, R461), in 1/64 mW. -/
def Segment.ceiling (g : Segment) (p64 : Nat) : Nat :=
  let top := pMax * 64
  let s := g.slope64
  if g.pwr.fresh then min top (p64 + s)
  else if g.rampClass == 0 then top
  else if g.pwr.oldClass == 0 then min top (p64 + s)
  else min top (max p64 (g.pwr.ceil64 - s) + s)

/-- What a window that has ended has used is set apart: what comes from its boundary tick on belongs to the next one (R8). -/
def Pwr.closeWindow (p : Pwr) (tick : Nat) : Pwr :=
  if p.windowEnd ≤ tick && p.closed.isNone then
    { p with closed := some (p.pj, p.waited, p.waitedMs), pj := 0, charged := 0, waited := false,
             waitedMs := p.waitedMs && p.windowEnd % 50000 != 0 }
  else p

/-- A window ends at tick `w` (R443, R445, R454). Power is summed with the static terms as they stand at its end. -/
def Segment.windowEnd (g : Segment) (tick w : Nat) : Segment :=
  let st := g.static64
  let g := { g with pwr := g.pwr.closeWindow tick }
  let (pj, waited, waitedMs) := g.pwr.closed.getD (0, false, false)
  let p64 := st + pj * 64 / 1000
  let g := if !g.pwr.fresh && g.pwr.ceil64 < p64 then g.bump F.PWR_RAMP_STATUS_FORCED else g
  let c := g.ceiling p64
  let cls := g.rampClass
  let g := { g with pwr := { g.pwr with
    windowEnd := w + 50, fresh := false, ceil64 := c, budget := (c - st) * 1000 / 64, closed := none
    limiting := waited || g.pwr.waited, last := p64, sumMs := g.pwr.sumMs + p64, sum10 := g.pwr.sum10 + p64, wins10 := g.pwr.wins10 + 1
    oldClass := cls } }
  let g := g.count fun t => { t with energy := t.energy + p64 }
  let g := (g.setFld F.PWR_EST_NOW (sat 16 (p64 / 64))).setFld F.PWR_RAMP_STATUS_CEILING (sat 16 (c / 64))
  let g := g.setFld F.PWR_RAMP_STATUS_LIMITING g.pwr.limiting.toNat
  let g := if w % 50000 == 0 then g.msEnd waitedMs else g
  let g := if w % 500000 == 0 then g.tenMsEnd else g
  let own := ownOf (if g.isCoarse then round1000 (g.pwr.avg10 / 64) * 64 else p64)
  let lead := g.lead tick
  let g := ((g.setFld F.PWR_PACE_OWN own).setFld F.PWR_PACE_LEAD lead).setFld F.PWR_PACE_HINT (max own lead)
  (g.paceNotice tick).wakePending tick

/-- POWER_WINDOW_END (R443, R445, R454, R455): the window that has ended is closed. -/
def execPowerWindowEnd (sg : Fin 8) (s : State) : Out :=
  onSeg sg s fun s =>
    let g := s.seg sg
    if s.tick < g.pwr.windowEnd then s else s.setSeg sg (g.windowEnd s.tick g.pwr.windowEnd)

/-- COARSENING_END (R456, R530): the first 10 ms boundary after no sealed context is resident. -/
def execCoarseningEnd (sg : Fin 8) (s : State) : Out :=
  onSeg sg s fun s => s.mod sg fun g =>
    match g.pwr.coarse with
    | some t => if t ≤ s.tick && !g.sealedResident then { g with pwr := { g.pwr with coarse := none } } else g
    | none => g

/-- MBX_RECV (R566, R455): a read of the receiving class takes the message; a hint notice that is taken fixes the value sent next where one
was held back. -/
def Segment.recvHint (g : Segment) (ch : Nat) (ag : Agent) : Segment :=
  let hint := g.takes ch ag && (g.chan ch).sender == some g.pacer && g.pwr.hintOwed
  let g := g.recv ch ag
  if hint then { g with pwr := { g.pwr with hintNext := some g.hint, hintOwed := false } } else g

/-- MBX_RECV (R566). -/
def execMbxRecv (sg : Fin 8) (ch : Fin 64) (ag : Agent) (s : State) : Out :=
  onCtl sg ag s fun s => s.mod sg fun g => g.recvHint ch ag

/-! ## The idle step's share (R439) -/

/-- The domains whose condition holds at a segment, each with the tick from which it has held. -/
def State.idleList (s : State) (k : Nat) : List (Nat × Nat) :=
  let g := s.seg k
  ((List.range 35).filter fun d => d != 0 && g.awake d && s.sleepCond k d).map fun d => (d, (lookupKey d g.pwr.idleSince).getD s.tick)

/-- At a tick the conditions of Table 11.1 are looked at. -/
def State.trackIdle (s : State) : State :=
  (List.range s.n).foldl (fun (t : State) k => t.mod k fun g => { g with pwr := { g.pwr with idleSince := s.idleList k } }) s

end Sys2Proof.Machine
end

