-- ==== Sys2Proof/Machine/Manage.lean ====
section
/-! DEFINITION. Segment 0's management port (R511 to R518, R529, R534): SPDM requests, Lototum messages and the MCTP control commands. The
last answer stands in `Kpr.answer`. SPDM messages in a session that is not open are answered with DecryptError, and completion rules of the
MCTP commands are MCTP's own (PRESUMED, log 40). -/

namespace Sys2Proof.Machine

open Sys2Proof

/-! ## Answers -/

/-- The management port answers. -/
def State.reply (s : State) (a : MgmtAns) : State := s.mod 0 (modKpr fun k => { k with answer := a })

/-- The retry time of R510 in ms while the keeper is away, else 0. -/
def State.retryTime (s : State) : Nat :=
  match (s.seg 0).keeperAway s.tick with
  | some code => code.toNat - 0x8000
  | none => 0

/-- STATUS: KPR_STATE, the strap error with the straps sampled, and the retry time (Table 13.7). -/
def State.statusAns (s : State) : MgmtAns :=
  let g := s.seg 0
  .status g.kprState g.boot.strapErr (Config.strapWord g.boot.sampled) s.retryTime

/-- Whether the keeper of segment 0 runs its image. A message before that is answered as one during a reset of its domain is
(DESIGN CHOICE, log 67). -/
def State.keeperServes (s : State) : Bool :=
  let g := s.seg 0
  (g.keeperAway s.tick).isNone && (g.stage == 6 || g.stage == 7 || (g.stage == 9 && (g.fld F.SEG_BOOT_FAIL == 3 || g.fld F.SEG_BOOT_FAIL == 4)))

/-- Whether a session takes messages: it has been opened and not been closed by a failed authentication (R517). -/
def State.sessionOpen (s : State) (ses : Session) : Bool :=
  match s.session false ses with
  | some x => x.opened && !x.refused
  | none => true

def State.sessionRefused (s : State) (ses : Session) : Bool :=
  match s.session false ses with
  | some x => x.refused
  | none => false

/-! ## SPDM (R511 to R513) -/

/-- An SPDM request at the management port: a message wakes the keeper's domain (Table 11.1); Busy while the keeper is away (R513). -/
def State.spdmPort (s : State) (ses : Session) (r : SpdmReq) : State :=
  if s.sessionRefused ses then s.reply .silent
  else if !s.keeperServes then s.reply (.spdm spdmBusy)
  else if !s.sessionOpen ses then s.reply (.spdm spdmDecrypt)
  else
    let (s, a) := (s.mod 0 fun g => g.wakeDom s.tick domKeeper).spdm false ses r
    s.reply (.spdm a)

/-- GET_VERSION (R511). -/
def execGetVersion (ses : Session) (s : State) : Out := onSeg 0 s fun s => s.spdmPort ses .version

/-- GET_CAPABILITIES (R511). -/
def execGetCapabilities (ses : Session) (s : State) : Out := onSeg 0 s fun s => s.spdmPort ses .capabilities

/-- NEGOTIATE_ALGORITHMS (R511). -/
def execNegotiateAlgorithms (ses : Session) (asym hash : BitVec 32) (s : State) : Out :=
  onSeg 0 s fun s => s.spdmPort ses (.algorithms asym hash)

/-- GET_DIGESTS (R511). -/
def execGetDigests (ses : Session) (s : State) : Out := onSeg 0 s fun s => s.spdmPort ses .digests

/-- GET_CERTIFICATE (R511). -/
def execGetCertificate (ses : Session) (slot : BitVec 8) (off len : BitVec 16) (s : State) : Out :=
  onSeg 0 s fun s => s.spdmPort ses (.certificate slot off len)

/-- CHALLENGE (R511). -/
def execChallenge (ses : Session) (slot : BitVec 8) (nonce : List Byte) (s : State) : Out :=
  onSeg 0 s fun s => s.spdmPort ses (.challenge slot nonce)

/-- GET_MEASUREMENTS (R511, R512). -/
def execGetMeasurements (ses : Session) (idx : BitVec 8) (nonce : Option (List Byte)) (s : State) : Out :=
  onSeg 0 s fun s => s.spdmPort ses (.measurements idx nonce)

/-- KEY_EXCHANGE (R511). -/
def execKeyExchange (ses : Session) (slot : BitVec 8) (pub : List Byte) (s : State) : Out :=
  onSeg 0 s fun s => s.spdmPort ses (.keyExchange slot pub none)

/-- FINISH (R511). -/
def execFinish (ses : Session) (mac : List Byte) (s : State) : Out := onSeg 0 s fun s => s.spdmPort ses (.finish mac)

/-- UNSUPPORTED_REQUEST (R511). -/
def execUnsupportedRequest (ses : Session) (code : BitVec 8) (s : State) : Out := onSeg 0 s fun s => s.spdmPort ses (.other code)

/-! ## Lototum messages (R516 to R518) -/

/-- STATUS (R516): answered inside and outside a session, and while the keeper is away. -/
def execStatus (ses : Session) (s : State) : Out :=
  onSeg 0 s fun s =>
    if s.sessionRefused ses then s.reply .silent else (s.touchSession false ses).reply s.statusAns

/-- A Lototum message other than STATUS (R513, R516): answered with STATUS while the keeper is away; else taken only in a secured
session, and an operator's only where the session is authenticated or STRAP_SECURE is 0. -/
def State.lototum (s : State) (ses : Session) (needsOperator : Bool) (f : State → SpdmSes → State) : State :=
  if s.sessionRefused ses then s.reply .silent
  else if !s.keeperServes then s.reply s.statusAns
  else
    match s.session false ses with
    | none => s.reply (.message false)
    | some x =>
      if !x.opened || !x.secured then s.reply (.message false)
      else
        let s := (s.mod 0 fun g => g.wakeDom s.tick domKeeper).touchSession false ses
        if needsOperator && (s.seg 0).straps.secure && !x.operator then s.reply (.message false)
        else f s { x with last := s.tick }

/-- The OPERATOR slots that hold a digest (R506). -/
def Segment.operators (g : Segment) : List Nat := [2, 3, 4, 5].filter fun n => (g.keyMat n 3).isSome

/-- Whether a key and a signature authenticate a session (R517). -/
def State.authOk (s : State) (x : SpdmSes) (pub sig : List Byte) : Bool :=
  let g := s.seg 0
  g.operators.any (fun n => g.keyMat n 3 == some (Config.sha384 pub)) &&
    Config.ecdsaVerify pub (ascii "GYN operator" ++ x.id ++ x.random) sig

/-- OPERATOR_AUTH (R517). -/
def execOperatorAuth (ses : Session) (pub sig : List Byte) (s : State) : Out :=
  onSeg 0 s fun s => s.lototum ses false fun s x =>
    if s.authOk x pub sig then (s.setSession false ses { x with operator := true }).reply (.message true)
    else ((s.setSession false ses { x with refused := true }).mod 0 fun g => g.keeperFault s.tick 5 none).reply (.message false)

/-- OPERATOR_KEY_ADD (R516, R517): into a free OPERATOR slot; the first one is accepted in any secured session. -/
def execOperatorKeyAdd (ses : Session) (digest : List Byte) (s : State) : Out :=
  onSeg 0 s fun s => s.lototum ses (!(s.seg 0).operators.isEmpty) fun s _ =>
    let g := s.seg 0
    match [2, 3, 4, 5].find? fun n => !g.operators.contains n with
    | none => s.reply (.message false)
    | some n => (s.mod 0 fun g => g.writeKey n { kind := 3, material := padTo 48 digest }).reply (.message true)

/-- OPERATOR_KEY_REMOVE (R516). -/
def execOperatorKeyRemove (ses : Session) (digest : List Byte) (s : State) : Out :=
  onSeg 0 s fun s => s.lototum ses true fun s _ =>
    let g := s.seg 0
    let hit := g.operators.filter fun n => g.keyMat n 3 == some (padTo 48 digest)
    if hit.isEmpty then s.reply (.message false)
    else (s.mod 0 fun g => hit.foldl (fun (g : Segment) n => g.writeKey n {}) g).reply (.message true)

/-- The bits of a register that its KO fields cover. -/
def koMask (off : Nat) : Word :=
  match rowAt off with
  | some r => (r.fields.filter fun f => f.acc == .ko).foldl (fun w f => setBits w f.hi f.lo (2 ^ (f.hi + 1 - f.lo) - 1)) 0
  | none => 0

/-- The KO fields of a register written. -/
def Segment.koPut (g : Segment) (off : Nat) (v : Word) : Segment :=
  g.setReg off ((g.reg off &&& ~~~ koMask off) ||| (v &&& koMask off))

/-- POWER_SET (R518): the keeper's power fields on every segment of the package. -/
def execPowerSet (ses : Session) (cls : BitVec 2) (stile salt kettle gap : Word) (s : State) : Out :=
  onSeg 0 s fun s => s.lototum ses true fun s _ =>
    (s.modAll fun g =>
      ((((g.setClass cls.toNat).koPut 0x10050 stile).koPut 0x10058 salt).koPut 0x10068 kettle).koPut 0x10070 gap).reply (.message true)

/-- DEBUG_UNLOCK (R534): refused while any context is sealed. -/
def execDebugUnlock (ses : Session) (s : State) : Out :=
  onSeg 0 s fun s => s.lototum ses true fun s _ =>
    if !s.sealedAll.isEmpty then s.reply (.message false)
    else (s.modAll fun g => g.setFld F.KPR_STATE_DEBUG 1).reply (.message true)

/-- DEBUG_LOCK (R534). -/
def execDebugLock (ses : Session) (s : State) : Out :=
  onSeg 0 s fun s => s.lototum ses true fun s _ => (s.modAll fun g => g.setFld F.KPR_STATE_DEBUG 0).reply (.message true)

/-- TEARDOWN (R516, R529): SEAL_TEARDOWN of a named context, answered once every segment has torn it down. -/
def execTeardown (ses : Session) (ctx : BitVec 12) (s : State) : Out :=
  onSeg 0 s fun s => s.lototum ses true fun s _ =>
    ((s.reply .silent).askTeardown 0 ctx none).getD (s.reply (.message false))

/-! ## MCTP (R515) -/

/-- The 48-bit provisional ID: DEVNUM[47:0] with bit 32 set. -/
def Segment.provisionalId (g : Segment) : BitVec 48 := BitVec.ofNat 48 (g.fld F.KPR_DEVNUM_DEVNUM) ||| BitVec.twoPow 48 32

/-- DYNAMIC_ADDRESS_ASSIGNMENT (R515): the I3C target has only a dynamic address, which it is given by its provisional ID. -/
def execDynamicAddressAssignment (addr : BitVec 7) (s : State) : Out :=
  onSeg 0 s fun s => (s.mod 0 (modKpr fun k => { k with dynAddr := some addr })).reply (.provisional (s.seg 0).provisionalId)

/-- SET_ENDPOINT_ID (R515): operations 0 and 1 set and force an identifier other than 0 and 0xFF; the others are refused, since the
endpoint has no static identifier. -/
def execSetEndpointId (op : BitVec 2) (eid : BitVec 8) (s : State) : Out :=
  onSeg 0 s fun s =>
    if op.toNat < 2 && eid != 0 && eid != 0xFF then (s.mod 0 (modKpr fun k => { k with eid := eid })).reply (.endpoint true eid)
    else s.reply (.endpoint false (s.seg 0).kpr.eid)

/-- GET_ENDPOINT_ID (R515). -/
def execGetEndpointId (s : State) : Out := onSeg 0 s fun s => s.reply (.endpoint true (s.seg 0).kpr.eid)

/-- The MCTP message types supported (R515). -/
def mctpTypes : List (BitVec 8) := [0x00, 0x05, 0x06, 0x7F]

/-- GET_MCTP_VERSION_SUPPORT (R515): of the base specification (0xFF) or of a message type. -/
def execGetMctpVersionSupport (typ : BitVec 8) (s : State) : Out :=
  onSeg 0 s fun s => s.reply (.versions typ (typ == 0xFF || mctpTypes.contains typ))

/-- GET_MESSAGE_TYPE_SUPPORT (R515). -/
def execGetMessageTypeSupport (s : State) : Out := onSeg 0 s fun s => s.reply (.types mctpTypes)

end Sys2Proof.Machine
end

