-- ==== Sys2Proof/Machine/RegView.lean ====
section
/-! DEFINITION. What the registers of control space read (chapter 15): the present word of every register, its coarsened form while a
sealed context is resident (R530, R456), and the read itself (R10 to R14, R575). -/

namespace Sys2Proof

/-- The half that an access size takes of a word. -/
def Sz.half (sz : Sz) (w : Word) : Word :=
  match sz with
  | .w64 => w
  | .lo32 => w &&& 0xFFFFFFFF
  | .hi32 => w >>> 32

end Sys2Proof

namespace Sys2Proof.Machine

open Sys2Proof

/-! ## Present words -/

/-- A word with fields [hi:lo] replaced. -/
def pack (w : Word) (l : List (Nat × Nat × Nat)) : Word := l.foldl (fun w x => setBits w x.1 x.2.1 x.2.2) w

/-- A bit map of `n` entries. -/
def bitMap (n : Nat) (p : Nat → Bool) : Nat := (List.range n).foldl (fun m i => if p i then m + 2 ^ i else m) 0

/-- Table 3.13's state codes. -/
def CoreState.code : CoreState → Nat
  | .idle => 0 | .running => 1 | .waiting => 2 | .saving => 3 | .clearing => 4 | .asleep => 5 | .stopped => 6

/-- Table 5.3's state codes. -/
def GrpSt.code : GrpSt → Nat
  | .opening => 1 | .ready => 2 | .active => 3 | .suspended => 4 | .aborting => 5 | .failed => 6 | .closing => 7

/-- Table 9.4's state codes. -/
def LinkSt.code : LinkSt → Nat
  | .disabled => 0 | .down => 1 | .training => 2 | .active => 3 | .retrain => 4 | .width => 5 | .quarantined => 6

/-- Table 10.6's power states. -/
def LanePwr.code : LanePwr → Nat
  | .notTrained => 0 | .active => 1 | .kettle => 2 | .doze => 3 | .flask => 4

/-- Table 14.9's channel states. -/
def MbxSt.code : MbxSt → Nat
  | .empty => 0 | .full => 1 | .taken => 2 | .acked => 3 | .timeout => 4

def BridgeEnd.word (e : BridgeEnd) : Word :=
  pack 0 [(63, 32, e.lastReset.toNat), (23, 16, e.failLane.toNat), (15, 8, e.resetCount.toNat), (2, 2, e.parityErr.toNat), (1, 0, e.st.code)]

/-- Tags in quarantine (R57). -/
def Segment.quarantined (g : Segment) : Nat :=
  (g.txn.tags.filter fun t => match t.2 with | .quarantined _ => true | _ => false).length

/-- The SEG window. -/
def Segment.viewSeg (g : Segment) (tick off : Nat) (w : Word) : Word :=
  if off == 0x20 then BitVec.ofNat 64 tick
  else if off == 0x100 then (g.bend 0).word
  else if off == 0x108 then (g.bend 1).word
  else if off == 0x208 then pack w [(33, 17, g.quarantined), (16, 0, g.txn.tags.length)]
  else if off == 0x228 then pack w [(6, 0, g.txn.merge.length)]
  else if off == 0x240 then pack w [(12, 0, g.txn.homeQ.length)]
  else if off == 0x248 then pack w [(8, 0, g.txn.atoms.length)]
  else w

/-- Ticks to the next release of the stile; all ones when none is held (Table 11.4). -/
def Segment.nextRelease (g : Segment) (tick : Nat) : Nat :=
  (g.stile.filter Formed.hasEntry).foldl (fun n f => min n (f.at_ - tick)) 0xFFFFFFFF

/-- The PWR window; bit 0 of PWR_HOLD reads 1. -/
def Segment.viewPwr (g : Segment) (tick off : Nat) (w : Word) : Word :=
  if off == 0x10010 then w ||| 1
  else if off == 0x10060 then pack 0 [(63, 32, g.nextRelease tick), (10, 0, (g.stile.filter Formed.hasEntry).length)]
  else w

/-- A record as an agent sees it: SCOPED records lose what R530 hides. -/
def FaultRec.seen (r : FaultRec) (coarse : Bool) : FaultRec :=
  if !coarse then r
  else
    let r := { r with tick := r.tick / 50 * 50 }
    if r.isScoped then { r with addr := 0, info := 0, node := none, status := 0 } else r

/-- The FLT window (Table 12.8). -/
def Segment.viewFlt (g : Segment) (coarse : Bool) (off : Nat) (w : Word) : Word :=
  let u := g.flt
  if off == 0x20000 then pack 0 [(63, 32, u.raised), (10, 10, u.suppFull.toNat), (9, 9, u.overflow.toNat), (8, 0, u.pendingCount)]
  else if off == 0x20008 then u.head.zeroExtend 64
  else if off == 0x20010 then u.tail.zeroExtend 64
  else if off == 0x20020 then BitVec.ofNat 64 u.supp.length
  else if off == 0x20030 then BitVec.ofNat 64 (bitMap 32 fun c => (u.ovf.getD c {}).count != 0)
  else if off == 0x20040 then pack 0 [(63, 32, u.version.toNat), (15, 0, u.known.length)]
  else if 0x20400 ≤ off && off < 0x20800 then
    let o := u.ovf.getD ((off - 0x20400) / 32) {}
    let k := off % 32
    BitVec.ofNat 64 (if k == 0 then o.count else if k == 8 then o.first else if k == 16 then o.last else 0)
  else if 0x21000 ≤ off && off < 0x23000 then
    match lookupKey ((off - 0x21000) / 32) u.queue with
    | some r => BitVec.ofNat 64 (field (r.seen coarse).bytes (off % 32) 8)
    | none => 0
  else if 0x28000 ≤ off && off < 0x29000 then
    let n := (off - 0x28000) * 8
    BitVec.ofNat 64 (bitMap 64 fun i => u.known.contains (BitVec.ofNat 15 (n + i)))
  else w

/-- The MBX window (Table 14.9). -/
def Segment.viewMbx (g : Segment) (off : Nat) (w : Word) : Word :=
  let m := g.chan ((off - 0x30000) / 64)
  let k := off % 64
  if k == 8 then m.ptr
  else if k == 0x18 then 0
  else if k == 0x28 then pack w [(47, 32, m.code.toNat), (2, 0, m.st.code)]
  else w


/-- The KPR window (Table 13.12). -/
def Segment.viewKpr (g : Segment) (off : Nat) (w : Word) : Word :=
  if off == 0x40000 then g.kprState
  else if off == 0x40028 then BitVec.ofNat 64 (bitMap 64 fun n => (g.keySlot n).lost)
  else if 0x40100 ≤ off && off < 0x40300 then
    let k := g.keySlot ((off - 0x40100) / 8)
    pack 0 [(31, 31, k.lost.toNat), (27, 16, k.ctx.toNat), (7, 0, k.kind)]
  else if 0x41000 ≤ off && off < 0x41200 then
    let n := (off - 0x41000) * 8
    BitVec.ofNat 64 (bitMap 64 fun i => g.sealedCtx (BitVec.ofNat 12 (n + i)))
  else w

/-- A lane map word (Table 10.6). -/
def mapWord (m : List Nat) (spare cal : Nat) : Word :=
  pack 0 ((39, 36, cal) :: (35, 32, spare) :: (List.range 8).map fun l => (4 * l + 3, 4 * l, m.getD l 15))

/-- The window of port `p` (Tables 9.8 and 10.6). -/
def Segment.viewPort (g : Segment) (tick p off : Nat) (w : Word) : Word :=
  let q := g.port p
  let o := off % 0x10000
  if o == 0 then pack w [(11, 8, q.width), (2, 0, q.st.code)]
  else if o == 0x20 then
    pack 0 [(59, 48, q.nextSeq.toNat), (47, 36, q.acked.toNat), (35, 24, q.expected.toNat), (9, 0, q.replay.length)]
  else if o == 0x28 then
    pack 0 [(63, 48, q.credTotal.toNat), (47, 32, q.seen.toNat), (31, 23, q.window), (22, 14, q.out), (8, 0, q.leaked)]
  else if o == 0x30 then pack 0 [(43, 40, min 15 q.hotRun), (39, 32, min 255 q.viols), (31, 20, min 4095 q.replays), (19, 0, q.sent)]
  else if o == 0x60 then
    pack w [(31, 24, min 3 (within1s tick q.fails).length), (23, 16, min 3 (within1s tick q.violTicks).length)]
  else if o == 0x88 then BitVec.ofNat 64 (bitMap 64 fun n => (q.slotN n).isSome)
  else if o == 0x1010 then pack w [(40, 38, q.phase)]
  else if o == 0x1018 then mapWord q.mapTx q.spareTx q.calTx
  else if o == 0x1020 then mapWord q.mapRx q.spareRx q.calRx
  else if o == 0x1030 then
    let copying := q.rotTx.step == 1 && tick ≥ q.rotTx.tick + fourGroups (g.fld (F.LNE_CFG_RATE.port p))
    pack w [(6, 4, if q.rotRx.step == 2 then 3 else q.rotRx.step), (2, 0, if copying then 2 else q.rotTx.step)]
  else if o == 0x1038 then pack 0 [(6, 4, q.rxPwr.code), (2, 0, q.txPwr.code)]
  else w

/-- The RTE window (Table 8.6). -/
def Segment.viewRte (g : Segment) (cycle off : Nat) (w : Word) : Word :=
  let tick := tickOf cycle
  if off == 0x100008 then
    match g.retiring with
    | some e => pack w [(63, 48, sat 16 (g.oldLive e)), (44, 32, g.rte.retireAt - tick)]
    | none => w
  else if off == 0x100018 then
    pack 0 [(15, 8, bitMap 6 fun p => (g.port p).txPwr == .doze),
            (7, 0, bitMap 8 fun i => if i < 6 then (g.port i).routingDown else !g.bridgeUp (i - 6))]
  else if off == 0x100028 && g.fld F.RTE_THROTTLE_CTRL_ENABLE == 0 then pack w [(8, 0, 256)]
  else if off == 0x100040 then pack 0 ((List.range 6).map fun p => (9 * p + 8, 9 * p, (g.port p).land.length))
  else if off == 0x100048 then BitVec.ofNat 64 (g.ageClock cycle)
  else w

/-- Reduction steps under way, and those with every operand staged that have not begun. DEDUCED: a step adds on all eight lanes
(R272), so every lane is busy while one runs. -/
def Segment.redSteps (g : Segment) : Nat × Nat :=
  g.groups.foldl (fun (n : Nat × Nat) x =>
    match x.head with
    | none => n
    | some h =>
      if !h.op.d.isRed then n
      else (n.1 + (h.chk.filter fun k => k.stepEnd.isSome).length, n.2 + (h.chk.filter fun k => k.ready.isSome && !k.formed && k.stepEnd.isNone && k.sum.isNone).length))
    (0, 0)

/-- The RED window (Table 6.8). -/
def Segment.viewRed (g : Segment) (off : Nat) (w : Word) : Word :=
  if off == 0x110000 then let (run, waits) := g.redSteps; pack 0 [(15, 8, min 255 waits), (7, 0, if run == 0 then 0 else 255)] else w

/-- CLV_GROUP_STATE of a group (Table 5.11). -/
def Segment.groupWord (g : Segment) (n : BitVec 12) : Word :=
  match g.grp? n with
  | none => 0
  | some x =>
    pack 0 [(63, 32, x.serial.toNat), (31, 28, x.lastStatus.toNat), (27, 22, x.trees.length), (21, 8, x.staging), (7, 3, x.queue.length),
            (2, 0, x.st.code)]

/-- The group that CLV_GROUP_SEL names. -/
def Segment.groupSel (g : Segment) : BitVec 12 := BitVec.ofNat 12 (g.fld F.CLV_GROUP_SEL_GROUP)

/-- The CLV window (Table 5.11). -/
def Segment.viewClv (g : Segment) (off : Nat) (w : Word) : Word :=
  if off == 0x120018 then g.groupWord g.groupSel
  else if off == 0x120030 then pack w [(13, 0, g.stagingUsed)]
  else w

/-- The HMP window (Table 12.5). -/
def Segment.viewHmp (g : Segment) (off : Nat) (w : Word) : Word :=
  if off == 0x130000 then pack w [(13, 0, g.freeBlocks)]
  else if 0x130200 ≤ off && off < 0x1302C0 then
    let k := (off - 0x130200) / 8
    let rows := g.hmp.spares.getD (k / 2) []
    pack 0 ((List.range 4).map fun i =>
      match rows[4 * (k % 2) + i]? with
      | some r => (16 * i + 15, 16 * i, 0x8000 + r)
      | none => (16 * i + 15, 16 * i, 0))
  else w

/-- The XLT window (Table 7.10). BUSY reads 1 while a context leaves residency. -/
def Segment.viewXlt (g : Segment) (off : Nat) (w : Word) : Word :=
  if off == 0x140010 then
    pack w [(15, 15, (g.xlt.resident.any fun r => r.evicting).toNat), (14, 8, g.xlt.resident.length)]
  else w

/-- The PLC window (Table 7.11). -/
def Segment.viewPlc (g : Segment) (sg off : Nat) (w : Word) : Word :=
  if off == 0x150018 then pack 0 [(31, 16, g.plc.replicas.length), (15, 0, g.freeFrames.length)]
  else if off == 0x150030 then
    pack 0 [(63, 63, g.plc.fhBusy.toNat), (51, 48, g.plc.lastStatus.toNat), (12, 0, (g.declared sg).length)]
  else w

/-- The TRL window (Table 4.8). A saved ticket whose resume condition holds counts in SAVED and not in READY: DESIGN CHOICE (log 61). -/
def Segment.viewTrl (g : Segment) (off : Nat) (w : Word) : Word :=
  let count (p : TicketState → Bool) : Nat := (g.trl.tickets.filter fun t => p t.st).length
  if off == 0x160008 then pack w [(6, 0, 64 - g.trl.fifo.length)]
  else if off == 0x160028 then
    pack 0 [(44, 32, count fun s => match s with | .saved _ _ => true | _ => false), (28, 16, count fun s => s == .ready),
            (12, 0, g.trl.tickets.length)]
  else if off == 0x160030 then BitVec.ofNat 64 (bitMap 32 fun n => (g.trail? n).isSome)
  else if off == 0x160040 then
    BitVec.ofNat 64 (bitMap 32 fun n => match g.trail? n with | some x => !x.cq.waiting.isEmpty | none => false)
  else w

/-- The CUR window of core `c` (Table 3.13, R143, R144). -/
def Segment.viewCur (g : Segment) (c off : Nat) (w : Word) : Word :=
  let k := g.core c
  let o := off % 0x1000
  let shut := k.ticket.isSome && g.sealedCtx k.ctx
  let slots := g.slots (g.ownerOf c)
  let st (x : SlotState) : Nat := bitMap 16 fun i => (slots.getD i {}).st == x
  if o == 0 then
    pack 0 [(63, 32, if shut then 0 else k.pc.toNat), (31, 20, k.ticket.getD 0), (19, 8, k.ctx.toNat), (7, 6, levelOf c), (2, 0, k.st.code)]
  else if o == 0x18 then
    pack 0 [(63, 32, if shut then 0 else k.excPc.toNat), (31, 24, k.excOp.toNat), (3, 0, k.excCode.toNat)]
  else if o == 0x20 then k.excInfo
  else if o == 0x30 then k.epc.zeroExtend 64
  else if o == 0x50 then (if c < 16 && k.ticket.isNone then 0 else pack 0 [(31, 16, st .done), (15, 0, st .busy)])
  else w

/-- The TEL window (Table 15.16): the last snapshot. -/
def Segment.viewTel (g : Segment) (off : Nat) (w : Word) : Word :=
  let t := g.tel.snap
  let n : Option Nat :=
    if off == 0x1F0008 then some g.tel.snapTick
    else if off == 0x1F0010 then some g.tel.snapSeq
    else if off == 0x1F0018 then some (t.energy / 64)
    else if off == 0x1F0020 then some t.inject
    else if off == 0x1F0028 then some t.eject
    else if off == 0x1F0030 then some t.deflect
    else if off == 0x1F0038 then some t.redLines
    else if off == 0x1F0040 then some t.tickets
    else if 0x1F0100 ≤ off && off < 0x1F0160 then
      let p := (off - 0x1F0100) / 16
      some (if off % 16 == 0 then t.tx.getD p 0 else t.rx.getD p 0)
    else none
  match n with
  | some n => BitVec.ofNat 64 n
  | none => w

/-- The present word of the register at an offset; `coarse` says how fault records are shown. -/
def Segment.view (g : Segment) (cycle sg : Nat) (coarse : Bool) (off : Nat) : Word :=
  let w := g.reg off
  let tick := tickOf cycle
  let win := off / 0x10000
  if win == 0 then g.viewSeg tick off w
  else if win == 1 then g.viewPwr tick off w
  else if win == 2 then g.viewFlt coarse off w
  else if win == 3 then g.viewMbx off w
  else if win == 4 then g.viewKpr off w
  else if win < 14 then g.viewPort tick (win - 8) off w
  else if win == 16 then g.viewRte cycle off w
  else if win == 17 then g.viewRed off w
  else if win == 18 then g.viewClv off w
  else if win == 19 then g.viewHmp off w
  else if win == 20 then g.viewXlt off w
  else if win == 21 then g.viewPlc sg off w
  else if win == 22 then g.viewTrl off w
  else if win == 24 || win == 25 then g.viewCur ((off - 0x180000) / 0x1000) off w
  else if win == 31 then g.viewTel off w
  else w

/-! ## Coarsened readings (R456, R530) -/

/-- The grain of a field while readings are coarsened (Table 13.11): a level, a counter in units of so many events, a tick. -/
inductive Grain where
  | level
  | events (unit : Nat)
  | tick
  deriving DecidableEq, Repr

/-- The coarsened fields of the SEG, PWR, FLT, MBX and KPR windows, by the register's row. -/
def grainsAon (b : Nat) : List (Nat × Nat × Grain) :=
  let e := Grain.events 1
  if b == 0x20 then [(63, 0, .tick)]
  else if b == 0x100 || b == 0x108 then [(63, 32, .tick), (15, 8, e)]
  else if b == 0x208 then [(50, 34, .level), (33, 17, .level), (16, 0, .level)]
  else if b == 0x210 || b == 0x40030 then [(63, 48, e), (47, 32, e), (31, 16, e), (15, 0, e)]
  else if b == 0x228 then [(63, 48, e), (6, 0, .level)]
  else if b == 0x240 then [(63, 48, e), (47, 32, e), (12, 0, .level)]
  else if b == 0x248 then [(63, 48, e), (8, 0, .level)]
  else if b == 0x10020 then [(63, 32, e), (31, 16, e), (15, 0, e)]
  else if b == 0x10048 then [(63, 48, e), (47, 32, e)]
  else if b == 0x10060 then [(10, 0, .level)]
  else if b == 0x20000 then [(63, 32, e), (8, 0, .level)]
  else if b == 0x20020 then [(10, 0, .level)]
  else if b == 0x20040 then [(15, 0, .level)]
  else if b == 0x20400 then [(31, 0, e)]
  else if b == 0x20408 || b == 0x20410 then [(63, 0, .tick)]
  else if b == 0x30028 then [(31, 16, e)]
  else []

/-- The coarsened fields of the port windows, by the offset in the window. -/
def grainsPort (o : Nat) : List (Nat × Nat × Grain) :=
  let e := Grain.events 1
  let k := Grain.events 1024
  if o == 0x20 then [(9, 0, .level)]
  else if o == 0x28 then [(22, 14, .level), (8, 0, .level)]
  else if o == 0x30 then [(43, 40, e), (39, 32, e), (31, 20, e), (19, 0, e)]
  else if o == 0x38 then [(63, 32, k), (31, 0, k)]
  else if o == 0x40 || o == 0x48 then [(63, 32, e), (31, 16, e), (15, 0, e)]
  else if o == 0x50 then (List.range 6).map fun c => (8 * c + 7, 8 * c, e)
  else if o == 0x58 then [(63, 32, .tick)]
  else if o == 0x60 then [(63, 32, .tick), (31, 24, e), (23, 16, e), (15, 0, e)]
  else if o == 0x90 then [(63, 32, k), (31, 16, k), (15, 8, e), (7, 0, e)]
  else if o == 0x98 then [(31, 16, e), (15, 0, e)]
  else if o == 0x1010 then [(37, 32, e), (31, 0, .tick)]
  else if o == 0x1030 then [(63, 40, e), (39, 32, e)]
  else if o == 0x1048 then [(63, 48, e), (47, 32, e), (31, 16, e), (15, 0, e)]
  else if 0x1200 ≤ o && o < 0x1248 then [(63, 32, e), (31, 16, e), (15, 8, e)]
  else []

/-- The coarsened fields of the other windows, by the register's row. -/
def grainsUnit (b : Nat) : List (Nat × Nat × Grain) :=
  let e := Grain.events 1
  let k := Grain.events 1024
  if b == 0x100008 then [(63, 48, .level)]
  else if b == 0x100028 then [(63, 32, e), (8, 0, .level)]
  else if b == 0x100030 then [(63, 32, k), (31, 0, k)]
  else if b == 0x100038 || b == 0x120038 || b == 0x150048 then [(63, 48, e), (47, 32, e), (31, 16, e), (15, 0, e)]
  else if b == 0x100040 then [(53, 0, .level)]
  else if b == 0x110000 then [(15, 8, .level), (7, 0, .level)]
  else if b == 0x110008 then [(63, 32, k), (31, 0, e)]
  else if b == 0x110010 then [(63, 32, k), (31, 16, e), (15, 0, e)]
  else if b == 0x110018 || b == 0x130020 || b == 0x160038 then [(63, 32, e), (31, 16, e), (15, 0, e)]
  else if b == 0x120018 then [(21, 8, .level), (7, 3, .level)]
  else if b == 0x120030 then [(13, 0, .level)]
  else if b == 0x120040 then [(63, 32, e), (31, 0, e)]
  else if b == 0x130000 then [(13, 0, .level)]
  else if b == 0x130028 then [(47, 32, e)]
  else if b == 0x130100 then [(63, 32, .tick), (15, 8, e)]
  else if b == 0x140010 then [(14, 8, .level)]
  else if b == 0x140058 then [(63, 32, e), (31, 24, e), (23, 16, e), (15, 0, e)]
  else if b == 0x150018 then [(31, 16, .level), (15, 0, .level)]
  else if b == 0x150030 then [(12, 0, .level)]
  else if b == 0x160008 then [(63, 48, e), (47, 32, e), (6, 0, .level)]
  else if b == 0x160028 then [(44, 32, .level), (28, 16, .level), (12, 0, .level)]
  else if b == 0x180048 then [(63, 32, e), (31, 16, k), (15, 0, e)]
  else []

/-- The coarsened fields of a register. -/
def grains (r : RegRow) : List (Nat × Nat × Grain) :=
  if r.base < 0x80000 then grainsAon r.base
  else if r.base < 0x100000 then grainsPort (r.base - 0x80000)
  else grainsUnit r.base

/-- The key a level register's word is kept under: CLV_GROUP_STATE has one word a group. -/
def Segment.levelKey (g : Segment) (off : Nat) : Nat := if off == 0x120018 then 0x1000000 + g.groupSel.toNat else off

/-- The registers with level fields. -/
def levelOffs : List Nat :=
  [0x208, 0x228, 0x240, 0x248, 0x10060, 0x20000, 0x20020, 0x20040, 0x100008, 0x100028, 0x100040, 0x110000, 0x120030, 0x130000,
   0x140010, 0x150018, 0x150030, 0x160008, 0x160028] ++
  (List.range 6).flatMap fun p => [0x80020 + 0x10000 * p, 0x80028 + 0x10000 * p]

/-- The level registers as they stand at a 1 ms boundary. -/
def Segment.shotLevels (g : Segment) (cycle sg : Nat) : Segment :=
  { g with levels := (levelOffs.map fun o => (o, g.view cycle sg true o)) ++ g.groups.map fun x => (0x1000000 + x.num.toNat, g.groupWord x.num) }

/-- A level register's word at the last 1 ms boundary; before the first, as reset leaves it. -/
def Segment.levelWord (g : Segment) (off : Nat) : Word :=
  match lookupKey (g.levelKey off) g.levels with
  | some w => w
  | none => if off == 0x120018 then 0 else if off == 0x130000 then 12288 else resetWord g.straps off

/-- A field's value at its grain. -/
def Grain.round (k : Grain) (v old : Nat) : Nat :=
  match k with
  | .level => old
  | .events u => let n := max 1 (4096 / u); v / n * n
  | .tick => v / 50 * 50

/-- Power readings as R456 gives them. -/
def Segment.powerSeen (g : Segment) (off : Nat) (w : Word) : Word :=
  let avg := sat 16 (round1000 (g.pwr.avg10 / 64))
  if off == 0x10038 then pack w [(31, 16, avg), (15, 0, avg)]
  else if off == 0x10048 then pack w [(16, 16, g.pwr.limMs.toNat), (15, 0, sat 16 (round1000 (g.pwr.ceil64 / 64)))]
  else if off == 0x10060 then
    let n := bitsOf w 63 32
    pack w [(63, 32, if n == 0xFFFFFFFF then n else n / 50 * 50)]
  else w

/-- PWR_PACE as the keeper reads it while other readers see the average. -/
def Segment.paceExact (g : Segment) (w : Word) : Word :=
  let own := ownOf g.pwr.last
  pack w [(15, 8, own), (7, 0, max own (bitsOf w 23 16))]

/-- The word of a register as an agent reads it. -/
def Segment.look (g : Segment) (cycle sg : Nat) (ag : Agent) (r : RegRow) (off : Nat) : Word :=
  let coarse := g.isCoarse && !ag.isKeeper
  let w := g.view cycle sg coarse off
  if coarse then
    let old := g.levelWord off
    g.powerSeen off ((grains r).foldl (fun w x => setBits w x.1 x.2.1 (x.2.2.round (bitsOf w x.1 x.2.1) (bitsOf old x.1 x.2.1))) w)
  else if g.isCoarse && off == 0x10078 then g.paceExact w
  else w

/-! ## Reads (R10 to R13, R575) -/

/-- An RC field loses what a read returned of it; the largest number of tags in use starts again from those now in use (Table 2.5). -/
def Segment.takeField (g : Segment) (off : Nat) (f : FieldRow) (v : Word) : Segment :=
  let n := bitsOf v f.hi f.lo
  if off == 0x20000 then { g with flt := { g.flt with raised := g.flt.raised - n } }
  else if off == 0x208 && f.hi == F.SEG_TAG_STATUS_HIGH_WATER.hi then g.setFld F.SEG_TAG_STATUS_HIGH_WATER g.txn.tags.length
  else
    let d : Fld := { off := off, hi := f.hi, lo := f.lo }
    g.setFld d (g.fld d - n)

/-- The RC fields that a read returned whole are lessened (R575). -/
def Segment.takeRead (g : Segment) (r : RegRow) (off : Nat) (sz : Sz) (v : Word) : Segment :=
  r.fields.foldl (fun (g : Segment) f => if f.acc == .rc && sz.covers f.hi f.lo then g.takeField off f v else g) g

/-- The captured upper half that a read of it returns (R575). -/
def Segment.captured (g : Segment) (cycle : Nat) (ag : Agent) (off : Nat) : Option (BitVec 32) :=
  (g.captures.find? fun c => c.agent == ag && c.off == off && cycle ≤ c.cycle + 64).map Capture.high

/-- A read of a register that only returns its fields, before any software write of the cycle (R576). -/
def Segment.plainRead (g : Segment) (cycle sg : Nat) (ag : Agent) (r : RegRow) (off : Nat) (sz : Sz) (cap : Option (BitVec 32)) : Segment :=
  let w := (g.unwritten off).look cycle sg ag r off
  let w := match sz, cap with
    | .hi32, some h => (h.zeroExtend 64 <<< 32) ||| (w &&& 0xFFFFFFFF)
    | _, _ => w
  let w := pack w ((r.fields.filter fun f => f.acc == .wo || (f.acc == .w1s && !(off == 0x130010 || r.base == 0x180008 || off == 0x300))).map fun f => (f.hi, f.lo, 0))
  let g := g.takeRead r off sz w
  let g := match sz with
    | .lo32 => { g with captures := { agent := ag, off := off, high := (w >>> 32).truncate 32, cycle := cycle } :: g.captures }
    | _ => g
  g.answer csOk (sz.half w)

end Sys2Proof.Machine
end

