-- ==== Sys2Proof/Machine/RegWrite.lean ====
section
/-! DEFINITION. Writes and reads of control space by any agent (R10 to R13, R573 to R577): each register's rule, and the commands a
write gives. -/

namespace Sys2Proof

/-- Whether an access covers the low half of a register, where the commands lie. -/
def Sz.low (sz : Sz) : Bool := sz == .w64 || sz == .lo32

namespace Machine

open Sys2Proof

/-- The state a command leaves; a stopped command leaves the state it found. -/
def after (s : State) (o : Out) : State :=
  match o with
  | .next t => t
  | _ => s

/-! ## Fields (R10, R11, R575) -/

/-- One field written, whole within the half that is written. -/
def Segment.fieldWrite (g : Segment) (ag : Agent) (off : Nat) (koAll : Bool) (v : Word) (f : FieldRow) : Segment :=
  let d : Fld := { off := off, hi := f.hi, lo := f.lo }
  let n := bitsOf v f.hi f.lo
  match f.acc with
  | .rw => if koAll && !ag.isKeeper then g else g.setFld d n
  | .ko => if ag.isKeeper then g.setFld d n else g
  | .w1c => g.setFld d (g.fld d - (g.fld d &&& bitsOf (v &&& ~~~g.hwBits off) f.hi f.lo))
  | _ => g

/-- A write of the RW, KO and W1C fields of a register: reserved bits are dropped. A KO field that another agent writes is left as it
is and raises a record. `koAll` says that every RW and W1S field acts as KO (R143). -/
def Segment.fieldsWrite (g : Segment) (tick : Nat) (ag : Agent) (r : RegRow) (off : Nat) (koAll : Bool) (sz : Sz) (v : Word) : Segment :=
  let fs := r.fields.filter fun f => sz.covers f.hi f.lo
  let w := sz.place v
  let g := fs.foldl (fun (g : Segment) f => g.fieldWrite ag off koAll w f) g
  let ko (f : FieldRow) : Bool := f.acc == .ko || (koAll && (f.acc == .rw || f.acc == .w1s))
  if !ag.isKeeper && fs.any ko then g.accessFault tick (unitOf off) off v else g

/-- A write that goes on only for the agents of an agent rule; for another it is ignored and raises a record. -/
def State.allow (s : State) (sg off : Nat) (ok : Bool) (v : Word) (f : State → State) : State :=
  if ok then f s else s.mod sg fun g => g.accessFault s.tick (unitOf off) off v

/-- A plain write of fields. A new quota acts at once on admission and dispatch (R157, R163, R172). -/
def State.plain (s : State) (sg : Nat) (ag : Agent) (r : RegRow) (off : Nat) (sz : Sz) (v : Word) : State :=
  s.mod sg fun g =>
    let g := g.fieldsWrite s.tick ag r off false sz v
    if off == 0x160010 then g.board s.time else g

/-! ## The windows -/

/-- The SEG window (R20, R32, R70, R551, R552, R556, R558, R561). -/
def State.writeSeg (s : State) (sg : Fin 8) (ag : Agent) (r : RegRow) (off : Nat) (sz : Sz) (v : Word) : State :=
  let w := sz.place v
  if off == 0x10 then after s (execSegNodeidWrite sg ag sz v s)
  else if off == 0x110 then
    let s := if w.getLsbD 0 then after s (execBridgeRetry sg 0 ag s) else s
    if w.getLsbD 1 then after s (execBridgeRetry sg 1 ag s) else s
  else if off == 0x100 || off == 0x108 then
    s.mod sg fun g => g.modBend ((off - 0x100) / 8) fun e =>
      { e with parityErr := e.parityErr && !(w &&& ~~~g.hwBits off).getLsbD 2 }
  else if off == 0x220 then
    let s := s.plain sg ag r off sz v
    if w.getLsbD 0 then after s (execMergeFlushCmd sg ag s) else s
  else if off == 0x300 then
    let s := s.plain sg ag r off sz v
    let s := if w.getLsbD 31 then after s (execStewardReady sg ag s) else s
    if w.getLsbD 30 then s.goWrite sg ag else s
  else if off == 0x308 then after s (execSegBootAreaWrite sg ag sz v s)
  else if off == 0x310 then
    let s := s.plain sg ag r off sz v
    let cmd := bitsOf w 1 0
    if cmd == 1 then s.warmWrite sg ag v
    else if cmd == 2 then s.partialWrite sg ag (bitsOf w 13 8) v
    else s
  else s.plain sg ag r off sz v

/-- The PWR window (R439, R444, R457). -/
def State.writePwr (s : State) (sg : Fin 8) (ag : Agent) (r : RegRow) (off : Nat) (sz : Sz) (v : Word) : State :=
  if off == 0x10010 then after s (execPwrHoldWrite sg ag sz v s)
  else if off == 0x10040 then after s (execRampClassWrite sg ag sz v s)
  else if off == 0x10018 || off == 0x10030 || off == 0x10080 then s.allow sg off ag.admin v fun s => s.plain sg ag r off sz v
  else s.plain sg ag r off sz v

/-- The FLT window (R483, R489, R490, R492). -/
def State.writeFlt (s : State) (sg : Fin 8) (ag : Agent) (r : RegRow) (off : Nat) (sz : Sz) (v : Word) : State :=
  let w := sz.place v
  if off == 0x20000 then
    s.mod sg fun g =>
      let w := w &&& ~~~g.hwBits off
      { g with flt := { g.flt with suppFull := g.flt.suppFull && !w.getLsbD 10, overflow := g.flt.overflow && !w.getLsbD 9 } }
  else if off == 0x20008 then (if sz.low then after s (execFltHeadWrite sg ag w s) else s)
  else if off == 0x20018 then s.allow sg off ag.admin v fun s => s.plain sg ag r off sz v
  else if off == 0x20020 then (if w.getLsbD 16 then after s (execSuppClear sg ag s) else s)
  else if off == 0x20028 then after s (execFltPost sg ag v s)
  else if off == 0x20030 then (if sz.low then after s (execOvfClear sg ag w s) else s)
  else if off == 0x20038 then
    let node := BitVec.ofNat 15 (bitsOf w 14 0)
    let cmd := bitsOf w 17 16
    if !sz.low then s
    else if cmd == 1 then after s (execKdAdd sg ag node s)
    else if cmd == 2 then after s (execKdRemove sg ag node s)
    else if cmd == 3 then after s (execKdClear sg ag s)
    else s.allow sg off ag.admin v id
  else s

/-- The MBX window (R563 to R568). -/
def State.writeMbx (s : State) (sg : Fin 8) (ag : Agent) (off : Nat) (sz : Sz) (v : Word) : State :=
  let ch := Fin.ofNat 64 ((off - 0x30000) / 64)
  let k := off % 64
  if k == 0 then after s (execMbxCfgWrite sg ch ag sz v s)
  else if k == 8 then after s (execMbxPtrWrite sg ch ag v s)
  else if k == 0x10 then (if sz.low then after s (execMbxSend sg ch ag (v.truncate 16) s) else s)
  else if k == 0x20 then (if sz.low then after s (execMbxAck sg ch ag (v.truncate 16) s) else s)
  else s

/-- LNK_CTRL (R375, R380, R385, R394): its fields act in the order WIDTH_REQ, ENABLE, RELEASE, RETRY, RETRAIN. -/
def State.writeLnkCtrl (s : State) (sg : Fin 8) (p : Fin 6) (ag : Agent) (w : Word) : State :=
  let s := after s (execLinkWidthRequest sg p ag (BitVec.ofNat 4 (bitsOf w 11 8)) s)
  let s := if w.getLsbD 0 then after s (execLinkEnable sg p ag s) else after s (execLinkDisable sg p ag s)
  let s := if w.getLsbD 3 then after s (execLinkRelease sg p ag s) else s
  let s := if w.getLsbD 2 then after s (execLinkRetry sg p ag s) else s
  if w.getLsbD 1 then after s (execLinkRetrain sg p ag s) else s

/-- LNK_SEAL_CTRL (R388): the keeper's arm and disarm; SLOT and CTX keep what was written, CMD reads 0. -/
def State.writeSealCtrl (s : State) (sg : Fin 8) (p : Fin 6) (ag : Agent) (off : Nat) (w : Word) : State :=
  let slot := BitVec.ofNat 6 (bitsOf w 17 12)
  let ctx := BitVec.ofNat 12 (bitsOf w 11 0)
  s.allow sg off ag.isKeeper w fun s =>
    let s := s.mod sg fun g => g.setReg off (w &&& 0x3FFFF)
    let cmd := bitsOf w 19 18
    if cmd == 1 then after s (execSealSlotArm sg p ag slot ctx s)
    else if cmd == 2 then after s (execSealSlotDisarm sg p ag slot s)
    else s

/-- LNE_PWR_CTRL (R421 to R424, R428): its settings, then DOZE, FLASK and WAKE. -/
def State.writeLnePwr (s : State) (sg : Fin 8) (p : Fin 6) (ag : Agent) (r : RegRow) (off : Nat) (sz : Sz) (v : Word) : State :=
  let w := sz.place v
  s.allow sg off ag.admin v fun s =>
    let s := s.plain sg ag r off sz v
    let s := if w.getLsbD 0 then after s (execDozeRequest sg p ag s) else s
    let s := if w.getLsbD 1 then after s (execFlaskRequest sg p ag s) else s
    if w.getLsbD 2 then after s (execLaneWake sg p ag s) else s

/-- The port windows (R394, R428). -/
def State.writePort (s : State) (sg : Fin 8) (ag : Agent) (r : RegRow) (off : Nat) (sz : Sz) (v : Word) : State :=
  let p := Fin.ofNat 6 ((off - 0x80000) / 0x10000)
  let o := off % 0x10000
  if o == 8 then s.allow sg off ag.admin v fun s => if sz.low then s.writeLnkCtrl sg p ag (sz.place v) else s
  else if o == 0x80 then (if sz.low then s.writeSealCtrl sg p ag off (sz.place v) else s)
  else if o == 0x1000 then after s (execLaneRateWrite sg p ag sz v s)
  else if o == 0x1040 then s.writeLnePwr sg p ag r off sz v
  else if o == 0x10 || o == 0x18 || o == 0x1008 || o == 0x1028 then s.allow sg off ag.admin v fun s => s.plain sg ag r off sz v
  else s

/-- The RTE window (R345, R346). -/
def State.writeRte (s : State) (sg : Fin 8) (ag : Agent) (r : RegRow) (off : Nat) (sz : Sz) (v : Word) : State :=
  let w := sz.place v
  if off == 0x100000 then
    if !sz.low then s
    else s.allow sg off ag.isKeeper v fun s => if w.getLsbD 0 then after s (execEpochFlip sg ag s) else s
  else if off == 0x100010 then
    let t := Fin.ofNat 2 (bitsOf w 0 0)
    let cmd := bitsOf w 2 1
    if !sz.low then s
    else if cmd == 1 then after s (execSignpostSeal sg ag t s)
    else if cmd == 2 then after s (execSignpostOpen sg ag t s)
    else s
  else if 0x104000 ≤ off then
    let t := (off - 0x104000) / 0x4000
    after s (execSignpostWrite sg ag (Fin.ofNat 2 t) (BitVec.ofNat 11 ((off - 0x104000 - 0x4000 * t) / 8)) sz v s)
  -- the budget of the cycles so far is at the RATE that held in them (R340)
  else if off == 0x100020 then (s.mod sg fun g => g.rollBudget s.time).plain sg ag r off sz v
  else s.plain sg ag r off sz v

/-- The CLV window (R190, R234). A command reads what it needs without an error of the die port. -/
def State.writeClv (s : State) (sg : Fin 8) (ag : Agent) (r : RegRow) (off : Nat) (sz : Sz) (v : Word) : State :=
  if off == 0x120000 then after s (execClvHcBaseWrite sg ag sz v s)
  else if off == 0x120008 then
    let grp := BitVec.ofNat 12 (bitsOf v 11 0)
    let cmd := bitsOf v 14 12
    if !sz.low then s
    else if cmd == 1 then after s (execGroupOpen sg ag grp (some 0) (some 0) (some 0) s)
    else if cmd == 2 then after s (execGroupClose sg ag grp s)
    else if cmd == 3 then after s (execGroupAbortCommand sg ag grp s)
    else s.allow sg off ag.admin v id
  else s.plain sg ag r off sz v

/-- The HMP window (R472, R473, R479, R482). -/
def State.writeHmp (s : State) (sg : Fin 8) (ag : Agent) (r : RegRow) (off : Nat) (sz : Sz) (v : Word) : State :=
  let w := sz.place v
  if off == 0x130008 then
    let cmd := bitsOf w 13 12
    let bank := BitVec.ofNat 4 (bitsOf w 3 0)
    if !sz.low then s
    else if cmd == 1 then after s (execBankFence sg ag bank s)
    else if cmd == 2 then after s (execBankUnfence sg ag bank s)
    else s.allow sg off ag.admin v id
  else if off == 0x130010 then (if sz.low then after s (execHmpInval sg ag w s) else s)
  else if off == 0x130018 then s.allow sg off ag.admin v fun s => s.plain sg ag r off sz v
  else s

/-- The XLT window (R281, R284, R295, R298, R307). -/
def State.writeXlt (s : State) (sg : Fin 8) (ag : Agent) (r : RegRow) (off : Nat) (sz : Sz) (v : Word) : State :=
  if off == 0x140000 then after s (execCtxBaseWrite sg ag sz v (some 0) s)
  else if off == 0x140008 then
    let ctx := BitVec.ofNat 12 (bitsOf v 11 0)
    let cmd := bitsOf v 13 12
    if !sz.low then s
    else if cmd == 1 then after s (execContextLoad sg ag ctx (some 0) s)
    else if cmd == 2 then after s (execContextEvict sg ag ctx s)
    else if cmd == 3 then after s (execContextTeardown sg ag ctx s)
    else s.allow sg off ag.admin v id
  else if off == 0x140018 then after s (execGuardBaseWrite sg ag sz v s)
  else if off == 0x140020 then after s (execGuardSizeWrite sg ag sz v s)
  else if off == 0x140028 then (if sz.low then after s (execGuardInval sg ag (v.truncate 17) s) else s)
  else if off == 0x140030 then after s (execRecallSubmit sg ag v s)
  else if off == 0x140040 then (if sz.low then after s (execMigrateDone sg ag v s) else s)
  else s.plain sg ag r off sz v

/-- The PLC window (R316, R317, R319, R324): PLC_POOL holds its value while any frame is in use. -/
def State.writePlc (s : State) (sg : Fin 8) (ag : Agent) (r : RegRow) (off : Nat) (sz : Sz) (v : Word) : State :=
  if off == 0x150000 then
    s.allow sg off ag.admin v fun s =>
      let s := s.plain sg ag r off sz v
      if sz.low && !v.getLsbD 1 then after s (execPlcReplicateOff sg ag s) else s
  else if off == 0x150010 then
    s.allow sg off ag.admin v fun s => if (s.seg sg).plc.framesUsed.isEmpty then s.plain sg ag r off sz v else s
  else if off == 0x150020 then after s (execFhWindowWrite sg ag sz v s)
  else if off == 0x150028 then
    let cmd := bitsOf v 29 28
    if cmd == 1 then after s (execFhDeclare sg ag v s)
    else if cmd == 2 then after s (execFhRelease sg ag v s)
    else s.allow sg off ag.admin v id
  else s.allow sg off ag.admin v fun s => s.plain sg ag r off sz v

/-- The TRL window (R151, R152, R170). -/
def State.writeTrl (s : State) (sg : Fin 8) (ag : Agent) (r : RegRow) (off : Nat) (sz : Sz) (v : Word) : State :=
  if off == 0x160000 then after s (execTrailSubmit sg ag v s)
  else if off == 0x160018 then after s (execTrlSaveBaseWrite sg ag sz v s)
  else if off == 0x160020 then
    let mode := bitsOf v 13 12
    let t := bitsOf v 11 0
    if !sz.low then s
    else if mode == 0 then after s (execTrlCancelTicket sg ag (Fin.ofNat 4096 t) s)
    else if mode == 1 then after s (execTrlCancelTrail sg ag (BitVec.ofNat 12 t) s)
    else if mode == 2 then after s (execTrlCancelContext sg ag (BitVec.ofNat 12 t) s)
    else s
  else s.plain sg ag r off sz v

/-- CUR_CTRL (R143 to R145): RUN_LIMIT and STOP, then ICINV. A core that STOP held goes on when it is cleared. -/
def State.writeCurCtrl (s : State) (sg : Fin 8) (c : Fin 18) (ag : Agent) (r : RegRow) (off : Nat) (sz : Sz) (v : Word) : State :=
  let s := s.mod sg fun g => g.fieldsWrite s.tick ag r off (c.val == 16) sz v
  let s := s.mod sg fun g =>
    if (g.core c).st == .stopped && !g.stopHeld c then g.modCore c fun k => { k with st := .running } else g
  if (sz.place v).getLsbD 2 && (c.val != 16 || ag.isKeeper) then after s (execIcinv sg c ag s) else s

/-- The CUR windows (R143). -/
def State.writeCur (s : State) (sg : Fin 8) (ag : Agent) (r : RegRow) (off : Nat) (sz : Sz) (v : Word) : State :=
  let c := Fin.ofNat 18 ((off - 0x180000) / 0x1000)
  let o := off % 0x1000
  if o == 8 then s.writeCurCtrl sg c ag r off sz v
  else if o == 0x10 then after s (execCurCodeWrite sg c ag sz v s)
  else if o == 0x18 then
    let w := sz.place v
    s.mod sg fun g => g.modCore c fun k => { k with excCode := k.excCode &&& ~~~((w &&& ~~~g.hwBits off).truncate 4) }
  else if o == 0x40 then after s (execCurLbDataAccess sg c ag (some v) s)
  else s.mod sg fun g => g.fieldsWrite s.tick ag r off (c.val == 16) sz v

/-! ## Telemetry (R579, R580) -/

/-- The totals as a snapshot takes them while readings are coarsened: event totals in multiples of 4,096, the energy of the last 10 ms
boundary. -/
def Totals.coarse (t : Totals) (energy10 : Nat) : Totals :=
  let f (n : Nat) : Nat := n / 4096 * 4096
  { energy := energy10, inject := f t.inject, eject := f t.eject, deflect := f t.deflect, redLines := f t.redLines, tickets := f t.tickets,
    tx := t.tx.map f, rx := t.rx.map f }

/-- A snapshot: every total, the tick and SEQ + 1; one in a cycle. -/
def Segment.snapshot (g : Segment) (cycle : Nat) : Segment :=
  if g.tel.snapCycle == some cycle then g
  else
    { g with tel := { g.tel with
      snap := if g.isCoarse then g.tel.live.coarse g.tel.energy10 else g.tel.live
      snapTick := g.coarseTick (tickOf cycle)
      snapSeq := (g.tel.snapSeq + 1) % 2 ^ 32
      snapCycle := some cycle } }

/-- 1 written to TEL_CTRL.SNAP, under the agent rule of R579. -/
def State.snapWrite (s : State) (sg : Nat) (ag : Agent) : State := s.allow sg 0x1F0000 ag.admin 1 fun s => s.mod sg fun g => g.snapshot s.time

/-- TEL_SNAP (R580). -/
def execTelSnap (sg : Fin 8) (ag : Agent) (s : State) : Out :=
  onCtl sg ag s fun s => (s.snapWrite sg ag).mod sg fun g => g.answer csOk 0

/-- TEL_PERIODIC_SNAP (R580): at a tick that is a multiple of PERIOD, once. -/
def execTelPeriodicSnap (sg : Fin 8) (s : State) : Out :=
  onSeg sg s fun s =>
    s.mod sg fun g =>
      let n := g.fld F.TEL_CTRL_PERIOD
      if n == 0 || s.tick % n != 0 || g.tel.periodTick == some s.tick then g
      else let g := g.snapshot s.time; { g with tel := { g.tel with periodTick := some s.tick } }

/-- The TEL window (R579). -/
def State.writeTel (s : State) (sg : Fin 8) (ag : Agent) (r : RegRow) (off : Nat) (sz : Sz) (v : Word) : State :=
  if off == 0x1F0000 then
    s.allow sg off ag.admin v fun s =>
      let s := s.plain sg ag r off sz v
      if (sz.place v).getLsbD 0 then s.snapWrite sg ag else s
  else s

/-! ## Accesses -/

/-- The domains an access to a register wakes when they sleep (R440, R577). `copy` says that the access touches only fields that the AON
copies serve: those of CUR_STATE, and RW and KO fields of the couriers, the router, the reduction array and the ports. -/
def wakesFor (off : Nat) (copy : Bool) : List Nat :=
  let win := off / 0x10000
  if 8 ≤ win && win < 14 then (if copy then [] else [domTx (win - 8), domRx (win - 8)])
  else if win == 16 then (if copy then [] else [domRouter])
  else if win == 17 then [domReduction]
  else if win == 18 || win == 20 || win == 21 || win == 22 then [domRange]
  else if 0x130100 ≤ off && off < 0x130160 then [domBank ((off - 0x130100) / 8)]
  else if 0x130200 ≤ off && off < 0x1302C0 then [domBank ((off - 0x130200) / 16)]
  else if win == 24 || win == 25 then
    let c := (off - 0x180000) / 0x1000
    if off % 0x1000 == 0 || (copy && c < 16) then [] else [coreDomain c]
  else []

/-- The wakes of an access. -/
def State.wakesOf (s : State) (sg off : Nat) (copy : Bool) : State := s.wakeFor sg (wakesFor off copy)

/-- Whether an access waits because the fast clock of the domain its register lies in does not run (R41, R42): KPR lies in the keeper
domain. -/
def Segment.waitsClock (g : Segment) (off : Nat) (copy : Bool) : Bool :=
  !g.clocked && (!(wakesFor off copy).isEmpty || off / 0x10000 == 4)

/-- Whether the fields of a half are all RW or KO. -/
def RegRow.copied (r : RegRow) (sz : Sz) : Bool :=
  r.fields.all fun f => !sz.covers f.hi f.lo || f.acc == .rw || f.acc == .ko

/-- Whether the fields of a half that a write changes are all RW or KO: RO and RC fields ignore it. -/
def RegRow.writeCopied (r : RegRow) (sz : Sz) : Bool :=
  r.fields.all fun f => !sz.covers f.hi f.lo || f.acc == .rw || f.acc == .ko || f.acc == .ro || f.acc == .rc

/-- The RW and KO bits of a register that an agent's write of a size reaches. -/
def RegRow.writeBits (r : RegRow) (ag : Agent) (sz : Sz) : Word :=
  pack 0 ((r.fields.filter fun f => sz.covers f.hi f.lo && (f.acc == .rw || (f.acc == .ko && ag.isKeeper))).map fun f => (f.hi, f.lo, 2 ^ (f.hi + 1 - f.lo) - 1))

/-- What an agent's write puts at a register: the bits of a later agent of the same cycle stay as that agent wrote them (R576). -/
def Segment.putBits (g : Segment) (off rank : Nat) (sz : Sz) (v : Word) : Word :=
  let keep := g.prevailing off rank
  if keep == 0 then v else sz.half ((sz.place v &&& ~~~keep) ||| (g.reg off &&& keep))

/-- A write that took effect is kept for the rest of the cycle (R14, R576): one that changed the register, or found what it wrote. -/
def Segment.swNote (g : Segment) (ag : Agent) (r : RegRow) (off : Nat) (sz : Sz) (v old : Word) (rank : Nat) : Segment :=
  let m := r.writeBits ag sz
  if g.reg off != old || (ag.admin && m != 0 && g.reg off &&& m == sz.place v &&& m) then g.swMark off old (sz.place v) rank m else g

/-- A write of a register by its window's rule. -/
def State.writeReg (s : State) (sg : Fin 8) (ag : Agent) (r : RegRow) (off : Nat) (sz : Sz) (v : Word) : State :=
  let win := off / 0x10000
  if win == 0 then s.writeSeg sg ag r off sz v
  else if win == 1 then s.writePwr sg ag r off sz v
  else if win == 2 then s.writeFlt sg ag r off sz v
  else if win == 3 then s.writeMbx sg ag off sz v
  else if win == 4 then s.plain sg ag r off sz v
  else if win < 14 then s.writePort sg ag r off sz v
  else if win == 16 then s.writeRte sg ag r off sz v
  else if win == 17 then s
  else if win == 18 then s.writeClv sg ag r off sz v
  else if win == 19 then s.writeHmp sg ag r off sz v
  else if win == 20 then s.writeXlt sg ag r off sz v
  else if win == 21 then s.writePlc sg ag r off sz v
  else if win == 22 then s.writeTrl sg ag r off sz v
  else if win == 31 then s.writeTel sg ag r off sz v
  else s.writeCur sg ag r off sz v

/-- The answer of an access. -/
def State.reply_ (s : State) (sg : Nat) (status : BitVec 4) (v : Word) : State := s.mod sg fun g => g.answer status v

/-- The register an access of a size names: an 8-byte aligned offset; none where the access is misaligned (R13). -/
def regOf (off : Nat) (sz : Sz) : Option Nat :=
  match sz with
  | .w64 => if off % 8 == 0 then some off else none
  | .lo32 => if off % 8 == 0 then some off else none
  | .hi32 => if off % 4 == 0 then some (off / 8 * 8) else none

/-- Whether an access of an offset waits for its domain's clock. -/
def Segment.ctlWaits (g : Segment) (off : Nat) (sz : Sz) (write : Bool) : Bool :=
  match regOf off sz with
  | none => false
  | some off =>
    match rowAt off with
    | none => false
    | some r => g.waitsClock off (if write then r.writeCopied sz else r.copied sz)

/-- A write of control space (R12, R13, R574 to R576): beyond it CS_UNMAPPED; of a size the register does not take, CS_DENIED; where no
register lies, nothing. -/
def State.ctlWrite (s : State) (sg : Fin 8) (ag : Agent) (off : Nat) (sz : Sz) (v : Word) (rank : Nat := ag.accessRank) : State :=
  let s := s.dropCaptures ag
  match regOf off sz with
  | none => s.reply_ sg csDenied 0
  | some off =>
    if 0x200000 ≤ off then s.reply_ sg csUnmapped 0
    else
      match rowAt off with
      | none => s.reply_ sg csOk 0
      | some r =>
        if r.size != .any && sz != .w64 then s.reply_ sg csDenied 0
        else if (s.seg sg).waitsClock off (r.writeCopied sz) then s.wakesOf sg off (r.writeCopied sz)
        else
          let v := (s.seg sg).putBits off rank sz v
          let t := (s.wakesOf sg off (r.writeCopied sz)).writeReg sg ag r off sz v
          (t.mod sg fun g => g.swNote ag r off sz v ((s.seg sg).reg off) rank).reply_ sg csOk 0

/-- A read of control space. KPR reads as zero through the test access port (R570). -/
def State.ctlRead (s : State) (sg : Fin 8) (ag : Agent) (off : Nat) (sz : Sz) : State :=
  let cap := (regOf off sz).bind fun o => (s.seg sg).captured s.time ag o
  let s := s.dropCaptures ag
  match regOf off sz with
  | none => s.reply_ sg csDenied 0
  | some off =>
    if 0x200000 ≤ off then s.reply_ sg csUnmapped 0
    else
      match rowAt off with
      | none => s.reply_ sg csOk 0
      | some r =>
        if r.size == .a64 && sz != .w64 then s.reply_ sg csDenied 0
        else if off == 0x230 then s.reply_ sg csOk 0
        else if ag.cls == .jtag && off / 0x10000 == 4 then s.reply_ sg csOk 0
        else if (s.seg sg).waitsClock off (r.copied sz) then s.wakesOf sg off (r.copied sz)
        else
          let s := s.wakesOf sg off (r.copied sz)
          if 0x30000 ≤ off && off < 0x31000 && off % 64 == 0x18 then
            after s (execMbxRecv sg (Fin.ofNat 64 ((off - 0x30000) / 64)) ag s)
          else if 0x180000 ≤ off && off < 0x192000 && off % 0x1000 == 0x40 then
            after s (execCurLbDataAccess sg (Fin.ofNat 18 ((off - 0x180000) / 0x1000)) ag none s)
          else s.mod sg fun g => g.plainRead s.time sg ag r off sz cap

/-- REGISTER_WRITE (R10 to R13, R575). -/
def execRegisterWrite (sg : Fin 8) (ag : Agent) (off : BitVec 21) (sz : Sz) (v : Word) (s : State) : Out :=
  onSeg sg s fun s => s.ctlWrite sg ag off.toNat sz v

/-- REGISTER_READ (R10 to R13, R575). -/
def execRegisterRead (sg : Fin 8) (ag : Agent) (off : BitVec 21) (sz : Sz) (s : State) : Out :=
  onSeg sg s fun s => s.ctlRead sg ag off.toNat sz

end Machine

end Sys2Proof
end

