-- ==== Sys2Proof/Machine/CtlAccess.lean ====
section
/-! DEFINITION. Control accesses that couriers' firmware cores and the die port make, and those that arrive over the fabric (R78, R84, R111,
R296). -/

namespace Sys2Proof.Machine

open Sys2Proof

/-! ## The ATOM that carries a control access (R78) -/

/-- The payload of an ATOM LD (operation 0) or ATOM ST (operation 1) of 4 or 8 bytes (Table 2.9). -/
def atomPayload (op n off v : Nat) : List Byte :=
  padTo 128 ([BitVec.ofNat 8 op, (if n == 8 then 2 else 1), 0, 0] ++ natBytes off 2 ++ List.replicate 10 0 ++ natBytes v 16)

/-- A control access of 4 or 8 bytes to another segment is issued as an ATOM under a context. -/
def Segment.issueCtl (g : Segment) (cycle : Nat) (ctx : BitVec 12) (ag : ReqAgent) (addr n : Nat) (v : Option Word) (use : LineUse) : Segment :=
  g.addReq cycle 3 ctx ag (addr / 128) 1
    (atomPayload (if v.isSome then 1 else 0) n (addr % 128) ((v.getD 0).toNat % 2 ^ (8 * n))) [] [use]

/-- The size of a 4- or 8-byte access: 4 bytes at bit 2 of the address lie in the upper half (R13, R575). -/
def ctlSz (n off : Nat) : Sz := if n == 8 then .w64 else if off / 4 % 2 == 1 then .hi32 else .lo32

/-- Whether an address lies in the segment's own control space (R111, R84). -/
def Segment.ownCtl (g : Segment) (a : Nat) : Bool := g.owns a && gaSpace a == 2

/-! ## CLD and CST (R111) -/

/-- The core's own agent. -/
def Segment.coreAgent (g : Segment) (c : Nat) (k : Core) : Agent :=
  { cls := if c == 16 then .keeper else .steward, seg := g.segId, ctx := k.ctx }

/-- The status and data of the access just made. -/
def State.acc (s : State) (sg : Nat) : Access := (s.seg sg).acc

/-- CLD (R111). A misaligned address completes with CS_DENIED (R13), which raises EX_CTRL. -/
def execCld (sg : Fin 8) (c : Fin 18) (f : IFields) (s : State) : Out :=
  runCore sg c 0x42 1 f false
    (fun s k =>
      let g := s.seg sg
      let a := k.ea f
      if a.toNat % 8 != 0 then .exc 0xB (csDenied.zeroExtend 64)
      else if g.ownCtl a.toNat then
        let t := s.ctlRead sg (g.coreAgent c k) (gaOff a.toNat) .w64
        let r := t.acc sg
        if r.status == csOk then .go (t.modCore sg c fun k => k.setR f.d r.data)
        else .wait (t.mod sg fun g => g.raiseExc t.time c 0x42 0xB (r.status.zeroExtend 64))
      else (s.mod sg fun g => g.issueCtl s.time k.ctx (.courier c) a.toNat 8 none (.ctl c)).waitIn sg c (.ctl (some f.d))) s

/-- CST (R111). The instruction is over before its write acts, which may act on the core itself. -/
def execCst (sg : Fin 8) (c : Fin 18) (f : IFields) (s : State) : Out :=
  runCore sg c 0x43 1 f false
    (fun s k =>
      let g := s.seg sg
      let a := k.ea f
      let v := k.r f.b
      if a.toNat % 8 != 0 then .exc 0xB (csDenied.zeroExtend 64)
      else if g.ownCtl a.toNat then
        let ag := g.coreAgent c k
        let t := ((Res.go s).apply sg c 0x43 s).ctlWrite sg ag (gaOff a.toNat) .w64 v
        let r := t.acc sg
        if r.status == csOk then .wait t
        else .wait ((s.dropCaptures ag).mod sg fun g => g.raiseExc s.time c 0x43 0xB (r.status.zeroExtend 64))
      else (s.mod sg fun g => g.issueCtl s.time k.ctx (.courier c) a.toNat 8 (some v) (.ctl c)).waitIn sg c (.ctl none)) s

/-! ## The target channels (R84, R575) -/

/-- The agent of a target-channel request (Table 14.7): bits [11:10] of the identifier name its class. -/
def Segment.dptAgent (g : Segment) (id ctx : BitVec 12) : Agent :=
  { cls := if id.toNat / 1024 == 0 then .hostDriver else if id.toNat / 1024 == 1 then .chipProcessor else .diePort, seg := g.segId, ctx := ctx }

/-- DPT_CONTROL_ACCESS (R71, R82, R84): a 4- or 8-byte access to space 10. -/
def execDptControlAccess (sg : Fin 8) (write : Bool) (req : DptReq) (s : State) : Out :=
  onSeg sg s fun s => s.onDpt sg req.ch req.id fun s =>
    let g := s.seg sg
    let a := req.addr.toNat
    let n := (req.bytes).getD 8
    let v : Word := BitVec.ofNat 64 (bytesNat ((req.data.drop (a % 128)).take n))
    if req.space != 2 then s
    else
      match g.dptRefusal req with
      | some st => s.setSeg sg (g.dptRespond req.ch req.id st (List.replicate 128 0))
      | none =>
        if g.ownCtl a then
          let sz := ctlSz n a
          let off := gaOff a
          if !write && off / 8 * 8 == 0x230 then s.setSeg sg (g.fenceRead s.time req.ch req.id req.ctx sz)
          else
            let ag := g.dptAgent req.id req.ctx
            let t := if write then s.ctlWrite sg ag off sz v (if req.ch then 2 else 3) else s.ctlRead sg ag off sz
            let r := t.acc sg
            t.mod sg fun g => g.dptRespond req.ch req.id r.status
              (if r.status == csOk && !write then lanes (a % 128) (natBytes r.data.toNat n) else List.replicate 128 0)
        else
          s.setSeg sg ((g.dptAccept req).issueCtl s.time req.ctx (.dpt req.ch) a n (if write then some v else none)
            (.dptCtl req.ch req.id req.addr n write))

/-! ## Control accesses at the home (R78, R296) -/

/-- Whether a context may make control accesses over the fabric: context 0, and one whose entry in the home's own context table has
PRIVILEGED set, read whether or not it is resident. -/
def Segment.ctlGranted (g : Segment) (ctx : BitVec 12) : Bool :=
  ctx == 0 || (g.present 0 (g.ctxEntryAt ctx) 64 && (parseEntry (g.hbmBytes (g.ctxEntryAt ctx) 64)).privileged)

/-- The access an ATOM makes, as one: a read for LD, a read and a write for ST with FETCH, a write for ST. -/
def State.atomCtl (s : State) (sg : Fin 8) (f : Flit) : State × Access :=
  let n := atomWidth f.width
  let off := f.index * 128 + f.offset
  let sz := ctlSz n off
  let ag : Agent := { cls := .remote, seg := f.srcSeg, ctx := f.ctx }
  let v : Word := BitVec.ofNat 64 (field f.payload 16 n)
  if f.op == 0 then
    let t := s.ctlRead sg ag off sz
    (t, t.acc sg)
  else if f.fetches then
    let t := s.ctlRead sg ag off sz
    let r := t.acc sg
    if r.status != csOk then (t, r)
    else
      let t := t.ctlWrite sg ag off sz v
      (t, { status := (t.acc sg).status, data := r.data })
  else
    let t := s.ctlWrite sg ag off sz v
    (t, t.acc sg)

/-- CONTROL_ATOM_ACCESS (R78, R296): a queued ATOM to space 10. -/
def execControlAtomAccess (sg : Fin 8) (idx : Nat) (s : State) : Out :=
  onSeg sg s fun s =>
    let g := s.seg sg
    match g.txn.homeQ[idx]? with
    | none => s
    | some q =>
      let f := q.flit
      if !(f.kind == 3 && f.space == 2) || g.homeBlocked idx then s
      else if f.dstSeg.toNat > g.straps.dieCount.toNat then s.setSeg sg ((g.dequeue idx).dropFlit s.time f csDenied false)
      else if badForm f then s.setSeg sg ((g.dequeue idx).homeRefuse s.time f csDenied)
      else if !g.ctlGranted f.ctx then s.setSeg sg (((g.dequeue idx).ctxDenied s.tick f).homeRefuse s.time f csDenied)
      else
        let (t, r) := (s.setSeg sg (g.dequeue idx)).atomCtl sg f
        t.mod sg fun g => g.injectL t.time (mkReply (lineTo f 0) (replyKind f) r.status
          (if replyKind f == 9 && r.status == csOk then padTo 128 (natBytes r.data.toNat 16) else []))

end Sys2Proof.Machine
end

