-- ==== Sys2Proof/Machine/Jtag.lean ====
section
/-! DEFINITION. The test access port (R569, R570). -/

namespace Sys2Proof.Machine

open Sys2Proof

def Segment.modJtag (g : Segment) (f : Jtag → Jtag) : Segment := { g with jtag := f g.jtag }

/-- The bits of a value, least significant first, as a scan shifts them. -/
def scanBits (n v : Nat) : List Bool := (List.range n).map fun i => v.testBit i

/-- Whether EXTEST is available (R569). -/
def Segment.extestOk (g : Segment) : Bool := g.stage == 8 || g.stage == 9

/-- Whether CTRL_ACCESS is available: not in secure mode unless debug is unlocked (R569). -/
def Segment.ctrlOk (g : Segment) : Bool := !g.straps.secure || g.fld F.KPR_STATE_DEBUG == 1

/-- Whether IMAGE_LOAD is available: WAIT_IMAGE with source JTAG (R556, R569). -/
def Segment.imageLoadOk (g : Segment) : Bool := g.stage == 4 && g.bootSource == 2

/-- A scan through the one-bit bypass register: capture loads 0, and each bit leaves one bit late. -/
def Jtag.bypassScan (j : Jtag) (ir : BitVec 8) (scan : List Bool) : Jtag :=
  { j with ir := ir, driving := false, tdo := (false :: scan).take scan.length, byp := scan.getLastD false }

/-- EXTEST (R569): the pins captured are outside the model. The values shifted in drive the outputs. -/
def execExtest (sg : Fin 8) (scan : List Bool) (s : State) : Out :=
  onSeg sg s fun s =>
    if !(s.seg sg).extestOk then s.mod sg fun g => g.modJtag fun j => j.bypassScan 0x00 scan
    else
      { (s.mod sg fun g => g.modJtag fun j =>
          { j with ir := 0x00, preload := scan, driving := true
                   tdo := (List.range scan.length).map fun i => Config.freeBool (s.freeCtr + i) }) with
        freeCtr := s.freeCtr + scan.length }

/-- SAMPLE/PRELOAD (R569): the pins are captured and shifted out as the preloaded values are shifted in. -/
def execSamplePreload (sg : Fin 8) (pins : List Bool) (scan : List Bool) (s : State) : Out :=
  onSeg sg s fun s => s.mod sg fun g => g.modJtag fun j => { j with ir := 0x01, preload := scan, driving := false, tdo := pins }

/-- IDCODE (R569). -/
def execIdcode (sg : Fin 8) (s : State) : Out :=
  onSeg sg s fun s => s.mod sg fun g => g.modJtag fun j => { j with ir := 0x02, driving := false, tdo := scanBits 32 0x1A6B70D3 }

/-- Whether a code acts as BYPASS now (R569). -/
def Segment.actsAsBypass (g : Segment) (code : Nat) : Bool :=
  if code == 0x00 then !g.extestOk
  else if code == 0x01 || code == 0x02 then false
  else if code == 0x10 then !g.ctrlOk
  else if code == 0x11 then !g.imageLoadOk
  else true

/-- BYPASS (R569): 0xFF, every code without an instruction, and an instruction that is not available. -/
def execBypass (sg : Fin 8) (code : BitVec 8) (tdi : Bool) (s : State) : Out :=
  onSeg sg s fun s =>
    if (s.seg sg).actsAsBypass code.toNat then s.mod sg fun g => g.modJtag fun j => j.bypassScan code [tdi] else s

/-! ## CTRL_ACCESS (R570) -/

/-- The value Capture-DR loads (Table 14.11). -/
def Jtag.captured (j : Jtag) : Nat :=
  j.data.toNat * 256 + j.status.toNat * 16 + j.error.toNat * 2 + j.busy.isSome.toNat

/-- Whether a value shifted in is well-formed (Table 14.10): what must be zero is zero. -/
def scanOk (v : BitVec 72) : Bool :=
  let d := v.toNat / 256
  let op := v.toNat / 64 % 4
  v.toNat % 16 == 0 &&
  (if op == 1 then d < 0x200000 && d % 4 == 0
   else if op == 3 && v.toNat / 32 % 2 == 0 then d < 2 ^ 32
   else true)

/-- A CTRL_ACCESS scan with an operation: in BYPASS while it is not available; else what was captured is shifted out, and the value takes
effect unless it is refused. A scan whose OP is another's does nothing here. -/
def ctrlScan (sg : Fin 8) (op : Nat) (v : BitVec 72) (s : State) (act : Jtag → Jtag) : Out :=
  onSeg sg s fun s =>
    if v.toNat / 64 % 4 != op then s
    else if !(s.seg sg).ctrlOk then s.mod sg fun g => g.modJtag fun j => j.bypassScan 0x10 (scanBits 72 v.toNat)
    else
      s.mod sg fun g => g.modJtag fun j =>
        let bad := !scanOk v || (op != 0 && j.busy.isSome)
        let k := { j with ir := 0x10, driving := false, tdo := scanBits 72 j.captured, error := bad }
        if bad then k else act k

/-- CTRL_ACCESS POLL (R570). -/
def execCtrlAccessPoll (sg : Fin 8) (scan : BitVec 72) (s : State) : Out := ctrlScan sg 0 scan s id

/-- CTRL_ACCESS ADDRESS (R570). -/
def execCtrlAccessAddress (sg : Fin 8) (scan : BitVec 72) (s : State) : Out :=
  ctrlScan sg 1 scan s fun j => { j with addr := scan.toNat / 256, data := 0 }

/-- CTRL_ACCESS READ (R570): the read starts. -/
def execCtrlAccessRead (sg : Fin 8) (scan : BitVec 72) (s : State) : Out :=
  ctrlScan sg 2 scan s fun j => { j with busy := some (false, scan.getLsbD 5, scan.getLsbD 4, 0) }

/-- CTRL_ACCESS WRITE (R570): the write starts. -/
def execCtrlAccessWrite (sg : Fin 8) (scan : BitVec 72) (s : State) : Out :=
  ctrlScan sg 3 scan s fun j => { j with busy := some (true, scan.getLsbD 5, scan.getLsbD 4, BitVec.ofNat 64 (scan.toNat / 256)) }

/-- CTRL_ACCESS_DONE (R570): the access in progress completes, as agent class 7. -/
def execCtrlAccessDone (sg : Fin 8) (s : State) : Out :=
  onSeg sg s fun s =>
    let g := s.seg sg
    match g.jtag.busy with
    | none => s
    | some (write, wide, inc, v) =>
      let a := g.jtag.addr
      let ag : Agent := { cls := .jtag, seg := g.segId, ctx := 0 }
      let sz : Sz := if wide then .w64 else if a / 4 % 2 == 1 then .hi32 else .lo32
      let t := if write then s.ctlWrite sg ag a sz v else s.ctlRead sg ag a sz
      let r := (t.seg sg).acc
      -- an access that waits for its domain's clock stays in progress
      if g.ctlWaits a sz write then t
      else t.mod sg fun g => g.modJtag fun j =>
        { j with busy := none, status := r.status, data := if write then 0 else r.data
                 addr := if inc then a + (if wide then 8 else 4) else a }

/-- TRST (R569, R570): the port resets to IDCODE, and the address register to 0. -/
def execTrst (sg : Fin 8) (s : State) : Out :=
  onSeg sg s fun s => s.mod sg fun g => g.modJtag fun j => { j with ir := 0x02, driving := false, byp := false, addr := 0 }

end Sys2Proof.Machine
end

