-- ==== Sys2Proof/Machine/LoadStore.lean ====
section
/-! DEFINITION. Lunchbox loads and stores (R96, R109). -/

namespace Sys2Proof.Machine

open Sys2Proof

/-- The exceptions of a lunchbox access of `n` bytes, in the order of R140: EX_ALIGN, EX_BOUNDS, and where the word is read
EX_POISON. -/
def lbExc (k : Core) (a : Word) (n : Nat) (reads : Bool) : Option (BitVec 4 × Word) :=
  if a.toNat % n != 0 then some (0x3, a)
  else if a.toNat + n > 0x10000 then some (0x4, a)
  else if reads && k.lbBad.contains (a.toNat / 8) then some (0x6, a)
  else none

/-- The low bytes of a word as a signed value. -/
def signed (n v : Nat) : Word := if v ≥ 2 ^ (8 * n - 1) then BitVec.ofNat 64 (2 ^ 64 - 2 ^ (8 * n) + v) else BitVec.ofNat 64 v

/-- A load of `n` bytes at g[a] + IMM (R109, Table 3.5). -/
def loadOp (sg : Fin 8) (c : Fin 18) (op : BitVec 8) (f : IFields) (n : Nat) (isSigned : Bool) (s : State) : Out :=
  runCore sg c op 0 f false
    (fun s k =>
      match lbExc k (k.ea f) n true with
      | some (code, info) => .exc code info
      | none =>
        let v := memNat k.lb (k.ea f).toNat n
        .go (s.modCore sg c fun k' => k'.setR f.d (if isSigned then signed n v else BitVec.ofNat 64 v))) s

/-- The lunchbox with `n` bytes of a word stored; a full word is written with its check (R96). -/
def Core.store (k : Core) (a n : Nat) (v : Word) : Core :=
  { k with lb := memPut k.lb a (natBytes (v.toNat % 2 ^ (8 * n)) n), lbBad := if n == 8 then k.lbBad.filter fun w => w != a / 8 else k.lbBad }

/-- A store of the low `n` bytes of g[b] at g[a] + IMM (R96, R109, Table 3.5). -/
def storeOp (sg : Fin 8) (c : Fin 18) (op : BitVec 8) (f : IFields) (n : Nat) (s : State) : Out :=
  runCore sg c op 0 f false
    (fun s k =>
      match lbExc k (k.ea f) n (n != 8) with
      | some (code, info) => .exc code info
      | none => .go (s.modCore sg c fun k' => k'.store (k.ea f).toNat n (k.r f.b))) s

/-- LD8 (Table 3.5). -/
def execLd8 (sg : Fin 8) (c : Fin 18) (f : IFields) (s : State) : Out := loadOp sg c 0x30 f 1 false s

/-- LD16 (Table 3.5). -/
def execLd16 (sg : Fin 8) (c : Fin 18) (f : IFields) (s : State) : Out := loadOp sg c 0x31 f 2 false s

/-- LD32 (Table 3.5). -/
def execLd32 (sg : Fin 8) (c : Fin 18) (f : IFields) (s : State) : Out := loadOp sg c 0x32 f 4 false s

/-- LD64 (Table 3.5). -/
def execLd64 (sg : Fin 8) (c : Fin 18) (f : IFields) (s : State) : Out := loadOp sg c 0x33 f 8 false s

/-- LDS8 (Table 3.5). -/
def execLds8 (sg : Fin 8) (c : Fin 18) (f : IFields) (s : State) : Out := loadOp sg c 0x34 f 1 true s

/-- LDS16 (Table 3.5). -/
def execLds16 (sg : Fin 8) (c : Fin 18) (f : IFields) (s : State) : Out := loadOp sg c 0x35 f 2 true s

/-- LDS32 (Table 3.5). -/
def execLds32 (sg : Fin 8) (c : Fin 18) (f : IFields) (s : State) : Out := loadOp sg c 0x36 f 4 true s

/-- ST8 (R96, Table 3.5). -/
def execSt8 (sg : Fin 8) (c : Fin 18) (f : IFields) (s : State) : Out := storeOp sg c 0x38 f 1 s

/-- ST16 (R96, Table 3.5). -/
def execSt16 (sg : Fin 8) (c : Fin 18) (f : IFields) (s : State) : Out := storeOp sg c 0x39 f 2 s

/-- ST32 (R96, Table 3.5). -/
def execSt32 (sg : Fin 8) (c : Fin 18) (f : IFields) (s : State) : Out := storeOp sg c 0x3A f 4 s

/-- ST64 (R96, Table 3.5). -/
def execSt64 (sg : Fin 8) (c : Fin 18) (f : IFields) (s : State) : Out := storeOp sg c 0x3B f 8 s

end Sys2Proof.Machine
end

