-- ==== Sys2Proof/Machine/Dispatch.lean ====
section
/-! DEFINITION. The dispatch of the commands: one arm a constructor, each one call of the command's meaning. -/

namespace Sys2Proof.Machine

open Sys2Proof

def exec (i : Instr) (s : State) : Host.Outcome State Fault Refusal :=
  match i with
  | .coldReset straps => Sys2Proof.Machine.execColdReset straps s
  | .pllLock sg => Sys2Proof.Machine.execPllLock sg s
  | .pllLossOfLock sg => Sys2Proof.Machine.execPllLossOfLock sg s
  | .selfTestDone sg rows badCheckers voterBad => Sys2Proof.Machine.execSelfTestDone sg rows badCheckers voterBad s
  | .memoryClearDone sg => Sys2Proof.Machine.execMemoryClearDone sg s
  | .bootGo sg ag => Sys2Proof.Machine.execBootGo sg ag s
  | .imageWrite off data => Sys2Proof.Machine.execImageWrite off data s
  | .imageGo => Sys2Proof.Machine.execImageGo s
  | .imageLoad sg off data last => Sys2Proof.Machine.execImageLoad sg off data last s
  | .stewardReady sg ag => Sys2Proof.Machine.execStewardReady sg ag s
  | .stewardReadyTimeout sg => Sys2Proof.Machine.execStewardReadyTimeout sg s
  | .segBootAreaWrite sg ag sz v => Sys2Proof.Machine.execSegBootAreaWrite sg ag sz v s
  | .warmResetRequest sg => Sys2Proof.Machine.execWarmResetRequest sg s
  | .scrubLimitExpiry sg => Sys2Proof.Machine.execScrubLimitExpiry sg s
  | .segResetWarm sg ag => Sys2Proof.Machine.execSegResetWarm sg ag s
  | .partialReset sg ag domain => Sys2Proof.Machine.execPartialReset sg ag domain s
  | .stewardUpdate sg ch => Sys2Proof.Machine.execStewardUpdate sg ch s
  | .prepare sg => Sys2Proof.Machine.execPrepare sg s
  | .dispatchResumeLimit sg => Sys2Proof.Machine.execDispatchResumeLimit sg s
  | .keeperUpdate sg ch => Sys2Proof.Machine.execKeeperUpdate sg ch s
  | .segNodeidWrite sg ag sz v => Sys2Proof.Machine.execSegNodeidWrite sg ag sz v s
  | .bridgeFlitLand sg x => Sys2Proof.Machine.execBridgeFlitLand sg x s
  | .bridgeCredit sg b => Sys2Proof.Machine.execBridgeCredit sg b s
  | .bridgeParityError sg b lane => Sys2Proof.Machine.execBridgeParityError sg b lane s
  | .bridgeResetMessage sg b => Sys2Proof.Machine.execBridgeResetMessage sg b s
  | .bridgeLinkUp sg x => Sys2Proof.Machine.execBridgeLinkUp sg x s
  | .bridgeRetry sg b ag => Sys2Proof.Machine.execBridgeRetry sg b ag s
  | .dptWrite sg req => Sys2Proof.Machine.execDptWrite sg req s
  | .dptRead sg req => Sys2Proof.Machine.execDptRead sg req s
  | .dptControlAccess sg write req => Sys2Proof.Machine.execDptControlAccess sg write req s
  | .dpmResponse sg ch id status => Sys2Proof.Machine.execDpmResponse sg ch id status s
  | .dpmTimeout sg ch id => Sys2Proof.Machine.execDpmTimeout sg ch id s
  | .requestIssue sg req => Sys2Proof.Machine.execRequestIssue sg req s
  | .homeExecute sg idx => Sys2Proof.Machine.execHomeExecute sg idx s
  | .guardFill sg region st => Sys2Proof.Machine.execGuardFill sg region st s
  | .atomicExecute sg idx bad => Sys2Proof.Machine.execAtomicExecute sg idx bad s
  | .controlAtomAccess sg idx => Sys2Proof.Machine.execControlAtomAccess sg idx s
  | .cpyExecute sg idx bad => Sys2Proof.Machine.execCpyExecute sg idx bad s
  | .fwdWrExecute sg idx => Sys2Proof.Machine.execFwdWrExecute sg idx s
  | .replyLand sg bad => Sys2Proof.Machine.execReplyLand sg bad s
  | .tagTimeout sg tag => Sys2Proof.Machine.execTagTimeout sg tag s
  | .tagQuarantineEnd sg tag => Sys2Proof.Machine.execTagQuarantineEnd sg tag s
  | .busyRetry sg req => Sys2Proof.Machine.execBusyRetry sg req s
  | .mergeFlushAge sg idx bad => Sys2Proof.Machine.execMergeFlushAge sg idx bad s
  | .mergeFlushCmd sg ag => Sys2Proof.Machine.execMergeFlushCmd sg ag s
  | .segFenceRead sg ch id ctx => Sys2Proof.Machine.execSegFenceRead sg ch id ctx s
  | .add sg c f => Sys2Proof.Machine.execAdd sg c f s
  | .sub sg c f => Sys2Proof.Machine.execSub sg c f s
  | .and sg c f => Sys2Proof.Machine.execAnd sg c f s
  | .or sg c f => Sys2Proof.Machine.execOr sg c f s
  | .xor sg c f => Sys2Proof.Machine.execXor sg c f s
  | .shl sg c f => Sys2Proof.Machine.execShl sg c f s
  | .shr sg c f => Sys2Proof.Machine.execShr sg c f s
  | .sra sg c f => Sys2Proof.Machine.execSra sg c f s
  | .mul sg c f => Sys2Proof.Machine.execMul sg c f s
  | .mulh sg c f => Sys2Proof.Machine.execMulh sg c f s
  | .mulhu sg c f => Sys2Proof.Machine.execMulhu sg c f s
  | .div sg c f => Sys2Proof.Machine.execDiv sg c f s
  | .divu sg c f => Sys2Proof.Machine.execDivu sg c f s
  | .rem sg c f => Sys2Proof.Machine.execRem sg c f s
  | .remu sg c f => Sys2Proof.Machine.execRemu sg c f s
  | .min sg c f => Sys2Proof.Machine.execMin sg c f s
  | .max sg c f => Sys2Proof.Machine.execMax sg c f s
  | .minu sg c f => Sys2Proof.Machine.execMinu sg c f s
  | .maxu sg c f => Sys2Proof.Machine.execMaxu sg c f s
  | .movh sg c f => Sys2Proof.Machine.execMovh sg c f s
  | .popc sg c f => Sys2Proof.Machine.execPopc sg c f s
  | .clz sg c f => Sys2Proof.Machine.execClz sg c f s
  | .ctz sg c f => Sys2Proof.Machine.execCtz sg c f s
  | .extu sg c f => Sys2Proof.Machine.execExtu sg c f s
  | .ceq sg c f => Sys2Proof.Machine.execCeq sg c f s
  | .cne sg c f => Sys2Proof.Machine.execCne sg c f s
  | .clt sg c f => Sys2Proof.Machine.execClt sg c f s
  | .cltu sg c f => Sys2Proof.Machine.execCltu sg c f s
  | .cge sg c f => Sys2Proof.Machine.execCge sg c f s
  | .cgeu sg c f => Sys2Proof.Machine.execCgeu sg c f s
  | .pand sg c f => Sys2Proof.Machine.execPand sg c f s
  | .por sg c f => Sys2Proof.Machine.execPor sg c f s
  | .pxor sg c f => Sys2Proof.Machine.execPxor sg c f s
  | .pset sg c f => Sys2Proof.Machine.execPset sg c f s
  | .ld8 sg c f => Sys2Proof.Machine.execLd8 sg c f s
  | .ld16 sg c f => Sys2Proof.Machine.execLd16 sg c f s
  | .ld32 sg c f => Sys2Proof.Machine.execLd32 sg c f s
  | .ld64 sg c f => Sys2Proof.Machine.execLd64 sg c f s
  | .lds8 sg c f => Sys2Proof.Machine.execLds8 sg c f s
  | .lds16 sg c f => Sys2Proof.Machine.execLds16 sg c f s
  | .lds32 sg c f => Sys2Proof.Machine.execLds32 sg c f s
  | .st8 sg c f => Sys2Proof.Machine.execSt8 sg c f s
  | .st16 sg c f => Sys2Proof.Machine.execSt16 sg c f s
  | .st32 sg c f => Sys2Proof.Machine.execSt32 sg c f s
  | .st64 sg c f => Sys2Proof.Machine.execSt64 sg c f s
  | .movs sg c f => Sys2Proof.Machine.execMovs sg c f s
  | .sets sg c f => Sys2Proof.Machine.execSets sg c f s
  | .cld sg c f => Sys2Proof.Machine.execCld sg c f s
  | .cst sg c f => Sys2Proof.Machine.execCst sg c f s
  | .br sg c f => Sys2Proof.Machine.execBr sg c f s
  | .call sg c f => Sys2Proof.Machine.execCall sg c f s
  | .ret sg c f => Sys2Proof.Machine.execRet sg c f s
  | .yield sg c f => Sys2Proof.Machine.execYield sg c f s
  | .halt sg c f => Sys2Proof.Machine.execHalt sg c f s
  | .eret sg c f => Sys2Proof.Machine.execEret sg c f s
  | .get sg c f => Sys2Proof.Machine.execGet sg c f s
  | .put sg c f => Sys2Proof.Machine.execPut sg c f s
  | .copy sg c f => Sys2Proof.Machine.execCopy sg c f s
  | .movt sg c f => Sys2Proof.Machine.execMovt sg c f s
  | .atom sg c f => Sys2Proof.Machine.execAtom sg c f s
  | .atomf sg c f => Sys2Proof.Machine.execAtomf sg c f s
  | .cjoin sg c f => Sys2Proof.Machine.execCjoin sg c f s
  | .chunk sg c f => Sys2Proof.Machine.execChunk sg c f s
  | .camp sg c f => Sys2Proof.Machine.execCamp sg c f s
  | .vote sg c f => Sys2Proof.Machine.execVote sg c f s
  | .ride sg c f => Sys2Proof.Machine.execRide sg c f s
  | .sig sg c f => Sys2Proof.Machine.execSig sg c f s
  | .waits sg c f st => Sys2Proof.Machine.execWaits sg c f st s
  | .waite sg c f => Sys2Proof.Machine.execWaite sg c f s
  | .fence sg c f => Sys2Proof.Machine.execFence sg c f s
  | .rdt sg c f => Sys2Proof.Machine.execRdt sg c f s
  | .tkt sg c f => Sys2Proof.Machine.execTkt sg c f s
  | .recall sg c f => Sys2Proof.Machine.execRecall sg c f s
  | .exWatchdog sg c => Sys2Proof.Machine.execExWatchdog sg c s
  | .waitsPoll sg c st => Sys2Proof.Machine.execWaitsPoll sg c st s
  | .waitsTimeout sg c => Sys2Proof.Machine.execWaitsTimeout sg c s
  | .waiteTimeout sg c => Sys2Proof.Machine.execWaiteTimeout sg c s
  | .lineIssue sg desc => Sys2Proof.Machine.execLineIssue sg desc s
  | .instructionFetchMiss sg c st => Sys2Proof.Machine.execInstructionFetchMiss sg c st s
  | .ticketResume sg n => Sys2Proof.Machine.execTicketResume sg n s
  | .curLbDataAccess sg c ag v => Sys2Proof.Machine.execCurLbDataAccess sg c ag v s
  | .icinv sg c ag => Sys2Proof.Machine.execIcinv sg c ag s
  | .curCodeWrite sg c ag sz v => Sys2Proof.Machine.execCurCodeWrite sg c ag sz v s
  | .coreStop sg c => Sys2Proof.Machine.execCoreStop sg c s
  | .trailSubmit sg ag v => Sys2Proof.Machine.execTrailSubmit sg ag v s
  | .trailAdmit sg st => Sys2Proof.Machine.execTrailAdmit sg st s
  | .ticketAdmit sg slot st gateSt => Sys2Proof.Machine.execTicketAdmit sg slot st gateSt s
  | .gatePoll sg n st => Sys2Proof.Machine.execGatePoll sg n st s
  | .ticketDispatch sg st => Sys2Proof.Machine.execTicketDispatch sg st s
  | .ticketComplete sg n => Sys2Proof.Machine.execTicketComplete sg n s
  | .cqHeadPoll sg ring => Sys2Proof.Machine.execCqHeadPoll sg ring s
  | .cqFullTimeout sg ring => Sys2Proof.Machine.execCqFullTimeout sg ring s
  | .trlCancelTicket sg ag n => Sys2Proof.Machine.execTrlCancelTicket sg ag n s
  | .trlCancelTrail sg ag slot => Sys2Proof.Machine.execTrlCancelTrail sg ag slot s
  | .trlCancelContext sg ag ctx => Sys2Proof.Machine.execTrlCancelContext sg ag ctx s
  | .trlSaveBaseWrite sg ag sz v => Sys2Proof.Machine.execTrlSaveBaseWrite sg ag sz v s
  | .movtTileStart sg desc => Sys2Proof.Machine.execMovtTileStart sg desc s
  | .clvHcBaseWrite sg ag sz v => Sys2Proof.Machine.execClvHcBaseWrite sg ag sz v s
  | .groupOpen sg ag grp st stList stCtx => Sys2Proof.Machine.execGroupOpen sg ag grp st stList stCtx s
  | .groupOpenDone sg grp => Sys2Proof.Machine.execGroupOpenDone sg grp s
  | .groupClose sg ag grp => Sys2Proof.Machine.execGroupClose sg ag grp s
  | .groupCloseDone sg grp => Sys2Proof.Machine.execGroupCloseDone sg grp s
  | .groupAbortCommand sg ag grp => Sys2Proof.Machine.execGroupAbortCommand sg ag grp s
  | .operationStart sg grp => Sys2Proof.Machine.execOperationStart sg grp s
  | .chunkStart sg grp tree => Sys2Proof.Machine.execChunkStart sg grp tree s
  | .chunkUp sg => Sys2Proof.Machine.execChunkUp sg s
  | .chunkDown sg => Sys2Proof.Machine.execChunkDown sg s
  | .chunkRel sg => Sys2Proof.Machine.execChunkRel sg s
  | .chunkNak sg => Sys2Proof.Machine.execChunkNak sg s
  | .notReadyRepeat sg grp => Sys2Proof.Machine.execNotReadyRepeat sg grp s
  | .collectiveRepeat sg grp tree => Sys2Proof.Machine.execCollectiveRepeat sg grp tree s
  | .reductionStep sg grp serial bad => Sys2Proof.Machine.execReductionStep sg grp serial bad s
  | .reductionStepDone sg grp x => Sys2Proof.Machine.execReductionStepDone sg grp x s
  | .chunkResultWrite sg grp serial st bad => Sys2Proof.Machine.execChunkResultWrite sg grp serial st bad s
  | .groupCqFullTimeout sg grp => Sys2Proof.Machine.execGroupCqFullTimeout sg grp s
  | .closingPartSend sg grp => Sys2Proof.Machine.execClosingPartSend sg grp s
  | .stragglerEvent sg grp => Sys2Proof.Machine.execStragglerEvent sg grp s
  | .hardTimeout sg grp => Sys2Proof.Machine.execHardTimeout sg grp s
  | .groupAbort sg => Sys2Proof.Machine.execGroupAbort sg s
  | .abortDecisionTimeout sg grp => Sys2Proof.Machine.execAbortDecisionTimeout sg grp s
  | .campFlit sg => Sys2Proof.Machine.execCampFlit sg s
  | .voteFlit sg => Sys2Proof.Machine.execVoteFlit sg s
  | .stileRelease sg grp => Sys2Proof.Machine.execStileRelease sg grp s
  | .ctxBaseWrite sg ag sz v st => Sys2Proof.Machine.execCtxBaseWrite sg ag sz v st s
  | .contextLoad sg ag ctx st => Sys2Proof.Machine.execContextLoad sg ag ctx st s
  | .contextEvict sg ag ctx => Sys2Proof.Machine.execContextEvict sg ag ctx s
  | .contextEvictDone sg => Sys2Proof.Machine.execContextEvictDone sg s
  | .contextTeardown sg ag ctx => Sys2Proof.Machine.execContextTeardown sg ag ctx s
  | .rangeMissFill sg c st => Sys2Proof.Machine.execRangeMissFill sg c st s
  | .guardBaseWrite sg ag sz v => Sys2Proof.Machine.execGuardBaseWrite sg ag sz v s
  | .guardSizeWrite sg ag sz v => Sys2Proof.Machine.execGuardSizeWrite sg ag sz v s
  | .guardInval sg ag idx => Sys2Proof.Machine.execGuardInval sg ag idx s
  | .recallSubmit sg ag v => Sys2Proof.Machine.execRecallSubmit sg ag v s
  | .recallAck sg => Sys2Proof.Machine.execRecallAck sg s
  | .hotDecay sg => Sys2Proof.Machine.execHotDecay sg s
  | .migrateDone sg ag v => Sys2Proof.Machine.execMigrateDone sg ag v s
  | .migrateTimeout sg req => Sys2Proof.Machine.execMigrateTimeout sg req s
  | .loadPublish sg => Sys2Proof.Machine.execLoadPublish sg s
  | .replicaInstall sg => Sys2Proof.Machine.execReplicaInstall sg s
  | .replicaFrameReturn sg => Sys2Proof.Machine.execReplicaFrameReturn sg s
  | .plcReplicateOff sg ag => Sys2Proof.Machine.execPlcReplicateOff sg ag s
  | .fhWindowWrite sg ag sz v => Sys2Proof.Machine.execFhWindowWrite sg ag sz v s
  | .fhDeclare sg ag v => Sys2Proof.Machine.execFhDeclare sg ag v s
  | .fhRelease sg ag v => Sys2Proof.Machine.execFhRelease sg ag v s
  | .movePeriod sg => Sys2Proof.Machine.execMovePeriod sg s
  | .movePassDone sg => Sys2Proof.Machine.execMovePassDone sg s
  | .moveFlipDone sg => Sys2Proof.Machine.execMoveFlipDone sg s
  | .flitLand sg port => Sys2Proof.Machine.execFlitLand sg port s
  | .flitInject sg isX idx => Sys2Proof.Machine.execFlitInject sg isX idx s
  | .ageClockAlign sg => Sys2Proof.Machine.execAgeClockAlign sg s
  | .throttleUpdate sg => Sys2Proof.Machine.execThrottleUpdate sg s
  | .signpostWrite sg ag table idx sz v => Sys2Proof.Machine.execSignpostWrite sg ag table idx sz v s
  | .signpostSeal sg ag table => Sys2Proof.Machine.execSignpostSeal sg ag table s
  | .signpostOpen sg ag table => Sys2Proof.Machine.execSignpostOpen sg ag table s
  | .epochFlip sg ag => Sys2Proof.Machine.execEpochFlip sg ag s
  | .tableRetired sg => Sys2Proof.Machine.execTableRetired sg s
  | .frameTransmit sg p => Sys2Proof.Machine.execFrameTransmit sg p s
  | .dataFrame sg p f corr => Sys2Proof.Machine.execDataFrame sg p f corr s
  | .idleFrame sg p f corr => Sys2Proof.Machine.execIdleFrame sg p f corr s
  | .nakFrame sg p f corr => Sys2Proof.Machine.execNakFrame sg p f corr s
  | .trailerFrame sg p f corr => Sys2Proof.Machine.execTrailerFrame sg p f corr s
  | .badFrame sg p => Sys2Proof.Machine.execBadFrame sg p s
  | .hushFrame sg p => Sys2Proof.Machine.execHushFrame sg p s
  | .retrainReq sg p f corr => Sys2Proof.Machine.execRetrainReq sg p f corr s
  | .retrainAck sg p f corr => Sys2Proof.Machine.execRetrainAck sg p f corr s
  | .widthReq sg p f corr => Sys2Proof.Machine.execWidthReq sg p f corr s
  | .widthAck sg p f corr => Sys2Proof.Machine.execWidthAck sg p f corr s
  | .resume sg p f corr => Sys2Proof.Machine.execResume sg p f corr s
  | .replayTimerExpiry sg p => Sys2Proof.Machine.execReplayTimerExpiry sg p s
  | .nakRepeatExpiry sg p => Sys2Proof.Machine.execNakRepeatExpiry sg p s
  | .errorWindowEnd sg p => Sys2Proof.Machine.execErrorWindowEnd sg p s
  | .requestRepeatLimit sg p => Sys2Proof.Machine.execRequestRepeatLimit sg p s
  | .retrainLimitExpiry sg p => Sys2Proof.Machine.execRetrainLimitExpiry sg p s
  | .retrainWaitEnd sg p => Sys2Proof.Machine.execRetrainWaitEnd sg p s
  | .widthLimitExpiry sg p => Sys2Proof.Machine.execWidthLimitExpiry sg p s
  | .trailerDue sg p => Sys2Proof.Machine.execTrailerDue sg p s
  | .linkEnable sg p ag => Sys2Proof.Machine.execLinkEnable sg p ag s
  | .linkDisable sg p ag => Sys2Proof.Machine.execLinkDisable sg p ag s
  | .linkRetry sg p ag => Sys2Proof.Machine.execLinkRetry sg p ag s
  | .linkRetrain sg p ag => Sys2Proof.Machine.execLinkRetrain sg p ag s
  | .linkRelease sg p ag => Sys2Proof.Machine.execLinkRelease sg p ag s
  | .linkWidthRequest sg p ag width => Sys2Proof.Machine.execLinkWidthRequest sg p ag width s
  | .sealSlotArm sg p ag slot ctx => Sys2Proof.Machine.execSealSlotArm sg p ag slot ctx s
  | .sealSlotDisarm sg p ag slot => Sys2Proof.Machine.execSealSlotDisarm sg p ag slot s
  | .trainingPhaseEnd sg p obs => Sys2Proof.Machine.execTrainingPhaseEnd sg p obs s
  | .trainingPhaseLimit sg p => Sys2Proof.Machine.execTrainingPhaseLimit sg p s
  | .blockLockLoss sg p x => Sys2Proof.Machine.execBlockLockLoss sg p x s
  | .shadow sg p l => Sys2Proof.Machine.execShadow sg p l s
  | .swapped sg p l => Sys2Proof.Machine.execSwapped sg p l s
  | .calDone sg p => Sys2Proof.Machine.execCalDone sg p s
  | .calFail sg p => Sys2Proof.Machine.execCalFail sg p s
  | .flaskReq sg p => Sys2Proof.Machine.execFlaskReq sg p s
  | .flaskAck sg p => Sys2Proof.Machine.execFlaskAck sg p s
  | .flaskNak sg p => Sys2Proof.Machine.execFlaskNak sg p s
  | .handoverStart sg p => Sys2Proof.Machine.execHandoverStart sg p s
  | .handoverSwap sg p => Sys2Proof.Machine.execHandoverSwap sg p s
  | .calibrationCountEnd sg p errs => Sys2Proof.Machine.execCalibrationCountEnd sg p errs s
  | .calLimitExpiry sg p => Sys2Proof.Machine.execCalLimitExpiry sg p s
  | .syncErrorHandover sg p lane => Sys2Proof.Machine.execSyncErrorHandover sg p lane s
  | .kettleEntry sg p => Sys2Proof.Machine.execKettleEntry sg p s
  | .dozeRequest sg p ag => Sys2Proof.Machine.execDozeRequest sg p ag s
  | .dozeWake sg p => Sys2Proof.Machine.execDozeWake sg p s
  | .laneWake sg p ag => Sys2Proof.Machine.execLaneWake sg p ag s
  | .flaskRequest sg p ag => Sys2Proof.Machine.execFlaskRequest sg p ag s
  | .flaskEntry sg p => Sys2Proof.Machine.execFlaskEntry sg p s
  | .signalDetect sg p => Sys2Proof.Machine.execSignalDetect sg p s
  | .relockDone sg p seeds => Sys2Proof.Machine.execRelockDone sg p seeds s
  | .relockTimeout sg p => Sys2Proof.Machine.execRelockTimeout sg p s
  | .laneRateWrite sg p ag sz v => Sys2Proof.Machine.execLaneRateWrite sg p ag sz v s
  | .domainWake sg d => Sys2Proof.Machine.execDomainWake sg d s
  | .pwrAckRise sg d => Sys2Proof.Machine.execPwrAckRise sg d s
  | .pwrAckFall sg d => Sys2Proof.Machine.execPwrAckFall sg d s
  | .pwrAckTimeout sg d => Sys2Proof.Machine.execPwrAckTimeout sg d s
  | .domainLost sg d => Sys2Proof.Machine.execDomainLost sg d s
  | .domainSleep sg d => Sys2Proof.Machine.execDomainSleep sg d s
  | .pwrHoldWrite sg ag sz v => Sys2Proof.Machine.execPwrHoldWrite sg ag sz v s
  | .keeperTimer sg => Sys2Proof.Machine.execKeeperTimer sg s
  | .stewardTimer sg => Sys2Proof.Machine.execStewardTimer sg s
  | .powerWindowEnd sg => Sys2Proof.Machine.execPowerWindowEnd sg s
  | .rampClassWrite sg ag sz v => Sys2Proof.Machine.execRampClassWrite sg ag sz v s
  | .kettleHoldExpiry sg p => Sys2Proof.Machine.execKettleHoldExpiry sg p s
  | .flaskAfterExpiry sg p => Sys2Proof.Machine.execFlaskAfterExpiry sg p s
  | .stilePortWake sg grp => Sys2Proof.Machine.execStilePortWake sg grp s
  | .coarseningEnd sg => Sys2Proof.Machine.execCoarseningEnd sg s
  | .suspectExpiry sg bank row => Sys2Proof.Machine.execSuspectExpiry sg bank row s
  | .bankFence sg ag bank => Sys2Proof.Machine.execBankFence sg ag bank s
  | .bankFenceDrainDone sg bank => Sys2Proof.Machine.execBankFenceDrainDone sg bank s
  | .bankUnfence sg ag bank => Sys2Proof.Machine.execBankUnfence sg ag bank s
  | .unfenceTestDone sg bank rows => Sys2Proof.Machine.execUnfenceTestDone sg bank rows s
  | .critLatchReload sg word odd latchBad => Sys2Proof.Machine.execCritLatchReload sg word odd latchBad s
  | .hmpInval sg ag v => Sys2Proof.Machine.execHmpInval sg ag v s
  | .fltHeadWrite sg ag v => Sys2Proof.Machine.execFltHeadWrite sg ag v s
  | .fltPost sg ag v => Sys2Proof.Machine.execFltPost sg ag v s
  | .ovfClear sg ag v => Sys2Proof.Machine.execOvfClear sg ag v s
  | .suppClear sg ag => Sys2Proof.Machine.execSuppClear sg ag s
  | .kdAdd sg ag node => Sys2Proof.Machine.execKdAdd sg ag node s
  | .kdRemove sg ag node => Sys2Proof.Machine.execKdRemove sg ag node s
  | .kdClear sg ag => Sys2Proof.Machine.execKdClear sg ag s
  | .quote sg ch => Sys2Proof.Machine.execQuote sg ch s
  | .sealLoad sg ch => Sys2Proof.Machine.execSealLoad sg ch s
  | .sealTeardown sg ch => Sys2Proof.Machine.execSealTeardown sg ch s
  | .guardSet sg ch => Sys2Proof.Machine.execGuardSet sg ch s
  | .sealArmLinks sg ch => Sys2Proof.Machine.execSealArmLinks sg ch s
  | .hostSpdm sg ch => Sys2Proof.Machine.execHostSpdm sg ch s
  | .hostCopy sg ch data tags => Sys2Proof.Machine.execHostCopy sg ch data tags s
  | .fenceLane sg ch => Sys2Proof.Machine.execFenceLane sg ch s
  | .getVersion ses => Sys2Proof.Machine.execGetVersion ses s
  | .getCapabilities ses => Sys2Proof.Machine.execGetCapabilities ses s
  | .negotiateAlgorithms ses asym hash => Sys2Proof.Machine.execNegotiateAlgorithms ses asym hash s
  | .getDigests ses => Sys2Proof.Machine.execGetDigests ses s
  | .getCertificate ses slot off len => Sys2Proof.Machine.execGetCertificate ses slot off len s
  | .challenge ses slot nonce => Sys2Proof.Machine.execChallenge ses slot nonce s
  | .getMeasurements ses idx nonce => Sys2Proof.Machine.execGetMeasurements ses idx nonce s
  | .keyExchange ses slot pub => Sys2Proof.Machine.execKeyExchange ses slot pub s
  | .finish ses mac => Sys2Proof.Machine.execFinish ses mac s
  | .unsupportedRequest ses code => Sys2Proof.Machine.execUnsupportedRequest ses code s
  | .spdmSessionTimeout ses => Sys2Proof.Machine.execSpdmSessionTimeout ses s
  | .status ses => Sys2Proof.Machine.execStatus ses s
  | .operatorAuth ses pub sig => Sys2Proof.Machine.execOperatorAuth ses pub sig s
  | .operatorKeyAdd ses digest => Sys2Proof.Machine.execOperatorKeyAdd ses digest s
  | .operatorKeyRemove ses digest => Sys2Proof.Machine.execOperatorKeyRemove ses digest s
  | .powerSet ses cls stile salt kettle gap => Sys2Proof.Machine.execPowerSet ses cls stile salt kettle gap s
  | .debugUnlock ses => Sys2Proof.Machine.execDebugUnlock ses s
  | .debugLock ses => Sys2Proof.Machine.execDebugLock ses s
  | .teardown ses ctx => Sys2Proof.Machine.execTeardown ses ctx s
  | .setEndpointId op eid => Sys2Proof.Machine.execSetEndpointId op eid s
  | .getEndpointId => Sys2Proof.Machine.execGetEndpointId s
  | .getMctpVersionSupport typ => Sys2Proof.Machine.execGetMctpVersionSupport typ s
  | .getMessageTypeSupport => Sys2Proof.Machine.execGetMessageTypeSupport s
  | .mbxPtrWrite sg ch ag v => Sys2Proof.Machine.execMbxPtrWrite sg ch ag v s
  | .mbxSend sg ch ag notice => Sys2Proof.Machine.execMbxSend sg ch ag notice s
  | .mbxRecv sg ch ag => Sys2Proof.Machine.execMbxRecv sg ch ag s
  | .mbxAck sg ch ag code => Sys2Proof.Machine.execMbxAck sg ch ag code s
  | .mailboxTimeout sg ch => Sys2Proof.Machine.execMailboxTimeout sg ch s
  | .mbxCfgWrite sg ch ag sz v => Sys2Proof.Machine.execMbxCfgWrite sg ch ag sz v s
  | .extest sg scan => Sys2Proof.Machine.execExtest sg scan s
  | .samplePreload sg pins scan => Sys2Proof.Machine.execSamplePreload sg pins scan s
  | .idcode sg => Sys2Proof.Machine.execIdcode sg s
  | .bypass sg code tdi => Sys2Proof.Machine.execBypass sg code tdi s
  | .ctrlAccessPoll sg scan => Sys2Proof.Machine.execCtrlAccessPoll sg scan s
  | .ctrlAccessAddress sg scan => Sys2Proof.Machine.execCtrlAccessAddress sg scan s
  | .ctrlAccessRead sg scan => Sys2Proof.Machine.execCtrlAccessRead sg scan s
  | .ctrlAccessWrite sg scan => Sys2Proof.Machine.execCtrlAccessWrite sg scan s
  | .ctrlAccessDone sg => Sys2Proof.Machine.execCtrlAccessDone sg s
  | .trst sg => Sys2Proof.Machine.execTrst sg s
  | .telSnap sg ag => Sys2Proof.Machine.execTelSnap sg ag s
  | .telPeriodicSnap sg => Sys2Proof.Machine.execTelPeriodicSnap sg s
  | .registerWrite sg ag off sz v => Sys2Proof.Machine.execRegisterWrite sg ag off sz v s
  | .coldResetAssert => Sys2Proof.Machine.execColdResetAssert s
  | .registerRead sg ag off sz => Sys2Proof.Machine.execRegisterRead sg ag off sz s
  | .preambleDetect sg p => Sys2Proof.Machine.execPreambleDetect sg p s
  | .quietPattern sg p => Sys2Proof.Machine.execQuietPattern sg p s
  | .bankClearDone sg bank => Sys2Proof.Machine.execBankClearDone sg bank s
  | .dynamicAddressAssignment addr => Sys2Proof.Machine.execDynamicAddressAssignment addr s

end Sys2Proof.Machine
end

