-- ==== Sys2Proof/Machine/Idle.lean ====
section
/-! DEFINITION. What happens as time passes with no command waiting: one fast-clock cycle of each segment, and at a tick the fault queues
(R486, R488), the error rings (R531), the idle conditions (Table 11.1) and the level readings (Table 13.11). -/

namespace Sys2Proof.Machine

open Sys2Proof

/-- The full record of a sealed context's fault written to its error ring, or dropped and counted where the ring is full (R531, R167). -/
def State.errorCopy (s : State) (sg : Nat) (r : FaultRec) : State :=
  match r.ctx.bind fun c => s.first.kpr.rings.find? fun x => x.ctx == c with
  | none => s
  | some x =>
    let head := memNat (s.seg x.headSeg).hbm x.head 4
    if (x.written + 2 ^ 32 - head) % 2 ^ 32 ≥ 2 ^ x.log2 then s.mod sg fun g => g.bump F.KPR_COUNT_ERR_DROPPED
    else
      let s := s.mod x.seg fun g => g.put 0 (x.base + 32 * (x.written % 2 ^ x.log2)) r.bytes
      s.mod 0 fun g => { g with kpr := { g.kpr with rings := modWhere g.kpr.rings (fun y => y.ctx == x.ctx) fun y =>
        { y with written := (y.written + 1) % 2 ^ 32 } } }

/-- The fault queue of a segment at a tick: up to four records are written (R486), those of sealed contexts are copied, and the steward
is woken (R488). -/
def State.faultTick (s : State) (sg : Nat) : State :=
  let (g, rs) := (s.seg sg).drain s.time 4
  let s := s.setSeg sg g
  let s := (rs.filter FaultRec.isScoped).foldl (fun (s : State) r => s.errorCopy sg r) s
  s.mod sg fun g => if g.flt.wake then { g.wakeDom s.tick domSteward with flt := { g.flt with wake := false } } else g

/-- The level readings taken at a 1 ms boundary (R530). -/
def State.shot (s : State) : State :=
  (List.range s.n).foldl (fun (s : State) k => s.mod k fun g => g.shotLevels s.time k) s

/-- The windows of a segment that have ended are closed (R8). -/
def Segment.closeWindows (g : Segment) (tick : Nat) : Segment :=
  { g with pwr := g.pwr.closeWindow tick, ports := g.ports.map fun q => q.closeWindow tick }

/-- What happens at a tick. -/
def State.tickStep (s : State) : State :=
  let s := s.modAll fun g => g.closeWindows s.tick
  let s := (List.range s.n).foldl (fun (s : State) k => s.faultTick k) s
  let s := s.trackIdle
  if s.tick % 50000 == 0 then s.shot else s

/-- The opcode of the word that a core has fetched for its next instruction: one of its lunchbox, or of its code window once the line is
cached. None for a core that executes nothing, and in mask ROM, whose contents the spec does not give. -/
def Segment.fetched (g : Segment) (tick c : Nat) : Option (BitVec 8) :=
  let k := g.core c
  if k.st != .running || g.stopHeld c || (16 ≤ c && !g.usable tick (c - 15)) || (k.fetchExc c).isSome then none
  else if (k.pc.toNat < 0x10000 && 16 ≤ c) || (inCode c k && k.icache.contains (k.pc.toNat / 128)) then some (g.opcodeAt c)
  else none

/-- Whether no instruction has an opcode (R106). -/
def isReserved (op : BitVec 8) : Bool := (ofOpcode op.toNat { sg := 0, c := 0, f := (courierFields 0).2 }).isNone

/-- A core that has fetched a reserved opcode takes EX_ILLEGAL, whatever the word's guard (R104, R106). -/
def Segment.illegalOpcode (g : Segment) (cycle c : Nat) : Segment :=
  match g.fetched (tickOf cycle) c with
  | some op => if isReserved op then g.raiseExc cycle c op 0x1 0 else g
  | none => g

/-- The rings that became full in a cycle, which are read in their turn from then on (R167). -/
def Segment.ringsFull (g : Segment) (cycle : Nat) : Segment :=
  { g with
    trl := { g.trl with trails := g.trl.trails.map fun x => { x with cq := x.cq.pollFrom cycle } }
    groups := g.groups.map fun x => { x with ring := x.ring.pollFrom cycle }
    leftRings := g.leftRings.map fun x => (x.1, x.2.pollFrom cycle)
    xlt := { g.xlt with resident := g.xlt.resident.map fun r => { r with mig := r.mig.pollFrom cycle } } }

/-- What a segment does in a cycle by itself: the collisions of the last cycle are over (R14), the responses of the target channels are
taken, the flits that have entered a bridge landing look up their signposts, and reserved opcodes are met. -/
def Segment.cycleStep (g : Segment) (cycle : Nat) : Segment :=
  let g := { g.invalTie (tickOf (cycle - 1)) with mbxWas := [], hwSet := [], swSet := [], txn := { g.txn with reads := [] }, ports := g.ports.map Port.runGens }
  let g := (((((g.ringsFull (cycle - 1)).dptTake false).dptTake true).flipLapsed).bridgeLookup cycle 0).bridgeLookup cycle 1
  (List.range 18).foldl (fun (g : Segment) c => g.illegalOpcode cycle c) (g.wakePending (tickOf cycle))

/-- A cycle of one segment: the sleeps of the last cycle are final, its frames, the commands on its fabric-homed regions and its moves go
on, and its cores' stalled issues are tried again. A segment whose fast clock is off does nothing more (R42). -/
def State.segCycle (s : State) (sg : Nat) : State :=
  let s := s.sleepsEnd sg
  if (s.seg sg).boot.pllAt.isNone then s
  else
    let s := (s.mod sg fun g => (g.cycleStep s.time).settleFrames).fhCycle sg
    ((s.moveWatch sg).retryStalls sg).mod sg Segment.countStalls

/-- One fast-clock cycle with no command waiting; nothing happens while RST_N_COLD is low. -/
def State.idle (s : State) : State :=
  if s.inColdReset then s
  else
    let s := ({ s with time := s.time + 1 } : State).breakLoads
    let s := (List.range s.n).foldl State.segCycle s
    if s.time % 21 == 0 then s.tickStep else s

end Sys2Proof.Machine
end

