-- ==== Sys2Proof/Safety.lean ====
section
/-! DEFINITION. The terms in which claims speak of a run: a command that completes, a package that takes commands, memories in
canonical form, a package held in reset. -/

namespace Sys2Proof.Machine

open Sys2Proof

/-- The command answers a next state, and the property holds of it. -/
def Does (c : Instr) (s : State) (P : State → Prop) : Prop := ∃ t, exec c s = .next t ∧ P t

/-- The package has the segment, and RST_N_COLD is high: the segment takes commands. -/
abbrev Takes (s : State) (sg : Fin 8) : Prop := sg.val < s.n ∧ s.inColdReset = false

/-- Nothing but one segment differs between two states. -/
def OnlyIn (sg : Nat) (s t : State) : Prop :=
  t.n = s.n ∧ t.time = s.time ∧ t.inColdReset = s.inColdReset ∧ t.freeCtr = s.freeCtr ∧ t.pending = s.pending ∧
  ∀ i, i ≠ sg → t.seg i = s.seg i

/-- The next state is the old one with one segment changed so. -/
def ActsOn (c : Instr) (s : State) (sg : Nat) (f : Segment → Segment) : Prop := exec c s = .next (s.setSeg sg (f (s.seg sg)))

/-- The state in which an agent's control access acts: what its last 32-bit read captured is gone (R575). -/
def State.accessed (s : State) (ag : Agent) : State := s.dropCaptures ag

/-- The state in which an agent's access to registers of some domains acts: those asleep are being woken (R440). -/
def State.reached (s : State) (sg : Nat) (ag : Agent) (ds : List Nat) : State :=
  (s.dropCaptures ag).mod sg fun g => ds.foldl (fun g d => g.wakeDom s.tick d) g

/-- The next state of a command is this. -/
def Becomes (c : Instr) (s t : State) : Prop := exec c s = .next t

/-- An agent's control access changes one segment so. -/
def Accesses (c : Instr) (s : State) (sg : Nat) (ag : Agent) (f : Segment → Segment) : Prop := Becomes c s ((s.accessed ag).mod sg f)

/-- While the segment's fast clock runs, an agent's access to registers of some domains changes one segment so (R41). -/
def Reaches (c : Instr) (s : State) (sg : Nat) (ag : Agent) (ds : List Nat) (f : Segment → Segment) : Prop :=
  (s.seg sg).clocked = true → Becomes c s ((s.reached sg ag ds).mod sg f)

/-! ## Instructions on a core -/

/-- The core executes the instruction: it runs, STOP does not hold it, its domain's wake is over, its fetch raises nothing, its
guard is true and its fast clock runs (R41, R100, R104, R143). -/
abbrev Executes (s : State) (sg : Fin 8) (c : Fin 18) (f : IFields) : Prop :=
  Takes s sg ∧ ((s.seg sg).core c).st = .running ∧ (s.seg sg).stopHeld c = false ∧
  (16 ≤ c.val → (s.seg sg).usable s.tick (c.val - 15) = true) ∧ ((s.seg sg).core c).fetchExc c = none ∧
  ((s.seg sg).core c).guarded f = true ∧ (s.seg sg).clocked = true

/-- Neither a suspension, a cancellation nor the watchdog awaits the core's next instruction boundary (R115, R140, R172). -/
abbrev Settled (s : State) (sg : Fin 8) (c : Fin 18) : Prop :=
  (match ((s.seg sg).core c).ticket with
   | none => true
   | some n => !((s.seg sg).core c).stopPending && (((s.seg sg).ticket? n).bind Ticket.cancel).isNone &&
       ((s.seg sg).watchdog s.tick c).isNone) = true

/-- An instruction done: in the whole package only this core changes, to this, and its count of retired instructions advances. -/
def CoreStep (s t : State) (sg : Fin 8) (c : Fin 18) (k : Core) : Prop :=
  OnlyIn sg s t ∧ (t.seg sg).core c = k ∧ (∀ i, i ≠ c.val → (t.seg sg).core i = (s.seg sg).core i) ∧
  { t.seg sg with cores := [] } = { (s.seg sg).bump (F.CUR_COUNT_RETIRED.core c) with cores := [] }

/-- The core goes on to the next instruction, and its count of retired instructions advances. -/
def State.advanced (s : State) (sg c : Nat) : State :=
  s.mod sg fun g => (g.modCore c fun k => { k with pc := k.pc + 8 }).bump (F.CUR_COUNT_RETIRED.core c)

/-- An instruction that makes the core so and goes on to the next one. -/
def CoreDoes (i : Instr) (s : State) (sg : Fin 8) (c : Fin 18) (k : Core) : Prop :=
  Does i s fun t => CoreStep s t sg c { k with pc := k.pc + 8 }

/-- An instruction that writes one general register with a value of the core's registers. -/
def Computes (mk : Fin 8 → Fin 18 → IFields → Instr) (v : Core → IFields → Word) : Prop :=
  ∀ (s : State) (sg : Fin 8) (c : Fin 18) (f : IFields), Executes s sg c f → Settled s sg c →
    CoreDoes (mk sg c f) s sg c (((s.seg sg).core c).setR f.d (v ((s.seg sg).core c) f))

/-- An instruction that raises an exception: only the core's segment changes, as the exception makes it (R139 to R142). -/
def Raises (i : Instr) (s : State) (sg : Fin 8) (c : Fin 18) (op : BitVec 8) (code : BitVec 4) (info : Word) : Prop :=
  exec i s = .next (s.setSeg sg ((s.seg sg).raiseExc s.time c op code info))

/-- A load of `n` bytes: an aligned address whose bytes lie in the lunchbox and whose word passes its check gives g[d] the value (R96, R109). -/
def Loads (mk : Fin 8 → Fin 18 → IFields → Instr) (n : Nat) (v : Nat → Word) : Prop :=
  ∀ (s : State) (sg : Fin 8) (c : Fin 18) (f : IFields), Executes s sg c f → Settled s sg c →
    (((s.seg sg).core c).ea f).toNat % n = 0 → (((s.seg sg).core c).ea f).toNat + n ≤ 0x10000 →
    ((s.seg sg).core c).lbBad.contains ((((s.seg sg).core c).ea f).toNat / 8) = false →
    CoreDoes (mk sg c f) s sg c
      (((s.seg sg).core c).setR f.d (v (bytesNat (memBytes ((s.seg sg).core c).lb (((s.seg sg).core c).ea f).toNat n))))

/-- A store of the low `n` bytes of g[b] at an aligned address whose bytes lie in the lunchbox; the check of a word that is written
in part is good beforehand (R96, R109). -/
def Stores (mk : Fin 8 → Fin 18 → IFields → Instr) (n : Nat) : Prop :=
  ∀ (s : State) (sg : Fin 8) (c : Fin 18) (f : IFields), Executes s sg c f → Settled s sg c →
    (((s.seg sg).core c).ea f).toNat % n = 0 → (((s.seg sg).core c).ea f).toNat + n ≤ 0x10000 →
    (n < 8 → ((s.seg sg).core c).lbBad.contains ((((s.seg sg).core c).ea f).toNat / 8) = false) →
    CoreDoes (mk sg c f) s sg c (((s.seg sg).core c).store (((s.seg sg).core c).ea f).toNat n (((s.seg sg).core c).r f.b))

/-- The ALU instructions, with their opcodes (Table 3.5). -/
def aluInstrs : List (BitVec 8 × (Fin 8 → Fin 18 → IFields → Instr)) :=
  [(0x01, .add), (0x02, .sub), (0x03, .and), (0x04, .or), (0x05, .xor), (0x06, .shl), (0x07, .shr), (0x08, .sra), (0x09, .mul),
   (0x0A, .mulh), (0x0B, .mulhu), (0x0C, .div), (0x0D, .divu), (0x0E, .rem), (0x0F, .remu), (0x10, .min), (0x11, .max),
   (0x12, .minu), (0x13, .maxu), (0x14, .movh), (0x15, .popc), (0x16, .clz), (0x17, .ctz), (0x18, .extu)]

/-- The compare and predicate instructions, with their opcodes (Table 3.5). -/
def predInstrs : List (BitVec 8 × (Fin 8 → Fin 18 → IFields → Instr)) :=
  [(0x20, .ceq), (0x21, .cne), (0x22, .clt), (0x23, .cltu), (0x24, .cge), (0x25, .cgeu), (0x28, .pand), (0x29, .por), (0x2A, .pxor),
   (0x2B, .pset)]

/-- The loads and stores, with their opcodes, their bytes, and whether they read the word (Table 3.5, R96). -/
def lunchInstrs : List (BitVec 8 × Nat × Bool × (Fin 8 → Fin 18 → IFields → Instr)) :=
  [(0x30, 1, true, .ld8), (0x31, 2, true, .ld16), (0x32, 4, true, .ld32), (0x33, 8, true, .ld64), (0x34, 1, true, .lds8),
   (0x35, 2, true, .lds16), (0x36, 4, true, .lds32), (0x38, 1, true, .st8), (0x39, 2, true, .st16), (0x3A, 4, true, .st32),
   (0x3B, 8, false, .st64)]

/-- What an instruction comes to at the end: the result's effect on the core, with its exception or its next PC. -/
def Yields (i : Instr) (s : State) (sg : Fin 8) (c : Fin 18) (op : BitVec 8) (r : Res) : Prop := Becomes i s (r.apply sg c op s)

/-! ## Requests at a home -/

/-- A queued request of one of these kinds is served: its turn has come, it lies here, and neither a move nor a guard word holds or
refuses it. -/
abbrev Serves (s : State) (sg : Fin 8) (idx : Nat) (kinds : List Nat) (f : Flit) : Prop :=
  Takes s sg ∧ ((s.seg sg).txn.homeQ[idx]?).map HomeReq.flit = some f ∧ kinds.contains f.kind.toNat = true ∧
  (f.kind == 3 && f.space == 2) = false ∧ (s.seg sg).homeBlocked idx = false ∧
  f.dstSeg.toNat ≤ (s.seg sg).straps.dieCount.toNat ∧ badForm f = false ∧ (s.seg sg).homeAt f ≠ .away ∧
  (s.seg sg).moveHolds f = false ∧ (s.seg sg).verdict f ((s.seg sg).homeAt f) = .pass

/-- The segment as a served request finds it: the guard word that passed it is the last one used. -/
def Segment.serving (g : Segment) (f : Flit) : Segment := g.touchGuard (g.homeAt f)

/-! ## The keeper's requests and the management port -/

/-- The keeper takes up the request of a channel: its sender, and where its record lies. -/
abbrev KeeperTakes (s : State) (sg : Fin 8) (ch : Fin 64) (notice : Nat) (ag : Agent) (ptr : Nat) : Prop :=
  Takes s sg ∧ s.keeperReq sg ch notice = some (ag, ptr)

/-- A request of the keeper leaves this state, and is acknowledged with this code. -/
def Acknowledges (c : Instr) (s : State) (sg : Fin 8) (ch : Fin 64) (code : Nat) (t : State) : Prop :=
  Becomes c s (t.mod sg fun g => g.keeperAck ch code)

/-- A message of the management port reaches the keeper: the keeper runs, and the session, if one is named, is open. -/
abbrev KeeperHears (s : State) (ses : Session) : Prop :=
  Takes s 0 ∧ s.sessionRefused ses = false ∧ s.keeperServes = true ∧ s.sessionOpen ses = true

/-- The state in which the keeper answers a message: its domain is being woken, and the session's time is renewed. -/
def State.heard (s : State) (ses : Session) : State := (s.mod 0 fun g => g.wakeDom s.tick domKeeper).touchSession false ses

/-- An operator's message is obeyed: it comes in a secured session, authenticated where STRAP_SECURE is 1 (R516). -/
abbrev Obeys (s : State) (ses : Session) (x : SpdmSes) : Prop :=
  KeeperHears s ses ∧ s.session false ses = some x ∧ x.opened = true ∧ x.secured = true ∧ (((s.heard ses).seg 0).straps.secure = true → x.operator = true)

/-- A message is answered so, in this state. -/
def Answers (c : Instr) (s t : State) (a : MgmtAns) : Prop := Becomes c s (t.reply a)

/-! ## Memories -/

/-- Every memory of a segment is in its canonical form. -/
def Segment.memOk (g : Segment) : Bool := memWf g.hbm && memWf g.sp && g.cores.all fun k => memWf k.lb

/-- Every memory of the package is in its canonical form. -/
def State.memOk (s : State) : Bool := s.segs.all Segment.memOk

/-- The package is held in reset with these segments (R545). -/
def State.heldWith (s : State) (segs : List Segment) : Prop := s.inColdReset = true ∧ s.segs = segs

end Sys2Proof.Machine

namespace Sys2Proof

/-- The segment a command acts on: segment 0 for those of the management port; none for the two that act on the whole package. -/
def Instr.target (i : Instr) : Option (Fin 8) :=
  match i with
  | .coldReset _ | .coldResetAssert => none
  | .imageWrite _ _ | .imageGo | .getVersion _ | .getCapabilities _ | .negotiateAlgorithms _ _ _ | .getDigests _
  | .getCertificate _ _ _ _ | .challenge _ _ _ | .getMeasurements _ _ _ | .keyExchange _ _ _ | .finish _ _
  | .unsupportedRequest _ _ | .spdmSessionTimeout _ | .status _ | .operatorAuth _ _ _ | .operatorKeyAdd _ _
  | .operatorKeyRemove _ _ | .powerSet _ _ _ _ _ _ | .debugUnlock _ | .debugLock _ | .teardown _ _ | .setEndpointId _ _
  | .getEndpointId | .getMctpVersionSupport _ | .getMessageTypeSupport | .dynamicAddressAssignment _ => some 0
  | .pllLock sg | .pllLossOfLock sg | .selfTestDone sg _ _ _ | .memoryClearDone sg | .bootGo sg _ | .imageLoad sg _ _ _
  | .stewardReady sg _ | .stewardReadyTimeout sg | .segBootAreaWrite sg _ _ _ | .warmResetRequest sg
  | .scrubLimitExpiry sg | .segResetWarm sg _ | .partialReset sg _ _ | .stewardUpdate sg _ | .prepare sg
  | .dispatchResumeLimit sg | .keeperUpdate sg _ | .segNodeidWrite sg _ _ _ | .bridgeFlitLand sg _ | .bridgeCredit sg _
  | .bridgeParityError sg _ _ | .bridgeResetMessage sg _ | .bridgeLinkUp sg _ | .bridgeRetry sg _ _ | .dptWrite sg _
  | .dptRead sg _ | .dptControlAccess sg _ _ | .dpmResponse sg _ _ _ | .dpmTimeout sg _ _ | .requestIssue sg _
  | .homeExecute sg _ | .guardFill sg _ _ | .atomicExecute sg _ _ | .controlAtomAccess sg _ | .cpyExecute sg _ _
  | .fwdWrExecute sg _ | .replyLand sg _ | .tagTimeout sg _ | .tagQuarantineEnd sg _ | .busyRetry sg _
  | .mergeFlushAge sg _ _ | .mergeFlushCmd sg _ | .segFenceRead sg _ _ _ | .add sg _ _ | .sub sg _ _ | .and sg _ _
  | .or sg _ _ | .xor sg _ _ | .shl sg _ _ | .shr sg _ _ | .sra sg _ _ | .mul sg _ _ | .mulh sg _ _ | .mulhu sg _ _
  | .div sg _ _ | .divu sg _ _ | .rem sg _ _ | .remu sg _ _ | .min sg _ _ | .max sg _ _ | .minu sg _ _ | .maxu sg _ _
  | .movh sg _ _ | .popc sg _ _ | .clz sg _ _ | .ctz sg _ _ | .extu sg _ _ | .ceq sg _ _ | .cne sg _ _ | .clt sg _ _
  | .cltu sg _ _ | .cge sg _ _ | .cgeu sg _ _ | .pand sg _ _ | .por sg _ _ | .pxor sg _ _ | .pset sg _ _ | .ld8 sg _ _
  | .ld16 sg _ _ | .ld32 sg _ _ | .ld64 sg _ _ | .lds8 sg _ _ | .lds16 sg _ _ | .lds32 sg _ _ | .st8 sg _ _
  | .st16 sg _ _ | .st32 sg _ _ | .st64 sg _ _ | .movs sg _ _ | .sets sg _ _ | .cld sg _ _ | .cst sg _ _ | .br sg _ _
  | .call sg _ _ | .ret sg _ _ | .yield sg _ _ | .halt sg _ _ | .eret sg _ _ | .get sg _ _ | .put sg _ _ | .copy sg _ _
  | .movt sg _ _ | .atom sg _ _ | .atomf sg _ _ | .cjoin sg _ _ | .chunk sg _ _ | .camp sg _ _ | .vote sg _ _
  | .ride sg _ _ | .sig sg _ _ | .waits sg _ _ _ | .waite sg _ _ | .fence sg _ _ | .rdt sg _ _ | .tkt sg _ _
  | .recall sg _ _ | .exWatchdog sg _ | .waitsPoll sg _ _ | .waitsTimeout sg _ | .waiteTimeout sg _ | .lineIssue sg _
  | .instructionFetchMiss sg _ _ | .ticketResume sg _ | .curLbDataAccess sg _ _ _ | .icinv sg _ _
  | .curCodeWrite sg _ _ _ _ | .coreStop sg _ | .trailSubmit sg _ _ | .trailAdmit sg _ | .ticketAdmit sg _ _ _
  | .gatePoll sg _ _ | .ticketDispatch sg _ | .ticketComplete sg _ | .cqHeadPoll sg _ | .cqFullTimeout sg _
  | .trlCancelTicket sg _ _ | .trlCancelTrail sg _ _ | .trlCancelContext sg _ _ | .trlSaveBaseWrite sg _ _ _
  | .movtTileStart sg _ | .clvHcBaseWrite sg _ _ _ | .groupOpen sg _ _ _ _ _ | .groupOpenDone sg _ | .groupClose sg _ _
  | .groupCloseDone sg _ | .groupAbortCommand sg _ _ | .operationStart sg _ | .chunkStart sg _ _ | .chunkUp sg
  | .chunkDown sg | .chunkRel sg | .chunkNak sg | .notReadyRepeat sg _ | .collectiveRepeat sg _ _
  | .reductionStep sg _ _ _ | .reductionStepDone sg _ _ | .chunkResultWrite sg _ _ _ _ | .groupCqFullTimeout sg _
  | .closingPartSend sg _ | .stragglerEvent sg _ | .hardTimeout sg _ | .groupAbort sg | .abortDecisionTimeout sg _
  | .campFlit sg | .voteFlit sg | .stileRelease sg _ | .ctxBaseWrite sg _ _ _ _ | .contextLoad sg _ _ _
  | .contextEvict sg _ _ | .contextEvictDone sg | .contextTeardown sg _ _ | .rangeMissFill sg _ _
  | .guardBaseWrite sg _ _ _ | .guardSizeWrite sg _ _ _ | .guardInval sg _ _ | .recallSubmit sg _ _ | .recallAck sg
  | .hotDecay sg | .migrateDone sg _ _ | .migrateTimeout sg _ | .loadPublish sg | .replicaInstall sg
  | .replicaFrameReturn sg | .plcReplicateOff sg _ | .fhWindowWrite sg _ _ _ | .fhDeclare sg _ _ | .fhRelease sg _ _
  | .movePeriod sg | .movePassDone sg | .moveFlipDone sg | .flitLand sg _ | .flitInject sg _ _ | .ageClockAlign sg
  | .throttleUpdate sg | .signpostWrite sg _ _ _ _ _ | .signpostSeal sg _ _ | .signpostOpen sg _ _ | .epochFlip sg _
  | .tableRetired sg | .frameTransmit sg _ | .dataFrame sg _ _ _ | .idleFrame sg _ _ _ | .nakFrame sg _ _ _
  | .trailerFrame sg _ _ _ | .badFrame sg _ | .hushFrame sg _ | .retrainReq sg _ _ _ | .retrainAck sg _ _ _
  | .widthReq sg _ _ _ | .widthAck sg _ _ _ | .resume sg _ _ _ | .replayTimerExpiry sg _ | .nakRepeatExpiry sg _
  | .errorWindowEnd sg _ | .requestRepeatLimit sg _ | .retrainLimitExpiry sg _ | .retrainWaitEnd sg _
  | .widthLimitExpiry sg _ | .trailerDue sg _ | .linkEnable sg _ _ | .linkDisable sg _ _ | .linkRetry sg _ _
  | .linkRetrain sg _ _ | .linkRelease sg _ _ | .linkWidthRequest sg _ _ _ | .sealSlotArm sg _ _ _ _
  | .sealSlotDisarm sg _ _ _ | .trainingPhaseEnd sg _ _ | .trainingPhaseLimit sg _ | .blockLockLoss sg _ _
  | .shadow sg _ _ | .swapped sg _ _ | .calDone sg _ | .calFail sg _ | .flaskReq sg _ | .flaskAck sg _ | .flaskNak sg _
  | .handoverStart sg _ | .handoverSwap sg _ | .calibrationCountEnd sg _ _ | .calLimitExpiry sg _
  | .syncErrorHandover sg _ _ | .kettleEntry sg _ | .dozeRequest sg _ _ | .dozeWake sg _ | .laneWake sg _ _
  | .flaskRequest sg _ _ | .flaskEntry sg _ | .signalDetect sg _ | .relockDone sg _ _ | .relockTimeout sg _
  | .laneRateWrite sg _ _ _ _ | .domainWake sg _ | .pwrAckRise sg _ | .pwrAckFall sg _ | .pwrAckTimeout sg _
  | .domainLost sg _ | .domainSleep sg _ | .pwrHoldWrite sg _ _ _ | .keeperTimer sg | .stewardTimer sg
  | .powerWindowEnd sg | .rampClassWrite sg _ _ _ | .kettleHoldExpiry sg _ | .flaskAfterExpiry sg _
  | .stilePortWake sg _ | .coarseningEnd sg | .suspectExpiry sg _ _ | .bankFence sg _ _ | .bankFenceDrainDone sg _
  | .bankUnfence sg _ _ | .unfenceTestDone sg _ _ | .critLatchReload sg _ _ _ | .hmpInval sg _ _ | .fltHeadWrite sg _ _
  | .fltPost sg _ _ | .ovfClear sg _ _ | .suppClear sg _ | .kdAdd sg _ _ | .kdRemove sg _ _ | .kdClear sg _
  | .quote sg _ | .sealLoad sg _ | .sealTeardown sg _ | .guardSet sg _ | .sealArmLinks sg _ | .hostSpdm sg _
  | .hostCopy sg _ _ _ | .fenceLane sg _ | .mbxPtrWrite sg _ _ _ | .mbxSend sg _ _ _ | .mbxRecv sg _ _
  | .mbxAck sg _ _ _ | .mailboxTimeout sg _ | .mbxCfgWrite sg _ _ _ _ | .extest sg _ | .samplePreload sg _ _
  | .idcode sg | .bypass sg _ _ | .ctrlAccessPoll sg _ | .ctrlAccessAddress sg _ | .ctrlAccessRead sg _
  | .ctrlAccessWrite sg _ | .ctrlAccessDone sg | .trst sg | .telSnap sg _ | .telPeriodicSnap sg
  | .registerWrite sg _ _ _ _ | .registerRead sg _ _ _ | .preambleDetect sg _ | .quietPattern sg _
  | .bankClearDone sg _ => some sg

end Sys2Proof
end

