-- ==== Sys2Proof/WellFormed.lean ====
section
/-! DEFINITION. Which commands are well-formed: the lengths of the byte and bit lists that a command brings from outside. -/

namespace Sys2Proof

/-- A target-channel beat: 128 bytes and 128 strobes (Table 1.6). -/
def DptReq.wf (r : DptReq) : Bool := r.data.length == 128 && r.strb.length == 128

/-- A frame has two slots of 144 bytes (Table 9.1). -/
def Frame.wf (f : Frame) : Bool := f.slot0.length == 144 && f.slot1.length == 144

/-- A flit has 128 payload bytes (R47). -/
def Flit.wf (f : Flit) : Bool := f.payload.length == 128

/-- What a receive side reports of its nine lanes (Table 10.2). -/
def TrainObs.wf (o : TrainObs) : Bool := o.seeds.length == 9 && o.ownSeeds.length == 9 && o.errs.length == 9 && o.taps.length == 9

/-- Whether the lists a command brings have the lengths the spec gives them; the operands of every other command have their widths by their
types. -/
def Instr.wf (i : Instr) : Bool :=
  match i with
  | .coldReset straps => (1 ≤ straps.length && straps.length ≤ 8)
  | .imageWrite _ data => (1 ≤ data.length && data.length ≤ 56)
  | .dptWrite _ req => req.wf
  | .dptRead _ req => req.wf
  | .dptControlAccess _ _ req => req.wf
  | .dataFrame _ _ f _ | .idleFrame _ _ f _ | .nakFrame _ _ f _ | .trailerFrame _ _ f _ | .retrainReq _ _ f _
  | .retrainAck _ _ f _ | .widthReq _ _ f _ | .widthAck _ _ f _ | .resume _ _ f _ => f.wf
  | .trainingPhaseEnd _ _ obs => obs.wf
  | .relockDone _ _ seeds => (seeds.own.length == 9 && seeds.theirs.length == 9)
  | .blockLockLoss _ _ x => (x.heads.length == 64)
  | .hostCopy _ _ data tags => (data.length % 4096 == 0 && tags.length * 256 == data.length)
  | .challenge _ _ nonce => (nonce.length == 32)
  | .getMeasurements _ _ nonce => (nonce.all fun n => n.length == 32)
  | .keyExchange _ _ pub => (pub.length == 96)
  | .finish _ mac => (mac.length == 48)
  | .operatorAuth _ pub sg => (pub.length == 96 && sg.length == 96)
  | .operatorKeyAdd _ digest => (digest.length == 48)
  | .operatorKeyRemove _ digest => (digest.length == 48)
  | .samplePreload _ pins scan => (pins.length == scan.length)
  | _ => true

end Sys2Proof
end

