-- ==== Sys2Proof/Certificates/Slice0/Obligations.lean ====
section
/-! DEFINITION. The statements for the provers. -/

open Sys2Proof Sys2Proof.Machine

/-- For every command c and state s, a step of s with c at the front of its queue is exec c on s with the rest of the queue. That
commands wait in a queue is the model's own frame (log 2). (00_scope.md, Clocks and time; log 2) -/
def Obligations.StepRunsFront : Prop :=
  ∀ (c : Instr) (rest : List Instr) (s : State), step { s with pending := c :: rest } = exec c { s with pending := rest }

/-- With an empty queue a step always answers a next state. While RST_N_COLD is low that state is the old one; otherwise the time
is one cycle later, and in a cycle that begins no tick, while no segment's fast clock runs and no sleep, wake or broken load
of the last cycle is left to settle, nothing else has changed. This is the model's choice (log 1). (00_scope.md, Clocks and
time; log 1) -/
def Obligations.IdleStepIsOneCycle : Prop :=
  ∀ s : State, s.pending = [] → ∃ t, step s = .next t ∧ (s.inColdReset = true → t = s) ∧
    (s.inColdReset = false → t.time = s.time + 1 ∧
      ((s.time + 1) % 21 ≠ 0 → (s.seg 0).kpr.broken = [] →
        (∀ k, k < s.n → (s.seg k).clocked = false ∧ (s.seg k).pwr.slept = [] ∧ (s.seg k).pwr.woke = []) →
        t = { s with time := s.time + 1 }))

/-- Whatever the state, a command answers a next state, or it names a segment that the package does not have; then it answers the
fault noSuchSegment with that segment's number and does nothing. No command is ever refused. A command that names no segment
always answers a next state. (00_scope.md, Configurations and the single node; log 6) -/
def Obligations.EveryCommandCompletes : Prop :=
  ∀ (c : Instr) (s : State),
    (∃ t, exec c s = .next t) ∧ (∀ sg, c.target = some sg → sg.val < s.n) ∨
    (∃ sg, c.target = some sg ∧ s.n ≤ sg.val ∧ exec c s = .fault (.noSuchSegment sg.val))

/-- In every state in which RST_N_COLD is low, with these segments, this time and this count of free values: a step whose front
command is not COLD_RESET, if it answers a next state, answers one in which RST_N_COLD is still low and the segments, the time
and the count are the same. The fall of RST_N_COLD holds any package so. That commands have no effect meanwhile is the model's
choice (log 7). (14_straps_reset_and_mailboxes.md, Straps; log 7) -/
def Obligations.NothingHappensInColdReset : Prop :=
  (∀ (s t : State) (segs : List Segment), s.heldWith segs → (∀ l, s.pending.head? ≠ some (.coldReset l)) → step s = .next t →
     t.heldWith segs ∧ t.time = s.time ∧ t.freeCtr = s.freeCtr) ∧
  (∀ s : State, Becomes .coldResetAssert s { s with inColdReset := true })

/-- A cold reset of the reset state, with the straps that the model gives it (a package of two segments: log 3), leaves it as it
is: the queue is empty, the time is 0, no memory lists a byte, no register differs from its reset value, and the keeper core
of each segment stands in mask ROM at PC 0x0001_0000 with CTX 0. (14_straps_reset_and_mailboxes.md, Straps;
14_straps_reset_and_mailboxes.md, Kinds of reset; log 3) -/
def Obligations.ResetIsColdReset : Prop :=
  Becomes (.coldReset [resetStraps 0, resetStraps 1]) State.reset State.reset ∧
  State.reset.n = 2 ∧ State.reset.time = 0 ∧ State.reset.pending = [] ∧ State.reset.memOk = true ∧
  ∀ i, i < 2 → (State.reset.seg i).regs = [] ∧ (State.reset.seg i).hbm = [] ∧ (State.reset.seg i).sp = [] ∧
    ((State.reset.seg i).core 16).pc = 0x10000 ∧ ((State.reset.seg i).core 16).ctx = 0

/-- The release of RST_N_COLD at a package of one to eight dies that sample these straps makes as many segments as dies, in the
order of their SEG_ID straps (where an index is missing, as they stand), each with the straps it sampled, under segment 0's
package-wide ones. The time is 0 and the package takes commands. On every segment every register reads its reset value, the
stage is 0, the PLL is not locked, every link port is down or disabled by its strap, the fault queue, the tags, the trails and
the groups are empty, and the keeper core runs in mask ROM at PC 0x0001_0000 with CTX 0. The segments that were there keep the
contents of their memories. (14_straps_reset_and_mailboxes.md, Straps; 14_straps_reset_and_mailboxes.md, Kinds of reset;
14_straps_reset_and_mailboxes.md, Boot) -/
def Obligations.ColdResetTakesStraps : Prop :=
  ∀ (l : List Straps) (s : State), 1 ≤ l.length → l.length ≤ 8 → (Instr.coldReset l).wf = true →
    Does (.coldReset l) s fun t =>
      t.n = l.length ∧ t.time = 0 ∧ t.inColdReset = false ∧ t.pending = s.pending ∧
      ∀ i, i < t.n →
        (∃ first own, (sortStraps l).head? = some first ∧ (sortStraps l)[i]? = some own ∧ (t.seg i).straps = inForce first own ∧
          (t.seg i).boot.sampled = own) ∧
        (∀ o, (t.seg i).reg o = resetWord (t.seg i).straps o) ∧ (t.seg i).stage = 0 ∧ (t.seg i).regs = [] ∧ (t.seg i).boot.pllAt = none ∧ (t.seg i).flt = {} ∧ (t.seg i).txn = {} ∧ (t.seg i).trl = {} ∧
        (t.seg i).groups = [] ∧ (∀ p, p < 6 → ((t.seg i).port p).st = (if (t.seg i).straps.portMask.getLsbD p then .down else .disabled)) ∧
        ((t.seg i).core 16).pc = 0x10000 ∧ ((t.seg i).core 16).ctx = 0 ∧ ((t.seg i).core 16).st = .running ∧
        (i < s.n → (t.seg i).hbm = (s.seg i).hbm ∧ (t.seg i).sp = (s.seg i).sp)

/-- PLL_LOCK at stage 0 before any self-test records the lock, wakes the domains and begins SELF_TEST. SELF_TEST_DONE in SELF_TEST
applies the outcome, derives the keys, and in secure mode goes on to CLEARING. MEMORY_CLEAR_DONE in CLEARING zeroes HBM and
scratchpad and lets mask ROM take the images. IMAGE_WRITE, IMAGE_LOAD, BOOT_GO and IMAGE_GO in WAIT_IMAGE of their own source
write the boot area and start the boot. (14_straps_reset_and_mailboxes.md, Boot; 12_integrity_and_fault_reporting.md,
Self-test at cold reset) -/
def Obligations.BootStagesAdvance : Prop :=
  (∀ (s : State) (sg : Fin 8), Takes s sg → (s.seg sg).boot.pllAt = none → (s.seg sg).stage = 0 → (s.seg sg).fld F.HMP_BIST_DONE = 0 →
     ActsOn (.pllLock sg) s sg fun g => (({ g with boot := { g.boot with pllAt := some s.time, pllLost := false } } : Segment).setStage 1).wakeAll s.tick) ∧
  (∀ (s : State) (sg : Fin 8) (rows : List (Fin 12 × BitVec 15)) (bad : List (Fin 12)) (voter : Bool), Takes s sg → sg ≠ 0 →
     (s.seg sg).stage = 1 → (s.seg sg).boot.pllAt ≠ none →
     (((s.seg sg).bist s.time rows bad voter).setStage 2).deriveKeys.boot.strapErr = false →
     (((s.seg sg).bist s.time rows bad voter).setStage 2).deriveKeys.straps.secure = true →
     ActsOn (.selfTestDone sg rows bad voter) s sg fun g => ((g.bist s.time rows bad voter).setStage 2).deriveKeys.setStage 3) ∧
  (∀ (s : State) (sg : Fin 8), Takes s sg → (s.seg sg).stage = 3 →
     Becomes (.memoryClearDone sg) s
       ((s.mod sg fun g => { g with hbm := memZero g.hbm 0 g.hbmSize, sp := memZero g.sp 0 g.spSize }).romTakes sg)) ∧
  (∀ (s : State) (off : BitVec 32) (data : List Byte), Takes s 0 → (Instr.imageWrite off data).wf = true → (s.seg 0).stage = 4 →
     (s.seg 0).bootSource = 1 → off.toNat + data.length ≤ bootAreaSize →
     (s.seg 0).present 0 ((s.seg 0).bootBase + off.toNat) data.length = true →
     ActsOn (.imageWrite off data) s 0 fun g => g.put 0 (g.bootBase + off.toNat) data) ∧
  (∀ (s : State) (sg : Fin 8) (off : BitVec 32) (data : List Byte), Takes s sg → (s.seg sg).stage = 4 → (s.seg sg).bootSource = 2 →
     off.toNat + data.length ≤ bootAreaSize → (s.seg sg).present 0 ((s.seg sg).bootBase + off.toNat) data.length = true →
     ActsOn (.imageLoad sg off data false) s sg (fun g => g.put 0 (g.bootBase + off.toNat) data) ∧
     Becomes (.imageLoad sg off data true) s ((s.mod sg fun g => g.put 0 (g.bootBase + off.toNat) data).go sg)) ∧
  (∀ (s : State) (sg : Fin 8) (ag : Agent), Takes s sg → ag.isHost = true → ((s.accessed ag).seg sg).stage = 4 →
     ((s.accessed ag).seg sg).bootSource = 0 →
     Becomes (.bootGo sg ag) s (((s.accessed ag).go sg).mod sg fun g => g.answer csOk 0)) ∧
  (∀ s : State, Takes s 0 → (s.seg 0).stage = 4 → (s.seg 0).bootSource = 1 → Becomes .imageGo s (s.go 0))

/-- A steward's write of STEWARD_READY while its start is awaited in STEWARD_LOAD and no update runs sets STEWARD_READY, ends the
wait and makes STAGE RUNNING. When 5,000,000 ticks have passed since the start and no update runs, the other steward image is
tried. SEG_BOOT_AREA takes a write in WAIT_IMAGE. A write of SEG_NODEID on segment 0 while every fabric port is idle gives
every segment the new identity. (14_straps_reset_and_mailboxes.md, Boot; 01_anatomy_of_a_gynov.md, One node from many
segments) -/
def Obligations.StewardStarts : Prop :=
  (∀ (s : State) (sg : Fin 8) (ag : Agent), Takes s sg → ag.cls = .steward →
     ((s.accessed ag).seg sg).boot.stewardStart ≠ none → ((s.accessed ag).seg sg).boot.update = none →
     (((s.accessed ag).seg sg).setFld F.SEG_BOOT_STEWARD_READY 1).stage = 6 →
     Accesses (.stewardReady sg ag) s sg ag fun g =>
       (({ g.setFld F.SEG_BOOT_STEWARD_READY 1 with boot := { g.boot with stewardStart := none } } : Segment).setStage 7).answer csOk 0) ∧
  (∀ (s : State) (sg : Fin 8) (t : Nat), Takes s sg → (s.seg sg).boot.stewardStart = some t → t + 5000000 ≤ s.tick →
     (s.seg sg).boot.update = none → ActsOn (.stewardReadyTimeout sg) s sg fun g => g.otherSteward s.tick) ∧
  (∀ (s : State) (sg : Fin 8) (ag : Agent) (sz : Sz) (v : Word), Takes s sg → ((s.accessed ag).seg sg).stage = 4 →
     Accesses (.segBootAreaWrite sg ag sz v) s sg ag fun g =>
       (g.setReg 0x308 (setBits 0 43 24 (bitsOf (mergeSize (g.reg 0x308) sz v) 43 24))).answer csOk 0) ∧
  (∀ (s : State) (ag : Agent) (v : Word), Takes s 0 → (s.accessed ag).segs.all (fun g => g.ports.all Port.idle) = true →
     Becomes (.segNodeidWrite 0 ag .w64 v) s
       (((s.accessed ag).modAll fun g => g.setReg 0x10 (Sz.w64.place v &&& 0x7FFF)).mod 0 fun g => g.answer csOk 0))

/-- A warm reset request at a segment that takes one, or the keeper's write of the warm command there, resets the package. A
segment whose scrub has lasted its limit reads FAILED with FAIL 5 and asserts its error line. PARTIAL by the keeper or the
steward on a domain that allows it resets that domain. The loss of the PLL of a segment holds its fast domains in reset,
raises a FATAL PLL record, takes its bridge links down, asserts its error line and makes groups with lost routes fail. PREPARE
takes a steward update on, and dispatch resumes at its limit. (14_straps_reset_and_mailboxes.md, Kinds of reset;
14_straps_reset_and_mailboxes.md, Partial resets; 01_anatomy_of_a_gynov.md, Clocks, resets and pins of a segment;
14_straps_reset_and_mailboxes.md, Live update) -/
def Obligations.ResetsAct : Prop :=
  (∀ (s : State) (sg : Fin 8), Takes s sg → (s.seg sg).warmOk = true → Becomes (.warmResetRequest sg) s s.warmReset) ∧
  (∀ (s : State) (sg : Fin 8) (ag : Agent), Takes s sg → ag.isKeeper = true → ((s.accessed ag).seg sg).warmOk = true →
     Becomes (.segResetWarm sg ag) s ((s.accessed ag).warmReset.mod sg fun g => g.answer csOk 0)) ∧
  (∀ (s : State) (sg : Fin 8) (t : Nat), Takes s sg → (s.seg sg).boot.scrub = some t →
     t + max 1 ((s.seg sg).fld F.SEG_RESET_SCRUB_LIMIT) ≤ s.tick →
     ActsOn (.scrubLimitExpiry sg) s sg fun g => (({ g with boot := { g.boot with scrub := none } } : Segment).bootFail 5).errorLine) ∧
  (∀ (s : State) (sg : Fin 8) (ag : Agent) (d : BitVec 6), Takes s sg → ag.cls = .keeper ∨ ag.cls = .steward →
     ((s.accessed ag).seg sg).partialOk d.toNat = true →
     Becomes (.partialReset sg ag d) s (((s.accessed ag).partialReset sg d.toNat).mod sg fun g => g.answer csOk 0)) ∧
  (∀ (s : State) (sg : Fin 8), Takes s sg → (s.seg sg).boot.pllAt ≠ none →
     Becomes (.pllLossOfLock sg) s
       ((((s.mod sg fun g => (g.fastHeld s.tick).raise s.tick { cls := 2, unit := 0, sev := 3 }).bridgesLost sg).mod sg
          fun g => g.errorLine).failRoutes)) ∧
  (∀ (s : State) (sg : Fin 8), Takes s sg → ActsOn (.prepare sg) s sg fun g => g.prepareStep s.tick) ∧
  (∀ (s : State) (sg : Fin 8) (t : Nat), Takes s sg → (s.seg sg).trl.stopUntil = some t → t ≤ s.tick →
     ActsOn (.dispatchResumeLimit sg) s sg fun g => { g with trl := { g.trl with stopUntil := none } })

/-- A STEWARD_UPDATE taken by the keeper from context 0, with a record in present memory that names the inactive image and an
accepted image there, records the update and sends PREPARE on the steward's channel. A KEEPER_UPDATE from context 0 with a
zero record and an accepted image sets KEEPER_NEXT, is answered OK, and starts a partial reset of the keeper domain. An image
that is not accepted is answered with the code of its check. (14_straps_reset_and_mailboxes.md, Live update) -/
def Obligations.FirmwareUpdates : Prop :=
  (∀ (s : State) (sg : Fin 8) (ch : Fin 64) (ag : Agent) (ptr pc : Nat), Takes s sg → s.keeperReq sg ch 0x6009 = some (ag, ptr) →
     ag.ctx = 0 → (s.seg sg).present 0 ptr 8 = true → zeros ((s.seg sg).hbmBytes ptr 8) 1 7 = true →
     (field ((s.seg sg).hbmBytes ptr 8) 0 1 = 1 ∨ field ((s.seg sg).hbmBytes ptr 8) 0 1 = 2) →
     field ((s.seg sg).hbmBytes ptr 8) 0 1 ≠ (s.seg sg).fld F.SEG_BOOT_ACTIVE →
     (s.seg sg).prepareChan = some pc →
     Becomes (.stewardUpdate sg ch) s (s.mod sg fun g =>
       if g.imgCheck 2 (g.stewardAt (field (g.hbmBytes ptr 8) 0 1)) = .accepted then
         ({ g with boot := { g.boot with
             update := some { ch := ch.val, image := field (g.hbmBytes ptr 8) 0 1, old := g.fld F.SEG_BOOT_ACTIVE, prepCh := pc },
             incoming := some (g.imgDigest (g.stewardAt (field (g.hbmBytes ptr 8) 0 1))) } } : Segment).notify s.tick pc g.keeperAgent 0 0x7001
       else g.keeperAck ch (g.imgCheck 2 (g.stewardAt (field (g.hbmBytes ptr 8) 0 1))).code)) ∧
  (∀ (s : State) (sg : Fin 8) (ch : Fin 64) (ag : Agent) (ptr : Nat), Takes s sg → s.keeperReq sg ch 0x600A = some (ag, ptr) →
     ag.ctx = 0 → (s.seg sg).present 0 ptr 8 = true → zeros ((s.seg sg).hbmBytes ptr 8) 0 8 = true →
     Becomes (.keeperUpdate sg ch) s
       (if (s.seg sg).imgCheck 1 (s.seg sg).incomingAt = .accepted then
          (s.mod sg fun g => (g.setFld F.SEG_BOOT_KEEPER_NEXT 1).keeperAck ch rcOk).partialReset sg domKeeper
        else s.mod sg fun g => g.keeperAck ch (g.imgCheck 1 g.incomingAt).code))

/-- BRIDGE_FLIT_LAND lands the flit of a bridge port that is next in order; where bits of its runs went bad, nothing lands when a
run fails its check, and otherwise the flit that the runs then spell lands, looked up anew. A credit that is due on a link
that is up frees the oldest copy the sender holds and adds one credit. A parity error on a link that is up records the lane
and starts a contained reset. The partner's reset message, once it has arrived at an end already contained, settles what the
end sent. When both ends are ready and both PLLs run, both come up with full credits, or, when the modules cannot be repaired
or an end is going down, both stay down and groups with lost routes fail. RETRY of a link that is down, while the fast clock
runs, starts one contained reset. (01_anatomy_of_a_gynov.md, The die bridge; log 21) -/
def Obligations.BridgeLinksAct : Prop :=
  (∀ (s : State) (sg : Fin 8) (b : Fin 2), Takes s sg →
     Becomes (.bridgeFlitLand sg ⟨b, []⟩) s ((s.mod sg fun g => g.newCycle s.time).landFrom sg (6 + b.val))) ∧
  (∀ (s : State) (sg : Fin 8) (b : Fin 2) (flips : List (Fin 38 × Fin 32)) (x : Presented), Takes s sg →
     ((s.seg sg).newCycle s.time).landable s.time = some x → x.port = 6 + b.val → flips ≠ [] →
     (receiveFlit x.bf.flit flips = none → Becomes (.bridgeFlitLand sg ⟨b, flips⟩) s s) ∧
     (∀ f, receiveFlit x.bf.flit flips = some f → Becomes (.bridgeFlitLand sg ⟨b, flips⟩) s
        ((s.mod sg fun g =>
          (((g.newCycle s.time).lookup (tickOf s.time) f).1).modBend b fun e =>
            { e with landing := modAt e.landing x.idx fun y =>
              { y with flit := f, entry := ((g.newCycle s.time).lookup (tickOf s.time) f).2 } }).landFrom sg (6 + b.val)))) ∧
  (∀ (s : State) (sg : Fin 8) (b : Fin 2) (t : Nat) (rest : List Nat), Takes s sg → ((s.seg sg).bend b).due = t :: rest → t ≤ s.time →
     ((s.seg sg).bend b).st = .up →
     ActsOn (.bridgeCredit sg b) s sg fun g =>
       g.modBend b fun e => { e with due := rest, sent := e.sent.drop 1, credits := e.credits + 1 }) ∧
  (∀ (s : State) (sg : Fin 8) (b : Fin 2) (lane : Fin 128), Takes s sg → ((s.seg sg).bend b).st = .up →
     Becomes (.bridgeParityError sg b lane) s
       ((s.mod sg fun g => (g.modBend b fun e => { e with parityErr := true, failLane := BitVec.ofNat 8 lane.val }).hwMark
         (0x100 + 8 * b.val) 4).startReset sg b true)) ∧
  (∀ (s : State) (sg : Fin 8) (b : Fin 2) (t : Nat) (landed : BitVec 16), Takes s sg →
     ((s.seg sg).bend b).partnerLanded = some (t, landed) → t ≤ s.tick → ((s.seg sg).bend b).st = .contained →
     ActsOn (.bridgeResetMessage sg b) s sg fun g => g.settleSent s.time b landed) ∧
  (∀ (s : State) (sg : Fin 8) (b : Fin 2) (sg' b' : Nat), Takes s sg → bridgePartner s.n sg b = (sg', b') →
     (s.seg sg).boot.pllAt ≠ none → (s.seg sg').boot.pllAt ≠ none → ((s.seg sg).bend b).readyUp s.tick = true →
     ((s.seg sg').bend b').readyUp s.tick = true →
     (((s.seg sg).bend b).goingDown = false → ((s.seg sg').bend b').goingDown = false →
       Becomes (.bridgeLinkUp sg ⟨b, true⟩) s
         ((s.mod sg fun g => g.modBend b fun e => e.retrained false).mod sg' fun g => g.modBend b' fun e => e.retrained false)) ∧
     (∀ repaired, repaired = false ∨ ((s.seg sg).bend b).goingDown = true ∨ ((s.seg sg').bend b').goingDown = true →
       Becomes (.bridgeLinkUp sg ⟨b, repaired⟩) s
         (((s.mod sg fun g => g.modBend b fun e => e.retrained true).mod sg' fun g => g.modBend b' fun e => e.retrained true).failRoutes))) ∧
  (∀ (s : State) (sg : Fin 8) (b : Fin 2) (ag : Agent), Takes s sg → ((s.accessed ag).seg sg).clocked = true →
     (((s.accessed ag).seg sg).bend b).st = .down →
     Becomes (.bridgeRetry sg b ag) s (((s.accessed ag).startReset sg b false).mod sg fun g => g.answer csOk 0))

/-- With the router awake and the identifier free on its channel: a target-channel write that is not refused merges and is
answered CS_OK at once, a read that is not refused becomes a request, a control access of another segment or node becomes a
control request, and a SEG_FENCE read of a resident context waits for the context's posted writes. A refused access is
answered with its status and does nothing else. A response on a master channel ends the access it names; an access without one
for 100,000 ticks is retired with a fault record and CS_TIMEOUT. (01_anatomy_of_a_gynov.md, The die port;
02_remote_memory_transactions.md, Masked writes and the merge buffer; log 12) -/
def Obligations.DiePortServes : Prop :=
  (∀ (s : State) (sg : Fin 8) (r : DptReq), Takes s sg → (s.seg sg).usable s.tick domRouter = true →
     (s.seg sg).dptTakes r.ch r.id = true → r.space ≠ 2 →
     ((s.seg sg).dptRefusal r = none →
       ActsOn (.dptWrite sg r) s sg (fun g => (g.mergeWrite s.time r ((r.bytes).getD 4)).dptRespond r.ch r.id csOk (List.replicate 128 0)) ∧
       ActsOn (.dptRead sg r) s sg fun g => (g.dptAccept r).readLine s.time r) ∧
     (∀ st, (s.seg sg).dptRefusal r = some st →
       ActsOn (.dptWrite sg r) s sg (fun g => g.dptRespond r.ch r.id st (List.replicate 128 0)) ∧
       ActsOn (.dptRead sg r) s sg fun g => g.dptRespond r.ch r.id st (List.replicate 128 0))) ∧
  (∀ (s : State) (sg : Fin 8) (r : DptReq) (w : Bool), Takes s sg → (s.seg sg).usable s.tick domRouter = true →
     (s.seg sg).dptTakes r.ch r.id = true → r.space = 2 → (s.seg sg).dptRefusal r = none → (s.seg sg).ownCtl r.addr.toNat = false →
     ActsOn (.dptControlAccess sg w r) s sg fun g =>
       (g.dptAccept r).issueCtl s.time r.ctx (.dpt r.ch) r.addr.toNat ((r.bytes).getD 8)
         (if w then some (BitVec.ofNat 64 (bytesNat ((r.data.drop (r.addr.toNat % 128)).take ((r.bytes).getD 8)))) else none)
         (.dptCtl r.ch r.id r.addr ((r.bytes).getD 8) w)) ∧
  (∀ (s : State) (sg : Fin 8) (ch : Bool) (id ctx : BitVec 12), Takes s sg → (s.seg sg).usable s.tick domRouter = true →
     (s.seg sg).dptTakes ch id = true → (s.seg sg).isResident ctx = true →
     ActsOn (.segFenceRead sg ch id ctx) s sg fun g => g.fenceRead s.time ch id ctx) ∧
  (∀ (s : State) (sg : Fin 8) (ch : Fin 6) (id : BitVec 12) (d : DpmReq), Takes s sg → (s.seg sg).dpmAt ch id = some d →
     (∀ status : BitVec 4, Becomes (.dpmResponse sg ch id status) s
        (((s.mod sg fun g => { g with txn := { g.txn with dpm := g.txn.dpm.erase d } }).dpmDone sg d
          (if status == 0 then csOk else csPoison)).dpmGo sg)) ∧
     (d.tick + 100000 ≤ s.tick → Becomes (.dpmTimeout sg ch id) s
        (((s.mod sg fun g =>
           ({ g with txn := { g.txn with dpm := g.txn.dpm.erase d, retired := (ch.val, id) :: g.txn.retired } } : Segment).raise s.tick
             { cls := 14, unit := 15, index := ch.val, info := BitVec.ofNat 32 id.toNat, status := csTimeout,
               addr := BitVec.ofNat 64 (gaMake g.node.toNat g.segId.toNat d.space.toNat d.addr) }).dpmDone sg d csTimeout).dpmGo sg)))

/-- REQUEST_ISSUE sends a waiting request that may leave and before which no other that may leave was ready. REPLY_LAND takes the
oldest ejected reply: one for another segment is only taken; a home's reply, or a synthetic completion with DOUBT 0 and a
status other than CS_BUSY, CS_LINK_DOWN and CS_NODE_DOWN, completes each tag that it names and that its context holds. A tag
whose request was first sent TIMEOUT ticks ago completes with CS_TIMEOUT, or CS_LINK_DOWN when doubted, with a fault record
and a count. A quarantine that has run out frees the tag. A turned-back request whose wait is over goes out again under its
tags, or completes with CS_NODE_DOWN when its node is known down. A merge entry as old as FLUSH_CYCLES is flushed, and the
FLUSH bit flushes every entry. (02_remote_memory_transactions.md, Tags and reply space; 02_remote_memory_transactions.md,
Completions; 02_remote_memory_transactions.md, Busy turnaround; 02_remote_memory_transactions.md, Masked writes and the merge
buffer) -/
def Obligations.RequesterActs : Prop :=
  (∀ (s : State) (sg : Fin 8) (req : Nat) (r : Req), Takes s sg → (s.seg sg).req? req = some r →
     (r.unguarded = true → ActsOn (.requestIssue sg req) s sg fun g => g.issueDirect s.time r) ∧
     (r.unguarded = false → (s.seg sg).shapeReq r = none → (s.seg sg).canIssue r = true →
       (s.seg sg).goesDirect r = true ∨ (s.seg sg).olderWaits s.time ((s.seg sg).reqRank r) none (some r.id) = false →
       ActsOn (.requestIssue sg req) s sg fun g => g.issueReq s.time r)) ∧
  (∀ (s : State) (sg : Fin 8) (bad : Option BadLine) (f : Flit) (rest : List Flit), Takes s sg → (s.seg sg).txn.replies = f :: rest →
     f.synth = false →
     (f.dstSeg ≠ (s.seg sg).segId →
       ActsOn (.replyLand sg bad) s sg fun g => g.takeReply) ∧
     (∀ t ts x, f.dstSeg = (s.seg sg).segId → bad = none →
       ((List.range (f.span + 1)).map fun i => f.tag.toNat + i).filter ((s.seg sg).tagMatches · f.ctx) = t :: ts →
       (s.seg sg).tagReq t = some x →
       ActsOn (.replyLand sg bad) s sg fun g => (t :: ts).foldl (fun g t => g.tagDone s.time t true f.status f.payload)
         (if f.kind == 8 then g.takeReply.chargeHmp 240 else g.takeReply))) ∧
  (∀ (s : State) (sg : Fin 8) (f : Flit) (rest : List Flit) (t : Nat) (ts : List Nat) (x : Req × Nat), Takes s sg →
     (s.seg sg).txn.replies = f :: rest → f.synth = true → f.doubt = false → f.status ≠ csBusy → f.status ≠ csLinkDown →
     f.status ≠ csNodeDown → f.kind ≠ 8 → f.dstSeg = (s.seg sg).segId →
     ((List.range (f.span + 1)).map fun i => f.tag.toNat + i).filter ((s.seg sg).tagMatches · f.ctx) = t :: ts →
     (s.seg sg).tagReq t = some x →
     ActsOn (.replyLand sg none) s sg fun g => (t :: ts).foldl (fun g t => g.tagDone s.time t false f.status f.payload)
       (g.takeReply.bump F.SEG_TXN_COUNT_SYNTH_RECEIVED)) ∧
  (∀ (s : State) (sg : Fin 8) (tag : BitVec 16) (id idx : Nat) (ctx : BitVec 12) (doubted again : Bool) (r : Req) (sent : Nat),
     Takes s sg → (s.seg sg).tag? tag.toNat = some (.held id idx ctx doubted again) → (s.seg sg).req? id = some r →
     r.sentTick = some sent → sent + (s.seg sg).tagLimit ≤ s.tick →
     ActsOn (.tagTimeout sg tag) s sg fun g =>
       ((g.bump F.SEG_TXN_COUNT_TIMEOUTS).raise s.tick
         { cls := 13, unit := 0, ctx := some ctx, node := some r.node, addr := BitVec.ofNat 64 ((r.line + idx) * 128),
           info := BitVec.ofNat 32 tag.toNat, status := if doubted then csLinkDown else csTimeout }).tagDone s.time tag.toNat false
         (if doubted then csLinkDown else csTimeout) (List.replicate 128 0)) ∧
  (∀ (s : State) (sg : Fin 8) (tag : BitVec 16) (u : Nat), Takes s sg → (s.seg sg).tag? tag.toNat = some (.quarantined u) → u ≤ s.tick →
     ActsOn (.tagQuarantineEnd sg tag) s sg fun g => g.freeTag tag.toNat) ∧
  (∀ (s : State) (sg : Fin 8) (req : Nat) (r : Req) (at_ base : Nat), Takes s sg → (s.seg sg).req? req = some r → r.retryAt = some at_ →
     r.base = some base → at_ ≤ s.tick →
     ActsOn (.busyRetry sg req) s sg fun g =>
       if g.knownDown r.line then r.tags.foldl (fun g t => g.tagDone s.time t false csNodeDown (List.replicate 128 0)) g
       else (g.modReq req fun x => { x with retryAt := none }).injectL (s.time + 1) (g.reqFlit r base) (g.reqKey r)) ∧
  (∀ (s : State) (sg : Fin 8) (idx : Nat) (e : MergeEntry), Takes s sg → (s.seg sg).txn.merge[idx]? = some e →
     e.first + max 1 ((s.seg sg).fld F.SEG_MERGE_CTRL_FLUSH_CYCLES) ≤ s.time →
     ActsOn (.mergeFlushAge sg idx none) s sg fun g => g.flushEntry s.time e) ∧
  (∀ (s : State) (sg : Fin 8) (ag : Agent), Takes s sg →
     Accesses (.mergeFlushCmd sg ag) s sg ag fun g => (g.flushWhere s.time fun _ => true).answer csOk 0)

/-- When no tag that the oldest ejected reply names is held under the reply's context (each is free, quarantined, completed, or
held by another context), the reply is discarded: of the requester's state only the list of ejected replies changes, nothing
but the counters differs in the segment, and LATE_REPLIES advances, up to its largest value. The same holds of a busy
turnaround and of a doubtful synthetic completion. (R59) -/
def Obligations.LateReplyIsCountedAndDropped : Prop :=
  ∀ (s : State) (sg : Fin 8) (bad : Option BadLine) (f : Flit) (rest : List Flit), Takes s sg → (s.seg sg).txn.replies = f :: rest →
    f.dstSeg = (s.seg sg).segId →
    (∀ i id idx ctx d x, i ≤ f.span → (s.seg sg).tag? (f.tag.toNat + i) = some (.held id idx ctx d x) → ctx ≠ f.ctx) →
    Does (.replyLand sg bad) s fun t =>
      OnlyIn sg s t ∧
      (t.seg sg).fld F.SEG_TXN_COUNT_LATE_REPLIES = min (2 ^ 16 - 1) ((s.seg sg).fld F.SEG_TXN_COUNT_LATE_REPLIES + 1) ∧
      { t.seg sg with regs := [] } = { (s.seg sg).takeReply with regs := [] } ∧
      ∀ off, off ≠ F.SEG_TXN_COUNT_LATE_REPLIES.off → (t.seg sg).reg off = (s.seg sg).reg off

/-- A queued request whose turn has come and that passes its checks leaves the queue and executes: an RD reads its lines, a WR,
WRM or FWD_WR writes its line. The first atomic to a line has it read into the cache of lines; on a cached line, at most once
a cycle, it is applied. A copy reads its lines into the forward staging. An atomic of control space makes its access and
answers. A guard word that the first waiting request needs is read and cached, and the segment's own requests that wait for it
go on; a read that fails refuses that request, or with none queued the first of the segment's own, with CS_DENIED.
(02_remote_memory_transactions.md, Order; 02_remote_memory_transactions.md, Atomics; 02_remote_memory_transactions.md, Bulk
copies; 07_placement_and_ranges.md, The check at the home) -/
def Obligations.HomeServesRequests : Prop :=
  (∀ (s : State) (sg : Fin 8) (idx : Nat) (f : Flit), Serves s sg idx [0, 1, 2] f →
     ActsOn (.homeExecute sg idx) s sg fun g =>
       if f.kind == 0 then ((g.serving f).dequeue idx).homeRd s.time f (g.homeAt f)
       else ((g.serving f).dequeue idx).homeWr s.time f (g.homeAt f)) ∧
  (∀ (s : State) (sg : Fin 8) (idx : Nat) (f : Flit), Serves s sg idx [0x10] f →
     ActsOn (.fwdWrExecute sg idx) s sg fun g => ((g.serving f).dequeue idx).homeWr s.time f (g.homeAt f)) ∧
  (∀ (s : State) (sg : Fin 8) (idx : Nat) (f : Flit) (bad : Option BadLine), Serves s sg idx [3, 4] f →
     ((s.seg sg).atomAt (((s.seg sg).homeAt f).place 0) = none → (s.seg sg).txn.atoms.length < 256 →
       ActsOn (.atomicExecute sg idx bad) s sg fun g =>
         let p := (g.homeAt f).place 0
         let g := g.serving f
         ({ g with txn := { g.txn with atoms := g.txn.atoms ++
             [{ space := p.1, addr := p.2, data := none, at_ := none, bad := none }] } } : Segment).atomRead s.time p) ∧
     (∀ x line, (s.seg sg).atomAt (((s.seg sg).homeAt f).place 0) = some x → x.data = some line → x.at_ ≠ some s.time →
       ActsOn (.atomicExecute sg idx none) s sg fun g =>
         (g.serving f).atomApply s.time idx f ((g.homeAt f).place 0) line)) ∧
  (∀ (s : State) (sg : Fin 8) (idx : Nat) (f : Flit), Serves s sg idx [5] f →
     Becomes (.cpyExecute sg idx []) s
       ((List.range (homeLen f)).foldl (fun t i => t.mod sg fun g => (g.chargeHmp 240).dpmIssue t.time
           ((((s.seg sg).homeAt f).place i).1) ((((s.seg sg).homeAt f).place i).2) none
           (.cpyRead (lineTo f i) (BitVec.ofNat 64 (field f.payload 0 8) + BitVec.ofNat 64 (128 * i)) ((((s.seg sg).serving f).dequeue idx).newBurst).2 none))
         (s.setSeg sg ((((s.seg sg).serving f).dequeue idx).newBurst).1))) ∧
  (∀ (s : State) (sg : Fin 8) (idx : Nat) (q : HomeReq), Takes s sg → (s.seg sg).txn.homeQ[idx]? = some q → q.flit.kind = 3 → q.flit.space = 2 →
     (s.seg sg).homeBlocked idx = false → q.flit.dstSeg.toNat ≤ (s.seg sg).straps.dieCount.toNat → badForm q.flit = false →
     (s.seg sg).ctlGranted q.flit.ctx = true →
     Becomes (.controlAtomAccess sg idx) s
       (let tr := (s.setSeg sg ((s.seg sg).dequeue idx)).atomCtl sg q.flit
        tr.1.mod sg fun g => g.injectL tr.1.time (mkReply (lineTo q.flit 0) (replyKind q.flit) tr.2.status
          (if replyKind q.flit == 9 && tr.2.status == csOk then padTo 128 (natBytes tr.2.data.toNat 16) else [])))) ∧
  (∀ (s : State) (sg : Fin 8) (region : BitVec 17), Takes s sg →
     ((s.seg sg).guardWaiter region.toNat ≠ none ∨ (s.seg sg).directWaiters region.toNat ≠ [] →
       (s.seg sg).present 0 ((s.seg sg).fld F.XLT_GUARD_BASE_BASE * 4096 + 4 * region.toNat) 4 = true →
       ActsOn (.guardFill sg region (some 0)) s sg fun g =>
         (g.directWaiters region.toNat).foldl (fun g r => g.issueDirect s.time r)
           { g with xlt := { g.xlt with guards := (insertKey region.toNat (g.guardMem region.toNat) g.xlt.guards).take 4096 } }) ∧
     (∀ st q, st ≠ 0 → (s.seg sg).guardWaiter region.toNat = some q →
       ActsOn (.guardFill sg region (some st)) s sg fun g =>
         ((g.ctxDenied s.tick q.1.flit).dequeue q.2).homeRefuse s.time q.1.flit csDenied) ∧
     (∀ st r rest, st ≠ 0 → (s.seg sg).guardWaiter region.toNat = none → (s.seg sg).directWaiters region.toNat = r :: rest →
       ActsOn (.guardFill sg region (some st)) s sg fun g =>
         (g.ctxDeny s.tick r.ctx g.node (r.line * 128) 0).settleAll s.time r csDenied))

/-- An ALU instruction that executes, on a core that neither a suspension nor a cancellation awaits, writes its result of the
core's registers to g[d] (g0 stays 0), moves the PC on by 8 and counts one retired instruction; nothing else in the package
changes. (03_courier_instruction_set.md, Encoding) -/
def Obligations.AluResults : Prop :=
  Computes .add (fun k f => k.r f.a + k.b' f) ∧
  Computes .sub (fun k f => k.r f.a - k.b' f) ∧
  Computes .and (fun k f => k.r f.a &&& k.b' f) ∧
  Computes .or (fun k f => k.r f.a ||| k.b' f) ∧
  Computes .xor (fun k f => k.r f.a ^^^ k.b' f) ∧
  Computes .shl (fun k f => k.r f.a <<< ((k.b' f).toNat % 64)) ∧
  Computes .shr (fun k f => k.r f.a >>> ((k.b' f).toNat % 64)) ∧
  Computes .sra (fun k f => (k.r f.a).sshiftRight ((k.b' f).toNat % 64)) ∧
  Computes .mul (fun k f => k.r f.a * k.b' f) ∧
  Computes .mulh (fun k f => BitVec.ofInt 64 ((k.r f.a).toInt * (k.b' f).toInt / 2 ^ 64)) ∧
  Computes .mulhu (fun k f => BitVec.ofNat 64 ((k.r f.a).toNat * (k.b' f).toNat / 2 ^ 64)) ∧
  Computes .div (fun k f => if k.b' f = 0 then BitVec.allOnes 64 else (k.r f.a).sdiv (k.b' f)) ∧
  Computes .divu (fun k f => if k.b' f = 0 then BitVec.allOnes 64 else k.r f.a / k.b' f) ∧
  Computes .rem (fun k f => if k.b' f = 0 then k.r f.a else (k.r f.a).srem (k.b' f)) ∧
  Computes .remu (fun k f => if k.b' f = 0 then k.r f.a else k.r f.a % k.b' f) ∧
  Computes .min (fun k f => if (k.r f.a).toInt < (k.b' f).toInt then k.r f.a else k.b' f) ∧
  Computes .max (fun k f => if (k.r f.a).toInt < (k.b' f).toInt then k.b' f else k.r f.a) ∧
  Computes .minu (fun k f => if (k.r f.a).toNat < (k.b' f).toNat then k.r f.a else k.b' f) ∧
  Computes .maxu (fun k f => if (k.r f.a).toNat < (k.b' f).toNat then k.b' f else k.r f.a) ∧
  Computes .movh (fun k f => movh (k.r f.a) f.imm) ∧
  Computes .popc (fun k f => popc (k.r f.a)) ∧
  Computes .clz (fun k f => clz (k.r f.a)) ∧
  Computes .ctz (fun k f => ctz (k.r f.a)) ∧
  Computes .extu (fun k f => extu (k.r f.a) (k.b' f))

/-- On a core that executes it, and that neither a suspension nor a cancellation awaits, every ALU instruction leaves the core
running at the next PC with its predicates and handler flag as they were, and every register of the segment but the core's
count of retired instructions as it was: no exception was raised. For a destination other than g0: a quotient by zero has
every bit set, a remainder by zero is g[a], -2^63 by -1 gives -2^63 and the remainder 0, every other signed quotient is
rounded toward zero, and the signed remainder is the one that goes with it and so takes the sign of g[a]. (R107) -/
def Obligations.DivisionAndNoAluTrap : Prop :=
  (∀ x ∈ aluInstrs, ∀ (s : State) (sg : Fin 8) (c : Fin 18) (f : IFields), Executes s sg c f → Settled s sg c →
     Does (x.2 sg c f) s fun t =>
       ((t.seg sg).core c).st = .running ∧ ((t.seg sg).core c).pc = ((s.seg sg).core c).pc + 8 ∧
       ((t.seg sg).core c).p = ((s.seg sg).core c).p ∧ ((t.seg sg).core c).handler = ((s.seg sg).core c).handler ∧
       (t.seg sg).flt = (s.seg sg).flt ∧
       ∀ off, off ≠ (F.CUR_COUNT_RETIRED.core c).off → (t.seg sg).reg off = (s.seg sg).reg off) ∧
  (∀ (s : State) (sg : Fin 8) (c : Fin 18) (f : IFields), Executes s sg c f → Settled s sg c → f.d ≠ 0 →
     (((s.seg sg).core c).b' f = 0 →
       Does (.div sg c f) s (fun t => ((t.seg sg).core c).r f.d = BitVec.allOnes 64) ∧
       Does (.divu sg c f) s (fun t => ((t.seg sg).core c).r f.d = BitVec.allOnes 64) ∧
       Does (.rem sg c f) s (fun t => ((t.seg sg).core c).r f.d = ((s.seg sg).core c).r f.a) ∧
       Does (.remu sg c f) s fun t => ((t.seg sg).core c).r f.d = ((s.seg sg).core c).r f.a) ∧
     (((s.seg sg).core c).r f.a = BitVec.ofInt 64 (-2 ^ 63) → ((s.seg sg).core c).b' f = BitVec.ofInt 64 (-1) →
       Does (.div sg c f) s (fun t => ((t.seg sg).core c).r f.d = BitVec.ofInt 64 (-2 ^ 63)) ∧
       Does (.rem sg c f) s fun t => ((t.seg sg).core c).r f.d = 0) ∧
     (((s.seg sg).core c).b' f ≠ 0 → ¬(((s.seg sg).core c).r f.a = BitVec.ofInt 64 (-2 ^ 63) ∧ ((s.seg sg).core c).b' f = BitVec.ofInt 64 (-1)) →
       Does (.div sg c f) s (fun t =>
         (((t.seg sg).core c).r f.d).toInt = (((s.seg sg).core c).r f.a).toInt.tdiv (((s.seg sg).core c).b' f).toInt) ∧
       Does (.rem sg c f) s fun t =>
         (((t.seg sg).core c).r f.d).toInt = (((s.seg sg).core c).r f.a).toInt.tmod (((s.seg sg).core c).b' f).toInt))

/-- A compare, PAND, POR, PXOR or PSET whose fields are in range writes its result to p[d] (p0 stays 1), moves the PC on by 8 and
counts one retired instruction; nothing else in the package changes. (03_courier_instruction_set.md, Encoding) -/
def Obligations.CompareAndPredicateResults : Prop :=
  (∀ (s : State) (sg : Fin 8) (c : Fin 18) (f : IFields), Executes s sg c f → Settled s sg c → f.d.toNat ≤ 7 →
     CoreDoes (.ceq sg c f) s sg c (((s.seg sg).core c).setP f.d.toNat
       ((fun a b : Word => a == b) (((s.seg sg).core c).r f.a) (((s.seg sg).core c).b' f)))) ∧
  (∀ (s : State) (sg : Fin 8) (c : Fin 18) (f : IFields), Executes s sg c f → Settled s sg c → f.d.toNat ≤ 7 →
     CoreDoes (.cne sg c f) s sg c (((s.seg sg).core c).setP f.d.toNat
       ((fun a b : Word => a != b) (((s.seg sg).core c).r f.a) (((s.seg sg).core c).b' f)))) ∧
  (∀ (s : State) (sg : Fin 8) (c : Fin 18) (f : IFields), Executes s sg c f → Settled s sg c → f.d.toNat ≤ 7 →
     CoreDoes (.clt sg c f) s sg c (((s.seg sg).core c).setP f.d.toNat
       ((fun a b : Word => a.slt b) (((s.seg sg).core c).r f.a) (((s.seg sg).core c).b' f)))) ∧
  (∀ (s : State) (sg : Fin 8) (c : Fin 18) (f : IFields), Executes s sg c f → Settled s sg c → f.d.toNat ≤ 7 →
     CoreDoes (.cltu sg c f) s sg c (((s.seg sg).core c).setP f.d.toNat
       ((fun a b : Word => a.ult b) (((s.seg sg).core c).r f.a) (((s.seg sg).core c).b' f)))) ∧
  (∀ (s : State) (sg : Fin 8) (c : Fin 18) (f : IFields), Executes s sg c f → Settled s sg c → f.d.toNat ≤ 7 →
     CoreDoes (.cge sg c f) s sg c (((s.seg sg).core c).setP f.d.toNat
       ((fun a b : Word => !a.slt b) (((s.seg sg).core c).r f.a) (((s.seg sg).core c).b' f)))) ∧
  (∀ (s : State) (sg : Fin 8) (c : Fin 18) (f : IFields), Executes s sg c f → Settled s sg c → f.d.toNat ≤ 7 →
     CoreDoes (.cgeu sg c f) s sg c (((s.seg sg).core c).setP f.d.toNat
       ((fun a b : Word => !a.ult b) (((s.seg sg).core c).r f.a) (((s.seg sg).core c).b' f)))) ∧
  (∀ (s : State) (sg : Fin 8) (c : Fin 18) (f : IFields), Executes s sg c f → Settled s sg c → f.d.toNat ≤ 7 → f.a.toNat ≤ 7 →
     f.b.toNat ≤ 7 → CoreDoes (.pand sg c f) s sg c (((s.seg sg).core c).setP f.d.toNat
       ((fun a b : Bool => a && b) (((s.seg sg).core c).pr f.a.toNat) (((s.seg sg).core c).pr f.b.toNat)))) ∧
  (∀ (s : State) (sg : Fin 8) (c : Fin 18) (f : IFields), Executes s sg c f → Settled s sg c → f.d.toNat ≤ 7 → f.a.toNat ≤ 7 →
     f.b.toNat ≤ 7 → CoreDoes (.por sg c f) s sg c (((s.seg sg).core c).setP f.d.toNat
       ((fun a b : Bool => a || b) (((s.seg sg).core c).pr f.a.toNat) (((s.seg sg).core c).pr f.b.toNat)))) ∧
  (∀ (s : State) (sg : Fin 8) (c : Fin 18) (f : IFields), Executes s sg c f → Settled s sg c → f.d.toNat ≤ 7 → f.a.toNat ≤ 7 →
     f.b.toNat ≤ 7 → CoreDoes (.pxor sg c f) s sg c (((s.seg sg).core c).setP f.d.toNat
       ((fun a b : Bool => a != b) (((s.seg sg).core c).pr f.a.toNat) (((s.seg sg).core c).pr f.b.toNat)))) ∧
  (∀ (s : State) (sg : Fin 8) (c : Fin 18) (f : IFields), Executes s sg c f → Settled s sg c → f.d.toNat ≤ 7 →
     CoreDoes (.pset sg c f) s sg c (((s.seg sg).core c).setP f.d.toNat (f.imm.getLsbD 0)))

/-- On a core that executes it, a compare or predicate instruction whose D is above 7 raises EX_ILLEGAL, and so does PAND, POR or
PXOR with A or B above 7: only the core's segment changes, as the exception makes it. (R108) -/
def Obligations.PredicateRangeIsIllegal : Prop :=
  (∀ x ∈ predInstrs, ∀ (s : State) (sg : Fin 8) (c : Fin 18) (f : IFields), Executes s sg c f → 7 < f.d.toNat →
     Raises (x.2 sg c f) s sg c x.1 0x1 0) ∧
  (∀ (s : State) (sg : Fin 8) (c : Fin 18) (f : IFields), Executes s sg c f → 7 < f.a.toNat ∨ 7 < f.b.toNat →
     Raises (.pand sg c f) s sg c 0x28 0x1 0 ∧ Raises (.por sg c f) s sg c 0x29 0x1 0 ∧ Raises (.pxor sg c f) s sg c 0x2A 0x1 0)

/-- A load whose address is aligned, whose bytes lie within the lunchbox and whose word passes its check writes them, as a
little-endian number, to g[d]: zero-extended, or sign-extended by LDS8, LDS16 and LDS32. The PC moves on by 8, one retired
instruction is counted, and nothing else in the package changes. (03_courier_instruction_set.md, Architectural state;
03_courier_instruction_set.md, Encoding; 00_scope.md, Numbers, bits and bytes) -/
def Obligations.LoadResults : Prop :=
  Loads .ld8 1 (fun v => BitVec.ofNat 64 v) ∧
  Loads .ld16 2 (fun v => BitVec.ofNat 64 v) ∧
  Loads .ld32 4 (fun v => BitVec.ofNat 64 v) ∧
  Loads .ld64 8 (fun v => BitVec.ofNat 64 v) ∧
  Loads .lds8 1 (fun v => signed 1 v) ∧
  Loads .lds16 2 (fun v => signed 2 v) ∧
  Loads .lds32 4 (fun v => signed 4 v)

/-- A store whose address is aligned and whose bytes lie within the lunchbox writes the low bytes of g[b] there, little-endian,
and leaves every other byte as it was. A store of fewer than 8 bytes needs the word's check to be good; a store of 8 bytes
makes it good. The PC moves on by 8, one retired instruction is counted, and nothing else in the package changes.
(03_courier_instruction_set.md, Architectural state; 03_courier_instruction_set.md, Encoding; 00_scope.md, Numbers, bits and
bytes) -/
def Obligations.StoreResults : Prop :=
  Stores .st8 1 ∧
  Stores .st16 2 ∧
  Stores .st32 4 ∧
  Stores .st64 8 ∧
  (∀ (k : Core) (a n i : Nat) (v : Word), memWf k.lb = true →
     memRead (k.store a n v).lb i = if a ≤ i ∧ i < a + n then BitVec.ofNat 8 (v.toNat % 2 ^ (8 * n) / 2 ^ (8 * (i - a))) else memRead k.lb i)

/-- On a core that executes it, a load or store at a misaligned address raises EX_ALIGN; an aligned one whose bytes pass 0xFFFF
raises EX_BOUNDS; an aligned one within the lunchbox that reads a word failing its check (a load, or a store of fewer than 8
bytes) raises EX_POISON. CUR_EXC_INFO is the address; only the core's segment changes, as the exception makes it.
(03_courier_instruction_set.md, Exceptions; 03_courier_instruction_set.md, Encoding) -/
def Obligations.LunchboxTraps : Prop :=
  ∀ x ∈ lunchInstrs, ∀ (s : State) (sg : Fin 8) (c : Fin 18) (f : IFields), Executes s sg c f → 
    ((((s.seg sg).core c).ea f).toNat % x.2.1 ≠ 0 → Raises (x.2.2.2 sg c f) s sg c x.1 0x3 (((s.seg sg).core c).ea f)) ∧
    ((((s.seg sg).core c).ea f).toNat % x.2.1 = 0 → 0x10000 < (((s.seg sg).core c).ea f).toNat + x.2.1 →
      Raises (x.2.2.2 sg c f) s sg c x.1 0x4 (((s.seg sg).core c).ea f)) ∧
    ((((s.seg sg).core c).ea f).toNat % x.2.1 = 0 → (((s.seg sg).core c).ea f).toNat + x.2.1 ≤ 0x10000 → x.2.2.1 = true →
      ((s.seg sg).core c).lbBad.contains ((((s.seg sg).core c).ea f).toNat / 8) = true →
      Raises (x.2.2.2 sg c f) s sg c x.1 0x6 (((s.seg sg).core c).ea f))

/-- On a core that executes it: BR and CALL go to PC + IMM x 8 when A is 0 and to g[a] + IMM x 8 otherwise, with IMM sign-extended
and the sum modulo 2^32; a target that is not a multiple of 8 raises EX_ALIGN with the target; CALL then with 32 entries on
the return stack, and RET with none, raise EX_STACK; otherwise CALL pushes PC + 8 and RET pops its target. On a core that
neither a suspension nor a cancellation awaits, nothing else changes but the count of retired instructions. (R112) -/
def Obligations.BranchTargets : Prop :=
  (∀ (s : State) (sg : Fin 8) (c : Fin 18) (f : IFields) (to_ : BitVec 32), Executes s sg c f →
     to_ = BitVec.ofInt 32 ((if f.a = 0 then (((s.seg sg).core c).pc.toNat : Int) else ((((s.seg sg).core c).r f.a).toNat : Int)) + f.imm.toInt * 8) →
     (to_.toNat % 8 ≠ 0 → Raises (.br sg c f) s sg c 0x48 0x3 (BitVec.ofNat 64 to_.toNat) ∧
        Raises (.call sg c f) s sg c 0x49 0x3 (BitVec.ofNat 64 to_.toNat)) ∧
     (to_.toNat % 8 = 0 →
        (Settled s sg c → Does (.br sg c f) s fun t => CoreStep s t sg c { (s.seg sg).core c with pc := to_ }) ∧
        (32 ≤ ((s.seg sg).core c).rs.length → Raises (.call sg c f) s sg c 0x49 0x7 0) ∧
        (((s.seg sg).core c).rs.length < 32 → Settled s sg c → Does (.call sg c f) s fun t =>
           CoreStep s t sg c { (s.seg sg).core c with rs := ((s.seg sg).core c).rs ++ [((s.seg sg).core c).pc + 8], pc := to_ }))) ∧
  (∀ (s : State) (sg : Fin 8) (c : Fin 18) (f : IFields), Executes s sg c f →
     (((s.seg sg).core c).rs = [] → Raises (.ret sg c f) s sg c 0x4A 0x7 0) ∧
     (∀ l to_, ((s.seg sg).core c).rs = l ++ [to_] → Settled s sg c →
        Does (.ret sg c f) s fun t => CoreStep s t sg c { (s.seg sg).core c with rs := l, pc := to_ }))

/-- On a core that executes it: MOVS gives g[d] the context (IMM 0) or the tick count (IMM 1), and any other IMM raises
EX_ILLEGAL; SETS on the keeper makes g[a][11:0] the context. CLD and CST on the keeper or steward make an aligned access of 8
bytes to the segment's own control space: CLD gives g[d] what it reads, and CST is done once the access is; an access with
another status raises EX_CTRL with it, and a misaligned address does so with CS_DENIED; the control space of another segment
is asked by a request, for which the core waits. YIELD on a courier saves the ticket. HALT puts the keeper or steward to sleep
at the next instruction, and on a courier frees it and ends its ticket with g[a][3:0]. ERET on the keeper or steward clears
the handler flag and goes on at CUR_EPC. (03_courier_instruction_set.md, Encoding; 03_courier_instruction_set.md, Control;
03_courier_instruction_set.md, Exceptions) -/
def Obligations.SpecialAndControlInstructions : Prop :=
  (∀ (s : State) (sg : Fin 8) (c : Fin 18) (f : IFields), Executes s sg c f →
     (f.imm.toNat ≤ 1 → Settled s sg c → CoreDoes (.movs sg c f) s sg c (((s.seg sg).core c).setR f.d
        (if f.imm = 0 then ((s.seg sg).core c).ctx.zeroExtend 64 else BitVec.ofNat 64 (s.coreTick sg c)))) ∧
     (1 < f.imm.toNat → Raises (.movs sg c f) s sg c 0x40 0x1 0)) ∧
  (∀ (s : State) (sg : Fin 8) (f : IFields), Executes s sg 16 f → Settled s sg 16 →
     CoreDoes (.sets sg 16 f) s sg 16 { (s.seg sg).core 16 with ctx := (((s.seg sg).core 16).r f.a).truncate 12 }) ∧
  (∀ (s : State) (sg : Fin 8) (c : Fin 18) (f : IFields), Executes s sg c f → 16 ≤ c.val →
     (((s.seg sg).core c).ea f).toNat % 8 ≠ 0 →
     Raises (.cld sg c f) s sg c 0x42 0xB (csDenied.zeroExtend 64) ∧ Raises (.cst sg c f) s sg c 0x43 0xB (csDenied.zeroExtend 64)) ∧
  (∀ (s : State) (sg : Fin 8) (c : Fin 18) (f : IFields), Executes s sg c f → 16 ≤ c.val →
     (((s.seg sg).core c).ea f).toNat % 8 = 0 →
     ((s.seg sg).ownCtl (((s.seg sg).core c).ea f).toNat = true →
       (let t := s.ctlRead sg ((s.seg sg).coreAgent c ((s.seg sg).core c)) (gaOff (((s.seg sg).core c).ea f).toNat) .w64
        if (t.acc sg).status = csOk then Yields (.cld sg c f) s sg c 0x42 (.go (t.modCore sg c fun k => k.setR f.d (t.acc sg).data))
        else Becomes (.cld sg c f) s (t.mod sg fun g => g.raiseExc t.time c 0x42 0xB ((t.acc sg).status.zeroExtend 64))) ∧
       (let t := ((Res.go s).apply sg c 0x43 s).ctlWrite sg ((s.seg sg).coreAgent c ((s.seg sg).core c))
          (gaOff (((s.seg sg).core c).ea f).toNat) .w64 (((s.seg sg).core c).r f.b)
        if (t.acc sg).status = csOk then Becomes (.cst sg c f) s t
        else Becomes (.cst sg c f) s ((s.accessed ((s.seg sg).coreAgent c ((s.seg sg).core c))).mod sg fun g =>
          g.raiseExc s.time c 0x43 0xB ((t.acc sg).status.zeroExtend 64)))) ∧
     ((s.seg sg).ownCtl (((s.seg sg).core c).ea f).toNat = false →
       Becomes (.cld sg c f) s ((s.mod sg fun g => g.issueCtl s.time ((s.seg sg).core c).ctx (.courier c) (((s.seg sg).core c).ea f).toNat 8
         none (.ctl c)).stall sg c (.ctl (some f.d))) ∧
       Becomes (.cst sg c f) s ((s.mod sg fun g => g.issueCtl s.time ((s.seg sg).core c).ctx (.courier c) (((s.seg sg).core c).ea f).toNat 8
         (some (((s.seg sg).core c).r f.b)) (.ctl c)).stall sg c (.ctl none)))) ∧
  (∀ (s : State) (sg : Fin 8) (c : Fin 18) (f : IFields) (n : Nat), Executes s sg c f → ((s.seg sg).core c).ticket = some n →
     descExc ((s.seg sg).core c) 0 4096 = none →
     Becomes (.yield sg c f) s (s.mod sg fun g =>
       ((g.saveTicket s.time c n 0x4B (((s.seg sg).core c).pc + 8) (f.imm.truncate 16) (f.imm.getLsbD 16)).board s.time).bump
         (F.CUR_COUNT_RETIRED.core c))) ∧
  (∀ (s : State) (sg : Fin 8) (c : Fin 18) (f : IFields), Executes s sg c f →
     (16 ≤ c.val → Becomes (.halt sg c f) s (s.mod sg fun g => (g.sleepCore c).bump (F.CUR_COUNT_RETIRED.core c))) ∧
     (∀ n, c.val < 16 → (((s.seg sg).core c).r f.a).toNat % 16 < 12 → ((s.seg sg).core c).ticket = some n →
       Becomes (.halt sg c f) s (s.mod sg fun g =>
         (((g.freeCourier c).modTicket n fun t => { t with st := .ending ((((s.seg sg).core c).r f.a).truncate 4) 0 0 }).board s.time).bump
           (F.CUR_COUNT_RETIRED.core c))) ∧
     (c.val < 16 → 12 ≤ (((s.seg sg).core c).r f.a).toNat % 16 → Raises (.halt sg c f) s sg c 0x4C 0x1 0)) ∧
  (∀ (s : State) (sg : Fin 8) (c : Fin 18) (f : IFields), Executes s sg c f → 16 ≤ c.val → Settled s sg c →
     Does (.eret sg c f) s fun t => CoreStep s t sg c { (s.seg sg).core c with handler := false, pc := ((s.seg sg).core c).epc })

/-- On a core that executes it. WAITS with d up to 7 on an aligned word that its cached ranges map to the own segment: a
successful read that finds at least g[b] sets p[d] and goes on, one that finds less makes the core wait (with the deadline IMM
ticks away when IMM is not 0), a failed one raises EX_POISON; an unmapped or remote word raises EX_DESC, a misaligned one
EX_ALIGN, and a range miss stalls. WAITE with d up to 7 sets p[d] and goes on when its slots satisfy it, and otherwise waits
(with the deadline g[b] ticks away when g[b] is not 0). FENCE goes on when no descriptor is left to wait for and otherwise
waits. RDT gives g[d] the selected value of its slot. TKT with a good record address takes a ticket with a free number and
gives g[d] the number (on a cancelled trail that ticket completes at once with CS_ABORTED), or gives g[d] all ones when no
entry is free or the context's quota is reached. RECALL, on the keeper or steward or on a courier of a privileged context that
recalls its own ranges, starts the recall, makes its slot busy and goes on; on a courier of any other context it raises
EX_PRIV. CHUNK on a slot busy with a gated CJOIN raises that operation's ready cursor to at most its chunk count and goes on;
on any other slot it raises EX_SLOT. A d of WAITS or WAITE above 7, a d of CHUNK above 15 and a reserved selector raise
EX_ILLEGAL. (03_courier_instruction_set.md, Synchronisation; 03_courier_instruction_set.md, Tally slots;
03_courier_instruction_set.md, Collectives; 03_courier_instruction_set.md, Exceptions; 04_trails_and_shapes.md, Spawned
tickets, yield and cancellation) -/
def Obligations.WaitAndTicketInstructions : Prop :=
  (∀ (s : State) (sg : Fin 8) (c : Fin 18) (f : IFields) (st : DpmStatus), Executes s sg c f →
     (7 < f.d.toNat → Raises (.waits sg c f st) s sg c 0x61 0x1 0 ∧ Raises (.waite sg c f) s sg c 0x62 0x1 0) ∧
     (f.d.toNat ≤ 7 → (((s.seg sg).core c).r f.a).toNat % 8 ≠ 0 → Raises (.waits sg c f st) s sg c 0x61 0x3 (((s.seg sg).core c).r f.a)) ∧
     (f.d.toNat ≤ 7 → (((s.seg sg).core c).r f.a).toNat % 8 = 0 →
       (∀ st', (s.seg sg).translate ((s.seg sg).core c).ctx (((s.seg sg).core c).r f.a).toNat 8 1 [] = .bad st' →
          Raises (.waits sg c f st) s sg c 0x61 0x8 (((s.seg sg).core c).r f.a)) ∧
       (∀ va, (s.seg sg).translate ((s.seg sg).core c).ctx (((s.seg sg).core c).r f.a).toNat 8 1 [] = .miss va →
          Becomes (.waits sg c f st) s (s.stall sg c (.issue { op := 0x61, f := f, start := s.time }))) ∧
       (∀ ps used, (s.seg sg).translate ((s.seg sg).core c).ctx (((s.seg sg).core c).r f.a).toNat 8 1 [] = .ok ps used →
          ps.all (s.seg sg).homedHere = false → Raises (.waits sg c f st) s sg c 0x61 0x8 (((s.seg sg).core c).r f.a)))) ∧
  (∀ (s : State) (sg : Fin 8) (c : Fin 18) (f : IFields) (ps : List Piece) (used : List RangeEntry), Executes s sg c f → f.d.toNat ≤ 7 →
     (((s.seg sg).core c).r f.a).toNat % 8 = 0 →
     (s.seg sg).translate ((s.seg sg).core c).ctx (((s.seg sg).core c).r f.a).toNat 8 1 [] = .ok ps used →
     ps.all (s.seg sg).homedHere = true →
     (let ga := (ps.head?.map Piece.ga).getD 0
      let t := s.mod sg fun g => g.touch used
      ((((s.seg sg).core c).r f.b).toNat ≤ bytesNat (((s.seg sg).touch used).gaBytes ga 8) →
        Yields (.waits sg c f (some 0)) s sg c 0x61 (.go (t.modCore sg c fun k => k.setP f.d.toNat true))) ∧
      (bytesNat (((s.seg sg).touch used).gaBytes ga 8) < (((s.seg sg).core c).r f.b).toNat →
        Becomes (.waits sg c f (some 0)) s (t.stall sg c (.waits (((s.seg sg).core c).r f.a) ga (((s.seg sg).core c).r f.b) f.d
          (if f.imm = 0 then none else some (s.tick + f.imm.toNat)) (s.time + 1024)))) ∧
      ∀ e, e ≠ 0 → Raises (.waits sg c f (some e)) s sg c 0x61 0x6 (((s.seg sg).core c).r f.a))) ∧
  (∀ (s : State) (sg : Fin 8) (c : Fin 18) (f : IFields), Executes s sg c f → f.d.toNat ≤ 7 →
     (waiteMet ((s.seg sg).slots ((s.seg sg).ownerOf c)) (f.imm.truncate 16) (f.imm.getLsbD 16) = true →
       Yields (.waite sg c f) s sg c 0x62 (.go (s.modCore sg c fun k => k.setP f.d.toNat true))) ∧
     (waiteMet ((s.seg sg).slots ((s.seg sg).ownerOf c)) (f.imm.truncate 16) (f.imm.getLsbD 16) = false →
       Becomes (.waite sg c f) s (s.stall sg c (.waite (f.imm.truncate 16) (f.imm.getLsbD 16) f.d
         (if ((s.seg sg).core c).r f.b = 0 then none else some (s.tick + (((s.seg sg).core c).r f.b).toNat)))))) ∧
  (∀ (s : State) (sg : Fin 8) (c : Fin 18) (f : IFields), Executes s sg c f →
     (f.imm.toNat % 4 ≠ 3 →
       ((s.seg sg).fenceSet ((s.seg sg).ownerOf c) (f.imm.toNat % 4) = [] → Yields (.fence sg c f) s sg c 0x63 (.go s)) ∧
       ((s.seg sg).fenceSet ((s.seg sg).ownerOf c) (f.imm.toNat % 4) ≠ [] →
         Becomes (.fence sg c f) s (s.stall sg c (.fence ((s.seg sg).fenceSet ((s.seg sg).ownerOf c) (f.imm.toNat % 4)) (f.imm.toNat % 4) none)))) ∧
     (f.imm.toNat % 4 = 3 → Raises (.fence sg c f) s sg c 0x63 0x1 0) ∧
     (f.imm.toNat / 16 % 16 ≤ 4 → Settled s sg c → CoreDoes (.rdt sg c f) s sg c (((s.seg sg).core c).setR f.d
        ((s.seg sg).rdtValue ((s.seg sg).slot ((s.seg sg).ownerOf c) (f.imm.toNat % 16)) (f.imm.toNat / 16 % 16)))) ∧
     (4 < f.imm.toNat / 16 % 16 → Raises (.rdt sg c f) s sg c 0x64 0x1 0)) ∧
  (∀ (s : State) (sg : Fin 8) (c : Fin 18) (f : IFields), Executes s sg c f →
     (∀ code info, descExc ((s.seg sg).core c) (((s.seg sg).core c).descAt f) 128 = some (code, info) →
       Raises (.tkt sg c f) s sg c 0x65 code info) ∧
     (descExc ((s.seg sg).core c) (((s.seg sg).core c).descAt f) 128 = none →
       (((s.seg sg).core c).ticket = none ∨ (s.seg sg).freeEntry = none ∨
          (s.seg sg).ticketQuota ≤ ((s.seg sg).ticketsOf ((s.seg sg).core c).ctx).length →
        Yields (.tkt sg c f) s sg c 0x65 (.go (s.modCore sg c fun k => k.setR f.d (BitVec.allOnes 64)))) ∧
       (∀ m t n x, ((s.seg sg).core c).ticket = some m → (s.seg sg).ticket? m = some t → (s.seg sg).freeEntry = some n →
          (s.seg sg).trail? t.trail = some x → ((s.seg sg).ticketsOf ((s.seg sg).core c).ctx).length < (s.seg sg).ticketQuota →
          Yields (.tkt sg c f) s sg c 0x65 (.go ((s.modCore sg c fun k => k.setR f.d (BitVec.ofNat 64 n)).mod sg fun g =>
            (if x.cancelled = true then
               g.admitDead s.time n t.trail ((s.seg sg).core c).ctx (memBytes ((s.seg sg).core c).lb (((s.seg sg).core c).descAt f).toNat 128)
             else g.takeTicket s.time n t.trail n true (some t.n) ((s.seg sg).core c).ctx
               (memBytes ((s.seg sg).core c).lb (((s.seg sg).core c).descAt f).toNat 128) none).board s.time))))) ∧
  (∀ (s : State) (sg : Fin 8) (c : Fin 18) (f : IFields) (b : List Byte), Executes s sg c f → badSlot f = false →
     b = memBytes ((s.seg sg).core c).lb (((s.seg sg).core c).descAt f).toNat 32 →
     (c.val < 16 → (s.seg sg).privileged ((s.seg sg).core c).ctx = false → Raises (.recall sg c f) s sg c 0x66 0x2 0) ∧
     (16 ≤ c.val ∨ ((s.seg sg).privileged ((s.seg sg).core c).ctx = true ∧ field b 16 2 = ((s.seg sg).core c).ctx.toNat) →
       descExc ((s.seg sg).core c) (((s.seg sg).core c).descAt f) 32 = none →
       (s.seg sg).slotExc ((s.seg sg).ownerOf c) (slotOf f) = none → badRecall b = false → (s.seg sg).storeFull = false →
       (∀ i, slotOf f = some i → Yields (.recall sg c f) s sg c 0x66 (.go
          ((s.mod sg fun g => g.modSlot ((s.seg sg).ownerOf c) i fun _ => { st := .busy }).startRecall sg b false
            (some ((s.seg sg).ownerOf c, some i))))) ∧
       (slotOf f = none → Yields (.recall sg c f) s sg c 0x66 (.go (s.startRecall sg b false (some ((s.seg sg).ownerOf c, none))))))) ∧
  (∀ (s : State) (sg : Fin 8) (c : Fin 18) (f : IFields), Executes s sg c f →
     (15 < f.d.toNat → Raises (.chunk sg c f) s sg c 0x59 0x1 0) ∧
     (f.d.toNat ≤ 15 →
       (∀ n o, ((s.seg sg).slot ((s.seg sg).ownerOf c) f.d.toNat).st = .busy →
          ((s.seg sg).slot ((s.seg sg).ownerOf c) f.d.toNat).kind = .cjoin true n o →
          Yields (.chunk sg c f) s sg c 0x59 (.go (s.mod sg fun g => g.modGrp n fun x => x.setReady o s.tick (((s.seg sg).core c).r f.a).toNat))) ∧
       (((s.seg sg).slot ((s.seg sg).ownerOf c) f.d.toNat).st ≠ .busy ∨
          (∀ n o, ((s.seg sg).slot ((s.seg sg).ownerOf c) f.d.toNat).kind ≠ .cjoin true n o) →
          Raises (.chunk sg c f) s sg c 0x59 0x9 (f.d.zeroExtend 64))))

/-- On a core that executes it, naming a slot that is not busy or untallied work, with the descriptor store not full and every
address translated: a linear move whose descriptor lies in the lunchbox, passes R124 and has a run-time length within the
planned one (B 0: the planned one), and of which GET's destination and PUT's source are on the own segment; a tiled move whose
shape R175 passes, with run-time counts within its windows and none 0; an atomic with zero reserved bytes; a signal to an
aligned word, with RELEASE clear or nothing before it to wait for. Each enters the store as one descriptor with its body and
its number of lines, its slot becomes busy, and the core goes on. A signal with RELEASE that has earlier work to wait for
first waits as FENCE does. (03_courier_instruction_set.md, Tally slots; 03_courier_instruction_set.md, Movement;
03_courier_instruction_set.md, Synchronisation; 04_trails_and_shapes.md, Shape descriptors) -/
def Obligations.MovesAndAtomicsIssue : Prop :=
  (∀ x ∈ ([(0x50, .get), (0x51, .put), (0x52, .copy)] : List (BitVec 8 × (Fin 8 → Fin 18 → IFields → Instr))),
   ∀ (s : State) (sg : Fin 8) (c : Fin 18) (f : IFields) (k : Core) (b : List Byte) (n fl : Nat) (sides : List (List Piece))
     (used : List RangeEntry), Executes s sg c f → k = (s.seg sg).core c →
     badSlot f = false → (s.seg sg).slotExc ((s.seg sg).ownerOf c) (slotOf f) = none → (s.seg sg).storeFull = false →
     descExc k (k.descAt f) 32 = none → b = memBytes k.lb (k.descAt f).toNat 32 → zeros b 25 7 = true → fl = field b 24 1 → fl < 4 →
     (fl % 2 = 1 → x.1 = 0x51) → (fl / 2 % 2 = 1 → x.1 = 0x50) → field b 16 8 ≤ 2 ^ 44 →
     n = (if f.b = 0 then field b 16 8 else (k.r f.b).toNat) → 0 < n → n ≤ field b 16 8 →
     (fl % 2 = 1 → field b 0 8 + n ≤ 0x10000) → (fl / 2 % 2 = 1 → field b 8 8 + n ≤ 0x10000) →
     judge none [(s.seg sg).moveSide k.ctx (fl % 2 == 1) (field b 0 8) n 1 [],
       (s.seg sg).moveSide k.ctx (fl / 2 % 2 == 1) (field b 8 8) n 2 []] = .ok sides used →
     (x.1 = 0x50 → (sides.getD 1 []).all (fun p => (s.seg sg).owns p.ga) = true) →
     (x.1 = 0x51 → (sides.getD 0 []).all (fun p => (s.seg sg).owns p.ga) = true) →
     Yields (x.2 sg c f) s sg c x.1 (.go (s.mod sg fun g => g.newDesc s.time c (slotOf f)
       (.move x.1.toNat (if fl % 2 == 1 then .lunchbox (field b 0 8) else .span (field b 0 8) (sides.getD 0 []))
         (if fl / 2 % 2 == 1 then .lunchbox (field b 8 8) else .span (field b 8 8) (sides.getD 1 [])) n
         (x.1 == 0x52 && (field b 8 8 % 128 != 0 || field b 0 8 % 128 != 0))) n 32 used))) ∧
  (∀ (s : State) (sg : Fin 8) (c : Fin 18) (f : IFields) (k : Core) (b : List Byte) (size : Nat) (sh : Shape) (g : Segment) (cs : List Nat)
     (sides : List (List Piece)) (used : List RangeEntry), Executes s sg c f → k = (s.seg sg).core c → badSlot f = false →
     (s.seg sg).slotExc ((s.seg sg).ownerOf c) (slotOf f) = none → (s.seg sg).storeFull = false →
     descExc k (k.descAt f) 64 = none →
     size = 64 + 40 * (if (memRead k.lb (k.descAt f).toNat).toNat ≤ 5 then (memRead k.lb (k.descAt f).toNat).toNat else 0) →
     descExc k (k.descAt f) size = none → b = memBytes k.lb (k.descAt f).toNat size → parseShape b = some sh →
     (s.seg sg).shapeCounts k.ctx b sh = (g, .inl cs) → tooWide sh cs = false → cs.all (· != 0) = true →
     judge none [g.trSpan k.ctx ({ sh with counts := cs } : Shape).srcSpan 1 [], g.trSpan k.ctx ({ sh with counts := cs } : Shape).dstSpan 2 [],
       g.trSpan k.ctx (({ sh with counts := cs } : Shape).sigAddr.map fun va => (va, 8)) 3 []] = .ok sides used →
     Yields (.movt sg c f) s sg c 0x53 (.go ((s.setSeg sg g).mod sg fun g => g.newDesc s.time c (slotOf f)
       (.shape { sh with counts := cs } (sides.getD 0 []) (sides.getD 1 []) (sides.getD 2 [])) ({ sh with counts := cs } : Shape).tiles size used))) ∧
  (∀ x ∈ ([(0x54, false, .atom), (0x55, true, .atomf)] : List (BitVec 8 × Bool × (Fin 8 → Fin 18 → IFields → Instr))),
   ∀ (s : State) (sg : Fin 8) (c : Fin 18) (f : IFields) (k : Core) (b : List Byte) (role ga : Nat) (sides : List (List Piece))
     (used : List RangeEntry), Executes s sg c f → k = (s.seg sg).core c → badSlot f = false →
     (s.seg sg).slotExc ((s.seg sg).ownerOf c) (slotOf f) = none → (s.seg sg).storeFull = false →
     descExc k (k.descAt f) 112 = none → b = memBytes k.lb (k.descAt f).toNat 112 → zeros b 12 4 = true →
     role = atomRole x.2.1 (field b 8 1) →
     judge none [(s.seg sg).translate k.ctx (field b 0 8) (atomSpan x.2.1 b) (if role == 0 then 1 else if role == 1 then 2 else 3) []] =
       .ok sides used → ga = (((sides.getD 0 []).head?).map Piece.ga).getD 0 →
     Yields (x.2.2 sg c f) s sg c x.1 (.go (s.mod sg fun g => g.newDesc s.time c (slotOf f)
       (.atom (if x.2.1 then 4 else 3) (sides.getD 0 []) (padTo 128 ((b.drop 8).take 4 ++ natBytes (ga % 128) 2 ++ List.replicate 10 0 ++
           (if x.2.1 && field b 10 1 / 2 % 2 == 1 then (b.drop 16).take 64 else (b.drop 16).take 16 ++ (b.drop 80).take 16)))
         (some ((k.descAt f).toNat + 96)) role) 1 112 used))) ∧
  (∀ (s : State) (sg : Fin 8) (c : Fin 18) (f : IFields) (k : Core) (sides : List (List Piece)) (used : List RangeEntry),
     Executes s sg c f → k = (s.seg sg).core c → badSlot f = false →
     (s.seg sg).slotExc ((s.seg sg).ownerOf c) (slotOf f) = none → (s.seg sg).storeFull = false → (k.r f.a).toNat % 8 = 0 →
     judge none [(s.seg sg).translate k.ctx (k.r f.a).toNat 8 3 []] = .ok sides used →
     (f.imm.getLsbD 16 = false ∨ (s.seg sg).fenceSet ((s.seg sg).ownerOf c) 1 = [] →
       Yields (.sig sg c f) s sg c 0x60 (.go (s.mod sg fun g => g.newDesc s.time c (slotOf f)
         (.atom 3 (sides.getD 0 []) (padTo 128 (addPayload ((((sides.getD 0 []).head?).map Piece.ga).getD 0) (k.r f.b + BitVec.ofNat 64 f.off))) none 2)
         1 0 used))) ∧
     (f.imm.getLsbD 16 = true → (s.seg sg).fenceSet ((s.seg sg).ownerOf c) 1 ≠ [] →
       Becomes (.sig sg c f) s (s.stall sg c (.fence ((s.seg sg).fenceSet ((s.seg sg).ownerOf c) 1) 1
         (some { op := 0x60, f := f, start := s.time })))))

/-- On a core that executes it, naming a slot that is not busy or untallied work, with the descriptor store not full, for a group
that does not refuse the core's context and whose queue holds fewer than 16 operations and keeps no older issue waiting: CAMP,
VOTE and RIDE (with operation 0 to 9) enter the queue with the operand g[b], and a CJOIN whose descriptor R202 passes and
whose sides are translated enters it with its fingerprint, its run-time count, its sides and the status that its launch will
carry. The slot becomes busy and the core goes on. A group that refuses gives the slot its status at once.
(03_courier_instruction_set.md, Collectives; 05_headcount_and_chunk_flow.md, The communication queue;
05_headcount_and_chunk_flow.md, The collective descriptor) -/
def Obligations.CollectivesIssue : Prop :=
  (∀ x ∈ ([(0x5A, 0x5A, .camp), (0x5B, 0x5B, .vote), (0x5C, 0x5C, .ride)] : List (BitVec 8 × Nat × (Fin 8 → Fin 18 → IFields → Instr))),
   ∀ (s : State) (sg : Fin 8) (c : Fin 18) (f : IFields) (k : Core) (n : BitVec 12), Executes s sg c f → k = (s.seg sg).core c →
     badSlot f = false → (x.1 = 0x5C → f.flags % 16 ≤ 9) → (s.seg sg).slotExc ((s.seg sg).ownerOf c) (slotOf f) = none →
     n = (k.r f.a).truncate 12 →
     (∀ st, (s.seg sg).groupRefuses n k.ctx = some st →
       Yields (x.2.2 sg c f) s sg c x.1 (.go (s.mod sg fun g => g.settleIssue s.tick c (slotOf f) st))) ∧
     (∀ y, (s.seg sg).groupRefuses n k.ctx = none → (s.seg sg).grp? n = some y → (s.seg sg).storeFull = false →
       (s.seg sg).queueHeld s.time c n y = false →
       Yields (x.2.2 sg c f) s sg c x.1 (.go (s.mod sg fun g => g.joinQueue n
         { opId := y.nextOp, code := x.2.1, owner := (s.seg sg).ownerOf c, slot := slotOf f, core := c,
           fp := fingerprint y x.2.1 {} (if x.1 = 0x5C then f.flags % 16 else 0), d := {}, raw := [], n := 0, launch := 0, shape := none,
           src := [], dst := [], srcVa := 0, dstVa := 0, gated := false, ready := 0, rideOp := if x.1 = 0x5C then f.flags % 16 else 0,
           value := if x.1 = 0x5A then 0 else k.r f.b, at_ := k.issueAge s.time } (.round n y.nextOp))))) ∧
  (∀ (s : State) (sg : Fin 8) (c : Fin 18) (f : IFields) (k : Core) (b shb : List Byte) (off size : Nat) (n : BitVec 12) (x : Grp)
     (sh : Option Shape) (g : Segment) (counts : List Nat ⊕ BitVec 4) (op : COp) (sides : List (List Piece)) (used : List RangeEntry),
     Executes s sg c f → k = (s.seg sg).core c → badSlot f = false →
     (s.seg sg).slotExc ((s.seg sg).ownerOf c) (slotOf f) = none →
     descExc k (k.descAt f) 64 = none → b = memBytes k.lb (k.descAt f).toNat 64 → off = field b 40 2 →
     size = (if off == 0 then 0 else inlineSize k (k.descAt f).toNat off) →
     descExc k (k.descAt f) (if size == 0 then 64 else off + size) = none → n = BitVec.ofNat 12 (field b 0 2) →
     shb = memBytes k.lb ((k.descAt f).toNat + off) size → sh = (if size == 0 then none else parseShape shb) →
     (s.seg sg).groupRefuses n k.ctx = none → (s.seg sg).grp? n = some x → x.badCDesc b sh = false →
     (s.seg sg).storeFull = false → (s.seg sg).queueHeld s.time c n x = false →
     (s.seg sg).joinCounts c f x b sh shb = (g, counts) →
     op = { x.joinOp g c f b sh counts with
       at_ := k.issueAge s.time, raw := memBytes k.lb (k.descAt f).toNat (if size == 0 then 64 else off + size) } →
     judge none [g.trSpan k.ctx (x.joinSpans op (runCount counts)).1 1 [], g.trSpan k.ctx (x.joinSpans op (runCount counts)).2 2 []] =
       .ok sides used →
     Yields (.cjoin sg c f) s sg c 0x58 (.go ((s.setSeg sg g).mod sg fun g' => (g'.touch used).joinQueue n
       (op.enter g s.time k.ctx (sides.getD 0 []) (sides.getD 1 [])) (.cjoin op.gated n x.nextOp))))

/-- For every courier instruction and every core that runs, is not held by STOP, whose fast clock runs and whose domain is awake:
when the fetch at its PC fails, the instruction raises that exception (EX_FETCH, or EX_POISON with the address) whatever its
guard says; when the fetch succeeds and p[PRED] XOR INV is 0, only the PC of that core changes in the whole package, by 8. An
instruction that executes below its level raises EX_PRIV: SETS below level 2, and CLD, CST and ERET below level 1.
(03_courier_instruction_set.md, Encoding; 03_courier_instruction_set.md, Exceptions; 03_courier_instruction_set.md,
Architectural state) -/
def Obligations.GuardedOffAndFetch : Prop :=
  (∀ (i : Instr) (op : BitVec 8) (x : Fetched) (s : State), i.opcode = some (op, x) → Takes s x.sg →
     ((s.seg x.sg).core x.c).st = .running → (s.seg x.sg).clocked = true → (s.seg x.sg).stopHeld x.c = false →
     (16 ≤ x.c.val → (s.seg x.sg).usable s.tick (x.c.val - 15) = true) →
     (∀ code info, ((s.seg x.sg).core x.c).fetchExc x.c = some (code, info) → Raises i s x.sg x.c op code info) ∧
     (((s.seg x.sg).core x.c).fetchExc x.c = none → ((s.seg x.sg).core x.c).guarded x.f = false →
       Becomes i s (s.modCore x.sg x.c fun k => { k with pc := k.pc + 8 }))) ∧
  (∀ y ∈ ([(0x41, 2, .sets), (0x42, 1, .cld), (0x43, 1, .cst), (0x4D, 1, .eret)] : List (BitVec 8 × Nat × (Fin 8 → Fin 18 → IFields → Instr))),
   ∀ (s : State) (sg : Fin 8) (c : Fin 18) (f : IFields), Executes s sg c f → (if c.val = 16 then 2 else if c.val = 17 then 1 else 0) < y.2.1 →
     Raises (y.2.2 sg c f) s sg c y.1 0x2 0)

/-- On the keeper or the steward with the handler flag clear, an instruction that raises an exception leaves CUR_EXC (PC, opcode,
code) and CUR_EXC_INFO written, CUR_EPC equal to the PC, the handler flag set and the PC at CUR_EVEC.VEC x 8; nothing else in
the package changes. On a courier that runs a ticket it writes CUR_EXC and CUR_EXC_INFO (the code, which a write of ones in
the same cycle does not clear), raises a fault record of the core-exception class with the code, frees the courier, and ends
the ticket with CS_ABORTED and the code: its unissued lines are stopped. (03_courier_instruction_set.md, Exceptions;
12_integrity_and_fault_reporting.md, Fault records) -/
def Obligations.ExceptionEntry : Prop :=
  (∀ (i : Instr) (s : State) (sg : Fin 8) (c : Fin 18) (op : BitVec 8) (code : BitVec 4) (info : Word), Takes s sg → 16 ≤ c.val →
     ((s.seg sg).core c).st ≠ .idle → ((s.seg sg).core c).handler = false → Raises i s sg c op code info →
     Does i s fun t => OnlyIn sg s t ∧
       { t.seg sg with cores := [] } = { s.seg sg with cores := [] } ∧
       (∀ j, j ≠ c.val → (t.seg sg).core j = (s.seg sg).core j) ∧
       (t.seg sg).core c = { (s.seg sg).core c with
         excPc := ((s.seg sg).core c).pc, excOp := op, excCode := code, excInfo := info, epc := ((s.seg sg).core c).pc,
         wait := none, st := .running, handler := true, pc := BitVec.ofNat 32 ((s.seg sg).fld (F.CUR_EVEC_VEC.core c) * 8) }) ∧
  (∀ (i : Instr) (s : State) (sg : Fin 8) (c : Fin 18) (op : BitVec 8) (code : BitVec 4) (info : Word) (n : Nat), Takes s sg → c.val < 16 →
     ((s.seg sg).core c).ticket = some n → Raises i s sg c op code info →
     Becomes i s (s.mod sg fun g =>
       ((((((g.modCore c fun k => { k with excPc := k.pc, excOp := op, excCode := code, excInfo := info }).hwMark (excOff c)
         (code.zeroExtend 64)).raise s.tick
         { cls := 17, unit := 13, index := c, ctx := some (g.core c).ctx, info := BitVec.ofNat 32 code.toNat, status := csAborted }).freeCourier
           c).endTicket s.time n csAborted 1 code.toNat).board s.time)))

/-- A courier that has run a ticket for RUN_LIMIT x 65,536 ticks and stands where it can stop takes EX_WATCHDOG: one that runs
after the cycle in which the limit is reached, one that waits at the end of the limit's tick. The word of a waiting WAITS
whose read is due is read again: the wait ends with p[d] 1 when the word is large enough, EX_POISON is raised when the read
fails, and otherwise the next read is due 1,024 cycles later. A WAITS or WAITE ends with p[d] 0 at the end of its deadline's
tick. A descriptor's next line leaves when it may, one for the router when no older line or request that may leave waits for
the router. A missing line of the code window comes into the instruction cache. The STOP field holds a running core, and a
courier without a ticket, or releases it. While the fast clock runs, CUR_LB_DATA reads or writes the word at CUR_LB_ADDR,
which moves on by one word, and ICINV and CUR_CODE leave an invalidation that an idle or sleeping core carries out at once.
(03_courier_instruction_set.md, Control; 03_courier_instruction_set.md, Synchronisation; 03_courier_instruction_set.md, Tally
slots; 03_courier_instruction_set.md, Exceptions; 03_courier_instruction_set.md, Core registers;
03_courier_instruction_set.md, Architectural state) -/
def Obligations.CoreEventsAct : Prop :=
  (∀ (s : State) (sg : Fin 8) (c : Fin 18) (n limit : Nat), Takes s sg → c.val < 16 → ((s.seg sg).core c).ticket = some n →
     ((s.seg sg).core c).st ≠ .stopped → ((s.seg sg).core c).canStop = true → limit = (s.seg sg).fld (F.CUR_CTRL_RUN_LIMIT.core c) * 65536 →
     0 < limit → limit ≤ s.tick - ((s.seg sg).core c).startTick →
     (((s.seg sg).core c).st = .running → 21 * (((s.seg sg).core c).startTick + limit) < s.time) →
     (((s.seg sg).core c).st ≠ .running → s.lapsed (((s.seg sg).core c).startTick + limit) = true) →
     ActsOn (.exWatchdog sg c) s sg fun g =>
       (g.courierExc s.time c (g.opcodeAt c) 0xA (BitVec.ofNat 64 (s.tick - (g.core c).startTick))).board s.time) ∧
  (∀ (s : State) (sg : Fin 8) (c : Fin 18) (va : Word) (addr : Nat) (val : Word) (pd : BitVec 5) (dl : Option Nat) (due : Nat),
     Takes s sg → ((s.seg sg).core c).wait = some (.waits va addr val pd dl due) → due ≤ s.time →
     (val.toNat ≤ bytesNat ((s.seg sg).gaBytes addr 8) →
       ActsOn (.waitsPoll sg c (some 0)) s sg fun g => g.endWait s.time c (some (pd, true))) ∧
     (bytesNat ((s.seg sg).gaBytes addr 8) < val.toNat →
       ActsOn (.waitsPoll sg c (some 0)) s sg fun g =>
         g.modCore c fun k => { k with wait := some (.waits va addr val pd dl (s.time + 1024)) }) ∧
     (∀ st, st ≠ 0 → ActsOn (.waitsPoll sg c (some st)) s sg fun g => g.raiseExc s.time c 0x61 0x6 va)) ∧
  (∀ (s : State) (sg : Fin 8) (c : Fin 18) (pd : BitVec 5) (dl : Nat), Takes s sg → s.lapsed dl = true →
     (∀ va addr val due, ((s.seg sg).core c).wait = some (.waits va addr val pd (some dl) due) →
       ActsOn (.waitsTimeout sg c) s sg fun g => g.endWait s.time c (some (pd, false))) ∧
     (∀ mask any, ((s.seg sg).core c).wait = some (.waite mask any pd (some dl)) →
       ActsOn (.waiteTimeout sg c) s sg fun g => g.endWait s.time c (some (pd, false)))) ∧
  (∀ (s : State) (sg : Fin 8) (desc : Fin 1024) (d : Desc) (g' : Segment), Takes s sg → (s.seg sg).desc? desc = some d →
     (s.seg sg).nextLine s.time d = some g' →
     (injected (s.seg sg) g' = true → (s.seg sg).olderWaits s.time d.rank (some d.idx) none = false) →
     ActsOn (.lineIssue sg desc) s sg fun _ => g') ∧
  (∀ (s : State) (sg : Fin 8) (c : Fin 18), Takes s sg → ((s.seg sg).core c).st = .running → (s.seg sg).stopHeld c = false →
     inCode c ((s.seg sg).core c) = true → ((s.seg sg).core c).icache.contains (((s.seg sg).core c).pc.toNat / 128) = false →
     ActsOn (.instructionFetchMiss sg c (some 0)) s sg fun g =>
       g.modCore c fun k => { k with icache := ((g.core c).pc.toNat / 128 :: k.icache).take 128 }) ∧
  (∀ (s : State) (sg : Fin 8) (c : Fin 18), Takes s sg →
     (((s.seg sg).core c).st = .running ∨ (((s.seg sg).core c).st = .idle ∧ c.val < 16) → (s.seg sg).stopHeld c = true →
       ActsOn (.coreStop sg c) s sg fun g => g.modCore c fun k => { k with st := .stopped }) ∧
     (((s.seg sg).core c).st = .stopped → (s.seg sg).stopHeld c = false →
       ActsOn (.coreStop sg c) s sg fun g => g.modCore c fun k =>
         { k with st := if c.val < 16 ∧ k.ticket = none then .idle else .running })) ∧
  (∀ (s : State) (sg : Fin 8) (c : Fin 18) (ag : Agent) (g : Segment) (w : Nat), Takes s sg → g = (s.reached sg ag [coreDomain c]).seg sg →
     w = g.fld (F.CUR_LB_ADDR_ADDR.core c) → (c.val = 16 → ag.isKeeper = true) →
     ((g.core c).ticket.isSome && g.sealedCtx (g.core c).ctx) = false →
     ((g.core c).lbBad.contains w = false → Reaches (.curLbDataAccess sg c ag none) s sg ag [coreDomain c] fun g =>
       (g.setFld (F.CUR_LB_ADDR_ADDR.core c) ((w + 1) % 8192)).answer csOk (BitVec.ofNat 64 (memNat (g.core c).lb (8 * w) 8))) ∧
     (∀ v : Word, Reaches (.curLbDataAccess sg c ag (some v)) s sg ag [coreDomain c] fun g =>
       ((g.setFld (F.CUR_LB_ADDR_ADDR.core c) ((w + 1) % 8192)).modCore c fun k =>
         { k with lb := memPut k.lb (8 * w) (natBytes v.toNat 8), lbBad := k.lbBad.filter fun x => x != w }).answer csOk 0)) ∧
  (∀ (s : State) (sg : Fin 8) (c : Fin 18) (ag : Agent) (sz : Sz) (v : Word), Takes s sg → (c.val = 16 → ag.isKeeper = true) →
     Reaches (.icinv sg c ag) s sg ag [coreDomain c] (fun g =>
       let g := ((g.answer csOk 0).setFld (F.CUR_CTRL_ICINV.core c) 1).modCore c fun k => { k with icinv := true }
       if (g.core c).st = .idle ∨ (g.core c).st = .asleep then g.idlePoint c else g) ∧
     Reaches (.curCodeWrite sg c ag sz v) s sg ag (if 16 ≤ c.val then [coreDomain c] else []) fun g =>
       let g := ((g.answer csOk 0).setReg (0x180010 + c.val * 0x1000)
         (setBits (mergeSize (g.reg (0x180010 + c.val * 0x1000)) sz v) 31 28 0)).modCore c fun k => { k with icinv := true }
       if (g.core c).st = .idle ∨ (g.core c).st = .asleep then g.idlePoint c else g)

/-- TRL_SUBMIT puts the header's offset in the FIFO while it holds fewer than 64, and is dropped with a count and a fault record
when it is full. The oldest offset whose header is good, readable and allowed to its sender becomes a trail in the lowest free
slot. The next trail's next ticket is admitted, one in a cycle. A gate word read at its time opens the gate when it is large
enough and is otherwise read again 1,024 cycles later. A dispatchable ticket goes to the courier chosen for it, one in a
cycle; a saved ticket whose slots satisfy its mask becomes dispatchable; a ticket that has ended, with no busy slot and no
line left, is completed. A landed tile is written while the next one is read. (04_trails_and_shapes.md, Submitting a trail;
04_trails_and_shapes.md, Admission; 04_trails_and_shapes.md, Waiting, joins and gate words; 04_trails_and_shapes.md, Dispatch;
04_trails_and_shapes.md, Completion records; 04_trails_and_shapes.md, Spawned tickets, yield and cancellation;
04_trails_and_shapes.md, Shape descriptors) -/
def Obligations.TrailsAndTickets : Prop :=
  (∀ (s : State) (sg : Fin 8) (ag : Agent) (v : Word), Takes s sg →
     (((s.reached sg ag [domRange]).seg sg).trl.fifo.length < 64 → Reaches (.trailSubmit sg ag v) s sg ag [domRange] fun g =>
       let g := g.answer csOk 0
       { g with trl := { g.trl with fifo := g.trl.fifo ++ [(bitsOf v 43 6 * 64, ag)] } }) ∧
     (64 ≤ ((s.reached sg ag [domRange]).seg sg).trl.fifo.length → Reaches (.trailSubmit sg ag v) s sg ag [domRange] fun g =>
       ((g.answer csOk 0).bump F.TRL_SUBMIT_STATUS_DROPPED).raise s.tick { cls := 18, unit := 12 })) ∧
  (∀ (s : State) (sg : Fin 8) (off : Nat) (ag : Agent) (rest : List (Nat × Agent)) (slot : Nat) (b : List Byte) (ctx : BitVec 12)
     (g1 g2 : Segment) (r : Ring) (ps : List Piece), Takes s sg → (s.seg sg).trl.fifo = (off, ag) :: rest →
     firstFree ((s.seg sg).trl.trails.map Trail.slot) 32 = some slot → (s.seg sg).present 0 off 64 = true →
     b = (s.seg sg).hbmBytes off 64 → badHeader b = false → ctx = BitVec.ofNat 12 (field b 12 2) →
     Segment.headerRing { s.seg sg with trl := { (s.seg sg).trl with fifo := rest } } b = (g1, .inl r) →
     g1.localSpan ctx (field b 0 8) (128 * field b 8 4) 1 = (g2, .inl ps) → (ag.admin = true ∨ ag.ctx = ctx) →
     ActsOn (.trailAdmit sg (some 0)) s sg fun _ =>
       ({ g2 with trl := { g2.trl with trails := g2.trl.trails ++
         [{ slot := slot, tickets := ps, ticketsVa := field b 0 8, count := field b 8 4, ctx := ctx, line := BitVec.ofNat 4 (field b 14 1),
            endIrq := field b 14 1 ≥ 16, cq := r }] } } : Segment).board s.time) ∧
  (∀ (s : State) (sg : Fin 8) (slot : Fin 32) (st gateSt : DpmStatus) (x : Trail) (n : Nat), Takes s sg → (s.seg sg).nextTrail = some x →
     x.slot = slot.val → (s.seg sg).freeEntry = some n → (s.seg sg).trl.admitAt ≠ some s.time →
     ActsOn (.ticketAdmit sg slot st gateSt) s sg fun g => g.admitNext s.time x n st gateSt) ∧
  (∀ (s : State) (sg : Fin 8) (n : Fin 4096) (t : Ticket) (a : Nat), Takes s sg → (s.seg sg).ticket? n = some t → t.gateGa = some a →
     t.st = .waiting → t.gateOpen = false → t.gateAt ≤ s.time →
     ActsOn (.gatePoll sg n (some 0)) s sg fun g =>
       (if t.rec_.gateValue ≤ bytesNat (g.gaBytes a 8) then (g.modTicket n fun t => { t with gateOpen := true }).weigh s.time n
        else g.modTicket n fun t => { t with gateAt := s.time + 1024 }).board s.time) ∧
  (∀ (s : State) (sg : Fin 8) (st : DpmStatus) (t : Ticket) (c : Nat), Takes s sg → (s.seg sg).trl.stopUntil = none →
     (s.seg sg).trl.dispatchAt ≠ some s.time → (s.seg sg).nextTicket = some t → (s.seg sg).pickCourier s.tick t.ctx = some c →
     (s.seg sg).budgetOk runCost = true → Becomes (.ticketDispatch sg st) s (s.dispatchTo sg c t st)) ∧
  (∀ (s : State) (sg : Fin 8) (n : Fin 4096) (t : Ticket), Takes s sg → (s.seg sg).ticket? n = some t →
     (∀ mask any, t.st = .saved mask any → mask ≠ 0 → waiteMet t.slots mask any = true →
       ActsOn (.ticketResume sg n) s sg fun g => (g.modTicket n fun t => { t with st := .saved 0 false }).board s.time) ∧
     (∀ st reason exc, t.st = .ending st reason exc → (s.seg sg).spent t = true →
       ActsOn (.ticketComplete sg n) s sg fun g =>
         (g.finish s.time n st reason exc (if t.rec_.typ == 1 then (t.slots.getD 0 {}).failed else 0)).board s.time)) ∧
  (∀ (s : State) (sg : Fin 8) (desc : Fin 1024) (d : Desc) (sh : Shape) (src dst sig : List Piece), Takes s sg → (s.seg sg).desc? desc = some d →
     d.body = .shape sh src dst sig → ((s.seg sg).tileJobs d.idx).all (fun j => j.waits.isEmpty) = true →
     ((s.seg sg).tileJobs d.idx ≠ [] ∨ d.pos < d.total) →
     ActsOn (.movtTileStart sg desc) s sg fun g => g.tileStep s.time d sh src dst)

/-- While the fast clock runs: a write to TRL_CANCEL by an administrator or by an agent of the context cancels a live ticket, a
live trail (whose admission ends, as do all its tickets), or everything live of a context; another agent's is denied with a
fault record and changes nothing else. TRL_SAVE_BASE takes its field while no ticket is saved. The consumer index of a full
completion ring (of a trail, a group or a resident context's migration records) is read again in its turn: what waits is
written where there is room. A trail's or a migration ring full for 50,000 ticks raises one fault record for the episode; that
of a migration ring has the model's form (log 62). (04_trails_and_shapes.md, Spawned tickets, yield and cancellation;
04_trails_and_shapes.md, Completion records; 04_trails_and_shapes.md, Trail registers; 05_headcount_and_chunk_flow.md, The
pipeline and chunk stamps; 07_placement_and_ranges.md, Access counters and migration) -/
def Obligations.CancelsAndRings : Prop :=
  (∀ (s : State) (sg : Fin 8) (ag : Agent) (g : Segment), Takes s sg → g = (s.reached sg ag [domRange]).seg sg →
     (∀ (n : Fin 4096) t, g.ticket? n = some t → t.st ≠ .done →
       ((ag.admin || ag.ctx == t.ctx) = true →
         Reaches (.trlCancelTicket sg ag n) s sg ag [domRange] fun g => ((g.answer csOk 0).doom s.time 4 n).board s.time) ∧
       ((ag.admin || ag.ctx == t.ctx) = false →
         Reaches (.trlCancelTicket sg ag n) s sg ag [domRange] fun g => (g.answer csOk 0).cancelDenied s.tick 0 n)) ∧
     (∀ (slot : BitVec 12) x, g.trail? slot.toNat = some x → x.ended = false →
       ((ag.admin || ag.ctx == x.ctx) = true →
         Reaches (.trlCancelTrail sg ag slot) s sg ag [domRange] fun g =>
           ((((g.answer csOk 0).modTrail slot.toNat fun y => { y with cancelled := true }).doomAll s.time 4 fun t =>
             t.trail == slot.toNat).trailEnd s.tick slot.toNat).board s.time) ∧
       ((ag.admin || ag.ctx == x.ctx) = false →
         Reaches (.trlCancelTrail sg ag slot) s sg ag [domRange] fun g => (g.answer csOk 0).cancelDenied s.tick 1 slot.toNat)) ∧
     (∀ ctx : BitVec 12,
       ((g.trl.tickets.any fun t => t.ctx == ctx && t.st != .done) || g.trl.trails.any fun x => x.ctx == ctx && !x.ended) = true →
       ((ag.admin || ag.ctx == ctx) = true →
         Reaches (.trlCancelContext sg ag ctx) s sg ag [domRange] fun g => ((g.answer csOk 0).cancelContext s.time 4 ctx).board s.time) ∧
       ((ag.admin || ag.ctx == ctx) = false →
         Reaches (.trlCancelContext sg ag ctx) s sg ag [domRange] fun g => (g.answer csOk 0).cancelDenied s.tick 2 ctx.toNat))) ∧
  (∀ (s : State) (sg : Fin 8) (ag : Agent) (sz : Sz) (v : Word), Takes s sg →
     (((s.reached sg ag [domRange]).seg sg).trl.tickets.any fun t => match t.st with | .saved _ _ => true | _ => false) = false →
     Reaches (.trlSaveBaseWrite sg ag sz v) s sg ag [domRange] fun g =>
       (g.answer csOk 0).setReg 0x160018 (setBits 0 43 13 (bitsOf (mergeSize (g.reg 0x160018) sz v) 43 13))) ∧
  (∀ (s : State) (sg : Fin 8) (ring : Nat), Takes s sg →
     (ring < 32 → ActsOn (.cqHeadPoll sg ring) s sg fun g =>
       ((g.modTrail ring fun x => { x with cq := g.ringPoll s.time x.cq }).trailDrain s.tick ring).board s.time) ∧
     (32 ≤ ring → ring < 4128 → ActsOn (.cqHeadPoll sg ring) s sg fun g => g.groupPoll s.time (BitVec.ofNat 12 (ring - 32))) ∧
     (∀ r, 4128 ≤ ring → (s.seg sg).xlt.resident.find? (fun r => r.slot == ring - 4128) = some r →
       ActsOn (.cqHeadPoll sg ring) s sg fun g => g.migPoll s.time r)) ∧
  (∀ (s : State) (sg : Fin 8) (ring t0 : Nat), Takes s sg →
     (∀ x, ring < 32 → (s.seg sg).trail? ring = some x → x.cq.fullSince = some t0 → x.cq.fullFault = false → t0 + 50000 ≤ s.tick →
       ActsOn (.cqFullTimeout sg ring) s sg fun g =>
         (g.modTrail ring fun y => { y with cq := { y.cq with fullFault := true } }).raise s.tick
           { cls := 18, unit := 12, ctx := some x.ctx, info := BitVec.ofNat 32 ring }) ∧
     (∀ r, 4128 ≤ ring → (s.seg sg).xlt.resident.find? (fun r => r.slot == ring - 4128) = some r → r.mig.fullSince = some t0 →
       r.mig.fullFault = false → t0 + 50000 ≤ s.tick →
       ActsOn (.cqFullTimeout sg ring) s sg fun g =>
         (g.modResident r.ctx fun x => { x with mig := { x.mig with fullFault := true } }).raise s.tick
           { cls := 18, unit := 10, index := r.slot, ctx := some r.ctx }))

/-- CLV_HC_BASE takes its field while no group exists. An administrator opens a free group: it is listed as opening with what its
checks found, its staging and rucksack record reserved when they passed. At the end of the opening the result register is
written, and the group is ready, or free again with its reason. CLOSE of a group that is neither opening nor closing closes
it; at the end of the closing what it reserved is released, and its ring stays for the records that wait for it. The ABORT
command aborts the head operation of a group that is active or suspended. The head of a queue starts when its group is ready
or active and has none in progress. A straggler event and the hard timeout act at the end of the tick in which their time has
come, the decision timeout and a full ring once it has come. A held completion at its tick leaves the stile. Register accesses
act while the fast clock runs. (05_headcount_and_chunk_flow.md, Opening and closing; 05_headcount_and_chunk_flow.md, The
communication queue; 05_headcount_and_chunk_flow.md, The pipeline and chunk stamps; 05_headcount_and_chunk_flow.md,
Straggling, suspension and the rucksack; 05_headcount_and_chunk_flow.md, Aborts; 05_headcount_and_chunk_flow.md, Registers) -/
def Obligations.GroupsOpenAndClose : Prop :=
  (∀ (s : State) (sg : Fin 8) (ag : Agent) (sz : Sz) (v : Word), Takes s sg → ((s.reached sg ag [domRange]).seg sg).groups = [] →
     Reaches (.clvHcBaseWrite sg ag sz v) s sg ag [domRange] fun g =>
       ((g.setReg 0x120000 (setBits (g.reg 0x120000) 43 12 (bitsOf (mergeSize (g.reg 0x120000) sz v) 43 12))).critWrite 1).answer csOk 0) ∧
  (∀ (s r : State) (sg : Fin 8) (ag : Agent) (grp : BitVec 12) (st stList stCtx : DpmStatus) (x : Grp) (reason : Nat) (status : BitVec 4),
     Takes s sg → ag.admin = true → r = s.reached sg ag [domRange] → (r.seg sg).grp? grp = none →
     r.openChecks sg grp st stList stCtx = (x, reason, status) →
     Reaches (.groupOpen sg ag grp st stList stCtx) s sg ag [domRange] fun g =>
       let g := if reason == 0 then (g.hmpReserve (.group grp) x.staging).getD g else g
       let g : Segment := if x.reserved then
         { g with xlt := { g.xlt with reserved := insertKey x.ctx (g.ruckReserved x.ctx + 1) g.xlt.reserved } } else g
       ({ g with groups := g.groups ++ [{ x with reason := reason, status := status }] } : Segment).answer csOk 0) ∧
  (∀ (s : State) (sg : Fin 8) (grp : BitVec 12) (x : Grp), Takes s sg → (s.seg sg).grp? grp = some x → x.st = .opening →
     ActsOn (.groupOpenDone sg grp) s sg fun g =>
       let g := g.setReg 0x120020 (BitVec.ofNat 64 (2 ^ 44 + grp.toNat * 2 ^ 32 + x.reason * 16 + x.status.toNat))
       if x.reason = 0 then g.modGrp grp fun x => { x with st := .ready } else { g with groups := g.groups.filter fun y => y.num != grp }) ∧
  (∀ (s r : State) (sg : Fin 8) (ag : Agent) (grp : BitVec 12) (x : Grp), Takes s sg → (s.seg sg).clocked = true → ag.admin = true →
     r = s.reached sg ag [domRange] → (r.seg sg).grp? grp = some x →
     (x.st ≠ .opening → x.st ≠ .closing → Becomes (.groupClose sg ag grp) s ((r.mod sg fun g => g.answer csOk 0).closeGroup sg grp)) ∧
     (x.st = .active ∨ x.st = .suspended →
       Becomes (.groupAbortCommand sg ag grp) s ((r.mod sg fun g => g.answer csOk 0).abortHead sg grp csAborted))) ∧
  (∀ (s : State) (sg : Fin 8) (grp : BitVec 12) (x : Grp), Takes s sg → (s.seg sg).grp? grp = some x → x.st = .closing →
     ActsOn (.groupCloseDone sg grp) s sg fun g =>
       let g := g.hmpRelease (.group grp)
       let g : Segment := if x.reserved then
         { g with xlt := { g.xlt with reserved := insertKey x.ctx (g.ruckReserved x.ctx - 1) g.xlt.reserved } } else g
       let g := g.stampSettle grp s.tick
       let ring := ((g.grp? grp).getD x).ring
       let held (f : Formed) : Bool := f.grp == grp && !f.closed
       { g with groups := g.groups.filter fun y => y.num != grp,
                stile := modWhere g.stile held fun f => { f with ring := ring, closed := true },
                leftRings := if !ring.waiting.isEmpty || g.stile.any held then g.leftRings ++ [(grp, ring)] else g.leftRings }) ∧
  (∀ (s : State) (sg : Fin 8) (grp : BitVec 12) (x : Grp) (op : COp) (rest : List COp), Takes s sg → (s.seg sg).grp? grp = some x →
     x.queue = op :: rest → x.head = none → x.st = .ready ∨ x.st = .active → (x.future.find? fun f => f.1 == x.serial + 1) = none →
     Becomes (.operationStart sg grp) s
       (let s' := s.mod sg fun g => g.modGrp grp fun y => { (y.startNext s.time) with st := .active }
        if op.code = 0x58 then
          if (x.newHead op s.time).large then (s'.launchTry sg grp).replayRx sg grp
          else if op.launch = 0 then s'.replayRx sg grp
          else ((s'.mod sg fun g => (g.ensureChk grp singleTree 0).modChk grp singleTree 0 fun k => { k with own := some [] }).replayRx
            sg grp).smallTry sg grp
        else (s'.campTry sg grp).replayRx sg grp)) ∧
  (∀ (s : State) (sg : Fin 8) (grp : BitVec 12) (x : Grp) (op : COp) (rest : List COp) (f : BitVec 32 × BitVec 4), Takes s sg →
     (s.seg sg).grp? grp = some x → x.queue = op :: rest → x.head = none → x.st = .ready ∨ x.st = .active →
     (x.future.find? fun f => f.1 == x.serial + 1) = some f →
     Becomes (.operationStart sg grp) s
       ((s.mod sg fun g => g.modGrp grp fun y => { (y.startNext s.time) with st := .active }).abortApply sg grp f.2 false)) ∧
  (∀ (s : State) (sg : Fin 8) (grp : BitVec 12) (x : Grp) (h : Head), Takes s sg → (s.seg sg).grp? grp = some x → x.head = some h →
     (x.st ≠ .suspended → h.straggled = false → 0 < (s.seg sg).fld F.CLV_TIMERS_STRAGGLER →
       s.lapsed (h.progress + (s.seg sg).fld F.CLV_TIMERS_STRAGGLER) = true →
       ActsOn (.stragglerEvent sg grp) s sg fun g =>
         ((g.bump F.CLV_COUNT_STRAGGLERS).modHead grp fun h => { h with straggled := true }).grpEvent grp s.tick 2 0 x.awaited) ∧
     (x.st = .active →
       s.lapsed (h.progress + (if (s.seg sg).fld F.CLV_TIMERS_HARD = 0 then 4294967295 else (s.seg sg).fld F.CLV_TIMERS_HARD)) = true →
       Becomes (.hardTimeout sg grp) s (s.abortStart sg grp csTimeout))) ∧
  (∀ (s : State) (sg : Fin 8) (grp : BitVec 12) (x : Grp) (t : Nat), Takes s sg → (s.seg sg).grp? grp = some x →
     (x.abortAt = some t → x.st = .aborting → t + 50000000 ≤ s.tick →
       Becomes (.abortDecisionTimeout sg grp) s (s.groupFail sg grp csTimeout)) ∧
     (x.ring.fullSince = some t → x.ring.fullFault = false → t + 50000 ≤ s.tick →
       ActsOn (.groupCqFullTimeout sg grp) s sg fun g =>
         (g.modGrp grp fun x => { x with ring := { x.ring with fullFault := true } }).raise s.tick
           { cls := 19, unit := 8, ctx := some x.ctx, info := grp.zeroExtend 32 })) ∧
  (∀ (s : State) (sg : Fin 8) (grp : BitVec 12) (i : Nat) (f : Formed), Takes s sg → ((s.seg sg).stile.findIdx? fun f => f.grp == grp) = some i →
     (s.seg sg).stile[i]? = some f → f.hasEntry = true → f.at_ ≤ s.tick →
     ActsOn (.stileRelease sg grp) s sg fun g =>
       (({ g with stile := (let rest := g.stile.eraseIdx i
           match rest.findIdx? fun y => !y.hasEntry with
           | some j => modAt rest j fun y => { y with hasEntry := true, at_ := max y.at_ s.tick }
           | none => rest) } : Segment).opRelease s.tick f).wake)

/-- The next chunk of a tree starts when its slot is free, the ready cursor allows it and no lower chunk that this member reads
could start; it begins at a member that contributes. The first ejected chunk flit, campfire flit, vote flit, release, refusal
or abort is taken. A release or refusal that answers a held sending frees it, has it sent again, or has it repeated later (it
is dropped when a held decision has decided its operation); three CRC refusals in succession abort. A refused or unanswered
sending is repeated at its time. A chunk whose operands are all staged is summed when it is first in the array's order, the
array's domain is awake and the window's budget allows; at the end of the step its sum goes up or becomes the result, unless a
line of it fails its check: then the step is formed again. A result is written once the operation may write. The closing part
is sent once every slot is free and the children's parts have landed. (05_headcount_and_chunk_flow.md, Chunks on the wire;
05_headcount_and_chunk_flow.md, The pipeline and chunk stamps; 05_headcount_and_chunk_flow.md, Launch and closing rounds;
05_headcount_and_chunk_flow.md, Aborts; 06_in_passing_arithmetic.md, Adding in passing; 06_in_passing_arithmetic.md,
Throughput; 06_in_passing_arithmetic.md, Campfires, votes and rides) -/
def Obligations.ChunksMove : Prop :=
  (∀ (s : State) (sg : Fin 8) (grp : BitVec 12) (tree : Fin 64) (x : Grp) (h : Head), Takes s sg → (s.seg sg).grp? grp = some x → x.head = some h →
     x.st = .active → h.op.code = 0x58 → h.op.launch = 0 →
     (∀ c, h.large = true → h.next[tree.val]? = some c → c < h.chunks →
       (c < x.k * x.depth ∨ h.doneList.contains (c - x.k * x.depth) = true) →
       (h.op.gated = true → h.op.ready ≤ c → x.contributes h c = false) → x.lowerWaits h c = false →
       Becomes (.chunkStart sg grp tree) s
         (let s' := s.mod sg fun g => g.modHead grp fun h => { h with next := modAt h.next tree.val fun c => c + x.k }
          if x.contributes h c = true then s'.chunkBegin sg grp tree.val c else s')) ∧
     (h.large = false → tree.val = singleTree → h.chk? singleTree 0 = none → (h.op.gated = true → h.op.ready = 0 → x.contributes h 0 = false) →
       Becomes (.chunkStart sg grp tree) s (s.chunkBegin sg grp singleTree 0))) ∧
  (∀ (s : State) (sg : Fin 8) (f : Flit) (g : Segment), Takes s sg →
     ((s.seg sg).takeX [0x18] = some (f, g) → Becomes (.chunkUp sg) s ((s.setSeg sg g).landChunk sg f false)) ∧
     (∀ i e, ((s.seg sg).rte.ejX.findIdx? fun e => e.flit.kind == 0x19) = some i → (s.seg sg).takeAt i = some (e, g) →
       (g.decidedWith e = false → Becomes (.chunkDown sg) s ((s.setSeg sg g).landChunk sg e.flit true)) ∧
       (g.decidedWith e = true → ActsOn (.chunkDown sg) s sg fun _ => g.stale)) ∧
     ((s.seg sg).takeX [0x1C] = some (f, g) → Becomes (.campFlit sg) s ((s.setSeg sg g).landCamp sg f)) ∧
     ((s.seg sg).takeX [0x1D] = some (f, g) → Becomes (.voteFlit sg) s ((s.setSeg sg g).landCamp sg f))) ∧
  (∀ (s : State) (sg : Fin 8) (f : Flit) (g : Segment) (x : Grp) (d : Nat) (ser : BitVec 32) (t c : Nat), Takes s sg →
     (g.grp? (colGroup f)).filter Grp.takesFlits = some x → x.answerOf f = some (d, ser, t, c) →
     ((s.seg sg).takeX [0x1A] = some (f, g) →
       ((x.sent.any fun q => q.answers (d, ser, t, c)) = true →
         ActsOn (.chunkRel sg) s sg fun _ =>
           (((g.modGrp (colGroup f) fun x => { x with sent := x.sent.filter fun q => !q.answers (d, ser, t, c) }).progressed (colGroup f)
             s.tick).settleChk (colGroup f) s.tick t c)) ∧
       ((x.sent.any fun q => q.answers (d, ser, t, c)) = false → ActsOn (.chunkRel sg) s sg fun _ => g.stale)) ∧
     (∀ q, (s.seg sg).takeX [0x1B] = some (f, g) →
       (x.sent.find? fun q => q.answers (d, ser, t, c) || (q.dst == d && q.serial == ser && q.c == c)) = some q →
       (field f.payload 9 1 = 0 → 2 ≤ q.naks → Becomes (.chunkNak sg) s ((s.setSeg sg g).abortStart sg (colGroup f) csPoison)) ∧
       (field f.payload 9 1 = 0 → q.naks < 2 → Becomes (.chunkNak sg) s
          ((s.setSeg sg g).repeatHeld sg (colGroup f) q { q with naks := q.naks + 1, last := s.tick, nrAt := none })) ∧
       (field f.payload 9 1 ≠ 0 → x.held ≠ none → q.serial = x.serial → ActsOn (.chunkNak sg) s sg fun _ => g.modGrp (colGroup f) fun x =>
         { x with sent := x.sent.filter fun y =>
             !(y.dst == q.dst && y.kind == q.kind && y.serial == q.serial && y.tree == q.tree && y.c == q.c) }) ∧
       (field f.payload 9 1 ≠ 0 → x.held = none ∨ q.serial ≠ x.serial → ActsOn (.chunkNak sg) s sg fun _ => g.modGrp (colGroup f) fun x =>
         { x with sent := modWhere x.sent (fun y => y.dst == q.dst && y.kind == q.kind && y.serial == q.serial && y.tree == q.tree && y.c == q.c)
                    (fun y => { y with nrAt := some s.tick, nrs := y.nrs + 1, naks := 0 }) }))) ∧
  (∀ (s : State) (sg : Fin 8) (grp : BitVec 12) (tree : Fin 64) (x : Grp), Takes s sg → (s.seg sg).grp? grp = some x →
     Becomes (.notReadyRepeat sg grp) s (x.sent.foldl (fun (s' : State) q =>
       match q.nrAt with
       | some t => if t + 64 * 2 ^ min 10 (q.nrs - 1) ≤ s'.tick then s'.repeatHeld sg grp q { q with nrAt := none, last := s'.tick } else s'
       | none => s') s) ∧
     Becomes (.collectiveRepeat sg grp tree) s (x.sent.foldl (fun (s' : State) q =>
       if q.tree = tree.val ∧ q.nrAt = none ∧ q.last + 5000 * 2 ^ min 7 q.reps ≤ s'.tick then
         s'.repeatHeld sg grp q { q with reps := q.reps + 1, last := s'.tick } else s') s)) ∧
  (∀ (s : State) (sg : Fin 8) (grp : BitVec 12) (serial : BitVec 16) (x : Grp) (h : Head) (k : Chk), Takes s sg →
     (s.seg sg).grp? grp = some x → x.head = some h →
     (∀ rs, (h.chk.find? fun k => k.c % 2 ^ 16 == serial.toNat && k.own.isSome && !k.formed && k.stepEnd.isNone) = some k →
       x.upRx h k.tree k.c = some rs → x.st = .active → h.op.d.isRed = true →
       (h.large = false → h.sweepStatus rs = 0) → (s.seg sg).stepFirst grp (k.ready.getD 0) = true →
       (s.seg sg).usable s.tick domReduction = true →
       (s.seg sg).budgetOk (250 * (ceilDiv (((h.elems k.c).2 - (h.elems k.c).1) * h.op.d.carrySize) 128 * (rs.length + 1))) = true →
       ActsOn (.reductionStep sg grp serial []) s sg fun g => g.summed s.time grp x h k rs) ∧
     (∀ t, (h.chk.find? fun k => k.c % 2 ^ 16 == serial.toNat && k.stepEnd.isSome && !k.formed) = some k → k.stepEnd = some t → t ≤ s.time →
       Becomes (.reductionStepDone sg grp ⟨serial, none⟩) s (s.stepLeaves sg grp x h k) ∧
       ∀ l, Becomes (.reductionStepDone sg grp ⟨serial, some l⟩) s ((s.crcFail sg l true).mod sg fun g =>
         g.modChk grp k.tree k.c fun k => { k with stepEnd := none, sum := none, again := true })) ∧
     (∀ st, (h.chk.find? fun k => k.c % 2 ^ 16 == serial.toNat && k.result.isSome && !k.written) = some k → x.st = .active →
       (h.large = true → h.go = true) → Becomes (.chunkResultWrite sg grp serial st none) s (s.resultWritten sg grp x h k st))) ∧
  (∀ (s : State) (sg : Fin 8) (grp : BitVec 12) (x : Grp) (h : Head) (hs : List (List Byte)), Takes s sg → (s.seg sg).grp? grp = some x →
     x.head = some h → h.large = true → h.go = true → h.closing = false → x.st = .active → h.chunks ≤ h.doneList.length →
     x.roundRx 0xFFFFFFFE = some hs →
     Becomes (.closingPartSend sg grp) s
       (let st := roundStatus h.worst h.op.fp hs
        let norm := hs.foldl (fun acc hd => FFmt.b64.add acc (field hd 24 8)) h.norm
        let spoil := hs.foldl (fun n hd => n + field hd 32 8) h.spoil % 2 ^ 64
        let s' := s.mod sg fun g => (g.modHead grp fun h => { h with closing := true }).progressed grp s.tick
        if x.single.root = x.rank then s'.closeTake sg grp st norm spoil
        else s'.collSend sg grp
          { dst := x.single.parent.getD 0, kind := 0x18, serial := x.serial, tree := singleTree, c := 0xFFFFFFFE,
            flits := [(0x7FF, chunkHeader x.serial h.op.fp 0xFFFFFFFE singleTree st 0 0 0 norm spoil)], last := s.tick })) ∧
  (∀ (s : State) (sg : Fin 8) (f : Flit) (g : Segment) (x : Grp) (serial : BitVec 32) (st : BitVec 4), Takes s sg →
     (s.seg sg).takeAbort = some (f, g) → (g.grp? (colGroup f)).filter Grp.takesFlits = some x →
     serial = BitVec.ofNat 32 (field f.payload 0 4) → st = BitVec.ofNat 4 (field f.payload 4 1) →
     (field f.payload 5 1 = 0 → x.single.root = x.rank) → x.serialAt serial = .current →
     (x.held = none → Becomes (.groupAbort sg) s
       ((((s.setSeg sg g).mod sg fun g => g.modGrp (colGroup f) fun x => { x with sent := x.sent.filter fun q => q.kind != 0x1E }).abortForward sg
          x serial st).abortTake sg (colGroup f) st)) ∧
     (x.held ≠ none → ActsOn (.groupAbort sg) s sg fun _ => g))

/-- While the fast clock runs, for register accesses: XLT_CTX_BASE, with no other context resident, takes its field and checks
context 0's entry. A LOAD, EVICT or TEARDOWN that is taken loads the context when its checks pass, starts its eviction, or
tears it down; an eviction's end is its own event, which ends the sealed teardown that waits for it. A range miss searches the
table: a range found is filled and the instruction goes on; an address without one goes on as uncovered, where the context
does not migrate. The guard base and size are written by their own operation, and the keeper's GUARD_INVAL drops the guard
word. A recall record is submitted: a good one starts, a bad one is counted and acknowledged without effect; a recall that
every segment has finished is acknowledged. Every DECAY ticks each hot count and each count of reads for replicas is halved. A
migration request is answered by MIGRATE_DONE, or with CS_UNMAPPED and a fault record at its limit.
(07_placement_and_ranges.md, Contexts and residency; 07_placement_and_ranges.md, Range tables; 07_placement_and_ranges.md, The
check at the home; 07_placement_and_ranges.md, Recall; 07_placement_and_ranges.md, Access counters and migration) -/
def Obligations.ContextsAndRanges : Prop :=
  (∀ (s : State) (sg : Fin 8) (ag : Agent) (sz : Sz) (v : Word), Takes s sg →
     ((s.reached sg ag [domRange]).seg sg).xlt.resident = [] →
     Reaches (.ctxBaseWrite sg ag sz v (some 0)) s sg ag [domRange] fun g =>
       let g := ((g.answer csOk 0).setReg 0x140000 (setBits 0 43 12 (bitsOf (mergeSize (g.reg 0x140000) sz v) 43 12))).critWrite 2
       let b := g.hbmBytes (g.ctxEntryAt 0) 64
       let reason := if !g.present 0 (g.ctxEntryAt 0) 64 then 3 else g.checkEntry b true
       ({ g with xlt := { g.xlt with sys := if reason == 0 then parseEntry b else {}, sysValid := reason == 0 } } : Segment).ctxResult 0 reason) ∧
  (∀ (s r : State) (sg : Fin 8) (ag : Agent) (ctx : BitVec 12), Takes s sg → (s.seg sg).clocked = true → r = s.reached sg ag [domRange] →
     (∀ st, (r.seg sg).ctxCmd s.tick ag 1 ctx ((r.seg sg).resident? ctx).isSome = none → r.loadReason sg ctx st = 0 →
       Becomes (.contextLoad sg ag ctx st) s
         ((r.mod sg fun g => ((g.answer csOk 0).dpmLate s.tick st).ctxResult ctx 0).contextIn sg ctx)) ∧
     ((r.seg sg).ctxCmd s.tick ag 2 ctx (!(r.seg sg).isResident ctx) = none →
       Reaches (.contextEvict sg ag ctx) s sg ag [domRange] fun g => (((g.answer csOk 0).evictStart s.time ctx false).suspendGroups ctx).1) ∧
     ((r.seg sg).ctxCmd s.tick ag 3 ctx (!(r.seg sg).isResident ctx) = none →
       Becomes (.contextTeardown sg ag ctx) s ((r.mod sg fun g => g.answer csOk 0).teardown sg ctx))) ∧
  (∀ (s t : State) (sg : Fin 8) (c : BitVec 12), Takes s sg → s.evictEnd sg = (t, some c) →
     ((t.seg sg).kpr.tearing.contains c = false → Becomes (.contextEvictDone sg) s t) ∧
     ((t.seg sg).kpr.tearing.contains c = true → (((t.sealFinish sg c).sealSettle).seg sg).boot.scrub = none →
       Becomes (.contextEvictDone sg) s (t.sealFinish sg c).sealSettle)) ∧
  (∀ (s : State) (sg : Fin 8) (c : Fin 18) (x : Stall) (va : Nat), Takes s sg →
     ((s.seg sg).core c).wait = some (.issue x) → x.asks = false → s.missOf sg c x = some va →
     (∀ r, ((s.seg sg).bump F.XLT_COUNT_MISSES).searchRange ((s.seg sg).core c).ctx va = (some r, false) →
       Becomes (.rangeMissFill sg c (some 0)) s ((s.mod sg fun g => (g.bump F.XLT_COUNT_MISSES).fillRange r).goAgain sg c x)) ∧
     (((s.seg sg).bump F.XLT_COUNT_MISSES).searchRange ((s.seg sg).core c).ctx va = (none, false) → ((s.seg sg).core c).ctx = 0 →
       Becomes (.rangeMissFill sg c (some 0)) s ((s.mod sg fun g => g.bump F.XLT_COUNT_MISSES).goAgain sg c { x with unc := va :: x.unc })) ∧
     (∀ e, e ≠ 0 →
       Becomes (.rangeMissFill sg c (some e)) s ((s.mod sg fun g => g.bump F.XLT_COUNT_MISSES).goAgain sg c { x with unc := va :: x.unc }))) ∧
  (∀ (s r : State) (sg : Fin 8) (ag : Agent) (sz : Sz) (v : Word) (idx : BitVec 17), Takes s sg → (s.seg sg).clocked = true → ag.isKeeper = true →
     r = s.reached sg ag [domRange] →
     Becomes (.guardBaseWrite sg ag sz v) s
       (r.guardWrite sg ag 0x140018 (setBits 0 43 12 (bitsOf (mergeSize ((r.seg sg).reg 0x140018) sz v) 43 12)) 3 v) ∧
     Becomes (.guardSizeWrite sg ag sz v) s
       (r.guardWrite sg ag 0x140020 (setBits (setBits 0 16 0 (bitsOf (mergeSize ((r.seg sg).reg 0x140020) sz v) 16 0)) 48 32
         (bitsOf (mergeSize ((r.seg sg).reg 0x140020) sz v) 48 32)) 4 v) ∧
     Becomes (.guardInval sg ag idx) s
       (((r.mod sg fun g => g.answer csOk 0).guardDrop sg idx.toNat).mod sg fun g => g.setFld F.XLT_GUARD_INVAL_INDEX idx.toNat)) ∧
  (∀ (s r : State) (sg : Fin 8) (ag : Agent) (v : Word) (off : Nat), Takes s sg → (s.seg sg).clocked = true → ag.admin = true →
     r = s.reached sg ag [domRange] →
     off = bitsOf v 43 5 * 32 →
     ((r.seg sg).present 0 off 32 = true → badRecall ((r.seg sg).hbmBytes off 32) = false →
       Becomes (.recallSubmit sg ag v) s
         ((r.mod sg fun g => (g.setFld F.XLT_RECALL_STATUS_SUBMITTED ((g.fld F.XLT_RECALL_STATUS_SUBMITTED + 1) % 2 ^ 32)).answer csOk 0).startRecall sg
           ((r.seg sg).hbmBytes off 32) true none)) ∧
     ((r.seg sg).present 0 off 32 = false ∨ badRecall ((r.seg sg).hbmBytes off 32) = true →
       Reaches (.recallSubmit sg ag v) s sg ag [domRange] fun g =>
         let g := (g.setFld F.XLT_RECALL_STATUS_SUBMITTED ((g.fld F.XLT_RECALL_STATUS_SUBMITTED + 1) % 2 ^ 32)).answer csOk 0
         ({ g with xlt := { g.xlt with nextRecall := g.xlt.nextRecall + 1, recalls := g.xlt.recalls ++
             [{ id := g.xlt.nextRecall, replica := false, start := 0, len := 0, ctx := 0, segs := [], submitted := true, owner := none }] } } :
           Segment).bump F.XLT_COUNT_REFUSED)) ∧
  (∀ (s : State) (sg : Fin 8) (r : Recall), Takes s sg → s.ackable sg false (s.seg sg).xlt.recalls = some r →
     ActsOn (.recallAck sg) s sg fun g =>
       let g : Segment := { g with xlt := { g.xlt with recalls := g.xlt.recalls.filter fun x => x.id != r.id } }
       let g := if r.submitted then g.setFld F.XLT_RECALL_STATUS_ACKED ((g.fld F.XLT_RECALL_STATUS_ACKED + 1) % 2 ^ 32) else g
       match r.owner with
       | some (o, some i) => (g.modSlot o i fun x => { x with st := .done }).wake
       | _ => g) ∧
  (∀ (s : State) (sg : Fin 8), Takes s sg → 0 < (s.seg sg).fld F.XLT_HOT_CTRL_DECAY →
     (s.seg sg).xlt.decayAt + (s.seg sg).fld F.XLT_HOT_CTRL_DECAY ≤ s.tick →
     ActsOn (.hotDecay sg) s sg fun g =>
       { g with
         xlt := { g.xlt with
           decayAt := s.tick
           resident := g.xlt.resident.map fun r => { r with hot := r.hot.map fun x => (x.1, x.2 / 2) } }
         plc := { g.plc with repCount := g.plc.repCount.map fun x => (x.1, x.2 / 2) } }) ∧
  (∀ (s : State) (sg : Fin 8) (ag : Agent) (v : Word) (m : MigReq), Takes s sg → (s.seg sg).clocked = true →
     (((s.reached sg ag [domRange]).seg sg).xlt.migs.find? fun m => m.n == bitsOf v 3 0) = some m →
     Becomes (.migrateDone sg ag v) s
       (((s.reached sg ag [domRange]).mod sg fun g => g.answer csOk 0).answerMig sg m (BitVec.ofNat 4 (bitsOf v 7 4)))) ∧
  (∀ (s : State) (sg : Fin 8) (req : Fin 16) (m : MigReq), Takes s sg → ((s.seg sg).xlt.migs.find? fun m => m.n == req.val) = some m →
     m.tick + max 1 ((s.seg sg).fld F.XLT_MIGRATE_CTRL_TIMEOUT) ≤ s.tick →
     Becomes (.migrateTimeout sg req) s
       ((s.mod sg fun g => g.raise s.tick
          { cls := 20, unit := 10, ctx := some (g.core m.core).ctx, info := BitVec.ofNat 32 m.n, status := csUnmapped,
            addr := BitVec.ofNat 64 (m.page * regionSize) }).answerMig sg m csUnmapped))

/-- While the fast clock runs, for register accesses: at every tick divisible by 50 a segment's port loads reach every segment it
can reach. A copy 780 ticks old is installed as a replica, in the frame set aside for it, with the contents of its region. A
withdrawn replica's frame returns once no read of it is left. An administrator turns replication off, which withdraws every
replica; sets the window of fabric-homed regions while none is declared and the fields are within their limits; and declares
all of a run of regions or none, or releases them; the status is CS_OK once nothing of the command is outstanding. Every
PERIOD ticks the access counts are published, and a holder that moves nothing may start a move. A pass that has taken its time
is copied, and another pass, the hold, the flip or abandonment follows; the flip makes every copy of the entry name the new
holder. (07_placement_and_ranges.md, Replicas; 07_placement_and_ranges.md, Fabric-homed regions) -/
def Obligations.ReplicasAndFabricHoming : Prop :=
  (∀ (s : State) (sg : Fin 8), Takes s sg → s.tick % 50 = 0 →
     Becomes (.loadPublish sg) s ((List.range s.n).foldl (fun (t : State) i =>
       if t.reachable sg i then t.mod i fun h =>
         { h with plc := { h.plc with published :=
             ((List.range 6).map fun p => (sg.val, p, (s.seg sg).portLoad p)) ++ h.plc.published.filter fun x => x.1 != sg.val } }
       else t) s)) ∧
  (∀ (s : State) (sg : Fin 8) (c : ReplicaCopy), Takes s sg → ((s.seg sg).plc.copies.find? fun c => c.start + 780 ≤ s.tick) = some c →
     ActsOn (.replicaInstall sg) s sg fun g =>
       ({ g with
          hbm := memCopy g.hbm (g.frameOff c.frame) (s.seg c.home).hbm (c.region * regionSize) regionSize
          plc := { g.plc with
            copies := g.plc.copies.filter (fun x => x != c)
            replicas := g.plc.replicas ++ [{ region := c.region, home := c.home, guard := c.guard, frame := c.frame, installed := g.plc.installs }]
            installs := g.plc.installs + 1 } } : Segment).bump F.PLC_COUNT_REPLICAS_MADE) ∧
  (∀ (s : State) (sg : Fin 8) (r : Replica), Takes s sg →
     ((s.seg sg).plc.replicas.find? fun r => r.withdrawn && !(s.seg sg).frameBusy r.frame) = some r →
     ActsOn (.replicaFrameReturn sg) s sg fun g =>
       { g with plc := { g.plc with replicas := g.plc.replicas.filter (fun x => x != r)
                                    framesUsed := g.plc.framesUsed.filter fun x => x != r.frame } }) ∧
  (∀ (s : State) (sg : Fin 8) (ag : Agent), Takes s sg → ag.admin = true →
     Reaches (.plcReplicateOff sg ag) s sg ag [domRange] fun g => ((g.answer csOk 0).setFld F.PLC_CTRL_REPLICATE 0).withdraw fun _ => true) ∧
  (∀ (s r : State) (sg : Fin 8) (ag : Agent) (sz : Sz) (v w : Word), Takes s sg → ag.admin = true → r = s.reached sg ag [domRange] →
     w = mergeSize ((r.seg sg).reg 0x150020) sz v → (r.seg sg).fld F.XLT_GUARD_SIZE_HBM_REGIONS ≤ bitsOf w 54 32 →
     bitsOf w 54 32 + bitsOf w 12 0 ≤ 2 ^ 23 → bitsOf w 12 0 ≤ 4096 → (r.seg sg).declared sg = [] →
     Reaches (.fhWindowWrite sg ag sz v) s sg ag [domRange] fun g =>
       (g.answer csOk 0).setReg 0x150020 (setBits (setBits 0 12 0 (bitsOf w 12 0)) 54 32 (bitsOf w 54 32))) ∧
  (∀ (s r : State) (sg : Fin 8) (ag : Agent) (v : Word), Takes s sg → (s.seg sg).clocked = true →
     r = (s.reached sg ag [domRange]).mod sg (fun g => g.answer csOk 0) →
     ((r.seg sg).fhTakes sg ag v true = true →
       (∀ t, r.declareAll sg (BitVec.ofNat 32 (bitsOf v 63 32)) ((List.range (bitsOf v 12 0)).map fun i => bitsOf v 27 16 + i) = some t →
         Becomes (.fhDeclare sg ag v) s (t.mod sg Segment.fhDone)) ∧
       (r.declareAll sg (BitVec.ofNat 32 (bitsOf v 63 32)) ((List.range (bitsOf v 12 0)).map fun i => bitsOf v 27 16 + i) = none →
         Becomes (.fhDeclare sg ag v) s (r.mod sg fun g => { g with plc := { g.plc with lastStatus := csBusy } }))) ∧
     ((r.seg sg).fhTakes sg ag v false = true →
       Becomes (.fhRelease sg ag v) s
         (let mine := ((r.seg sg).declared sg).filter fun h => bitsOf v 27 16 ≤ h.1 % 4096 && h.1 % 4096 < bitsOf v 27 16 + bitsOf v 12 0
          let t := mine.foldl (fun (t : State) h => t.releaseRegion h.1 h.2) r
          t.mod sg fun g =>
            ({ g with plc := { g.plc with releasing := g.plc.releasing ++
                (mine.map fun h => (h.2.holder, h.2.frame)).filter fun x => (t.seg x.1).plc.freeing.contains x.2 } } : Segment).fhDone))) ∧
  (∀ (s : State) (sg : Fin 8), Takes s sg → (s.seg sg).plc.moveAt + max 1 ((s.seg sg).fld F.PLC_MOVE_PERIOD) ≤ s.tick →
     Becomes (.movePeriod sg) s
       (let t := (s.publishCounts sg).mod sg fun g => { g with plc := { g.plc with moveAt := s.tick } }
        if (t.seg sg).plc.moves ≠ [] ∨ (t.seg sg).fld F.PLC_CTRL_HOMING_MOVE = 0 then t
        else match t.chooseMove sg with
          | some (key, to_) => t.startMove sg key to_
          | none => t)) ∧
  (∀ (s : State) (sg : Fin 8) (m : Move) (rest : List Move) (key : Nat) (h : Homing), Takes s sg → (s.seg sg).plc.moves = m :: rest →
     ((s.seg sg).plc.homing.find? fun h => h.1 / 4096 == m.win && h.2.region == m.region) = some (key, h) → s.joined sg m.target = true →
     (m.flipping = false → m.start + 32 * m.copying.length ≤ s.time →
       (m.hold = true → ((s.seg sg).txn.dpm.any fun d => d.space == 0 && d.write.isSome && (s.seg sg).frameOff h.frame ≤ d.addr &&
          d.addr < (s.seg sg).frameOff h.frame + regionSize) = false) →
       Becomes (.movePassDone sg) s
         (let t := s.copyBlocks sg m h.frame
          let next (m' : Move) : State :=
            t.mod sg fun g => { g with plc := { g.plc with moves := modWhere g.plc.moves (fun x => x == m) fun _ => m' } }
          if m.hold = true then next { m with copying := [], flipping := true }
          else if m.dirty.length ≤ min 64 ((s.seg sg).fld F.PLC_MOVE_FINAL_BLOCKS) then
            next { m with copying := m.dirty, dirty := [], start := s.time, hold := true }
          else if max 1 ((s.seg sg).fld F.PLC_MOVE_MAX_PASSES) ≤ m.pass then t.abandonMove sg m
          else next { m with copying := m.dirty, dirty := [], start := s.time, pass := m.pass + 1 })) ∧
     (m.flipping = true → Becomes (.moveFlipDone sg) s
       ((s.setHoming fun l => l.map fun h => if h.1 / 4096 == m.win && h.2.region == m.region then
           (h.1, { h.2 with moving := false, holder := m.target, frame := m.frame }) else h).mod sg fun g => g.movedOut s.time m h.frame)))

/-- FLIT_LAND lands the flit that its port presents when it is next in order; one that came over the die bridge frees its place
there 12 cycles later. A waiting flit is taken into the router when no flit waits to land, its output takes it, and no rival
goes before it. Every 50 ticks the age clock takes segment 0's value, where it can be reached, and the throttle takes the
window's counts: with ENABLE set a hot window halves the rate (not below MIN_RATE, at most once in 500 ticks), and any other
raises it by AI (not above 256). An administrator writes entries of an empty table, seals it, and opens a sealed one; the
keeper's flip makes the sealed table current and the current one retiring for 5,000 ticks; then, with no flit of its epoch
left, it is ready again and its suppressions go. (08_deflection_and_signposts.md, Slots; 08_deflection_and_signposts.md, Age
stamps; 08_deflection_and_signposts.md, Injection throttle; 08_deflection_and_signposts.md, Signposts; log 21) -/
def Obligations.RouterActs : Prop :=
  (∀ (s : State) (sg : Fin 8) (port : Fin 8) (g : Segment) (x : Presented), Takes s sg →
     g = (((s.seg sg).newCycle s.time).bridgeLookup s.time 0).bridgeLookup s.time 1 → g.landable s.time = some x → x.port = port.val →
     (x.port < 6 → Becomes (.flitLand sg port) s ((s.setSeg sg (g.takeLanding x)).serve sg x.bf true)) ∧
     (∀ sg' b', 6 ≤ x.port → bridgePartner s.n sg (x.port - 6) = (sg', b') →
       Becomes (.flitLand sg port) s (((s.setSeg sg (g.takeLanding x)).mod sg' fun h => h.modBend b' fun e =>
         { e with due := e.due ++ [s.time + 12] }).serve sg x.bf (x.bf.flit.hops.toNat ≤ 1 && !x.bf.counted)))) ∧
  (∀ (s t : State) (sg : Fin 8) (isX : Bool) (idx : Nat) (bf : BFlit) (o : Nat) (eg : Option (Nat × Nat)) (q : List BFlit), Takes s sg →
     t = s.mod sg (fun g => (g.newCycle s.time).rollBudget s.time) →
     q = (if isX then (t.seg sg).rte.injX else (t.seg sg).rte.injL) → q[idx]? = some bf →
     (t.seg sg).landable s.time = none → (t.seg sg).epochLost = false →
     (t.injTo sg bf = .out o eg ∨ t.injTo sg bf = .eject) → t.injReady sg bf = true →
     (isX = false → (t.injTo sg bf).slot ≠ some 8 →
       ∀ x ∈ (t.seg sg).rte.injX, (t.injTo sg x).slot = (t.injTo sg bf).slot → t.injReady sg x = false) →
     (∀ x ∈ q.zipIdx, (t.injTo sg x.1).slot = (t.injTo sg bf).slot → t.injReady sg x.1 = true → injBefore x (bf, idx) = false) →
     Becomes (.flitInject sg isX idx) s (t.injectTaken sg isX idx bf (t.injTo sg bf))) ∧
  (∀ (s : State) (sg : Fin 8), Takes s sg → (s.seg sg).rte.alignAt + 50 ≤ s.tick →
     ActsOn (.ageClockAlign sg) s sg fun g =>
       { g with rte := { g.rte with ageOff := if s.reachable 0 sg then (s.seg 0).rte.ageOff else g.rte.ageOff, alignAt := s.tick } }) ∧
  (∀ (s : State) (sg : Fin 8) (g : Segment) (hist : List (Nat × Nat)) (occNow : Nat) (isHot : Prop), Takes s sg →
     g = (s.seg sg).rollBudget s.time → g.rte.updateAt + 50 ≤ s.tick → hist = ((g.rte.defl, g.rte.asgn) :: g.rte.hist).take 10 →
     occNow = g.ports.foldl (fun n p => max n p.land.length) 0 →
     isHot = (max 1 (g.fld F.RTE_THROTTLE_CTRL_OCC_LIMIT) < max g.rte.occMax occNow ∨
       0 < hist.foldl (fun n x => n + x.2) 0 ∧ g.fld F.RTE_THROTTLE_CTRL_DEFL_LIMIT * hist.foldl (fun n x => n + x.2) 0 <
         hist.foldl (fun n x => n + x.1) 0 * 256) →
     (g.fld F.RTE_THROTTLE_CTRL_ENABLE ≠ 0 → ¬isHot →
       ActsOn (.throttleUpdate sg) s sg fun _ =>
         ({ g with rte := { g.rte with hist := hist, defl := 0, asgn := 0, occMax := occNow, updateAt := s.tick / 50 * 50 } } : Segment).setFld
           F.RTE_THROTTLE_STATUS_RATE (min 256 (g.fld F.RTE_THROTTLE_STATUS_RATE + g.fld F.RTE_THROTTLE_CTRL_AI))) ∧
     (g.fld F.RTE_THROTTLE_CTRL_ENABLE ≠ 0 → isHot → (∀ t, g.rte.lastCut = some t → 500 ≤ s.tick - t) →
       ActsOn (.throttleUpdate sg) s sg fun _ =>
         (({ g with rte := { g.rte with
             hist := hist, defl := 0, asgn := 0, occMax := occNow, updateAt := s.tick / 50 * 50, lastCut := some s.tick } } : Segment).setFld
           F.RTE_THROTTLE_STATUS_RATE
           (max (max 1 (g.fld F.RTE_THROTTLE_CTRL_MIN_RATE)) (g.fld F.RTE_THROTTLE_STATUS_RATE / 2))).bump F.RTE_THROTTLE_STATUS_DECREASES)) ∧
  (∀ (s : State) (sg : Fin 8) (ag : Agent) (table : Fin 2) (idx : BitVec 11) (sz : Sz) (v : Word), Takes s sg → ag.admin = true →
     (idx.toNat < 1088 → ((s.accessed ag).seg sg).tableState table = 0 →
       (storeEntry (mergeSize (((s.accessed ag).seg sg).reg (0x104000 + 0x4000 * table.val + 8 * idx.toNat)) sz v)).2 = false →
       Accesses (.signpostWrite sg ag table idx sz v) s sg ag fun g =>
         (g.setReg (0x104000 + 0x4000 * table.val + 8 * idx.toNat)
           (storeEntry (mergeSize (g.reg (0x104000 + 0x4000 * table.val + 8 * idx.toNat)) sz v)).1).answer csOk 0) ∧
     (((s.reached sg ag [domRouter]).seg sg).tableState table = 0 →
       Reaches (.signpostSeal sg ag table) s sg ag [domRouter] fun g =>
         (((g.setTableState table 1).flipSealed s.time).critWrite 0).answer csOk 0) ∧
     (((s.reached sg ag [domRouter]).seg sg).tableState table = 1 →
       Reaches (.signpostOpen sg ag table) s sg ag [domRouter] fun g => ((g.setTableState table 0).critWrite 0).answer csOk 0)) ∧
  (∀ (s : State) (sg : Fin 8) (ag : Agent) (cur other : Nat), Takes s sg → ag.isKeeper = true → cur = ((s.accessed ag).seg sg).epoch.toNat →
     other = 1 - cur → ((s.accessed ag).seg sg).tableState other = 1 →
     (((s.accessed ag).seg sg).tableState cur = 2 → Accesses (.epochFlip sg ag) s sg ag fun g =>
       let g := ((g.setTableState other 2).setTableState cur 3).setFld F.RTE_EPOCH_STATUS_CURRENT other
       (({ g with rte := { g.rte with
           retireAt := s.tick + 5000, flipAt := some (s.time, BitVec.ofNat 1 cur), flipWait := none } } : Segment).critWrite 0).answer csOk 0) ∧
     (((s.accessed ag).seg sg).tableState cur ≠ 2 → Accesses (.epochFlip sg ag) s sg ag fun g =>
       let g := (g.setTableState other 2).setFld F.RTE_EPOCH_STATUS_CURRENT other
       (({ g with rte := { g.rte with flipAt := some (s.time, BitVec.ofNat 1 cur), flipWait := none } } : Segment).critWrite 0).answer csOk 0)) ∧
  (∀ (s : State) (sg : Fin 8) (e : Nat), Takes s sg → (s.seg sg).retiring = some e → (s.seg sg).rte.retireAt ≤ s.tick →
     (s.seg sg).oldLive e = 0 →
     ActsOn (.tableRetired sg) s sg fun g =>
       let g := g.setTableState e 1
       { g with flt := { g.flt with supp := g.flt.supp.filter fun x => x.2.toNat != e } })

/-- FRAME_TRANSMIT is one frame time of a port whose lanes run. A received frame (data, idle, NAK, trailer, and the control
messages RETRAIN_REQ, RETRAIN_ACK, WIDTH_REQ, WIDTH_ACK and RESUME) is taken as one of its own type; an idle frame is also a
frame of a reserved TYPE and a control frame of no listed message. A frame that fails its check is taken as bad by a port that
hears. HUSH takes the receive side of an active port to Kettle and counts in nothing. (09_link_layer.md, Frames;
09_link_layer.md, Sequence, acknowledgement and replay; 09_link_layer.md, Credits; 09_link_layer.md, Link states and
retraining; 09_link_layer.md, Sealed frames; 10_lanes.md, Lane power states) -/
def Obligations.FramesArePassed : Prop :=
  (∀ (s : State) (sg : Fin 8) (p : Fin 6) (q : Port), Takes s sg → q = (s.seg sg).port p →
     (q.st = .active ∧ (q.txPwr = .active ∨ q.txPwr = .kettle) ∨ q.st = .retrain ∧ q.wait = none ∨ q.st = .width ∨
       q.st = .training ∧ q.lanesUp = true) →
     ActsOn (.frameTransmit sg p) s sg fun g => g.frameTime s.time p) ∧
  (∀ (s : State) (sg : Fin 8) (p : Fin 6) (f : Frame) (corr : Fin 5), Takes s sg →
     (f.typ = 0 → Becomes (.dataFrame sg p f corr) s (s.frameIn sg p f corr true)) ∧
     (f.typ = 1 ∨ 4 < f.typ.toNat ∨ f.typ = 4 ∧ ctrlBad f = true → Becomes (.idleFrame sg p f corr) s (s.frameIn sg p f corr true)) ∧
     (f.typ = 2 → Becomes (.nakFrame sg p f corr) s (s.frameIn sg p f corr true)) ∧
     (f.typ = 3 → Becomes (.trailerFrame sg p f corr) s (s.frameIn sg p f corr true)) ∧
     (isMsg f 1 = true → Becomes (.retrainReq sg p f corr) s (s.frameIn sg p f corr true)) ∧
     (isMsg f 2 = true → Becomes (.retrainAck sg p f corr) s (s.frameIn sg p f corr true)) ∧
     (isMsg f 3 = true → Becomes (.widthReq sg p f corr) s (s.frameIn sg p f corr true)) ∧
     (isMsg f 4 = true → Becomes (.widthAck sg p f corr) s (s.frameIn sg p f corr true)) ∧
     (isMsg f 5 = true → Becomes (.resume sg p f corr) s (s.frameIn sg p f corr true))) ∧
  (∀ (s : State) (sg : Fin 8) (p : Fin 6), Takes s sg →
     (((s.seg sg).port p).hears = true → ActsOn (.badFrame sg p) s sg fun g => g.takeBad p) ∧
     ActsOn (.hushFrame sg p) s sg fun g =>
       g.modPort p fun q => if q.st = .active ∧ q.rxPwr = .active then { q with rxPwr := .kettle } else q)

/-- On an active port with frames in the replay store, the replay timer's limit starts a replay after the last acknowledged frame,
and a NAK whose gap is still open is sent again. At the end of an error window its counts are judged, and those that came from
its boundary tick on are kept for the next one; with a limit set, enough windows in succession over it start a retrain. A
retrain without an acknowledgement for 50 ticks goes on to its lanes; at the retrain limit training goes DOWN and a retrain
fails; a port that waits retrains again at its time; a width change or request at its limit becomes a retrain; a run of sealed
frames awaiting its tag for 256 frame times has its trailer due. An administrator enables, disables, retries, retrains,
releases and narrows a port; the keeper arms and disarms its seal slots. Another agent's command is refused.
(09_link_layer.md, Sequence, acknowledgement and replay; 09_link_layer.md, Link states and retraining; 09_link_layer.md,
Sealed frames; 09_link_layer.md, Registers) -/
def Obligations.LinkTimersAndCommands : Prop :=
  (∀ (s : State) (sg : Fin 8) (p : Fin 6) (q : Port), Takes s sg → q = (s.seg sg).port p → q.st = .active →
     (q.replay ≠ [] → q.timerAt + max 1 ((s.seg sg).fld (F.LNK_TIMERS_REPLAY_TIMER.port p)) ≤ s.tick →
       ActsOn (.replayTimerExpiry sg p) s sg fun g =>
         (g.startReplay s.tick p (q.acked + 1)).modPort p fun q => { q with expiredAt := some s.tick }) ∧
     (q.gap = true → q.nakLast ≠ none → ActsOn (.nakRepeatExpiry sg p) s sg fun g => g.dueNak s.tick p)) ∧
  (∀ (s : State) (sg : Fin 8) (p : Fin 6) (q : Port) (ppb sent replays run : Nat), Takes s sg → q = (s.seg sg).port p → q.windowEnd ≤ s.tick →
     ppb = (s.seg sg).fld (F.LNK_ERR_CTRL_REPLAY_PPB.port p) →
     (sent, replays) = (match q.closed with | some x => x | none => (q.sent, q.replays)) →
     run = (if 0 < replays ∧ ppb * sent < replays * 1000000000 then q.hotRun + 1 else 0) →
     (ppb ≠ 0 → max 1 ((s.seg sg).fld (F.LNK_ERR_CTRL_HOT_WINDOWS.port p)) ≤ run →
       ActsOn (.errorWindowEnd sg p) s sg fun g => (g.modPort p fun q =>
         { q.closeWindow s.tick with hotRun := 0, closed := none, windowEnd := (s.tick / 50000 + 1) * 50000 }).retrainCause s.time p 1) ∧
     (ppb = 0 ∨ run < max 1 ((s.seg sg).fld (F.LNK_ERR_CTRL_HOT_WINDOWS.port p)) →
       ActsOn (.errorWindowEnd sg p) s sg fun g => g.modPort p fun q =>
         { q.closeWindow s.tick with hotRun := run, closed := none, windowEnd := (s.tick / 50000 + 1) * 50000 })) ∧
  (∀ (s : State) (sg : Fin 8) (p : Fin 6) (q : Port), Takes s sg → q = (s.seg sg).port p →
     (∀ cause t, q.st = .retrain → q.req = some (false, cause, t) → t + 50 ≤ s.tick →
       ActsOn (.requestRepeatLimit sg p) s sg fun g => g.modPort p fun q => q.beginPhase s.tick 1) ∧
     (q.start + (s.seg sg).retrainLimit p ≤ s.tick →
       (q.st = .training → Becomes (.retrainLimitExpiry sg p) s (s.mod sg fun g => g.portDown s.time p).failRoutes) ∧
       (q.st = .retrain → q.wait = none → Becomes (.retrainLimitExpiry sg p) s (s.mod sg fun g => g.failRetrain s.time p).failRoutes)) ∧
     (∀ t, q.st = .retrain → q.wait = some t → t ≤ s.tick →
       ActsOn (.retrainWaitEnd sg p) s sg fun g => g.retrainStart s.time p q.cause) ∧
     (q.st = .width ∧ q.start + 500 ≤ s.tick ∨ q.st = .active ∧ (∃ w t, q.req = some (true, w, t) ∧ t + 50 ≤ s.tick) →
       ActsOn (.widthLimitExpiry sg p) s sg fun g =>
         (g.modPort p fun q => { q with req := none }).retrainStart s.time p 7) ∧
     (∀ r rest, q.txRuns = r :: rest → r.ft + 256 ≤ q.ft →
       ActsOn (.trailerDue sg p) s sg fun g => g.modPort p fun q => { q with trailerDue := true })) ∧
  (∀ (s : State) (sg : Fin 8) (p : Fin 6) (ag : Agent) (w : BitVec 4), Takes s sg → ag.admin = true →
     Accesses (.linkEnable sg p ag) s sg ag (fun g => (g.portEnable s.tick p).answer csOk 0) ∧
     Becomes (.linkDisable sg p ag) s (((s.accessed ag).portDisable sg p).mod sg fun g => g.answer csOk 0) ∧
     Accesses (.linkRetry sg p ag) s sg ag (fun g => (g.portRetry s.tick p).answer csOk 0) ∧
     Reaches (.linkRetrain sg p ag) s sg ag [domTx p, domRx p] (fun g => (g.stewardCause s.time p 5).answer csOk 0) ∧
     Reaches (.linkRelease sg p ag) s sg ag [domTx p, domRx p] (fun g => (g.portRelease s.tick p).answer csOk 0) ∧
     Accesses (.linkWidthRequest sg p ag w) s sg ag fun g => (g.portWidth s.time p w.toNat).answer csOk 0) ∧
  (∀ (s : State) (sg : Fin 8) (p : Fin 6) (ag : Agent) (slot : BitVec 6) (ctx : BitVec 12), Takes s sg → ag.isKeeper = true →
     Accesses (.sealSlotArm sg p ag slot ctx) s sg ag (fun g => (g.sealArm s.tick p slot.toNat ctx).1.answer csOk 0) ∧
     Accesses (.sealSlotDisarm sg p ag slot) s sg ag fun g => (g.modPort p fun q => q.disarm slot.toNat).answer csOk 0)

/-- A finished phase of a training port goes on as its observation says; a phase at its limit starts training again, and TAPS goes
on to PRBS. Lost block lock (16 of 64 headers invalid) of a logical lane starts a retrain, and of the spare or the lane under
calibration fails its calibration. On an active port the service channel's SHADOW begins the comparison, SWAPPED takes the old
lane out, CAL_DONE makes it the spare and CAL_FAIL retires it. A handover starts when rotation may run and its period is over;
after the equal blocks the logical lane moves to the spare; the calibration count ends it with a good or a failed lane;
without an answer it ends at its limit. A lane that loses sync is counted and handed over, or without a spare the next
narrower width is asked for. RATE is written only while the port is stopped. A preamble ends the wait of a failed retrain. Two
bits are read back from their level, and a training block from its payload. An ordinary or a marker block is read as it was
sent where the generators of both ends agree. (10_lanes.md, Bring-up; 10_lanes.md, The rotating spare; 10_lanes.md, Lane
registers) -/
def Obligations.LanesTrainAndHandOver : Prop :=
  (∀ (s : State) (sg : Fin 8) (p : Fin 6) (obs : TrainObs), Takes s sg → ((s.seg sg).port p).isTraining = true →
     (∀ g, (s.seg sg).phaseEnd s.tick p obs = (g, false) → ActsOn (.trainingPhaseEnd sg p obs) s sg fun _ => g) ∧
     (∀ g, (s.seg sg).phaseEnd s.tick p obs = (g, true) → (g.port p).st = .retrain →
       Becomes (.trainingPhaseEnd sg p obs) s (s.setSeg sg (g.failRetrain s.time p)).failRoutes) ∧
     (((s.seg sg).port p).phaseTick + (s.seg sg).phaseLimit p ((s.seg sg).port p).phase ≤ s.tick →
       (((s.seg sg).port p).phase = 5 → ActsOn (.trainingPhaseLimit sg p) s sg fun g => g.toPhase s.tick p 6) ∧
       (((s.seg sg).port p).phase ≠ 5 → ((s.seg sg).port p).phase ≠ 6 →
         ActsOn (.trainingPhaseLimit sg p) s sg fun g => g.restartTraining s.tick p (limitCode (g.port p).phase)))) ∧
  (∀ (s : State) (sg : Fin 8) (p : Fin 6) (q : Port), Takes s sg → q = (s.seg sg).port p → q.st = .active →
     (∀ (lane : Fin 9) heads, q.rxPwr ≠ .flask → losesLock heads = true → q.mapRx.contains lane.val = true →
       ActsOn (.blockLockLoss sg p ⟨lane, heads⟩) s sg fun g =>
         (g.bumpBy ((F.LNE_LANE_ERR_SYNC_BAD.port p).add (8 * lane.val)) (heads.filter fun h => !headerOk h).length).retrainCause s.time p 6) ∧
     (∀ (lane : Fin 9) heads, q.rxPwr ≠ .flask → losesLock heads = true → q.mapRx.contains lane.val = false →
       q.spareRx = lane.val ∨ q.calRx = lane.val →
       ActsOn (.blockLockLoss sg p ⟨lane, heads⟩) s sg fun g =>
         (g.bumpBy ((F.LNE_LANE_ERR_SYNC_BAD.port p).add (8 * lane.val)) (heads.filter fun h => !headerOk h).length).calFailRx s.tick p lane) ∧
     (∀ l : Fin 8, q.spareRx ≠ 15 → q.mapRx.getD l 15 ≠ 15 →
       ActsOn (.shadow sg p l) s sg fun g =>
         g.modPort p fun y => { y with rotRx := { step := 1, l := l, k := q.mapRx.getD l 15, s := y.spareRx, tick := s.tick } }) ∧
     (∀ l : Fin 8, q.rotTx.step = 1 → q.rotTx.l = l.val →
       ActsOn (.swapped sg p l) s sg fun g => g.modPort p fun q =>
         { q with mapTx := q.mapTx.set l q.rotTx.s, calTx := q.rotTx.k, spareTx := 15, cmd := 0, target := 0,
                  rotTx := { q.rotTx with step := 3, tick := s.tick } }) ∧
     (q.rotTx.step = 3 →
       ActsOn (.calDone sg p) s sg fun g =>
         ((g.modPort p fun q => { q with spareTx := q.rotTx.k, calTx := 15, rotTx := { q.rotTx with step := 0 } }).bump
           (F.LNE_ROTATE_STATUS_HANDOVERS.port p)).handoverOver s.tick p) ∧
     (q.calTx ≠ 15 ∨ q.spareTx ≠ 15 → ActsOn (.calFail sg p) s sg fun g => g.calFailTx s.tick p) ∧
     (∀ k, (s.seg sg).mayRotate p = true → q.rotAt + max 5000 ((s.seg sg).fld (F.LNE_ROTATE_PERIOD.port p)) ≤ s.tick →
       nextRetired q.mapTx q.retired = some k →
       ActsOn (.handoverStart sg p) s sg fun g => (g.beginHandover s.tick p k).modPort p fun q => { q with rotAt := s.tick }) ∧
     (q.rotRx.step = 1 → q.spareRx = q.rotRx.s → q.serviceTx = true →
       ActsOn (.handoverSwap sg p) s sg fun g => g.modPort p fun q =>
         { q with mapRx := q.mapRx.set q.rotRx.l q.rotRx.s, calRx := q.rotRx.k, spareRx := 15, cmd := 2, target := q.rotRx.l,
                  rotRx := { q.rotRx with step := 2, tick := s.tick } }) ∧
     (∀ errs : BitVec 32, q.rotRx.step = 2 → q.calRx = q.rotRx.k →
       q.rotRx.tick + max 1 ((s.seg sg).fld (F.LNE_ROTATE_CAL_PRBS_TICKS.port p)) ≤ s.tick →
       ActsOn (.calibrationCountEnd sg p errs) s sg fun g =>
         let g := g.setFld ((F.LNE_LANE_ERR_PRBS_ERR.port p).add (8 * q.rotRx.k)) (min errs.toNat 65535)
         if errs.toNat ≤ g.fld (F.LNE_TRAIN_CTRL_PRBS_LIMIT.port p) then
           (g.modPort p fun y =>
             { y with cmd := 3, target := 0, spareRx := q.rotRx.k, calRx := 15, rotRx := { y.rotRx with step := 0 } }).handoverOver s.tick p
         else g.calFailRx s.tick p q.rotRx.k) ∧
     (∀ lane : Fin 9, q.mapTx.contains lane.val = true →
       ActsOn (.syncErrorHandover sg p lane) s sg fun g =>
         let g := (g.bumpBy ((F.LNE_LANE_ERR_SYNC_BAD.port p).add (8 * lane.val)) 8).laneFault s.tick p lane
         let g' := g.modPort p fun q => { q with partnerGood := q.partnerGood &&& ~~~((1 : BitVec 9) <<< lane.val) }
         if q.spareTx = 15 then (if q.width = 8 then g'.askWidth s.time p 4 else if q.width = 4 then g'.askWidth s.time p 2 else g)
         else if g.mayRotate p = true then g.beginHandover s.tick p lane else g)) ∧
  (∀ (s : State) (sg : Fin 8) (p : Fin 6) (lim : Nat), Takes s sg → lim = max 600 ((s.seg sg).fld (F.LNE_ROTATE_CAL_LIMIT.port p)) →
     (((s.seg sg).port p).rotTx.step = 1 → ((s.seg sg).port p).rotTx.tick + fourGroups ((s.seg sg).fld (F.LNE_CFG_RATE.port p)) + lim ≤ s.tick →
       ActsOn (.calLimitExpiry sg p) s sg fun g =>
         (g.modPort p fun q => { q with rotTx := {}, cmd := 0, target := 0 }).handoverOver s.tick p) ∧
     (((s.seg sg).port p).rotTx.step = 3 → ((s.seg sg).port p).rotTx.tick + lim ≤ s.tick →
       ActsOn (.calLimitExpiry sg p) s sg fun g => g.calFailTx s.tick p)) ∧
  (∀ (s : State) (sg : Fin 8) (p : Fin 6) (ag : Agent) (sz : Sz) (v : Word), Takes s sg → ag.admin = true →
     ((((s.accessed ag).seg sg).port p).st = .disabled ∨ (((s.accessed ag).seg sg).port p).st = .down) →
     Accesses (.laneRateWrite sg p ag sz v) s sg ag fun g =>
       (g.setReg (lnkOff p 0x1000) (mergeSize (g.reg (lnkOff p 0x1000)) sz v &&& 0xE3)).answer csOk 0) ∧
  (∀ (s : State) (sg : Fin 8) (p : Fin 6), Takes s sg → ActsOn (.preambleDetect sg p) s sg fun g => g.modPort p fun q =>
     if q.st = .retrain ∧ q.wait ≠ none then { (q.beginPhase s.tick 1) with wait := none, start := s.tick, isLeader := false } else q) ∧
  (∀ (payload : List Bool) (gen : BitVec 31), readBlock (BlockKind.ordinary.bits payload gen) gen = some (false, payload) ∧
     readBlock (BlockKind.marker.bits payload gen) gen = some (true, payload)) ∧
  (∀ (a b : Bool), pamBits (pamLevel a b) = some (a, b)) ∧
  (∀ b : TrainBlock, readTrain b.payload = some b)

/-- An active port with nothing staged, no replay and no sealed run awaiting its tag enters Kettle after its idle frame times; its
receive side follows a quiet pattern into Doze. An administrator asks for Doze, Flask or a wake. A dozing side with a wake
event is active again. FLASK_REQ on an active port commits entry to the end that asked, is answered with FLASK_ACK by an end
that agrees, and with FLASK_NAK by another; FLASK_ACK commits, and FLASK_NAK withdraws. At the committed entry both sides are
in Flask, and a wake that was held begins the relock; the partner's signal begins it too. A relock done makes the port active;
a relock that takes 2,500 ticks starts a retrain with cause LANE. (10_lanes.md, Lane power states; 10_lanes.md, Bring-up;
11_stile_and_ramp.md, Kettle hold and step-down) -/
def Obligations.LanePowerStates : Prop :=
  (∀ (s : State) (sg : Fin 8) (p : Fin 6) (q : Port), Takes s sg → q = (s.seg sg).port p → q.st = .active →
     (q.txPwr = .active → q.stage = [] → q.replaying = none → q.txRuns = [] →
       q.seqFt + max 1 ((s.seg sg).fld (F.LNE_PWR_CTRL_KETTLE_ENTRY.port p)) ≤ q.ft →
       ActsOn (.kettleEntry sg p) s sg fun g => g.modPort p fun q => { q with txPwr := .kettle, idleFt := q.ft }) ∧
     (q.rxPwr = .active ∨ q.rxPwr = .kettle → ActsOn (.quietPattern sg p) s sg fun g =>
       let g := g.modPort p fun q => { q with rxPwr := .doze }
       if q.txPwr = .doze then g else { g with pwr := { g.pwr with lastDrop := s.tick } }) ∧
     (q.flask = 1 → ActsOn (.flaskReq sg p) s sg (fun g => g.modPort p fun q => { q with flask := 2, flaskTick := s.tick }) ∧
       ActsOn (.flaskAck sg p) s sg fun g => g.modPort p fun q => { q with flask := 2, flaskTick := s.tick }) ∧
     (q.flask = 0 → (s.seg sg).flaskOk p = true → q.inHandover = false →
       ActsOn (.flaskReq sg p) s sg fun g => g.modPort p fun q => { q with flask := 2, flaskTick := s.tick, cmd := 6, target := 0 }) ∧
     (q.flask ≠ 1 → (s.seg sg).flaskOk p = false → ActsOn (.flaskReq sg p) s sg fun g => g.modPort p fun q => { q with cmd := 7, target := 0 }) ∧
     (q.flask = 2 → ActsOn (.flaskEntry sg p) s sg fun g => ((g.modPort p fun q =>
       { q with txPwr := .flask, rxPwr := .flask, flask := 3, cmd := 0, dozeReq := false,
                relock := if q.wakeHeld then some s.tick else none, wakeHeld := false }).bump (F.LNE_PWR_COUNT_FLASK_ENTRIES.port p)).runPending s.time p) ∧
     (∀ t, q.relock = some t → t + 2500 ≤ s.tick →
       ActsOn (.relockTimeout sg p) s sg fun g => (g.bump (F.LNE_PWR_COUNT_RELOCK_FAILS.port p)).retrainCause s.time p 6)) ∧
  (∀ (s : State) (sg : Fin 8) (p : Fin 6) (q : Port) (own seeds : List (BitVec 31)), Takes s sg → q = (s.seg sg).port p →
     (q.flask = 1 → ActsOn (.flaskNak sg p) s sg fun g =>
       (g.bump (F.LNE_PWR_COUNT_FLASK_REFUSED.port p)).modPort p fun q => { q with flask := 0, cmd := 0 }) ∧
     (q.txPwr = .doze → (q.wakeHeld = true ∨ q.ackOwed = true ∨ q.owed ≠ 0 ∨ q.stage ≠ [] ∨ q.st ≠ .active) →
       ActsOn (.dozeWake sg p) s sg fun g => g.modPort p fun q => q.wakeDoze s.time) ∧
     ActsOn (.signalDetect sg p) s sg (fun g => g.modPort p fun q => if q.txPwr = .flask then q.wakeFlask s.tick else q) ∧
     ActsOn (.relockDone sg p ⟨own, seeds⟩) s sg fun g => g.modPort p fun q => if q.st = .active ∧ q.txPwr = .flask ∧ q.relock ≠ none then
       { q with txPwr := .active, rxPwr := .active, flask := 0, relock := none, wakeHeld := false, ownSeeds := own, seeds := seeds,
                genTx := 0, genRx := 0, seqFt := q.ft, idleFt := q.ft, rotAt := s.tick } else q) ∧
  (∀ (s : State) (sg : Fin 8) (p : Fin 6) (ag : Agent), Takes s sg → ag.admin = true →
     Reaches (.dozeRequest sg p ag) s sg ag [domTx p, domRx p] (fun g => (g.askDoze s.time p).answer csOk 0) ∧
     Reaches (.flaskRequest sg p ag) s sg ag [domTx p, domRx p] (fun g => (g.askFlask s.tick p).answer csOk 0) ∧
     Reaches (.laneWake sg p ag) s sg ag [domTx p, domRx p] fun g => (g.modPort p fun q =>
       if q.txPwr = .doze then q.wakeDoze s.time else (q.wakeEvent s.time).wakeFlask s.tick).answer csOk 0)

/-- DOMAIN_WAKE is a wake event of a domain. A rise of PWR_ACK with PWR_REQ set makes the domain usable after its latency: it goes
on from its kept state, or restarts after a partial reset; a router's rise wakes its die bridge and the routers of the
package. A fall with PWR_REQ clear ends the sleep; with PWR_REQ set, the domain is lost, as DOMAIN_LOST of an awake domain
says. PWR_ACK that does not rise in WAKE_LIMIT is counted and recorded once. The keeper and the steward sleep at HALT; another
domain when its idle time is over and the ramp allows the drop; none in the cycle of a wake event. PWR_HOLD is an
administrator's, its keeper bit the keeper's. (11_stile_and_ramp.md, The domain handshake; 11_stile_and_ramp.md, Kettle hold
and step-down; log 27) -/
def Obligations.PowerDomainsAct : Prop :=
  (∀ (s : State) (sg : Fin 8) (d : Fin 35), Takes s sg →
     ActsOn (.domainWake sg d) s sg (fun g => g.wakeDom s.tick d) ∧
     ((s.seg sg).pwrAck d = false → (s.seg sg).pwrReq d = true → d.val ≠ domRouter →
       ActsOn (.pwrAckRise sg d) s sg fun g =>
         let g := g.setBitOf F.PWR_DOMAIN_STATE_AWAKE d true
         let g' := { g with pwr := { g.pwr with
           reqAt := eraseKey d.val g.pwr.reqAt, timedOut := g.pwr.timedOut.erase d.val, restart := g.pwr.restart.erase d.val,
           usable := insertKey d.val (s.tick + usableAfter d) g.pwr.usable } }
         (if g.pwr.restart.contains d.val then g'.domainUp s.tick d else g'.wakeOne s.tick d).wakePending s.tick) ∧
     ((s.seg sg).pwrAck d = true → d.val ≠ 0 → (s.seg sg).pwrReq d = false →
       ActsOn (.pwrAckFall sg d) s sg fun g => g.setBitOf F.PWR_DOMAIN_STATE_AWAKE d false) ∧
     ((s.seg sg).pwrAck d = true → d.val ≠ 0 → (s.seg sg).pwrReq d = true →
       Becomes (.pwrAckFall sg d) s (s.domainLost sg d) ∧
       ((s.seg sg).awake d = true → Becomes (.domainLost sg d) s (s.domainLost sg d))) ∧
     (∀ t, lookupKey d.val (s.seg sg).pwr.reqAt = some t → (s.seg sg).pwrAck d = false → (s.seg sg).pwrReq d = true →
       (s.seg sg).pwr.timedOut.contains d.val = false → t + max 1 ((s.seg sg).fld F.PWR_CTRL_WAKE_LIMIT) ≤ s.tick →
       ActsOn (.pwrAckTimeout sg d) s sg fun g =>
         (({ g with pwr := { g.pwr with timedOut := d.val :: g.pwr.timedOut } } : Segment).bump F.PWR_WAKE_COUNT_ACK_TIMEOUTS).raise s.tick
           { cls := 3, unit := 1, index := d.val, info := BitVec.ofNat 32 d.val })) ∧
  (∀ (s : State) (sg : Fin 8) (d : Fin 35), Takes s sg → (s.seg sg).pwr.woke.contains d.val = false → (d.val = 1 ∨ d.val = 2) →
     (s.seg sg).awake d = true → s.sleepCond sg d = true →
     (s.seg sg).pwrHeld d = false → (s.seg sg).pwr.restart.contains d.val = false →
     Becomes (.domainSleep sg d) s (s.sleepDom sg d)) ∧
  (∀ (s : State) (sg : Fin 8) (d : Fin 35) (t : Nat), Takes s sg → (s.seg sg).pwr.woke.contains d.val = false → d.val ≠ 1 → d.val ≠ 2 →
     s.sleepDue sg d = some t →
     s.dropOk sg (dropKey t 0 d) (64 * (if 9 ≤ d.val ∧ d.val ≤ 20 then 131 else (s.seg sg).domMw d)) = true →
     Becomes (.domainSleep sg d) s (s.sleepDom sg d)) ∧
  (∀ (s : State) (sg : Fin 8) (ag : Agent) (sz : Sz) (v : Word), Takes s sg → ag.admin = true →
     Accesses (.pwrHoldWrite sg ag sz v) s sg ag fun g => (g.holdWrite s.tick ag sz v).answer csOk 0)

/-- A power window that is over ends: what it used is summed, the ceiling of the next one follows and its budget is that ceiling
less the static terms. The keeper writes the ramp class. A port idle for KETTLE_HOLD asks for Doze, and one idle for
FLASK_AFTER asks for Flask, when the ramp allows the drop. A completion due within 2,500 ticks wakes the port in Doze or Flask
with the shortest idle time, one in 50 ticks. Coarsening ends once its time has come and no sealed context is resident.
(11_stile_and_ramp.md, The ramp governor; 11_stile_and_ramp.md, Kettle hold and step-down; 11_stile_and_ramp.md, Coarsened
readings; 11_stile_and_ramp.md, PACE_HINT; log 23) -/
def Obligations.RampAndPortsAct : Prop :=
  (∀ (s : State) (sg : Fin 8) (w : Nat), Takes s sg → w = (s.seg sg).pwr.windowEnd → w ≤ s.tick →
     ActsOn (.powerWindowEnd sg) s sg fun g => g.windowEnd s.tick w) ∧
  (∀ (s : State) (sg : Fin 8) (ag : Agent) (sz : Sz) (v : Word), Takes s sg → ag.isKeeper = true → sz.covers 1 0 = true →
     Accesses (.rampClassWrite sg ag sz v) s sg ag fun g => (g.setClass (v.toNat % 4)).answer csOk 0) ∧
  (∀ (s : State) (sg : Fin 8) (p : Fin 6) (t : Nat), Takes s sg →
     ((s.seg sg).dozeDue s.tick p = some t → s.dropOk sg (dropKey t 1 p) ((s.seg sg).stepDrop p 90) = true →
       ActsOn (.kettleHoldExpiry sg p) s sg fun g => (g.stepped s.tick).askDoze s.time p) ∧
     ((s.seg sg).flaskDue s.tick p = some t → s.dropOk sg (dropKey t 1 p) ((s.seg sg).stepDrop p 4) = true →
       ActsOn (.flaskAfterExpiry sg p) s sg fun g =>
         ((g.stepped s.tick).modPort p fun q => { q with flaskAt := some s.time }).askFlask s.tick p)) ∧
  (∀ (s : State) (sg : Fin 8) (grp : BitVec 12) (p : Nat), Takes s sg →
     ((s.seg sg).stile.any fun f => f.grp == grp && f.hasEntry && f.at_ ≤ s.tick + 2500) = true →
     (∀ t, (s.seg sg).pwr.portWakeAt = some t → t + 50 ≤ s.tick) → (s.seg sg).portToWake = some p →
     ActsOn (.stilePortWake sg grp) s sg fun g =>
       ({ g with pwr := { g.pwr with portWakeAt := some s.tick } } : Segment).modPort p fun q =>
         if q.txPwr = .doze then q.wakeDoze s.time else (q.wakeEvent s.time).wakeFlask s.tick) ∧
  (∀ (s : State) (sg : Fin 8) (t : Nat), Takes s sg → (s.seg sg).pwr.coarse = some t → t ≤ s.tick → (s.seg sg).sealedResident = false →
     ActsOn (.coarseningEnd sg) s sg fun g => { g with pwr := { g.pwr with coarse := none } })

/-- A suspect row is forgotten 1 s after its first failure. An administrator fences a bank that is in use while at least four
others stay; once nothing reserved is left in it and no pool line lies beyond the other banks, it is fenced and its domain
asleep. An unfenced bank wakes and is tested: with at most 8 failing rows it joins again with those rows spared and nothing
suspect, and with more it stays fenced and a record says so. A voted read of a critical word names the copy that differs, and
a latch found wrong is recorded as corrected. An administrator clears the valid bits of banks that hold nothing reserved; the
bit reads 1 until the clear is done. (12_integrity_and_fault_reporting.md, Rows, spares and fencing;
12_integrity_and_fault_reporting.md, Critical words; 12_integrity_and_fault_reporting.md, Hamper registers; log 26) -/
def Obligations.HamperActs : Prop :=
  (∀ (s : State) (sg : Fin 8) (bank : Fin 12) (row : BitVec 15), Takes s sg →
     ActsOn (.suspectExpiry sg bank row) s sg fun g => g.modHmp fun h =>
       { h with suspects := h.suspects.filter fun x => !(x.1 == bank.val && x.2.1 == row.toNat && s.tick ≥ x.2.2.2 + 50000000) }) ∧
  (∀ (s : State) (sg : Fin 8) (ag : Agent) (bank : BitVec 4), Takes s sg → ag.admin = true → bank.toNat ≤ 11 →
     (((s.accessed ag).seg sg).bankOpen bank.toNat = true → 5 ≤ ((List.range 12).filter fun b => ((s.accessed ag).seg sg).bankOpen b).length →
       Becomes (.bankFence sg ag bank) s (((s.accessed ag).mod sg fun g => g.answer csOk 0).fenceBank sg bank.toNat 2)) ∧
     (((s.accessed ag).seg sg).bankState bank.toNat = 3 →
       Accesses (.bankUnfence sg ag bank) s sg ag fun g =>
         ((g.answer csOk 0).setFld (F.HMP_BANK_STATUS_STATE.bank bank.toNat) 4).wakeDom s.tick (domBank bank.toNat))) ∧
  (∀ (s : State) (sg : Fin 8) (bank : Fin 12), Takes s sg →
     ((s.seg sg).bankState bank = 2 → (s.seg sg).hmp.movable bank = 0 → (s.seg sg).poolUsed ≤ (s.seg sg).txn.poolLines →
       ActsOn (.bankFenceDrainDone sg bank) s sg fun g =>
         ((g.modHmp fun h => { h with uses := h.uses.map fun u => (u.1, modAt u.2 bank fun _ => 0) }).setFld
           (F.HMP_BANK_STATUS_STATE.bank bank) 3).setBitOf F.PWR_DOMAIN_REQ_REQ (domBank bank) false) ∧
     ((∀ w ∈ (s.seg sg).swSet, w.off = 0x130010 → w.v.getLsbD bank = false) →
       ActsOn (.bankClearDone sg bank) s sg fun g => g.setBitOf F.HMP_INVAL_BANKS bank false)) ∧
  (∀ (s : State) (sg : Fin 8) (bank : Fin 12) (rows : List (BitVec 15)) (rs : List Nat), Takes s sg → (s.seg sg).bankState bank = 4 →
     rs = (rows.map fun r => min 512 r.toNat).eraseDups →
     (rs.length ≤ 8 → ActsOn (.unfenceTestDone sg bank rows) s sg fun g =>
       (((g.modHmp fun h => { h with spares := modAt h.spares bank fun _ => rs, suspects := h.suspects.filter fun x => x.1 != bank.val }).setFld
         (F.HMP_BANK_STATUS_STATE.bank bank) 0).setBitOf F.HMP_STATUS_FENCED bank false).setFld (F.HMP_BANK_STATUS_SPARES_USED.bank bank) rs.length) ∧
     (8 < rs.length → ActsOn (.unfenceTestDone sg bank rows) s sg fun g =>
       ((g.setFld (F.HMP_BANK_STATUS_STATE.bank bank) 3).setBitOf F.PWR_DOMAIN_REQ_REQ (domBank bank) false).raise s.tick
         { cls := 23, unit := 9, index := bank.val, info := BitVec.ofNat 32 (bank.val * 2 ^ 28 + 3) })) ∧
  (∀ (s : State) (sg : Fin 8) (word : Fin 72) (copy : Fin 3), Takes s sg → critWords.contains word.val = true →
     ActsOn (.critLatchReload sg word none false) s sg (fun g => g) ∧
     ActsOn (.critLatchReload sg word (some copy) false) s sg (fun g => g.critVote s.tick word copy) ∧
     (word.val < 6 → ActsOn (.critLatchReload sg word none true) s sg fun g =>
       g.raise s.tick { cls := 24, unit := 9, sev := 1, info := BitVec.ofNat 32 (2 ^ 31 + word.val) })) ∧
  (∀ (s : State) (sg : Fin 8) (ag : Agent) (v : Word), Takes s sg → ag.admin = true →
     (∀ b, b < 12 → v.getLsbD b = true → ((s.accessed ag).seg sg).bankState b = 3 ∨ ((s.accessed ag).seg sg).bankState b = 2 ∨ ((s.accessed ag).seg sg).hmp.usedIn b = 0) →
     Accesses (.hmpInval sg ag v) s sg ag fun g =>
       (((List.range 12).filter fun b => v.getLsbD b).foldl (fun (g : Segment) b => g.setBitOf F.HMP_INVAL_BANKS b true)
         (g.swMark 0x130010 0 v)).answer csOk 0)

/-- FLT_HEAD takes a consumed count that does not pass FLT_TAIL, and no other. The keeper or the steward posts a FIRMWARE record
with the severity and the INFO it names; another agent's post is refused. OVF_CLEAR zeroes the counters of the named classes,
ahead of what counts in its tick. An administrator clears the suppressions, and adds a node to, removes it from, or clears,
the known-down list of every segment. (12_integrity_and_fault_reporting.md, Fault records;
12_integrity_and_fault_reporting.md, Fault storms and the known-down list; 12_integrity_and_fault_reporting.md, Fault
registers) -/
def Obligations.FaultUnitActs : Prop :=
  (∀ (s : State) (sg : Fin 8) (ag : Agent) (v : Word), Takes s sg →
     (((v.truncate 16 : BitVec 16) - ((s.accessed ag).seg sg).flt.head).toNat ≤ ((s.accessed ag).seg sg).flt.pendingCount →
       Accesses (.fltHeadWrite sg ag v) s sg ag fun g => ({ g with flt := { g.flt with head := v.truncate 16 } } : Segment).answer csOk 0) ∧
     (((s.accessed ag).seg sg).flt.pendingCount < ((v.truncate 16 : BitVec 16) - ((s.accessed ag).seg sg).flt.head).toNat →
       Accesses (.fltHeadWrite sg ag v) s sg ag fun g => g.answer csOk 0) ∧
     ((ag.cls = .keeper ∨ ag.cls = .steward) → Accesses (.fltPost sg ag v) s sg ag fun g =>
       (g.raise s.tick { cls := 30, unit := 2, sev := bitsOf v 33 32, info := v.truncate 32 }).answer csOk 0) ∧
     Accesses (.ovfClear sg ag v) s sg ag (fun g =>
       ({ g with flt := { g.flt with ovf := g.flt.ovf.zipIdx.map fun (o, c) => if v.getLsbD c then o.clear s.tick else o } } : Segment).answer csOk 0) ∧
     (ag.admin = true → Accesses (.suppClear sg ag) s sg ag fun g => ({ g with flt := { g.flt with supp := [] } } : Segment).answer csOk 0)) ∧
  (∀ (s : State) (sg : Fin 8) (ag : Agent) (node : BitVec 15), Takes s sg → ag.admin = true →
     Becomes (.kdAdd sg ag node) s (((s.accessed ag).knownAdd node).mod sg fun g => g.answer csOk 0) ∧
     Becomes (.kdRemove sg ag node) s (((s.accessed ag).knownRemove node).mod sg fun g => g.answer csOk 0) ∧
     Becomes (.kdClear sg ag) s ((s.accessed ag).knownClear.mod sg fun g => g.answer csOk 0))

/-- A write of the pointer records the value and its writer. A send that is allowed posts the message, and one that is refused is
counted and changes nothing else; a send of the cycle in which the channel was taken that comes before by class and segment
takes the channel in its place, and the other is counted as refused. The receiving class takes a message by its read, and
acknowledges a TAKEN one with a code. A channel FULL for its TIMEOUT ticks becomes TIMEOUT, with a record. The keeper writes a
channel's configuration; a change of the receiving class of a channel in use withdraws its message.
(14_straps_reset_and_mailboxes.md, Mailboxes) -/
def Obligations.MailboxesAct : Prop :=
  (∀ (s : State) (sg : Fin 8) (ch : Fin 64) (ag : Agent) (v : Word) (notice code : BitVec 16), Takes s sg →
     Accesses (.mbxPtrWrite sg ch ag v) s sg ag (fun g => (g.modChan ch fun m => { m with ptr := v, writer := some ag }).answer csOk 0) ∧
     ((((s.accessed ag).seg sg).sendOk ch ag notice = true) → Accesses (.mbxSend sg ch ag notice) s sg ag fun g =>
       (g.post s.tick ch ag (g.chan ch).ptr notice).answer csOk 0) ∧
     ((((s.accessed ag).seg sg).sendOk ch ag notice = false) →
       (((s.accessed ag).seg sg).sendFirst ch ag).sendOk ch ag notice = false → Accesses (.mbxSend sg ch ag notice) s sg ag fun g =>
       (g.bump (F.MBX_STATUS_REFUSED.mbx ch)).answer csOk 0) ∧
     (∀ (m : Mbx) (a : Agent), lookupKey ch.val ((s.accessed ag).seg sg).mbxWas = some m →
       (((s.accessed ag).seg sg).chan ch).sender = some a → ag.sendsBefore a = true → ((s.accessed ag).seg sg).sendOk ch ag notice = false →
       (((s.accessed ag).seg sg).modChan ch fun _ => m).sendOk ch ag notice = true → Accesses (.mbxSend sg ch ag notice) s sg ag fun g =>
         ((({ (g.modChan ch fun _ => m) with mbxWas := eraseKey ch.val g.mbxWas } : Segment).bump (F.MBX_STATUS_REFUSED.mbx ch)).post
           s.tick ch ag m.ptr notice).answer csOk 0) ∧
     (((s.accessed ag).seg sg).takes ch ag = true → ((((s.accessed ag).seg sg).chan ch).sender == some ((s.accessed ag).seg sg).pacer) = false →
       Accesses (.mbxRecv sg ch ag) s sg ag fun g => g.recv ch ag) ∧
     ((((s.accessed ag).seg sg).chan ch).st = .taken → ag.cls.code = ((s.accessed ag).seg sg).recvClass ch →
       Accesses (.mbxAck sg ch ag code) s sg ag fun g => (g.modChan ch fun m => { m with st := .acked, code := code }).answer csOk 0)) ∧
  (∀ (s : State) (sg : Fin 8) (ch : Fin 64) (m : Mbx) (a : Agent) (lim : Nat), Takes s sg → m = (s.seg sg).chan ch →
     lim = (s.seg sg).fld (F.MBX_CFG_TIMEOUT.mbx ch) → m.st = .full → lim ≠ 0 → m.since + lim ≤ s.tick → m.sender = some a →
     (s.seg sg).boot.update = none →
     (a.isHost = false → ActsOn (.mailboxTimeout sg ch) s sg fun g =>
       (g.modChan ch fun m => { m with st := .timeout }).raise s.tick
         { cls := 28, unit := 3, index := ch.val, info := BitVec.ofNat 32 ch.val }) ∧
     (a.isHost = true → ActsOn (.mailboxTimeout sg ch) s sg fun g =>
       ((g.modChan ch fun m => { m with st := .timeout }).raise s.tick
         { cls := 28, unit := 3, index := ch.val, info := BitVec.ofNat 32 ch.val }).mbxIrq ch)) ∧
  (∀ (s : State) (sg : Fin 8) (ch : Fin 64) (ag : Agent) (v : Word), Takes s sg → ag.isKeeper = true →
     (((s.accessed ag).seg sg).chan ch).st = .empty →
     Accesses (.mbxCfgWrite sg ch ag .w64 v) s sg ag fun g =>
       let m : Word := if ch.val < 8 then 0x00FFFFFF0000F800 else 0x00FFFFFFFFFFF80F
       (g.setReg (0x30000 + 64 * ch.val) ((g.reg (0x30000 + 64 * ch.val) &&& ~~~m) ||| (v &&& m))).answer csOk 0)

/-- A request TAKEN by the keeper is served where nothing refuses it, and acknowledged with code 0: QUOTE signs the measurements
for the nonce; SEAL_LOAD, at segment 0, takes the state of the load's steps, or stops at the step that fails, with its code,
and leaves the package as it was; GUARD_SET sets entries that each may be set; SEAL_ARM_LINKS records the serial and arms the
ports of its masks; HOST_SPDM answers a host agent; HOST_COPY to the host takes page serials; FENCE_LANE writes the reserved
frame times. SEAL_TEARDOWN begins the teardown and is acknowledged at its end. That GUARD_SET's count of entries is a free
value is the model's choice. (13_keeper_steward_and_sealing.md, Requests to the keeper; 13_keeper_steward_and_sealing.md,
Attestation; 13_keeper_steward_and_sealing.md, Sealed bundles; 13_keeper_steward_and_sealing.md, Sealed contexts on the
segment; 13_keeper_steward_and_sealing.md, Sealed traffic between packages; 13_keeper_steward_and_sealing.md, Host bounce
buffers) -/
def Obligations.KeeperRequestsAct : Prop :=
  (∀ (s : State) (sg : Fin 8) (ch : Fin 64) (ag : Agent) (ptr : Nat) (a : SpdmAns), KeeperTakes s sg ch 0x6001 ag ptr →
     (s.seg sg).present 0 ptr 32 = true → s.signedBlocks "quote" ((s.seg sg).hbmBytes ptr 32) s.blocks = some a →
     (s.seg sg).present 0 (ptr + 32) (Config.spdmEncode a).length = true →
     Acknowledges (.quote sg ch) s sg ch rcOk (s.setSeg sg (((s.seg sg).put 0 (ptr + 32) (Config.spdmEncode a)).bump F.KPR_COUNT_QUOTES))) ∧
  (∀ (s : State) (ch : Fin 64) (ag : Agent) (ptr : Nat) (r : SealReq), KeeperTakes s 0 ch 0x6002 ag ptr →
     (ag.ctx = 0 ∨ ag.ctx = BitVec.ofNat 12 (memNat (s.seg 0).hbm (ptr + 16) 2)) → s.sealReq 0 ptr = .ok r → s.ctxBusy r.ctx = false →
     (s.seg 0).straps.secure = true → (∀ g ∈ s.segs, g.debugOn = false) →
     (∀ e, s.bundleKey r = .error e → Acknowledges (.sealLoad 0 ch) s 0 ch e
       (if e = rcNotRecipient ∨ e = rcAuthFail then s.mod 0 fun g => g.keeperFault s.tick 1 (some r.ctx) else s)) ∧
     (∀ key, s.bundleKey r = .ok key →
       Becomes (.sealLoad 0 ch) s
         (if (s.segs.all fun g => g.policyOk r) = true then
           match s.sealSteps r key with
           | .ok t => (t.mod 0 fun g => g.bump F.KPR_COUNT_LOADS).mod 0 fun g => g.keeperAck ch rcOk
           | .error (e, info) => (if BitVec.ofNat 32 info = 0 then s else s.mod 0 fun g => g.keeperFault s.tick (BitVec.ofNat 32 info) (some r.ctx)).mod 0
               fun g => g.keeperAck ch e
         else (s.mod 0 fun g => g.keeperFault s.tick 1 (some r.ctx)).mod 0 fun g => g.keeperAck ch rcPolicy))) ∧
  (∀ (s : State) (sg : Fin 8) (ch : Fin 64) (ag : Agent) (ptr n : Nat), KeeperTakes s sg ch 0x6003 ag ptr →
     n = memNat (s.seg sg).hbm ptr 2 → (s.seg sg).present 0 ptr 2 = true → n < 4096 → (ag.ctx = 0 ∨ ag.ctx = BitVec.ofNat 12 n) →
     (∃ g ∈ s.segs, g.sealedCtx (BitVec.ofNat 12 n) = true) ∨ s.loading (BitVec.ofNat 12 n) ≠ [] →
     (∀ g ∈ s.segs, g.kpr.tearing.contains (BitVec.ofNat 12 n) = false) →
     Becomes (.sealTeardown sg ch) s (((s.stopLoads (BitVec.ofNat 12 n)).mod sg (modKpr fun k =>
       { k with awaiting := k.awaiting ++ [(BitVec.ofNat 12 n, some ch.val)] })).sealTeardown (BitVec.ofNat 12 n))) ∧
  (∀ (s : State) (sg : Fin 8) (ch : Fin 64) (ag : Agent) (ptr n : Nat) (es : List Nat), KeeperTakes s sg ch 0x6004 ag ptr →
     n = 1 + (Config.freeWord s.freeCtr).toNat → (s.seg sg).present 0 ptr (8 * n) = true →
     es = (List.range n).map (fun i => memNat (s.seg sg).hbm (ptr + 8 * i) 8) → (∀ e ∈ es, (s.seg sg).guardEntry ag e = 0) →
     Acknowledges (.guardSet sg ch) s sg ch rcOk (es.foldl (fun (s : State) e => s.guardApply sg ag e) s.fresh)) ∧
  (∀ (s t : State) (sg : Fin 8) (ch : Fin 64) (ag : Agent) (ptr : Nat) (b : List Byte) (k : KeySlot), KeeperTakes s sg ch 0x6005 ag ptr →
     (s.seg sg).present 0 ptr 24 = true → b = (s.seg sg).hbmBytes ptr 24 → field b 0 2 < 4096 → field b 2 1 ≠ 0 → field b 2 1 ≤ 63 →
     zeros b 3 5 = true → ((List.range 8).all fun i => field b (16 + i) 1 < 64 && (i < s.n || field b (16 + i) 1 == 0)) = true →
     (ag.ctx = 0 ∨ ag.ctx = BitVec.ofNat 12 (field b 0 2)) →
     ((s.seg sg).kpr.slots.find? fun k => k.kind == 4 && k.ctx == BitVec.ofNat 12 (field b 0 2)) = some k → k.lost = false →
     k.serial.toNat < field b 8 8 →
     (t, rcOk) = (List.range s.n).foldl (fun (x : State × Nat) i =>
       let (g, bad) := (x.1.seg i).armPorts s.tick (field b 2 1) (BitVec.ofNat 12 (field b 0 2)) (field b (16 + i) 1)
       (x.1.setSeg i g, if bad then rcState else x.2))
       (s.modAll fun g => g.recordSerial (BitVec.ofNat 12 (field b 0 2)) (BitVec.ofNat 64 (field b 8 8)), rcOk) →
     Acknowledges (.sealArmLinks sg ch) s sg ch rcOk t) ∧
  (∀ (s s' : State) (ch : Fin 64) (ag : Agent) (ptr len : Nat) (r : SpdmReq) (a : SpdmAns), KeeperTakes s 0 ch 0x6006 ag ptr →
     ag.isHost = true → Config.spdmDecode ((s.seg 0).hbmBytes ptr 4096) = (r, len) → (s.seg 0).present 0 ptr len = true →
     s.spdm true none r = (s', a) → (s.seg 0).present 0 (ptr + len) (Config.spdmEncode a).length = true →
     Acknowledges (.hostSpdm 0 ch) s 0 ch rcOk (s'.mod 0 fun g => g.put 0 (ptr + len) (Config.spdmEncode a))) ∧
  (∀ (s : State) (sg : Fin 8) (ch : Fin 64) (ag : Agent) (ptr addr len : Nat) (b material : List Byte) (k : KeySlot),
     KeeperTakes s sg ch 0x6007 ag ptr → ag.isHost = true → (s.seg sg).present 0 ptr 64 = true → b = (s.seg sg).hbmBytes ptr 64 →
     field b 0 8 % 4096 = 0 → field b 8 8 % 16 = 0 → addr = field b 16 8 → addr % 4096 = 0 → (s.seg sg).owns addr = true →
     len = field b 32 4 → len % 4096 = 0 → len ≤ 2 ^ 26 → field b 36 1 = 1 → zeros b 37 27 = true →
     (s.seg sg).keyMat 7 5 = some material → k = (s.seg sg).keySlot 7 → ((s.seg sg).ctxKey k.ctx).isSome = true →
     (s.seg sg).present (gaSpace addr) (gaOff addr) len = true → (s.seg sg).ownsSealed k.ctx (gaSpace addr) (gaOff addr) len = true →
     Acknowledges (.hostCopy sg ch [] []) s sg ch rcOk (s.setSeg sg
       (((modKpr (fun q => { q with
           outData := ((s.seg sg).pagesOut material (k.serial.toNat + 1) addr (len / 4096)).1,
           outTags := ((s.seg sg).pagesOut material (k.serial.toNat + 1) addr (len / 4096)).2 }) (s.seg sg)).put 0 (ptr + 24)
         (natBytes (k.serial.toNat + 1) 8)).keySerial 7 (k.serial.toNat + len / 4096)))) ∧
  (∀ (s : State) (sg : Fin 8) (ch : Fin 64) (ag : Agent) (ptr w : Nat), KeeperTakes s sg ch 0x6008 ag ptr → ag.ctx = 0 →
     (s.seg sg).present 0 ptr 4 = true → w = memNat (s.seg sg).hbm ptr 4 → w / 2 ^ 12 % 16 = 0 → w / 2 ^ 22 % 64 = 0 →
     (s.seg sg).sealedCtx (BitVec.ofNat 12 w) = true →
     Acknowledges (.fenceLane sg ch) s sg ch rcOk (s.setSeg sg ((s.seg sg).setReg 0x40020 (BitVec.ofNat 64 w))))

/-- A message of the management port in no session, or in an open one, reaches the keeper's responder. GET_VERSION begins the
negotiation, GET_CAPABILITIES and NEGOTIATE_ALGORITHMS (with the one suite) go on with it; after it the digests, a part of a
certificate chain (an offset past its end, or a slot without a chain, is invalid), a challenge signed with the identity key
where there is a chain, and the blocks of an index (signed for a nonce) are answered. KEY_EXCHANGE, where there is a chain,
with a point of the curve opens the next of four sessions with fresh random values and the shared secret, and FINISH with the
right verify data secures the session. A request of another code is answered as unsupported. A session 10 s without a message
ends. (13_keeper_steward_and_sealing.md, Attestation; 13_keeper_steward_and_sealing.md, Device identity and key slots; log 40) -/
def Obligations.SpdmAnswers : Prop :=
  (∀ (s : State) (ses : Session) (code : BitVec 8), KeeperHears s ses →
     Answers (.getVersion ses) s ((s.heard ses).setSpdmStage false 1) (.spdm .version) ∧
     Answers (.unsupportedRequest ses code) s (s.heard ses) (.spdm spdmUnsupported)) ∧
  (∀ (s : State) (ses : Session), KeeperHears s ses →
     ((s.heard ses).spdmStage false ≠ 0 →
       Answers (.getCapabilities ses) s ((s.heard ses).setSpdmStage false 2) (.spdm .capabilities)) ∧
     (∀ asym hash : BitVec 32, 2 ≤ (s.heard ses).spdmStage false → asym.getLsbD 7 = true → hash.getLsbD 1 = true →
       Answers (.negotiateAlgorithms ses asym hash) s ((s.heard ses).setSpdmStage false 3) (.spdm .algorithms))) ∧
  (∀ (s t : State) (ses : Session) (slot : BitVec 8) (off len : BitVec 16) (c nonce : List Byte), KeeperHears s ses → t = s.heard ses →
     3 ≤ t.spdmStage false → c = (t.seg 0).chain slot.toNat →
     Answers (.getDigests ses) s t (.spdm (.digests
       (if ((t.seg 0).chain 0).isEmpty then [] else Config.sha384 ((t.seg 0).chain 0))
       (if ((t.seg 0).chain 1).isEmpty then [] else Config.sha384 ((t.seg 0).chain 1)))) ∧
     Answers (.getCertificate ses slot off len) s t (.spdm
       (if slot.toNat < 2 ∧ off.toNat < c.length then .certificate slot ((c.drop off.toNat).take len.toNat) else spdmInvalid)) ∧
     (∀ k, (t.seg 0).keyMat 0 1 = some k →
       Answers (.challenge ses 0 nonce) s t (.spdm
         (if ((t.seg 0).chain 0).isEmpty then spdmInvalid
          else .challengeAuth (Config.ecdsaSign (k.take 48) (Config.spdmTranscript "challenge" nonce t.blocks))))) ∧
     (∀ (idx : BitVec 8) b, t.blocksFor idx.toNat = some b →
       Answers (.getMeasurements ses idx none) s t (.spdm (.measurements b [])) ∧
       ∀ a, t.signedBlocks "measurements" nonce b = some a →
         Answers (.getMeasurements ses idx (some nonce)) s (t.mod 0 fun g => g.bump F.KPR_COUNT_QUOTES) (.spdm a))) ∧
  (∀ (s t : State) (ses : Session) (pub k : List Byte) (i : Fin 4) (n : Nat), KeeperHears s ses → t = s.heard ses → 3 ≤ t.spdmStage false →
     (t.seg 0).keyMat 0 1 = some k → n = t.freeCtr →
     (t.seg 0).kpr.nextSession = i.val → (t.session false (some i)).map SpdmSes.opened = some false →
     Becomes (.keyExchange ses 0 pub) s
       (if ((t.seg 0).chain 0).isEmpty then t.reply (.spdm spdmInvalid) else
        match Config.ecdh (Config.random n 48) pub with
        | some z => State.reply (({ t with freeCtr := n + 3 } : State).setSession false (some i)
            { opened := true, last := t.tick, id := Config.random (n + 1) 4, random := Config.random (n + 2) 32, secret := z, ctx := none })
            (.spdm (.keyExchange (Config.random (n + 1) 4) (Config.random (n + 2) 32) (Config.ecPublic (Config.random n 48))
              (Config.ecdsaSign (k.take 48) (Config.spdmTranscript "key exchange" (pub ++ Config.random (n + 1) 4 ++ Config.random (n + 2) 32) []))))
        | none => State.reply { t with freeCtr := n + 3 } (.spdm spdmInvalid))) ∧
  (∀ (s t : State) (ses : Session) (mac : List Byte) (x : SpdmSes), KeeperHears s ses → t = s.heard ses → t.session false ses = some x →
     x.opened = true → x.secured = false → Config.spdmFinished x.secret (x.id ++ x.random) = mac →
     Answers (.finish ses mac) s (t.setSession false ses { x with secured := true, last := t.tick }) (.spdm .finish)) ∧
  (∀ (s : State) (ses : Session) (x : SpdmSes), Takes s 0 → s.session ses.isNone ses = some x → x.opened = true → x.last + sessionLimit ≤ s.tick →
     Becomes (.spdmSessionTimeout ses) s (s.setSession ses.isNone ses {}))

/-- STATUS is answered in any session not refused. In a secured session a good key and signature make an operator, and others end
the session with a record. An operator's keys are added to a free slot and removed by their digest; POWER_SET writes the
keeper's power fields on every segment; debug is unlocked while no context is sealed, and locked; TEARDOWN begins and answers
at its end. The endpoint takes an identifier other than 0 and 0xFF, tells it, its version support and its message types, and
takes its dynamic address. (13_keeper_steward_and_sealing.md, The management port; 13_keeper_steward_and_sealing.md, Operator
debug and profiling; 13_keeper_steward_and_sealing.md, Sealed contexts on the segment; 11_stile_and_ramp.md, The ramp
governor) -/
def Obligations.ManagementAnswers : Prop :=
  (∀ (s : State) (ses : Session), Takes s 0 → s.sessionRefused ses = false →
     Answers (.status ses) s (s.touchSession false ses) s.statusAns) ∧
  (∀ (s t : State) (ses : Session) (x : SpdmSes) (pub sig : List Byte), KeeperHears s ses → t = s.heard ses → s.session false ses = some x →
     x.opened = true → x.secured = true →
     Becomes (.operatorAuth ses pub sig) s
       (if t.authOk { x with last := t.tick } pub sig = true then
          (t.setSession false ses { x with last := t.tick, operator := true }).reply (.message true)
        else ((t.setSession false ses { x with last := t.tick, refused := true }).mod 0 fun g => g.keeperFault t.tick 5 none).reply
          (.message false))) ∧
  (∀ (s t : State) (ses : Session) (x : SpdmSes) (digest : List Byte), Obeys s ses x → t = s.heard ses →
     (∀ n, ([2, 3, 4, 5].find? fun n => !(t.seg 0).operators.contains n) = some n →
       Answers (.operatorKeyAdd ses digest) s (t.mod 0 fun g => g.writeKey n { kind := 3, material := padTo 48 digest }) (.message true)) ∧
     (∀ hit, hit = ((t.seg 0).operators.filter fun n => (t.seg 0).keyMat n 3 == some (padTo 48 digest)) → hit ≠ [] →
       Answers (.operatorKeyRemove ses digest) s (t.mod 0 fun g => hit.foldl (fun (g : Segment) n => g.writeKey n {}) g) (.message true)) ∧
     (∀ (cls : BitVec 2) (stile salt kettle gap : Word),
       Answers (.powerSet ses cls stile salt kettle gap) s
         (t.modAll fun g => ((((g.setClass cls.toNat).koPut 0x10050 stile).koPut 0x10058 salt).koPut 0x10068 kettle).koPut 0x10070 gap)
         (.message true)) ∧
     (t.sealedAll = [] → Answers (.debugUnlock ses) s (t.modAll fun g => g.setFld F.KPR_STATE_DEBUG 1) (.message true)) ∧
     Answers (.debugLock ses) s (t.modAll fun g => g.setFld F.KPR_STATE_DEBUG 0) (.message true) ∧
     (∀ ctx u, (t.reply .silent).askTeardown 0 ctx none = some u → Becomes (.teardown ses ctx) s u)) ∧
  (∀ (s : State) (op : BitVec 2) (eid typ : BitVec 8) (addr : BitVec 7), Takes s 0 →
     (op.toNat < 2 → eid ≠ 0 → eid ≠ 0xFF →
       Answers (.setEndpointId op eid) s (s.mod 0 (modKpr fun k => { k with eid := eid })) (.endpoint true eid)) ∧
     Answers .getEndpointId s s (.endpoint true (s.seg 0).kpr.eid) ∧
     Answers (.getMctpVersionSupport typ) s s (.versions typ (typ == 0xFF || mctpTypes.contains typ)) ∧
     Answers .getMessageTypeSupport s s (.types mctpTypes) ∧
     Becomes (.dynamicAddressAssignment addr) s ((s.mod 0 (modKpr fun k => { k with dynAddr := some addr })).reply
       (.provisional (s.seg 0).provisionalId)))

/-- EXTEST drives the values preloaded, once the segment has halted or failed; SAMPLE/PRELOAD captures the pins; IDCODE shifts out
0x1A6B70D3; a code without an available instruction is BYPASS, a one-bit delay. With CTRL_ACCESS available, a well-formed scan
shifts out the captured word, and POLL does no more; ADDRESS, READ and WRITE act while no access is in progress;
CTRL_ACCESS_DONE performs the access, unless it waits for the fast clock, and returns its status and, of a read, its data.
TRST resets the port to IDCODE and the address to 0. That the values captured by EXTEST are free is the model's choice.
(14_straps_reset_and_mailboxes.md, JTAG; 00_scope.md, Registers and control space; log 28) -/
def Obligations.TestPortActs : Prop :=
  (∀ (s : State) (sg : Fin 8) (scan pins : List Bool), Takes s sg →
     ((s.seg sg).stage = 8 ∨ (s.seg sg).stage = 9 → Becomes (.extest sg scan) s
       { (s.mod sg fun g => g.modJtag fun j =>
           { j with ir := 0x00, preload := scan, driving := true,
                    tdo := (List.range scan.length).map fun i => Config.freeBool (s.freeCtr + i) }) with
         freeCtr := s.freeCtr + scan.length }) ∧
     ActsOn (.samplePreload sg pins scan) s sg (fun g => g.modJtag fun j => { j with ir := 0x01, preload := scan, driving := false, tdo := pins }) ∧
     ActsOn (.idcode sg) s sg (fun g => g.modJtag fun j => { j with ir := 0x02, driving := false, tdo := scanBits 32 0x1A6B70D3 }) ∧
     (∀ (code : BitVec 8) (tdi : Bool), (s.seg sg).actsAsBypass code.toNat = true →
       ActsOn (.bypass sg code tdi) s sg fun g => g.modJtag fun j => { j with ir := code, driving := false, tdo := [false], byp := tdi }) ∧
     ActsOn (.trst sg) s sg fun g => g.modJtag fun j => { j with ir := 0x02, driving := false, byp := false, addr := 0 }) ∧
  (∀ (s : State) (sg : Fin 8) (v : BitVec 72) (j : Jtag), Takes s sg → (s.seg sg).ctrlOk = true → scanOk v = true → j = (s.seg sg).jtag →
     (v.toNat / 64 % 4 = 0 → ActsOn (.ctrlAccessPoll sg v) s sg fun g =>
       g.modJtag fun _ => { j with ir := 0x10, driving := false, tdo := scanBits 72 j.captured, error := false }) ∧
     (j.busy = none → v.toNat / 64 % 4 = 1 → ActsOn (.ctrlAccessAddress sg v) s sg fun g =>
       g.modJtag fun _ => { j with ir := 0x10, driving := false, tdo := scanBits 72 j.captured, error := false, addr := v.toNat / 256, data := 0 }) ∧
     (j.busy = none → v.toNat / 64 % 4 = 2 → ActsOn (.ctrlAccessRead sg v) s sg fun g =>
       g.modJtag fun _ => { j with ir := 0x10, driving := false, tdo := scanBits 72 j.captured, error := false,
                                   busy := some (false, v.getLsbD 5, v.getLsbD 4, 0) }) ∧
     (j.busy = none → v.toNat / 64 % 4 = 3 → ActsOn (.ctrlAccessWrite sg v) s sg fun g =>
       g.modJtag fun _ => { j with ir := 0x10, driving := false, tdo := scanBits 72 j.captured, error := false,
                                   busy := some (true, v.getLsbD 5, v.getLsbD 4, BitVec.ofNat 64 (v.toNat / 256)) })) ∧
  (∀ (s t : State) (sg : Fin 8) (write wide inc : Bool) (v : Word) (a : Nat) (ag : Agent) (sz : Sz), Takes s sg →
     (s.seg sg).jtag.busy = some (write, wide, inc, v) → a = (s.seg sg).jtag.addr → ag = { cls := .jtag, seg := (s.seg sg).segId, ctx := 0 } →
     sz = (if wide then .w64 else if a / 4 % 2 = 1 then .hi32 else .lo32) →
     t = (if write then s.ctlWrite sg ag a sz v else s.ctlRead sg ag a sz) → (s.seg sg).ctlWaits a sz write = false →
     Becomes (.ctrlAccessDone sg) s (t.mod sg fun g => g.modJtag fun j =>
       { j with busy := none, status := (t.seg sg).acc.status, data := if write then 0 else (t.seg sg).acc.data,
                addr := if inc then a + (if wide then 8 else 4) else a }))

/-- A read of a register at its own size answers its value, with the fields that read as zero cleared; a write of a size the
register takes acts by the rule of its window, with CS_OK, and leaves the bits that an agent later in the order of the same
cycle has written; while the fast clock is off, one that needs it waits, and wakes the domains it needs. A misaligned access,
or one of a size the register does not take, is CS_DENIED with no other effect. An offset with no register reads zero and is
not written. TEL_SNAP of an administrator captures the totals, and so does a tick that is a multiple of PERIOD, once.
(00_scope.md, Registers and control space; 15_control_space_index.md, Telemetry totals; 15_control_space_index.md, Access
sizes and simultaneous accesses) -/
def Obligations.RegistersAndSnapshots : Prop :=
  (∀ (s : State) (sg : Fin 8) (ag : Agent) (off : BitVec 21) (sz : Sz) (v : Word) (o : Nat) (r : RegRow), Takes s sg →
     regOf off.toNat sz = some o → rowAt o = some r →
     ((r.size = .any ∨ sz = .w64) → ((s.accessed ag).seg sg).waitsClock o (r.writeCopied sz) = false → Becomes (.registerWrite sg ag off sz v) s
       ((((s.accessed ag).wakesOf sg o (r.writeCopied sz)).writeReg sg ag r o sz
           (((s.accessed ag).seg sg).putBits o ag.accessRank sz v)).mod sg fun g =>
         (g.swNote ag r o sz (((s.accessed ag).seg sg).putBits o ag.accessRank sz v) (((s.accessed ag).seg sg).reg o) ag.accessRank).answer csOk 0)) ∧
     ((r.size = .a64 → sz = .w64) → o ≠ 0x230 → ¬(ag.cls = .jtag ∧ o / 0x10000 = 4) →
       ((s.accessed ag).seg sg).waitsClock o (r.copied sz) = false →
       ¬(0x30000 ≤ o ∧ o < 0x31000 ∧ o % 64 = 0x18) → ¬(0x180000 ≤ o ∧ o < 0x192000 ∧ o % 0x1000 = 0x40) →
       Becomes (.registerRead sg ag off sz) s (((s.accessed ag).wakesOf sg o (r.copied sz)).mod sg fun g =>
         g.plainRead s.time sg ag r o sz ((s.seg sg).captured s.time ag o))) ∧
     ((r.size = .any ∨ sz = .w64) → ((s.accessed ag).seg sg).waitsClock o (r.writeCopied sz) = true →
       Becomes (.registerWrite sg ag off sz v) s ((s.accessed ag).wakesOf sg o (r.writeCopied sz)))) ∧
  (∀ (s : State) (sg : Fin 8) (ag : Agent) (off : BitVec 21) (sz : Sz) (v : Word), Takes s sg →
     (regOf off.toNat sz = none →
       Accesses (.registerWrite sg ag off sz v) s sg ag (fun g => g.answer csDenied 0) ∧
       Accesses (.registerRead sg ag off sz) s sg ag fun g => g.answer csDenied 0) ∧
     (∀ o, regOf off.toNat sz = some o → rowAt o = none → o < 0x200000 →
       Accesses (.registerWrite sg ag off sz v) s sg ag (fun g => g.answer csOk 0) ∧
       Accesses (.registerRead sg ag off sz) s sg ag fun g => g.answer csOk 0)) ∧
  (∀ (s : State) (sg : Fin 8) (ag : Agent), Takes s sg → ag.admin = true →
     Accesses (.telSnap sg ag) s sg ag fun g => (g.snapshot s.time).answer csOk 0) ∧
  (∀ (s : State) (sg : Fin 8) (n : Nat), Takes s sg → n = (s.seg sg).fld F.TEL_CTRL_PERIOD → n ≠ 0 → s.tick % n = 0 →
     (s.seg sg).tel.periodTick ≠ some s.tick →
     ActsOn (.telPeriodicSnap sg) s sg fun g =>
       { g.snapshot s.time with tel := { (g.snapshot s.time).tel with periodTick := some s.tick } })

/-- KEEPER_TIMER and STEWARD_TIMER at a tick at or after a non-zero timer's value wake the domain of the keeper or the steward and
clear the timer; with the timer 0, or at an earlier tick, they change nothing. In a cycle in which software has written the
timer, the value before the write wakes the domain, and the value written stays. (R442) -/
def Obligations.WakeTimersFire : Prop :=
  ∀ (s : State) (sg : Fin 8), Takes s sg →
    ((s.seg sg).swWrote F.PWR_TIMER_K_TICK.off = none →
      ((s.seg sg).fld F.PWR_TIMER_K_TICK ≠ 0 → (s.seg sg).fld F.PWR_TIMER_K_TICK ≤ s.tick →
        ActsOn (.keeperTimer sg) s sg fun g => (g.setFld F.PWR_TIMER_K_TICK 0).wakeDom s.tick domKeeper) ∧
      ((s.seg sg).fld F.PWR_TIMER_K_TICK = 0 ∨ s.tick < (s.seg sg).fld F.PWR_TIMER_K_TICK → ActsOn (.keeperTimer sg) s sg fun g => g)) ∧
    ((s.seg sg).swWrote F.PWR_TIMER_S_TICK.off = none →
      ((s.seg sg).fld F.PWR_TIMER_S_TICK ≠ 0 → (s.seg sg).fld F.PWR_TIMER_S_TICK ≤ s.tick →
        ActsOn (.stewardTimer sg) s sg fun g => (g.setFld F.PWR_TIMER_S_TICK 0).wakeDom s.tick domSteward) ∧
      ((s.seg sg).fld F.PWR_TIMER_S_TICK = 0 ∨ s.tick < (s.seg sg).fld F.PWR_TIMER_S_TICK → ActsOn (.stewardTimer sg) s sg fun g => g)) ∧
    (∀ w, (s.seg sg).swWrote F.PWR_TIMER_K_TICK.off = some w → w.old ≠ 0 → w.old.toNat ≤ s.tick →
      ActsOn (.keeperTimer sg) s sg fun g => g.wakeDom s.tick domKeeper) ∧
    (∀ w, (s.seg sg).swWrote F.PWR_TIMER_S_TICK.off = some w → w.old ≠ 0 → w.old.toNat ≤ s.tick →
      ActsOn (.stewardTimer sg) s sg fun g => g.wakeDom s.tick domSteward)

/-- At a throttle update that is due and finds the throttle hot, with fewer than 500 ticks since the last cut, RATE keeps its
value, whether the throttle is enabled or not. (R356) -/
def Obligations.ThrottleHoldsRate : Prop :=
  ∀ (s : State) (sg : Fin 8) (g : Segment) (hist : List (Nat × Nat)) (occNow cut : Nat), Takes s sg →
    g = (s.seg sg).rollBudget s.time → g.rte.updateAt + 50 ≤ s.tick → hist = ((g.rte.defl, g.rte.asgn) :: g.rte.hist).take 10 →
    occNow = g.ports.foldl (fun n p => max n p.land.length) 0 →
    (max 1 (g.fld F.RTE_THROTTLE_CTRL_OCC_LIMIT) < max g.rte.occMax occNow ∨
      0 < hist.foldl (fun n x => n + x.2) 0 ∧ g.fld F.RTE_THROTTLE_CTRL_DEFL_LIMIT * hist.foldl (fun n x => n + x.2) 0 <
        hist.foldl (fun n x => n + x.1) 0 * 256) →
    g.rte.lastCut = some cut → s.tick - cut < 500 →
    Does (.throttleUpdate sg) s fun t => (t.seg sg).fld F.RTE_THROTTLE_STATUS_RATE = (s.seg sg).fld F.RTE_THROTTLE_STATUS_RATE

/-- For every block-scaled code, every list of up to 32 lanes and every rounding: with a present lane that is a NaN or an
infinity, the block is the byte 0xFF and zero elements, and its 32 lanes decode to the canonical NaN of every carry format;
with every present lane a negative zero, the block is all zero bytes, and its lanes decode to positive zeros in every carry
format. (R257; R277) -/
def Obligations.BlocksOfSpecialLanes : Prop :=
  ∀ (code : Nat) (lanes : List (Option FVal)) (mode : Nat → Round) (cf : FFmt) (r : Round), isBlock code = true → lanes.length ≤ 32 →
    (cf = .b32 ∨ cf = .bf16) →
    ((∃ v, some v ∈ lanes ∧ v.isFinite = false) →
      (encodeBlock code lanes mode).bytes = 0xFF :: List.replicate (4 * blockElemBits code) 0 ∧
      (decodeBlock code (encodeBlock code lanes mode).bytes).map (fun v => cf.encode v r) = List.replicate 32 cf.nan) ∧
    ((∀ v, some v ∈ lanes → ∃ e, v = .fin true 0 e) →
      (encodeBlock code lanes mode).bytes = 0 :: List.replicate (4 * blockElemBits code) 0 ∧
      (decodeBlock code (encodeBlock code lanes mode).bytes).map (fun v => cf.encode v r) = List.replicate 32 0)

/-- A reduction step with REDOP MAX, in either floating carry format, over operands that are each +0 or −0 gives +0 where one of
them is +0. A ride with FADD over any number of operands of −0 gives −0, and is not spoiled, so that its status is CS_OK.
(R275; R280) -/
def Obligations.ZerosKeepTheirSigns : Prop :=
  (∀ (d : CDesc) (rank e : Nat) (vals : List Nat), d.redop = 2 → (d.carryF = 1 ∨ d.carryF = 3) →
     (∀ v ∈ vals, v = 0 ∨ v = 2 ^ (d.cf.eb + d.cf.mb)) → 0 ∈ vals → d.stepLane rank e vals = 0) ∧
  (∀ vals : List Word, vals ≠ [] → (∀ v ∈ vals, v &&& 0xFFFFFFFF = 0x80000000) →
     rideAll 8 vals = 0x80000000 ∧ rideSpoiled 8 (rideAll 8 vals) = false)

/-- After ST64 of g[b] at an aligned address within the lunchbox, an LD64 that the core executes next at the same address, by
whatever registers it names, writes to g[d] the value stored, whether or not the check of the word was bad before the store.
The lunchbox is in its canonical form before the store. (03_courier_instruction_set.md, Architectural state;
03_courier_instruction_set.md, Encoding; log 5) -/
def Obligations.StoreThenLoad : Prop :=
  ∀ (s : State) (sg : Fin 8) (c : Fin 18) (f : IFields), Executes s sg c f → Settled s sg c → memWf ((s.seg sg).core c).lb = true →
    (((s.seg sg).core c).ea f).toNat % 8 = 0 → (((s.seg sg).core c).ea f).toNat + 8 ≤ 0x10000 →
    Does (.st64 sg c f) s fun t => ∀ f' : IFields, Executes t sg c f' → Settled t sg c →
      ((t.seg sg).core c).ea f' = ((s.seg sg).core c).ea f →
      CoreDoes (.ld64 sg c f') t sg c (((t.seg sg).core c).setR f'.d (((s.seg sg).core c).r f.b))

/-- The word of every instruction of a core decodes, on that core, to that instruction, with every field at every value; a word
that decodes to an instruction is that instruction's word; so no two instructions of a core share a word, and no word has two
meanings. (03_courier_instruction_set.md, Encoding) -/
def Obligations.CourierWordsRoundTrip : Prop :=
  (∀ (i : Instr) (w : Word) (op : BitVec 8) (x : Fetched), i.opcode = some (op, x) → encodeCourier i = some w →
     decodeCourier x.sg x.c x.st w = some i) ∧
  (∀ (i : Instr) (w : Word) (sg : Fin 8) (c : Fin 18) (st : DpmStatus), decodeCourier sg c st w = some i → encodeCourier i = some w)

/-- Every memory of every segment of the state after reset (HBM, scratchpad and the cores' lunchboxes) is in the canonical form:
addresses strictly rise, and no entry holds what an unlisted address reads as. (14_straps_reset_and_mailboxes.md, Kinds of
reset; log 5) -/
def Obligations.ResetMemoriesAreCanonical : Prop :=
  State.reset.memOk = true

/-- From every state whose memories (HBM, scratchpad and lunchboxes of every segment) are in the canonical form, whatever command
is at the front of the queue, the next state has them in that form. (02_remote_memory_transactions.md, Addresses and homes;
03_courier_instruction_set.md, Architectural state; 14_straps_reset_and_mailboxes.md, Kinds of reset; log 5) -/
def Obligations.MemoriesStayCanonical : Prop :=
  ∀ s t : State, s.memOk = true → step s = .next t → t.memOk = true

/-- COLD_RESET; WAITS, WAITE, FENCE, RDT, TKT, RECALL and CHUNK on a core that executes them; and the commands of chunks,
contexts, ranges, replicas, fabric-homed regions, link timers and commands, and lanes: for every state and operands that meet
the conditions named for it (on the state and the operands alone), exec answers the next state in which the command's own
effect has taken place. What each does in its other cases is in the statement of its family. (03_courier_instruction_set.md,
Synchronisation; 03_courier_instruction_set.md, Collectives; 04_trails_and_shapes.md, Spawned tickets, yield and cancellation;
05_headcount_and_chunk_flow.md, Chunks on the wire; 05_headcount_and_chunk_flow.md, Launch and closing rounds;
07_placement_and_ranges.md, Contexts and residency; 07_placement_and_ranges.md, The check at the home;
07_placement_and_ranges.md, Replicas; 07_placement_and_ranges.md, Fabric-homed regions; 09_link_layer.md, Link states and
retraining; 10_lanes.md, Bring-up; 14_straps_reset_and_mailboxes.md, Kinds of reset) -/
def Obligations.CompletionOfEach : Prop :=
  (∀ (l : List Straps) (s : State), 1 ≤ l.length → l.length ≤ 8 →
     Does (.coldReset l) s fun t => t.n = l.length ∧ t.time = 0 ∧ t.inColdReset = false) ∧
  (∀ (s : State) (sg : Fin 8) (c : Fin 18) (f : IFields) (g : Segment) (k : Core), Executes s sg c f → g = s.seg sg → k = g.core c →
     (∀ p used, f.d.toNat ≤ 7 → (k.r f.a).toNat % 8 = 0 → g.translate k.ctx (k.r f.a).toNat 8 1 [] = .ok [p] used → g.homedHere p = true →
       (k.r f.b).toNat ≤ bytesNat ((g.touch used).gaBytes p.ga 8) →
       Yields (.waits sg c f (some 0)) s sg c 0x61 (.go ((s.mod sg fun g => g.touch used).modCore sg c fun k => k.setP f.d.toNat true))) ∧
     (f.d.toNat ≤ 7 → waiteMet (g.slots (g.ownerOf c)) (f.imm.truncate 16) (f.imm.getLsbD 16) = true →
       Yields (.waite sg c f) s sg c 0x62 (.go (s.modCore sg c fun k => k.setP f.d.toNat true))) ∧
     (f.imm.toNat % 4 ≠ 3 → g.fenceSet (g.ownerOf c) (f.imm.toNat % 4) = [] → Yields (.fence sg c f) s sg c 0x63 (.go s)) ∧
     (f.imm.toNat / 16 % 16 ≤ 4 → Yields (.rdt sg c f) s sg c 0x64
       (.go (s.modCore sg c fun k => k.setR f.d (g.rdtValue (g.slot (g.ownerOf c) (f.imm.toNat % 16)) (f.imm.toNat / 16 % 16))))) ∧
     (∀ m t n x, descExc k (k.descAt f) 128 = none → k.ticket = some m → g.ticket? m = some t → g.freeEntry = some n →
       g.trail? t.trail = some x → x.cancelled = false → (g.ticketsOf k.ctx).length < g.ticketQuota →
       Yields (.tkt sg c f) s sg c 0x65 (.go ((s.modCore sg c fun k => k.setR f.d (BitVec.ofNat 64 n)).mod sg fun g =>
         (g.takeTicket s.time n t.trail n true (some t.n) k.ctx (memBytes k.lb (k.descAt f).toNat 128) none).board s.time))) ∧
     (∀ b, b = memBytes k.lb (k.descAt f).toNat 32 → 16 ≤ c.val → badSlot f = false → slotOf f = none →
       descExc k (k.descAt f) 32 = none → badRecall b = false → g.storeFull = false →
       Yields (.recall sg c f) s sg c 0x66 (.go (s.startRecall sg b false (some (g.ownerOf c, none))))) ∧
     (∀ n o, f.d.toNat ≤ 15 → (g.slot (g.ownerOf c) f.d.toNat).st = .busy → (g.slot (g.ownerOf c) f.d.toNat).kind = .cjoin true n o →
       Yields (.chunk sg c f) s sg c 0x59 (.go (s.mod sg fun g => g.modGrp n fun x => x.setReady o s.tick (k.r f.a).toNat)))) ∧
  (∀ (s : State) (sg : Fin 8) (grp : BitVec 12) (serial : BitVec 16) (x : Grp) (h : Head), Takes s sg → (s.seg sg).grp? grp = some x →
     x.head = some h → x.st = .active →
     (h.op.code = 0x58 → h.op.launch = 0 → h.large = false → h.chk? singleTree 0 = none → h.op.gated = false →
       Becomes (.chunkStart sg grp (Fin.ofNat 64 singleTree)) s (s.chunkBegin sg grp singleTree 0)) ∧
     (∀ k rs, (h.chk.find? fun k => k.c % 2 ^ 16 == serial.toNat && k.own.isSome && !k.formed && k.stepEnd.isNone) = some k →
       x.upRx h k.tree k.c = some rs → h.op.d.isRed = true → h.large = true →
       (s.seg sg).stepFirst grp (k.ready.getD 0) = true → (s.seg sg).usable s.tick domReduction = true →
       (s.seg sg).budgetOk (250 * (ceilDiv (((h.elems k.c).2 - (h.elems k.c).1) * h.op.d.carrySize) 128 * (rs.length + 1))) = true →
       ActsOn (.reductionStep sg grp serial []) s sg fun g => g.summed s.time grp x h k rs) ∧
     (∀ k t, (h.chk.find? fun k => k.c % 2 ^ 16 == serial.toNat && k.stepEnd.isSome && !k.formed) = some k → k.stepEnd = some t → t ≤ s.time →
       Becomes (.reductionStepDone sg grp ⟨serial, none⟩) s (s.stepLeaves sg grp x h k)) ∧
     (∀ k, (h.chk.find? fun k => k.c % 2 ^ 16 == serial.toNat && k.result.isSome && !k.written) = some k → h.go = true →
       Becomes (.chunkResultWrite sg grp serial (some 0) none) s (s.resultWritten sg grp x h k (some 0))) ∧
     (∀ hs, h.large = true → h.go = true → h.closing = false → h.chunks ≤ h.doneList.length → x.roundRx 0xFFFFFFFE = some hs →
       x.single.root = x.rank → Becomes (.closingPartSend sg grp) s
         ((s.mod sg fun g => (g.modHead grp fun h => { h with closing := true }).progressed grp s.tick).closeTake sg grp
           (roundStatus h.worst h.op.fp hs) (hs.foldl (fun acc hd => FFmt.b64.add acc (field hd 24 8)) h.norm)
           (hs.foldl (fun n hd => n + field hd 32 8) h.spoil % 2 ^ 64))) ∧
     (∀ q, x.sent = [q] → q.nrAt = none → q.last + 5000 * 2 ^ min 7 q.reps ≤ s.tick → q.tree < 64 →
       Becomes (.collectiveRepeat sg grp (Fin.ofNat 64 q.tree)) s (s.repeatHeld sg grp q { q with reps := q.reps + 1, last := s.tick })) ∧
     (∀ q t, x.sent = [q] → q.nrAt = some t → t + 64 * 2 ^ min 10 (q.nrs - 1) ≤ s.tick →
       Becomes (.notReadyRepeat sg grp) s (s.repeatHeld sg grp q { q with nrAt := none, last := s.tick }))) ∧
  (∀ (s : State) (sg : Fin 8) (f : Flit) (g : Segment), Takes s sg →
     ((s.seg sg).takeX [0x18] = some (f, g) → Becomes (.chunkUp sg) s ((s.setSeg sg g).landChunk sg f false)) ∧
     (∀ e, (s.seg sg).rte.ejX = [e] → e.flit.kind = 0x19 → g = { s.seg sg with rte := { (s.seg sg).rte with ejX := [] } } → g.decidedWith e = false →
       Becomes (.chunkDown sg) s ((s.setSeg sg g).landChunk sg e.flit true)) ∧
     ((s.seg sg).takeX [0x1C] = some (f, g) → Becomes (.campFlit sg) s ((s.setSeg sg g).landCamp sg f)) ∧
     ((s.seg sg).takeX [0x1D] = some (f, g) → Becomes (.voteFlit sg) s ((s.setSeg sg g).landCamp sg f)) ∧
     (∀ x d ser t c, (g.grp? (colGroup f)).filter Grp.takesFlits = some x → x.answerOf f = some (d, ser, t, c) →
       ((s.seg sg).takeX [0x1A] = some (f, g) → (x.sent.any fun q => q.answers (d, ser, t, c)) = true →
         ActsOn (.chunkRel sg) s sg fun _ => ((g.modGrp (colGroup f) fun x =>
           { x with sent := x.sent.filter fun q => !q.answers (d, ser, t, c) }).progressed (colGroup f) s.tick).settleChk (colGroup f) s.tick t c) ∧
       (∀ q, (s.seg sg).takeX [0x1B] = some (f, g) →
         (x.sent.find? fun q => q.answers (d, ser, t, c) || (q.dst == d && q.serial == ser && q.c == c)) = some q →
         field f.payload 9 1 = 0 → q.naks < 2 → Becomes (.chunkNak sg) s
           ((s.setSeg sg g).repeatHeld sg (colGroup f) q { q with naks := q.naks + 1, last := s.tick, nrAt := none }))) ∧
     (∀ x, (s.seg sg).takeAbort = some (f, g) → (g.grp? (colGroup f)).filter Grp.takesFlits = some x → field f.payload 5 1 = 1 →
       x.serialAt (BitVec.ofNat 32 (field f.payload 0 4)) = .current → x.held = none → Becomes (.groupAbort sg) s
         ((((s.setSeg sg g).mod sg fun g => g.modGrp (colGroup f) fun x => { x with sent := x.sent.filter fun q => q.kind != 0x1E }).abortForward sg
           x (BitVec.ofNat 32 (field f.payload 0 4)) (BitVec.ofNat 4 (field f.payload 4 1))).abortTake sg (colGroup f)
             (BitVec.ofNat 4 (field f.payload 4 1))))) ∧
  (∀ (s r : State) (sg : Fin 8) (ag : Agent) (ctx : BitVec 12) (v : Word), Takes s sg → (s.seg sg).clocked = true → ag.admin = true →
     r = (s.reached sg ag [domRange]).mod sg (fun g => g.answer csOk 0) → ctx ≠ 0 →
     ((r.seg sg).xlt.resident = [] → Does (.ctxBaseWrite sg ag .w64 v (some 0)) s fun t =>
       (t.seg sg).reg 0x140000 = setBits 0 43 12 (bitsOf v 43 12)) ∧
     ((r.seg sg).resident? ctx = none → (s.reached sg ag [domRange]).loadReason sg ctx (some 0) = 0 →
       Becomes (.contextLoad sg ag ctx (some 0)) s ((r.mod sg fun g => g.ctxResult ctx 0).contextIn sg ctx)) ∧
     ((r.seg sg).isResident ctx = true →
       Becomes (.contextEvict sg ag ctx) s (r.mod sg fun g => ((g.evictStart s.time ctx false).suspendGroups ctx).1) ∧
       Becomes (.contextTeardown sg ag ctx) s (r.teardown sg ctx)) ∧
     (((s.reached sg ag [domRange]).seg sg).present 0 (bitsOf v 43 5 * 32) 32 = true →
       badRecall (((s.reached sg ag [domRange]).seg sg).hbmBytes (bitsOf v 43 5 * 32) 32) = false →
       Becomes (.recallSubmit sg ag v) s (((s.reached sg ag [domRange]).mod sg fun g =>
         (g.setFld F.XLT_RECALL_STATUS_SUBMITTED ((g.fld F.XLT_RECALL_STATUS_SUBMITTED + 1) % 2 ^ 32)).answer csOk 0).startRecall sg
           (((s.reached sg ag [domRange]).seg sg).hbmBytes (bitsOf v 43 5 * 32) 32) true none)) ∧
     (∀ m, ((r.seg sg).xlt.migs.find? fun m => m.n == bitsOf v 3 0) = some m →
       Becomes (.migrateDone sg ag v) s (r.answerMig sg m (BitVec.ofNat 4 (bitsOf v 7 4)))) ∧
     Becomes (.plcReplicateOff sg ag) s (r.mod sg fun g => (g.setFld F.PLC_CTRL_REPLICATE 0).withdraw fun _ => true) ∧
     ((r.seg sg).fhTakes sg ag v true = true → ∀ t,
       r.declareAll sg (BitVec.ofNat 32 (bitsOf v 63 32)) ((List.range (bitsOf v 12 0)).map fun i => bitsOf v 27 16 + i) = some t →
       Becomes (.fhDeclare sg ag v) s (t.mod sg Segment.fhDone)) ∧
     ((r.seg sg).fhTakes sg ag v false = true →
       Becomes (.fhRelease sg ag v) s
         (let mine := ((r.seg sg).declared sg).filter fun h => bitsOf v 27 16 ≤ h.1 % 4096 && h.1 % 4096 < bitsOf v 27 16 + bitsOf v 12 0
          let t := mine.foldl (fun (t : State) h => t.releaseRegion h.1 h.2) r
          t.mod sg fun g =>
            ({ g with plc := { g.plc with releasing := g.plc.releasing ++
                (mine.map fun h => (h.2.holder, h.2.frame)).filter fun x => (t.seg x.1).plc.freeing.contains x.2 } } : Segment).fhDone)) ∧
     (∀ w, w = mergeSize ((r.seg sg).reg 0x150020) .w64 v → (r.seg sg).fld F.XLT_GUARD_SIZE_HBM_REGIONS ≤ bitsOf w 54 32 →
       bitsOf w 54 32 + bitsOf w 12 0 ≤ 2 ^ 23 → bitsOf w 12 0 ≤ 4096 → (r.seg sg).declared sg = [] →
       Becomes (.fhWindowWrite sg ag .w64 v) s (r.mod sg fun g =>
         g.setReg 0x150020 (setBits (setBits 0 12 0 (bitsOf w 12 0)) 54 32 (bitsOf w 54 32))))) ∧
  (∀ (s r : State) (sg : Fin 8) (ag : Agent) (v : Word) (idx : BitVec 17), Takes s sg → (s.seg sg).clocked = true → ag.isKeeper = true →
     r = s.reached sg ag [domRange] →
     Becomes (.guardBaseWrite sg ag .w64 v) s (r.guardWrite sg ag 0x140018 (setBits 0 43 12 (bitsOf v 43 12)) 3 v) ∧
     Becomes (.guardSizeWrite sg ag .w64 v) s
       (r.guardWrite sg ag 0x140020 (setBits (setBits 0 16 0 (bitsOf v 16 0)) 48 32 (bitsOf v 48 32)) 4 v) ∧
     Becomes (.guardInval sg ag idx) s (((r.mod sg fun g => g.answer csOk 0).guardDrop sg idx.toNat).mod sg fun g =>
       g.setFld F.XLT_GUARD_INVAL_INDEX idx.toNat)) ∧
  (∀ (s : State) (sg : Fin 8), Takes s sg →
     (∀ t c, s.evictEnd sg = (t, some c) → (t.seg sg).kpr.tearing.contains c = false → Becomes (.contextEvictDone sg) s t) ∧
     (∀ (c : Fin 18) x va r, ((s.seg sg).core c).wait = some (.issue x) → x.asks = false → s.missOf sg c x = some va →
       ((s.seg sg).bump F.XLT_COUNT_MISSES).searchRange ((s.seg sg).core c).ctx va = (some r, false) →
       Becomes (.rangeMissFill sg c (some 0)) s ((s.mod sg fun g => (g.bump F.XLT_COUNT_MISSES).fillRange r).goAgain sg c x)) ∧
     (∀ r, s.ackable sg false (s.seg sg).xlt.recalls = some r → r.submitted = true → r.owner = none →
       ActsOn (.recallAck sg) s sg fun g =>
         ({ g with xlt := { g.xlt with recalls := g.xlt.recalls.filter fun x => x.id != r.id } } : Segment).setFld
           F.XLT_RECALL_STATUS_ACKED ((g.fld F.XLT_RECALL_STATUS_ACKED + 1) % 2 ^ 32)) ∧
     (0 < (s.seg sg).fld F.XLT_HOT_CTRL_DECAY → (s.seg sg).xlt.decayAt + (s.seg sg).fld F.XLT_HOT_CTRL_DECAY ≤ s.tick →
       ActsOn (.hotDecay sg) s sg fun g =>
         { g with
           xlt := { g.xlt with
             decayAt := s.tick
             resident := g.xlt.resident.map fun r => { r with hot := r.hot.map fun x => (x.1, x.2 / 2) } }
           plc := { g.plc with repCount := g.plc.repCount.map fun x => (x.1, x.2 / 2) } }) ∧
     (∀ (req : Fin 16) m, ((s.seg sg).xlt.migs.find? fun m => m.n == req.val) = some m →
       m.tick + max 1 ((s.seg sg).fld F.XLT_MIGRATE_CTRL_TIMEOUT) ≤ s.tick → Becomes (.migrateTimeout sg req) s
         ((s.mod sg fun g => g.raise s.tick
            { cls := 20, unit := 10, ctx := some (g.core m.core).ctx, info := BitVec.ofNat 32 m.n, status := csUnmapped,
              addr := BitVec.ofNat 64 (m.page * regionSize) }).answerMig sg m csUnmapped)) ∧
     (s.tick % 50 = 0 → Becomes (.loadPublish sg) s ((List.range s.n).foldl (fun (t : State) i =>
       if t.reachable sg i then t.mod i fun h => { h with plc := { h.plc with published :=
         ((List.range 6).map fun p => (sg.val, p, (s.seg sg).portLoad p)) ++ h.plc.published.filter fun x => x.1 != sg.val } } else t) s)) ∧
     (∀ c, (s.seg sg).plc.copies = [c] → c.start + 780 ≤ s.tick → ActsOn (.replicaInstall sg) s sg fun g =>
       ({ g with
          hbm := memCopy g.hbm (g.frameOff c.frame) (s.seg c.home).hbm (c.region * regionSize) regionSize
          plc := { g.plc with
            copies := ([] : List ReplicaCopy)
            replicas := g.plc.replicas ++ [{ region := c.region, home := c.home, guard := c.guard, frame := c.frame, installed := g.plc.installs }]
            installs := g.plc.installs + 1 } } : Segment).bump F.PLC_COUNT_REPLICAS_MADE) ∧
     (∀ r, (s.seg sg).plc.replicas = [r] → r.withdrawn = true → (s.seg sg).frameBusy r.frame = false →
       ActsOn (.replicaFrameReturn sg) s sg fun g =>
         { g with plc := { g.plc with replicas := [], framesUsed := g.plc.framesUsed.filter (fun x => x != r.frame) } }) ∧
     ((s.seg sg).plc.moveAt + max 1 ((s.seg sg).fld F.PLC_MOVE_PERIOD) ≤ s.tick → (s.seg sg).fld F.PLC_CTRL_HOMING_MOVE = 0 →
       Does (.movePeriod sg) s fun t => t.n = s.n ∧ (t.seg sg).plc.moveAt = s.tick) ∧
     (∀ m key h, (s.seg sg).plc.moves = [m] → ((s.seg sg).plc.homing.find? fun h => h.1 / 4096 == m.win && h.2.region == m.region) = some (key, h) →
       s.joined sg m.target = true →
       (m.flipping = false → m.start + 32 * m.copying.length ≤ s.time → m.hold = false →
         m.dirty.length ≤ min 64 ((s.seg sg).fld F.PLC_MOVE_FINAL_BLOCKS) → Becomes (.movePassDone sg) s
           ((s.copyBlocks sg m h.frame).mod sg fun g => { g with plc := { g.plc with moves := modWhere g.plc.moves (fun x => x == m) fun _ =>
             { m with copying := m.dirty, dirty := [], start := s.time, hold := true } } })) ∧
       (m.flipping = true → Becomes (.moveFlipDone sg) s
         ((s.setHoming fun l => l.map fun h => if h.1 / 4096 == m.win && h.2.region == m.region then
             (h.1, { h.2 with moving := false, holder := m.target, frame := m.frame }) else h).mod sg fun g => g.movedOut s.time m h.frame)))) ∧
  (∀ (s : State) (sg : Fin 8) (p : Fin 6) (q : Port), Takes s sg → q = (s.seg sg).port p →
     (q.st = .active →
       (q.replay ≠ [] → q.timerAt + max 1 ((s.seg sg).fld (F.LNK_TIMERS_REPLAY_TIMER.port p)) ≤ s.tick →
         ActsOn (.replayTimerExpiry sg p) s sg fun g =>
         (g.startReplay s.tick p (q.acked + 1)).modPort p fun q => { q with expiredAt := some s.tick }) ∧
       (q.gap = true → q.nakLast ≠ none → ActsOn (.nakRepeatExpiry sg p) s sg fun g => g.dueNak s.tick p) ∧
       (∀ w t, q.req = some (true, w, t) → t + 50 ≤ s.tick → ActsOn (.widthLimitExpiry sg p) s sg fun g =>
         (g.modPort p fun q => { q with req := none }).retrainStart s.time p 7)) ∧
     (q.windowEnd ≤ s.tick → (s.seg sg).fld (F.LNK_ERR_CTRL_REPLAY_PPB.port p) = 0 → Does (.errorWindowEnd sg p) s fun t =>
       t.n = s.n ∧ (p.val < (s.seg sg).ports.length →
         ((t.seg sg).port p).windowEnd = (s.tick / 50000 + 1) * 50000 ∧ ((t.seg sg).port p).closed = none)) ∧
     (∀ cause t, q.st = .retrain → q.req = some (false, cause, t) → t + 50 ≤ s.tick →
       ActsOn (.requestRepeatLimit sg p) s sg fun g => g.modPort p fun q => q.beginPhase s.tick 1) ∧
     (q.st = .training → q.start + (s.seg sg).retrainLimit p ≤ s.tick →
       Becomes (.retrainLimitExpiry sg p) s (s.mod sg fun g => g.portDown s.time p).failRoutes) ∧
     (∀ t, q.st = .retrain → q.wait = some t → t ≤ s.tick →
       ActsOn (.retrainWaitEnd sg p) s sg fun g => g.retrainStart s.time p q.cause) ∧
     (∀ r rest, q.txRuns = r :: rest → r.ft + 256 ≤ q.ft →
       ActsOn (.trailerDue sg p) s sg fun g => g.modPort p fun q => { q with trailerDue := true }) ∧
     (q.isTraining = true →
       (∀ obs g, (s.seg sg).phaseEnd s.tick p obs = (g, false) → ActsOn (.trainingPhaseEnd sg p obs) s sg fun _ => g) ∧
       (q.phase = 5 → q.phaseTick + (s.seg sg).phaseLimit p 5 ≤ s.tick → ActsOn (.trainingPhaseLimit sg p) s sg fun g => g.toPhase s.tick p 6)) ∧
     (∀ t, q.st = .retrain → q.wait = some t → ActsOn (.preambleDetect sg p) s sg fun g => g.modPort p fun q =>
       if q.st = .retrain ∧ q.wait ≠ none then { (q.beginPhase s.tick 1) with wait := none, start := s.tick, isLeader := false } else q)) ∧
  (∀ (s : State) (sg : Fin 8) (p : Fin 6) (ag : Agent) (w : BitVec 4) (slot : BitVec 6) (ctx : BitVec 12) (v : Word), Takes s sg →
     (s.seg sg).clocked = true → ag.isKeeper = true →
     Accesses (.linkEnable sg p ag) s sg ag (fun g => (g.portEnable s.tick p).answer csOk 0) ∧
     Becomes (.linkDisable sg p ag) s (((s.accessed ag).portDisable sg p).mod sg fun g => g.answer csOk 0) ∧
     Accesses (.linkRetry sg p ag) s sg ag (fun g => (g.portRetry s.tick p).answer csOk 0) ∧
     Reaches (.linkRetrain sg p ag) s sg ag [domTx p, domRx p] (fun g => (g.stewardCause s.time p 5).answer csOk 0) ∧
     Reaches (.linkRelease sg p ag) s sg ag [domTx p, domRx p] (fun g => (g.portRelease s.tick p).answer csOk 0) ∧
     Accesses (.linkWidthRequest sg p ag w) s sg ag (fun g => (g.portWidth s.time p w.toNat).answer csOk 0) ∧
     Accesses (.sealSlotArm sg p ag slot ctx) s sg ag (fun g => (g.sealArm s.tick p slot.toNat ctx).1.answer csOk 0) ∧
     Accesses (.sealSlotDisarm sg p ag slot) s sg ag (fun g => (g.modPort p fun q => q.disarm slot.toNat).answer csOk 0) ∧
     ((((s.accessed ag).seg sg).port p).st = .disabled → Accesses (.laneRateWrite sg p ag .w64 v) s sg ag fun g =>
       (g.setReg (lnkOff p 0x1000) (v &&& 0xE3)).answer csOk 0)) ∧
  (∀ (s : State) (sg : Fin 8) (p : Fin 6) (q : Port), Takes s sg → q = (s.seg sg).port p → q.st = .active →
     (∀ (lane : Fin 9) heads, q.rxPwr ≠ .flask → losesLock heads = true → q.mapRx.contains lane.val = true →
       ActsOn (.blockLockLoss sg p ⟨lane, heads⟩) s sg fun g =>
         (g.bumpBy ((F.LNE_LANE_ERR_SYNC_BAD.port p).add (8 * lane.val)) (heads.filter fun h => !headerOk h).length).retrainCause s.time p 6) ∧
     (∀ l : Fin 8, q.spareRx ≠ 15 → q.mapRx.getD l 15 ≠ 15 → ActsOn (.shadow sg p l) s sg fun g =>
       g.modPort p fun y => { y with rotRx := { step := 1, l := l, k := q.mapRx.getD l 15, s := y.spareRx, tick := s.tick } }) ∧
     (∀ l : Fin 8, q.rotTx.step = 1 → q.rotTx.l = l.val → ActsOn (.swapped sg p l) s sg fun g => g.modPort p fun q =>
       { q with mapTx := q.mapTx.set l q.rotTx.s, calTx := q.rotTx.k, spareTx := 15, cmd := 0, target := 0,
                rotTx := { q.rotTx with step := 3, tick := s.tick } }) ∧
     (q.rotTx.step = 3 →
       ActsOn (.calDone sg p) s sg (fun g =>
         ((g.modPort p fun q => { q with spareTx := q.rotTx.k, calTx := 15, rotTx := { q.rotTx with step := 0 } }).bump
           (F.LNE_ROTATE_STATUS_HANDOVERS.port p)).handoverOver s.tick p) ∧
       (q.calTx ≠ 15 → ActsOn (.calFail sg p) s sg (fun g => g.calFailTx s.tick p)) ∧
       (q.rotTx.tick + max 600 ((s.seg sg).fld (F.LNE_ROTATE_CAL_LIMIT.port p)) ≤ s.tick →
         ActsOn (.calLimitExpiry sg p) s sg fun g => g.calFailTx s.tick p)) ∧
     (∀ k, (s.seg sg).mayRotate p = true → q.rotAt + max 5000 ((s.seg sg).fld (F.LNE_ROTATE_PERIOD.port p)) ≤ s.tick →
       nextRetired q.mapTx q.retired = some k →
       ActsOn (.handoverStart sg p) s sg fun g => (g.beginHandover s.tick p k).modPort p fun q => { q with rotAt := s.tick }) ∧
     (q.rotRx.step = 1 → q.spareRx = q.rotRx.s → q.serviceTx = true → ActsOn (.handoverSwap sg p) s sg fun g => g.modPort p fun q =>
       { q with mapRx := q.mapRx.set q.rotRx.l q.rotRx.s, calRx := q.rotRx.k, spareRx := 15, cmd := 2, target := q.rotRx.l,
                rotRx := { q.rotRx with step := 2, tick := s.tick } }) ∧
     (q.rotRx.step = 2 → q.calRx = q.rotRx.k → q.rotRx.tick + max 1 ((s.seg sg).fld (F.LNE_ROTATE_CAL_PRBS_TICKS.port p)) ≤ s.tick →
       ActsOn (.calibrationCountEnd sg p 0) s sg fun g =>
         ((g.setFld ((F.LNE_LANE_ERR_PRBS_ERR.port p).add (8 * q.rotRx.k)) 0).modPort p fun y =>
           { y with cmd := 3, target := 0, spareRx := q.rotRx.k, calRx := 15, rotRx := { y.rotRx with step := 0 } }).handoverOver s.tick p) ∧
     (∀ lane : Fin 9, q.mapTx.contains lane.val = true → q.spareTx = 15 → q.width = 8 →
       ActsOn (.syncErrorHandover sg p lane) s sg fun g =>
         (((g.bumpBy ((F.LNE_LANE_ERR_SYNC_BAD.port p).add (8 * lane.val)) 8).laneFault s.tick p lane).modPort p fun q =>
           { q with partnerGood := q.partnerGood &&& ~~~((1 : BitVec 9) <<< lane.val) }).askWidth s.time p 4))
end

