-- ==== Sys2Proof/Laws/Blocks.lean ====
section
/-! SUPPORT. What the scrambler of a lane does to the payload of a block (R404). -/

namespace Sys2Proof.Machine

/-- Scrambling keeps the number of bits. -/
@[simp] theorem length_scramble (l : List Bool) (gen : BitVec 31) : (scramble l gen).length = l.length := by
  induction l generalizing gen with
  | nil => rfl
  | cons b l ih => simp [scramble, ih]

/-- A receiver whose generator agrees with the sender's recovers the payload. -/
@[simp] theorem scramble_scramble (l : List Bool) (gen : BitVec 31) : scramble (scramble l gen) gen = l := by
  induction l generalizing gen with
  | nil => rfl
  | cons b l ih => simp [scramble, ih]

/-- Steps of a generator add up. -/
theorem prbsAt_add (m n : Nat) (gen : BitVec 31) : prbsAt (m + n) gen = prbsAt n (prbsAt m gen) := by
  induction m generalizing gen with
  | zero => rw [Nat.zero_add]; rfl
  | succ m ih => rw [Nat.succ_add]; exact ih _

/-- The level of two bits gives them back (R403). -/
@[simp] theorem pamBits_pamLevel (a b : Bool) : pamBits (pamLevel a b) = some (a, b) := by cases a <;> cases b <;> rfl

@[simp] theorem length_bitsDown (v n : Nat) : (bitsDown v n).length = n := by induction n <;> simp [bitsDown, *]

theorem foldl_bitsDown (v n a : Nat) : (bitsDown v n).foldl (fun k b => k * 2 + b.toNat) a = a * 2 ^ n + v % 2 ^ n := by
  induction n generalizing a with
  | zero => simp [bitsDown, Nat.mod_one]
  | succ n ih =>
    have h : v % 2 ^ (n + 1) = v % 2 ^ n + 2 ^ n * (v / 2 ^ n % 2) := Nat.mod_pow_succ ..
    rw [bitsDown, List.foldl_cons, ih, h, Nat.pow_succ, Nat.testBit_eq_decide_div_mod_eq]
    rcases Nat.mod_two_eq_zero_or_one (v / 2 ^ n) with e | e <;> simp [e] <;> ring

/-- The bits of a number spell it. -/
@[simp] theorem bitsNat_bitsDown (v n : Nat) : bitsNat (bitsDown v n) = v % 2 ^ n := by
  rw [bitsNat, foldl_bitsDown]; simp

/-- A training block is read as it was sent (Table 10.3). -/
theorem readTrain_payload (b : TrainBlock) : readTrain b.payload = some b := by
  have field (n : Nat) (x : BitVec n) (m : Nat) (h : m = 2 ^ n) : BitVec.ofNat n (x.toNat % m) = x := by
    subst h; rw [Nat.mod_eq_of_lt x.isLt, BitVec.ofNat_toNat, BitVec.setWidth_eq]
  simp [readTrain, TrainBlock.payload, List.drop_append, List.drop_eq_nil_of_le, field]

end Sys2Proof.Machine
end

