-- ==== Sys2Proof/Laws/Bridge.lean ====
section
/-! SUPPORT. What the parity runs of a bridge catch (R27). -/

namespace Sys2Proof.Machine

/-- Flipping the bits at some places of a run changes its parity by the number of places it has among them. -/
theorem foldl_xor_flip (l : List Bool) (bad : List Nat) (n : Nat) (a : Bool) :
    ((l.zipIdx n).map fun (b, i) => if bad.contains i then !b else b).foldl xor a =
      xor (l.foldl xor a) ((List.range' n l.length).countP bad.contains % 2 == 1) := by
  induction l generalizing n a with
  | nil => simp
  | cons b l ih =>
    rw [List.zipIdx_cons, List.map_cons, List.foldl_cons, ih, List.foldl_cons, List.length_cons, List.range'_succ, List.countP_cons]
    have step : ∀ (l : List Bool) (c d : Bool), l.foldl xor (xor c d) = xor d (l.foldl xor c) := by
      intro l
      induction l with
      | nil => intro c d; simp [Bool.xor_comm]
      | cons x l ih => intro c d; rw [List.foldl_cons, List.foldl_cons, ← ih, Bool.xor_assoc, Bool.xor_comm d x, Bool.xor_assoc]
    dsimp only
    by_cases h : bad.contains n = true
    · simp only [h, if_true]
      have := step l (xor a b) true
      rw [show xor a (!b) = xor (xor a b) true by cases a <;> cases b <;> rfl, this]
      generalize l.foldl xor (xor a b) = p
      rcases Nat.mod_two_eq_zero_or_one ((List.range' (n + 1) l.length).countP bad.contains) with h2 | h2 <;>
        simp [Nat.add_mod, h2]
    · simp only [h, Bool.false_eq_true, if_false, Nat.add_zero]

/-- A run as it is sent has even parity. -/
theorem runPasses_sendRun (d : List Bool) : runPasses (sendRun d) = true := by
  simp [runPasses, sendRun, parityBit, List.foldl_append]

/-- A run whose flips are at places of a list passes exactly where an even number of its places is in the list. -/
theorem runPasses_flipBits (d : List Bool) (bad : List Nat) :
    runPasses (flipBits (sendRun d) bad) = ((List.range (d.length + 1)).countP bad.contains % 2 == 0) := by
  have h := runPasses_sendRun d
  rw [runPasses, beq_iff_eq] at h
  rw [runPasses, flipBits, foldl_xor_flip, h, List.range_eq_range', sendRun, List.length_append, List.length_singleton, Bool.false_xor]
  rcases Nat.mod_two_eq_zero_or_one ((List.range' 0 (d.length + 1)).countP bad.contains) with h2 | h2 <;> simp [h2]

/-- A flit is received exactly where every run has an even number of bad bits: an odd number in any run fails its check (R27). -/
theorem receiveFlit_isSome (f : Flit) (flips : List (Fin 38 × Fin 32)) :
    (receiveFlit f flips).isSome = (List.range 38).all fun k => (List.range 32).countP (badIn flips k).contains % 2 == 0 := by
  have hruns : wireRuns f flips = (List.range 38).map fun k => flipBits (sendRun ((flitRuns f).getD k [])) (badIn flips k) := by
    refine List.ext_getElem (by simp [wireRuns, flitRuns]) fun i h1 h2 => ?_
    have : i < 38 := by simpa using h2
    simp [wireRuns, flitRuns, badIn, this]
  have hpass : (wireRuns f flips).all runPasses = (List.range 38).all fun k => (List.range 32).countP (badIn flips k).contains % 2 == 0 := by
    rw [hruns, List.all_map]
    refine Bool.eq_iff_iff.2 ?_
    simp only [List.all_eq_true, List.mem_range, Function.comp_apply]
    refine forall₂_congr fun k hk => ?_
    rw [runPasses_flipBits, show ((flitRuns f).getD k []).length = 31 by simp [flitRuns, hk]]
  rw [receiveFlit]
  simp only [hpass]
  split <;> simp_all

end Sys2Proof.Machine
end

