-- ==== Sys2Proof/Laws/State.lean ====
section
/-! SUPPORT. What the updates of the package, of a segment and of its parts leave in each field. -/

namespace Sys2Proof.Machine

open Sys2Proof

/-! ## Lists -/

@[simp] theorem length_modAt {α : Type} (l : List α) (i : Nat) (f : α → α) : (modAt l i f).length = l.length := by
  induction l generalizing i with
  | nil => rfl
  | cons x r ih => cases i with
    | zero => rfl
    | succ n => simp [modAt, ih]

theorem getD_modAt_same {α : Type} (l : List α) (i : Nat) (f : α → α) (d : α) (h : i < l.length) :
    (modAt l i f).getD i d = f (l.getD i d) := by
  induction l generalizing i with
  | nil => simp at h
  | cons x r ih => cases i with
    | zero => rfl
    | succ n => simpa [modAt] using ih n (by simpa using h)

theorem getD_modAt_ne {α : Type} (l : List α) (i j : Nat) (f : α → α) (d : α) (h : j ≠ i) :
    (modAt l i f).getD j d = l.getD j d := by
  induction l generalizing i j with
  | nil => rfl
  | cons x r ih => cases i with
    | zero => cases j with
      | zero => exact absurd rfl h
      | succ m => rfl
    | succ n => cases j with
      | zero => rfl
      | succ m => simpa [modAt] using ih n m (by omega)

/-! ## The package -/

theorem seg_setSeg_same (s : State) (i : Nat) (g : Segment) (h : i < s.n) : (s.setSeg i g).seg i = g := by
  unfold State.n at h
  simp [State.setSeg, State.seg, h]

theorem seg_setSeg_ne (s : State) (i j : Nat) (g : Segment) (h : j ≠ i) : (s.setSeg i g).seg j = s.seg j := by
  simp [State.setSeg, State.seg, List.getElem?_set_ne (Ne.symm h)]

@[simp] theorem n_setSeg (s : State) (i : Nat) (g : Segment) : (s.setSeg i g).n = s.n := by simp [State.setSeg, State.n]
@[simp] theorem time_setSeg (s : State) (i : Nat) (g : Segment) : (s.setSeg i g).time = s.time := rfl
@[simp] theorem tick_setSeg (s : State) (i : Nat) (g : Segment) : (s.setSeg i g).tick = s.tick := rfl
@[simp] theorem inColdReset_setSeg (s : State) (i : Nat) (g : Segment) : (s.setSeg i g).inColdReset = s.inColdReset := rfl
@[simp] theorem freeCtr_setSeg (s : State) (i : Nat) (g : Segment) : (s.setSeg i g).freeCtr = s.freeCtr := rfl
@[simp] theorem pending_setSeg (s : State) (i : Nat) (g : Segment) : (s.setSeg i g).pending = s.pending := rfl

@[simp] theorem setSeg_setSeg (s : State) (i : Nat) (g h : Segment) : (s.setSeg i g).setSeg i h = s.setSeg i h := by
  simp [State.setSeg]

theorem setSeg_seg (s : State) (i : Nat) : s.setSeg i (s.seg i) = s := by
  have h : s.segs.set i (s.segs.getD i {}) = s.segs := by
    rcases Nat.lt_or_ge i s.segs.length with h | h
    · simp [List.getD_eq_getElem?_getD, List.getElem?_eq_getElem h]
    · exact List.set_eq_of_length_le h
  show ({ s with segs := s.segs.set i (s.segs.getD i {}) } : State) = s
  rw [h]

theorem mod_eq_self (s : State) (i : Nat) (f : Segment → Segment) (h : f (s.seg i) = s.seg i) : s.mod i f = s := by
  rw [State.mod, h, setSeg_seg]

@[simp] theorem n_mod (s : State) (i : Nat) (f : Segment → Segment) : (s.mod i f).n = s.n := by simp [State.mod]
@[simp] theorem time_mod (s : State) (i : Nat) (f : Segment → Segment) : (s.mod i f).time = s.time := rfl
@[simp] theorem tick_mod (s : State) (i : Nat) (f : Segment → Segment) : (s.mod i f).tick = s.tick := rfl
@[simp] theorem inColdReset_mod (s : State) (i : Nat) (f : Segment → Segment) : (s.mod i f).inColdReset = s.inColdReset := rfl
@[simp] theorem freeCtr_mod (s : State) (i : Nat) (f : Segment → Segment) : (s.mod i f).freeCtr = s.freeCtr := rfl
@[simp] theorem pending_mod (s : State) (i : Nat) (f : Segment → Segment) : (s.mod i f).pending = s.pending := rfl

theorem seg_mod_same (s : State) (i : Nat) (f : Segment → Segment) (h : i < s.n) : (s.mod i f).seg i = f (s.seg i) :=
  seg_setSeg_same s i _ h

theorem seg_mod_ne (s : State) (i j : Nat) (f : Segment → Segment) (h : j ≠ i) : (s.mod i f).seg j = s.seg j :=
  seg_setSeg_ne s i j _ h

theorem mod_mod (s : State) (i : Nat) (f g : Segment → Segment) (h : i < s.n) :
    (s.mod i f).mod i g = s.mod i fun x => g (f x) := by
  simp [State.mod, seg_setSeg_same s i _ h]

@[simp] theorem n_modAll (s : State) (f : Segment → Segment) : (s.modAll f).n = s.n := by simp [State.modAll, State.n]
@[simp] theorem time_modAll (s : State) (f : Segment → Segment) : (s.modAll f).time = s.time := rfl
@[simp] theorem tick_modAll (s : State) (f : Segment → Segment) : (s.modAll f).tick = s.tick := rfl
@[simp] theorem inColdReset_modAll (s : State) (f : Segment → Segment) : (s.modAll f).inColdReset = s.inColdReset := rfl
@[simp] theorem freeCtr_modAll (s : State) (f : Segment → Segment) : (s.modAll f).freeCtr = s.freeCtr := rfl
@[simp] theorem pending_modAll (s : State) (f : Segment → Segment) : (s.modAll f).pending = s.pending := rfl

theorem seg_modAll (s : State) (f : Segment → Segment) (i : Nat) (h : i < s.n) : (s.modAll f).seg i = f (s.seg i) := by
  unfold State.n at h
  simp [State.modAll, State.seg, h]

/-! ## Captures -/

@[simp] theorem n_dropCaptures (s : State) (ag : Agent) : (s.dropCaptures ag).n = s.n := by simp [State.dropCaptures]
@[simp] theorem time_dropCaptures (s : State) (ag : Agent) : (s.dropCaptures ag).time = s.time := rfl
@[simp] theorem tick_dropCaptures (s : State) (ag : Agent) : (s.dropCaptures ag).tick = s.tick := rfl
@[simp] theorem inColdReset_dropCaptures (s : State) (ag : Agent) : (s.dropCaptures ag).inColdReset = s.inColdReset := rfl

theorem seg_dropCaptures (s : State) (ag : Agent) (i : Nat) (h : i < s.n) :
    (s.dropCaptures ag).seg i = { s.seg i with captures := (s.seg i).captures.filter fun c => c.agent != ag } :=
  seg_modAll s _ i h

/-! ## Commands -/

/-- A command on a segment that takes commands answers its effect. -/
theorem onSeg_takes (sg : Fin 8) (s : State) (f : State → State) (h : Takes s sg) : onSeg sg s f = .next (f s) := by
  simp [onSeg, h.1, h.2]

/-- A command answers its effect, the state as it stands, or that the package has no such segment: it never refuses. -/
theorem onSeg_cases (sg : Fin 8) (s : State) (f : State → State) :
    (s.n ≤ sg.val ∧ onSeg sg s f = .fault (.noSuchSegment sg.val)) ∨
    (sg.val < s.n ∧ onSeg sg s f = .next (if s.inColdReset then s else f s)) := by
  unfold onSeg
  split
  · exact .inr ⟨‹_›, rfl⟩
  · exact .inl ⟨by omega, rfl⟩

theorem onCtl_takes (sg : Fin 8) (ag : Agent) (s : State) (f : State → State) (h : Takes s sg) :
    onCtl sg ag s f = .next (f (s.dropCaptures ag)) := onSeg_takes sg s _ h

theorem clocked_dropCaptures (s : State) (ag : Agent) (i : Nat) (h : i < s.n) :
    ((s.dropCaptures ag).seg i).clocked = (s.seg i).clocked := by rw [seg_dropCaptures s ag i h]; rfl

theorem onDoms_takes (sg : Fin 8) (ag : Agent) (ds : List Nat) (s : State) (f : State → State) (h : Takes s sg)
    (hc : (s.seg sg).clocked = true) : onDoms sg ag ds s f = .next (f (s.reached sg ag ds)) := by
  simp [onDoms, onCtl_takes sg ag s _ h, State.reached, clocked_dropCaptures s ag sg h.1, hc, State.wakeFor]

/-- An access of a segment whose fast clock is off waits: it wakes its domains and does nothing else (R41). -/
theorem onDoms_waits (sg : Fin 8) (ag : Agent) (ds : List Nat) (s : State) (f : State → State) (h : Takes s sg) (hd : ds ≠ [])
    (hc : (s.seg sg).clocked = false) : onDoms sg ag ds s f = .next (s.reached sg ag ds) := by
  simp [onDoms, onCtl_takes sg ag s _ h, State.reached, clocked_dropCaptures s ag sg h.1, hc, State.wakeFor, hd]

/-! ## The parts of a segment -/

@[simp] theorem regs_modCore (g : Segment) (c : Nat) (f : Core → Core) : (g.modCore c f).regs = g.regs := rfl
@[simp] theorem straps_modCore (g : Segment) (c : Nat) (f : Core → Core) : (g.modCore c f).straps = g.straps := rfl
@[simp] theorem reg_modCore (g : Segment) (c : Nat) (f : Core → Core) (o : Nat) : (g.modCore c f).reg o = g.reg o := rfl
@[simp] theorem fld_modCore (g : Segment) (c : Nat) (f : Core → Core) (x : Fld) : (g.modCore c f).fld x = g.fld x := rfl
@[simp] theorem trl_modCore (g : Segment) (c : Nat) (f : Core → Core) : (g.modCore c f).trl = g.trl := rfl
@[simp] theorem hbm_modCore (g : Segment) (c : Nat) (f : Core → Core) : (g.modCore c f).hbm = g.hbm := rfl
@[simp] theorem sp_modCore (g : Segment) (c : Nat) (f : Core → Core) : (g.modCore c f).sp = g.sp := rfl

theorem cores_setReg (g : Segment) (o : Nat) (w : Word) : (g.setReg o w).cores = g.cores := rfl
@[simp] theorem core_setReg (g : Segment) (o : Nat) (w : Word) (c : Nat) : (g.setReg o w).core c = g.core c := rfl
@[simp] theorem core_bump (g : Segment) (f : Fld) (c : Nat) : (g.bump f).core c = g.core c := rfl
@[simp] theorem core_setFld (g : Segment) (f : Fld) (n c : Nat) : (g.setFld f n).core c = g.core c := rfl
theorem hbm_setReg (g : Segment) (o : Nat) (w : Word) : (g.setReg o w).hbm = g.hbm := rfl
@[simp] theorem port_setReg (g : Segment) (o : Nat) (w : Word) (p : Nat) : (g.setReg o w).port p = g.port p := rfl
@[simp] theorem port_bump (g : Segment) (f : Fld) (p : Nat) : (g.bump f).port p = g.port p := rfl
theorem trl_bump (g : Segment) (f : Fld) : (g.bump f).trl = g.trl := rfl
theorem txn_bump (g : Segment) (f : Fld) : (g.bump f).txn = g.txn := rfl

@[simp] theorem reg_hwMark (g : Segment) (o : Nat) (w : Word) (p : Nat) : (g.hwMark o w).reg p = g.reg p := rfl
@[simp] theorem fld_hwMark (g : Segment) (o : Nat) (w : Word) (x : Fld) : (g.hwMark o w).fld x = g.fld x := rfl
@[simp] theorem core_hwMark (g : Segment) (o : Nat) (w : Word) (c : Nat) : (g.hwMark o w).core c = g.core c := rfl
@[simp] theorem cores_hwMark (g : Segment) (o : Nat) (w : Word) : (g.hwMark o w).cores = g.cores := rfl
@[simp] theorem flt_hwMark (g : Segment) (o : Nat) (w : Word) : (g.hwMark o w).flt = g.flt := rfl
@[simp] theorem trl_hwMark (g : Segment) (o : Nat) (w : Word) : (g.hwMark o w).trl = g.trl := rfl
@[simp] theorem hbm_hwMark (g : Segment) (o : Nat) (w : Word) : (g.hwMark o w).hbm = g.hbm := rfl
@[simp] theorem sp_hwMark (g : Segment) (o : Nat) (w : Word) : (g.hwMark o w).sp = g.sp := rfl
@[simp] theorem straps_hwMark (g : Segment) (o : Nat) (w : Word) : (g.hwMark o w).straps = g.straps := rfl
@[simp] theorem reg_swMark (g : Segment) (o : Nat) (w v : Word) (k : Nat) (m : Word) (p : Nat) : (g.swMark o w v k m).reg p = g.reg p := rfl
@[simp] theorem fld_swMark (g : Segment) (o : Nat) (w v : Word) (k : Nat) (m : Word) (x : Fld) : (g.swMark o w v k m).fld x = g.fld x := rfl
@[simp] theorem core_swMark (g : Segment) (o : Nat) (w v : Word) (k : Nat) (m : Word) (c : Nat) : (g.swMark o w v k m).core c = g.core c := rfl
@[simp] theorem hbm_swMark (g : Segment) (o : Nat) (w v : Word) (k : Nat) (m : Word) : (g.swMark o w v k m).hbm = g.hbm := rfl
@[simp] theorem sp_swMark (g : Segment) (o : Nat) (w v : Word) (k : Nat) (m : Word) : (g.swMark o w v k m).sp = g.sp := rfl

@[simp] theorem segId_takeReply (g : Segment) : g.takeReply.segId = g.segId := rfl
@[simp] theorem tagMatches_takeReply (g : Segment) (t : Nat) (c : BitVec 12) : g.takeReply.tagMatches t c = g.tagMatches t c := rfl
@[simp] theorem tagReq_takeReply (g : Segment) (t : Nat) : g.takeReply.tagReq t = g.tagReq t := rfl
@[simp] theorem tag?_takeReply (g : Segment) (t : Nat) : g.takeReply.tag? t = g.tag? t := rfl
@[simp] theorem segId_bump (g : Segment) (f : Fld) : (g.bump f).segId = g.segId := rfl
@[simp] theorem tagMatches_bump (g : Segment) (f : Fld) (t : Nat) (c : BitVec 12) : (g.bump f).tagMatches t c = g.tagMatches t c := rfl
@[simp] theorem tagReq_bump (g : Segment) (f : Fld) (t : Nat) : (g.bump f).tagReq t = g.tagReq t := rfl

/-- A core that is not idle is one of the segment's cores. -/
theorem core_present (g : Segment) (c : Nat) (h : (g.core c).st ≠ .idle) : c < g.cores.length := by
  rcases Nat.lt_or_ge c g.cores.length with h' | h'
  · exact h'
  · exact absurd (by simp [Segment.core, List.getElem?_eq_none h']) h

theorem core_modCore_same (g : Segment) (c : Nat) (f : Core → Core) (h : c < g.cores.length) :
    (g.modCore c f).core c = f (g.core c) := getD_modAt_same g.cores c f {} h

theorem core_modCore_ne (g : Segment) (c i : Nat) (f : Core → Core) (h : i ≠ c) : (g.modCore c f).core i = g.core i :=
  getD_modAt_ne g.cores c i f {} h

theorem lookupKey_insertKey_same {κ α : Type} [DecidableEq κ] (k : κ) (v : α) (l : List (κ × α)) :
    lookupKey k (insertKey k v l) = some v := by simp [insertKey, lookupKey]

theorem lookupKey_eraseKey_ne {κ α : Type} [DecidableEq κ] (k j : κ) (l : List (κ × α)) (h : j ≠ k) :
    lookupKey j (eraseKey k l) = lookupKey j l := by
  unfold eraseKey
  induction l with
  | nil => rfl
  | cons x r ih =>
    obtain ⟨a, b⟩ := x
    by_cases e : a = k
    · subst e; simpa [lookupKey, Ne.symm h] using ih
    · by_cases e' : a = j
      · subst e'; simp [e, lookupKey]
      · simpa [e, lookupKey, e'] using ih

theorem lookupKey_insertKey_ne {κ α : Type} [DecidableEq κ] (k j : κ) (v : α) (l : List (κ × α)) (h : j ≠ k) :
    lookupKey j (insertKey k v l) = lookupKey j l := by
  simp [insertKey, lookupKey, Ne.symm h, lookupKey_eraseKey_ne k j l h]

/-- A register written reads as written. -/
@[simp] theorem reg_setReg_same (g : Segment) (o : Nat) (w : Word) : (g.setReg o w).reg o = w := by
  simp [Segment.reg, Segment.setReg, lookupKey_insertKey_same]

/-- A register written leaves every other as it was. -/
theorem reg_setReg_ne (g : Segment) (o p : Nat) (w : Word) (h : p ≠ o) : (g.setReg o w).reg p = g.reg p := by
  simp [Segment.reg, Segment.setReg, lookupKey_insertKey_ne _ _ _ _ h]

end Sys2Proof.Machine
end

