-- ==== Sys2Proof/Laws/Cores.lean ====
section
/-! SUPPORT. What an instruction on a core comes to: the shared frame, the three plain shapes, loads and stores. -/

namespace Sys2Proof.Machine

open Sys2Proof

/-! ## The registers of a core -/

@[simp] theorem pc_setR (k : Core) (i : BitVec 5) (v : Word) : (k.setR i v).pc = k.pc := by unfold Core.setR; split <;> rfl
@[simp] theorem p_setR (k : Core) (i : BitVec 5) (v : Word) : (k.setR i v).p = k.p := by unfold Core.setR; split <;> rfl
@[simp] theorem lb_setR (k : Core) (i : BitVec 5) (v : Word) : (k.setR i v).lb = k.lb := by unfold Core.setR; split <;> rfl
@[simp] theorem ctx_setR (k : Core) (i : BitVec 5) (v : Word) : (k.setR i v).ctx = k.ctx := by unfold Core.setR; split <;> rfl
@[simp] theorem ticket_setR (k : Core) (i : BitVec 5) (v : Word) : (k.setR i v).ticket = k.ticket := by
  unfold Core.setR; split <;> rfl
@[simp] theorem stopPending_setR (k : Core) (i : BitVec 5) (v : Word) : (k.setR i v).stopPending = k.stopPending := by
  unfold Core.setR; split <;> rfl

@[simp] theorem startTick_setR (k : Core) (i : BitVec 5) (v : Word) : (k.setR i v).startTick = k.startTick := by
  unfold Core.setR; split <;> rfl
@[simp] theorem startTick_setP (k : Core) (i : Nat) (v : Bool) : (k.setP i v).startTick = k.startTick := by
  unfold Core.setP; split <;> rfl

@[simp] theorem pc_setP (k : Core) (i : Nat) (v : Bool) : (k.setP i v).pc = k.pc := by unfold Core.setP; split <;> rfl
@[simp] theorem g_setP (k : Core) (i : Nat) (v : Bool) : (k.setP i v).g = k.g := by unfold Core.setP; split <;> rfl
@[simp] theorem lb_setP (k : Core) (i : Nat) (v : Bool) : (k.setP i v).lb = k.lb := by unfold Core.setP; split <;> rfl
@[simp] theorem ticket_setP (k : Core) (i : Nat) (v : Bool) : (k.setP i v).ticket = k.ticket := by unfold Core.setP; split <;> rfl
@[simp] theorem stopPending_setP (k : Core) (i : Nat) (v : Bool) : (k.setP i v).stopPending = k.stopPending := by
  unfold Core.setP; split <;> rfl

/-- g0 reads 0 whatever is written to it. -/
@[simp] theorem r_zero (k : Core) : k.r 0 = 0 := rfl
@[simp] theorem setR_zero (k : Core) (v : Word) : k.setR 0 v = k := rfl

/-! ## The frame of an instruction -/

/-- The count of retired instructions is not the limit of the watchdog. -/
theorem runLimit_bump (g : Segment) (c : Fin 18) : (g.bump (F.CUR_COUNT_RETIRED.core c)).fld (F.CUR_CTRL_RUN_LIMIT.core c) =
    g.fld (F.CUR_CTRL_RUN_LIMIT.core c) := by
  unfold Segment.fld Segment.bump Segment.bumpBy Segment.setFld
  rw [reg_setReg_ne]
  simp [Fld.core, Fld.add, F.CUR_COUNT_RETIRED, F.CUR_CTRL_RUN_LIMIT]

theorem bump_modCore (g : Segment) (c : Nat) (f : Core → Core) (x : Fld) : (g.modCore c f).bump x = (g.bump x).modCore c f := rfl

/-- A core with nothing due at its instruction boundary passes it unchanged. -/
theorem boundary_settled (s : State) (sg : Fin 8) (c : Fin 18) (h : Settled s sg c) (g : Segment) (t : Nat) (et : t = s.time)
    (e1 : (g.core c).ticket = ((s.seg sg).core c).ticket) (e2 : (g.core c).stopPending = ((s.seg sg).core c).stopPending)
    (e3 : g.trl = (s.seg sg).trl) (e4 : g.watchdog s.tick c = (s.seg sg).watchdog s.tick c) : g.boundary t c = g := by
  subst et
  unfold Segment.boundary
  cases ht : (g.core c).ticket with
  | none => simp [ht]
  | some n =>
    have same : g.ticket? n = (s.seg sg).ticket? n := by simp [Segment.ticket?, e3]
    rw [Settled, ← e1, ht] at h
    simp only [← e2, ← same, ← e4, Bool.and_eq_true, Bool.not_eq_true', Option.isNone_iff_eq_none] at h
    have e5 : g.watchdog (tickOf s.time) c = none := h.2
    simp [ht, h.1.1, h.1.2, e5]

/-- The watchdog of a core that an instruction has changed, and that has counted it, is as it was. -/
theorem watchdog_step (g : Segment) (tick : Nat) (c : Fin 18) (k : Core → Core) (hc : c.val < g.cores.length)
    (ht : ∀ x, (k x).ticket = x.ticket) (hq : ∀ x, (k x).startTick = x.startTick) :
    ((g.modCore c k).bump (F.CUR_COUNT_RETIRED.core c)).watchdog tick c = g.watchdog tick c := by
  unfold Segment.watchdog
  rw [runLimit_bump, fld_modCore, core_bump, core_modCore_same _ _ _ hc, ht, hq]

/-- An instruction that executes, is legal and is within the core's level comes to its body. -/
theorem runCore_executes (s : State) (sg : Fin 8) (c : Fin 18) (f : IFields) (op : BitVec 8) (level : Nat) (ill : Bool)
    (body : State → Core → Res) (hx : Executes s sg c f) (hi : ill = false) (hl : ¬ levelOf c < level) :
    runCore sg c op level f ill body s = .next ((body s ((s.seg sg).core c)).apply sg c op s) := by
  obtain ⟨h1, h2, h3, h4, h5, h6, h7⟩ := hx
  unfold runCore
  rw [onSeg_takes sg s _ h1]
  have awake : (16 ≤ c.val && !(s.seg sg).usable s.tick (c.val - 15)) = false := by
    by_cases h : 16 ≤ c.val
    · simp [h4 h]
    · simp [h]
  simp [h2, h3, awake, h5, h6, h7, hi, hl]

/-- An illegal form raises EX_ILLEGAL. -/
theorem runCore_illegal (s : State) (sg : Fin 8) (c : Fin 18) (f : IFields) (op : BitVec 8) (level : Nat)
    (body : State → Core → Res) (hx : Executes s sg c f) :
    runCore sg c op level f true body s = .next (s.mod sg fun g => g.raiseExc s.time c op 0x1 0) := by
  obtain ⟨h1, h2, h3, h4, h5, h6, h7⟩ := hx
  unfold runCore
  rw [onSeg_takes sg s _ h1]
  have awake : (16 ≤ c.val && !(s.seg sg).usable s.tick (c.val - 15)) = false := by
    by_cases h : 16 ≤ c.val
    · simp [h4 h]
    · simp [h]
  simp [h2, h3, awake, h5, h6, h7, Res.apply]

/-- An instruction that changes its own core and goes on is a step of that core alone. -/
theorem coreStep_go (s : State) (sg : Fin 8) (c : Fin 18) (f : IFields) (op : BitVec 8) (hx : Executes s sg c f)
    (hs : Settled s sg c) (u : Core → Core) (ht : ∀ k, (u k).ticket = k.ticket) (hp : ∀ k, (u k).stopPending = k.stopPending)
    (hq : ∀ k, (u k).startTick = k.startTick) :
    CoreStep s ((Res.go (s.modCore sg c u)).apply sg c op s) sg c
      { u ((s.seg sg).core c) with pc := (u ((s.seg sg).core c)).pc + 8 } := by
  obtain ⟨h1, h2, -⟩ := hx
  have hc : c.val < (s.seg sg).cores.length := core_present _ _ (by simp [h2])
  have hc' : c.val < ((s.seg sg).modCore c u).cores.length := by simpa [Segment.modCore] using hc
  simp only [Res.apply, State.modCore]
  rw [mod_mod _ _ _ _ h1.1]
  refine ⟨⟨by simp, rfl, rfl, rfl, rfl, fun i hi => seg_mod_ne _ _ _ _ hi⟩, ?_⟩
  rw [seg_mod_same _ _ _ h1.1, boundary_settled s sg c hs _ (s.mod sg fun g => g.modCore c u).time rfl]
  · refine ⟨?_, fun i hi => ?_, rfl⟩
    · rw [core_bump, core_modCore_same _ _ _ hc', core_modCore_same _ _ _ hc]
    · rw [core_bump, core_modCore_ne _ _ _ _ hi, core_modCore_ne _ _ _ _ hi]
  · rw [core_bump, core_modCore_same _ _ _ hc', core_modCore_same _ _ _ hc]; simp [ht]
  · rw [core_bump, core_modCore_same _ _ _ hc', core_modCore_same _ _ _ hc]; simp [hp]
  · rfl
  · refine (watchdog_step _ _ _ (fun k => { k with pc := k.pc + 8 }) hc' (fun _ => rfl) (fun _ => rfl)).trans ?_
    unfold Segment.watchdog
    rw [fld_modCore, core_modCore_same _ _ _ hc, ht, hq]

/-! ## The plain shapes -/

/-- The core that goes on to the next instruction. -/
theorem go_steps (s : State) (sg : Fin 8) (c : Fin 18) (f : IFields) (op : BitVec 8) (level : Nat) (ill : Bool)
    (body : State → Core → Res) (u : Core → Core) (hx : Executes s sg c f) (hs : Settled s sg c) (hi : ill = false)
    (hl : ¬ levelOf c < level) (hb : body s ((s.seg sg).core c) = .go (s.modCore sg c u)) (ht : ∀ k, (u k).ticket = k.ticket)
    (hp : ∀ k, (u k).stopPending = k.stopPending)
    (hq : ∀ k, (u k).startTick = k.startTick := by intro k; first | rfl | simp) :
    ∃ t, runCore sg c op level f ill body s = .next t ∧
      CoreStep s t sg c { u ((s.seg sg).core c) with pc := (u ((s.seg sg).core c)).pc + 8 } := by
  refine ⟨_, runCore_executes s sg c f op level ill body hx hi hl, ?_⟩
  rw [hb]
  exact coreStep_go s sg c f op hx hs u ht hp hq

theorem aluOp_steps (s : State) (sg : Fin 8) (c : Fin 18) (f : IFields) (op : BitVec 8) (v : Core → Word)
    (hx : Executes s sg c f) (hs : Settled s sg c) :
    ∃ t, aluOp sg c op f v s = .next t ∧
      CoreStep s t sg c { ((s.seg sg).core c).setR f.d (v ((s.seg sg).core c)) with
        pc := (((s.seg sg).core c).setR f.d (v ((s.seg sg).core c))).pc + 8 } :=
  go_steps s sg c f op 0 false _ (fun k => k.setR f.d (v ((s.seg sg).core c))) hx hs rfl (by omega) rfl (by simp) (by simp)

theorem cmpOp_steps (s : State) (sg : Fin 8) (c : Fin 18) (f : IFields) (op : BitVec 8) (t : Word → Word → Bool)
    (hx : Executes s sg c f) (hs : Settled s sg c) (hd : f.d.toNat ≤ 7) :
    ∃ u, cmpOp sg c op f t s = .next u ∧
      CoreStep s u sg c { ((s.seg sg).core c).setP f.d.toNat (t (((s.seg sg).core c).r f.a) (((s.seg sg).core c).b' f)) with
        pc := (((s.seg sg).core c).setP f.d.toNat (t (((s.seg sg).core c).r f.a) (((s.seg sg).core c).b' f))).pc + 8 } :=
  go_steps s sg c f op 0 _ _ (fun k => k.setP f.d.toNat (t (((s.seg sg).core c).r f.a) (((s.seg sg).core c).b' f))) hx hs
    (by simpa using hd) (by omega) rfl (by simp) (by simp)

theorem predOp_steps (s : State) (sg : Fin 8) (c : Fin 18) (f : IFields) (op : BitVec 8) (t : Bool → Bool → Bool)
    (hx : Executes s sg c f) (hs : Settled s sg c) (hd : f.d.toNat ≤ 7) (ha : f.a.toNat ≤ 7) (hb : f.b.toNat ≤ 7) :
    ∃ u, predOp sg c op f t s = .next u ∧
      CoreStep s u sg c { ((s.seg sg).core c).setP f.d.toNat
          (t (((s.seg sg).core c).pr f.a.toNat) (((s.seg sg).core c).pr f.b.toNat)) with
        pc := (((s.seg sg).core c).setP f.d.toNat
          (t (((s.seg sg).core c).pr f.a.toNat) (((s.seg sg).core c).pr f.b.toNat))).pc + 8 } :=
  go_steps s sg c f op 0 _ _
    (fun k => k.setP f.d.toNat (t (((s.seg sg).core c).pr f.a.toNat) (((s.seg sg).core c).pr f.b.toNat))) hx hs
    (by simp; omega) (by omega) rfl (by simp) (by simp)

theorem loadOp_steps (s : State) (sg : Fin 8) (c : Fin 18) (f : IFields) (op : BitVec 8) (n : Nat) (isSigned : Bool) (v : Word)
    (hx : Executes s sg c f) (hs : Settled s sg c) (h : lbExc ((s.seg sg).core c) (((s.seg sg).core c).ea f) n true = none)
    (hv : v = if isSigned then signed n (memNat ((s.seg sg).core c).lb (((s.seg sg).core c).ea f).toNat n)
      else BitVec.ofNat 64 (memNat ((s.seg sg).core c).lb (((s.seg sg).core c).ea f).toNat n)) :
    ∃ t, loadOp sg c op f n isSigned s = .next t ∧
      CoreStep s t sg c { ((s.seg sg).core c).setR f.d v with pc := (((s.seg sg).core c).setR f.d v).pc + 8 } :=
  go_steps s sg c f op 0 false _ (fun k => k.setR f.d v) hx hs rfl (by omega) (by simp only [h, hv]) (by simp) (by simp)

theorem storeOp_steps (s : State) (sg : Fin 8) (c : Fin 18) (f : IFields) (op : BitVec 8) (n : Nat)
    (hx : Executes s sg c f) (hs : Settled s sg c)
    (h : lbExc ((s.seg sg).core c) (((s.seg sg).core c).ea f) n (n != 8) = none) :
    ∃ t, storeOp sg c op f n s = .next t ∧
      CoreStep s t sg c { ((s.seg sg).core c).store (((s.seg sg).core c).ea f).toNat n (((s.seg sg).core c).r f.b) with
        pc := (((s.seg sg).core c).store (((s.seg sg).core c).ea f).toNat n (((s.seg sg).core c).r f.b)).pc + 8 } :=
  go_steps s sg c f op 0 false _ (fun k => k.store (((s.seg sg).core c).ea f).toNat n (((s.seg sg).core c).r f.b)) hx hs rfl
    (by omega) (by simp only [h]) (fun _ => rfl) (fun _ => rfl)

end Sys2Proof.Machine
end

