-- ==== Sys2Proof/Laws/Home.lean ====
section
/-! SUPPORT. What a request served at its home comes to. -/

namespace Sys2Proof.Machine

open Sys2Proof

/-- A served request is executed on the segment as it finds it. -/
theorem homeRun_serves (s : State) (sg : Fin 8) (idx : Nat) (kinds : List Nat) (f : Flit) (act : State → Flit → HomeAt → State)
    (h : Serves s sg idx kinds f) :
    s.homeRun sg idx kinds act = act (s.setSeg sg ((s.seg sg).serving f)) f ((s.seg sg).homeAt f) := by
  obtain ⟨-, hq, hk, hc, hb, hd, hf, ha, hm, hv⟩ := h
  obtain ⟨q, hq', rfl⟩ := Option.map_eq_some_iff.mp hq
  have ha' : ((s.seg sg).homeAt q.flit == HomeAt.away) = false := by simpa using ha
  have hd' : ¬ (q.flit.dstSeg.toNat > (s.seg sg).straps.dieCount.toNat) := by omega
  unfold State.homeRun Segment.serving
  simp only [hq', hb, hf, ha', hm, hv, hd', Bool.or_false, Bool.false_eq_true, if_false]
  rw [hk, hc]
  rfl

/-- A served request's segment is the only one that its guard word's use changes. -/
theorem seg_serving (s : State) (sg : Fin 8) (f : Flit) (h : sg.val < s.n) :
    (s.setSeg sg ((s.seg sg).serving f)).seg sg = (s.seg sg).serving f := seg_setSeg_same _ _ _ h

end Sys2Proof.Machine
end

