-- ==== Sys2Proof/Laws/Memory.lean ====
section
/-! SUPPORT. Memories: a read after a write, and the canonical form that every operation keeps. -/

namespace Sys2Proof.Machine

open Sys2Proof

/-- Every entry of a canonical memory above its first lies above the first's address. -/
theorem memWf_tail {c : Nat × Byte} {r : Memory} (h : memWf (c :: r) = true) : memWf r = true := by
  cases r with
  | nil => rfl
  | cons d r => simp [memWf] at h; exact h.2

theorem memWf_lt {k : Nat} {b : Byte} {r : Memory} (h : memWf ((k, b) :: r) = true) : ∀ c ∈ r, k < c.1 := by
  induction r generalizing k b with
  | nil => simp
  | cons d r ih =>
    obtain ⟨k', b'⟩ := d
    simp [memWf] at h
    intro c hc
    rcases List.mem_cons.mp hc with rfl | hc
    · exact h.1.2
    · exact Nat.lt_trans h.1.2 (ih h.2 c hc)

theorem memWf_head {c : Nat × Byte} {r : Memory} (h : memWf (c :: r) = true) : c.2 ≠ memDefault := by
  cases r <;> simp [memWf] at h
  · exact h
  · exact h.1.1

/-- What makes a memory canonical. -/
theorem memWf_cons {k : Nat} {b : Byte} {r : Memory} (hb : b ≠ memDefault) (hk : ∀ c ∈ r, k < c.1) (hr : memWf r = true) :
    memWf ((k, b) :: r) = true := by
  cases r with
  | nil => simp [memWf, hb]
  | cons d r => simp [memWf, hb, hk d (by simp), hr]

/-- An address below every entry reads as an unlisted one. -/
theorem memRead_below {m : Memory} {a : Nat} (h : ∀ c ∈ m, a < c.1) : memRead m a = memDefault := by
  cases m with
  | nil => rfl
  | cons d r =>
    obtain ⟨k, b⟩ := d
    have : a < k := h (k, b) (by simp)
    simp [memRead, Nat.ne_of_gt this, this]

/-- A write touches no address but its own. -/
theorem memWrite_mem {m : Memory} {a : Nat} {v : Byte} {c : Nat × Byte} (h : c ∈ memWrite m a v) : c.1 = a ∨ c ∈ m := by
  induction m with
  | nil => simp only [memWrite] at h; split at h <;> simp_all
  | cons d r ih =>
    obtain ⟨k, b⟩ := d
    simp only [memWrite] at h
    split at h
    · split at h <;> simp_all
      rcases h with rfl | rfl | h <;> simp_all
    · split at h
      · split at h <;> simp_all
        rcases h with rfl | h <;> simp_all
      · rcases List.mem_cons.mp h with rfl | h
        · simp
        · rcases ih h with e | e <;> simp [e]

/-- A write keeps the canonical form. -/
theorem memWrite_wf {m : Memory} (a : Nat) (v : Byte) (h : memWf m = true) : memWf (memWrite m a v) = true := by
  induction m with
  | nil => simp only [memWrite]; split <;> simp_all [memWf]
  | cons d r ih =>
    obtain ⟨k, b⟩ := d
    have ht := memWf_tail h
    have hl := memWf_lt h
    have hh := memWf_head h
    simp only [memWrite]
    split
    · rename_i ha
      split
      · exact h
      · rename_i hv
        refine memWf_cons hv (fun c hc => ?_) h
        rcases List.mem_cons.mp hc with rfl | hc
        · exact ha
        · exact Nat.lt_trans ha (hl c hc)
    · split
      · rename_i he
        subst he
        split
        · exact ht
        · rename_i hv
          exact memWf_cons hv hl ht
      · rename_i h1 h2
        refine memWf_cons hh (fun c hc => ?_) (ih ht)
        rcases memWrite_mem hc with e | e
        · omega
        · exact hl c e

/-- A read after a write to the same address gives the value written. -/
theorem memRead_memWrite_same {m : Memory} (a : Nat) (v : Byte) (h : memWf m = true) : memRead (memWrite m a v) a = v := by
  induction m with
  | nil => simp only [memWrite]; split <;> simp_all [memRead]
  | cons d r ih =>
    obtain ⟨k, b⟩ := d
    have ht := memWf_tail h
    have hl := memWf_lt h
    simp only [memWrite]
    split
    · rename_i ha
      split
      · rename_i hv; subst hv
        exact memRead_below fun c hc => by
          rcases List.mem_cons.mp hc with rfl | hc
          · exact ha
          · exact Nat.lt_trans ha (hl c hc)
      · simp [memRead]
    · split
      · rename_i he
        subst he
        split
        · rename_i hv; subst hv; exact memRead_below hl
        · simp [memRead]
      · rename_i h1 h2
        simp [memRead, Ne.symm h2, h1, ih ht]

/-- A read at another address is what it was. -/
theorem memRead_memWrite_ne {m : Memory} (a x : Nat) (v : Byte) (h : memWf m = true) (hx : x ≠ a) :
    memRead (memWrite m a v) x = memRead m x := by
  induction m with
  | nil =>
    simp only [memWrite]
    split
    · rfl
    · simp only [memRead, if_neg (Ne.symm hx)]; split <;> rfl
  | cons d r ih =>
    obtain ⟨k, b⟩ := d
    have ht := memWf_tail h
    have hl := memWf_lt h
    simp only [memWrite]
    split
    · rename_i ha
      split
      · rfl
      · simp only [memRead, if_neg (Ne.symm hx)]
        split
        · rename_i hlt
          have : x < k := Nat.lt_trans hlt ha
          simp [Nat.ne_of_gt this, this]
        · rfl
    · split
      · rename_i he
        subst he
        have hd : ¬ a = x := Ne.symm hx
        split
        · simp only [memRead, if_neg hd]
          split
          · rename_i hlt
            exact memRead_below fun c hc => Nat.lt_trans hlt (hl c hc)
          · rfl
        · simp only [memRead, if_neg hd]
      · simp only [memRead]
        split
        · rfl
        · split
          · rfl
          · exact ih ht

theorem memPut_wf {m : Memory} (a : Nat) (bs : List Byte) (h : memWf m = true) : memWf (memPut m a bs) = true := by
  induction bs generalizing m a with
  | nil => exact h
  | cons b r ih => exact ih _ (memWrite_wf a b h)

/-- Bytes outside those written read as before. -/
theorem memRead_memPut_out {m : Memory} (a x : Nat) (bs : List Byte) (h : memWf m = true) (hx : x < a ∨ a + bs.length ≤ x) :
    memRead (memPut m a bs) x = memRead m x := by
  induction bs generalizing m a with
  | nil => rfl
  | cons b r ih =>
    simp only [List.length_cons] at hx
    simp only [memPut]
    rw [ih (a + 1) (memWrite_wf a b h) (by omega), memRead_memWrite_ne a x b h (by omega)]

/-- Bytes written read as written. -/
theorem memRead_memPut_in {m : Memory} (a i : Nat) (bs : List Byte) (h : memWf m = true) (hi : i < bs.length) :
    memRead (memPut m a bs) (a + i) = bs[i] := by
  induction bs generalizing m a i with
  | nil => simp at hi
  | cons b r ih =>
    simp only [memPut]
    cases i with
    | zero =>
      rw [memRead_memPut_out (a + 1) (a + 0) r (memWrite_wf a b h) (by omega)]
      simpa using memRead_memWrite_same a b h
    | succ i =>
      have := ih (m := memWrite m a b) (a + 1) i (memWrite_wf a b h) (by simpa using hi)
      simpa [Nat.add_assoc, Nat.add_comm 1 i] using this

/-- A run of bytes written reads back whole. -/
theorem memBytes_memPut {m : Memory} (a : Nat) (bs : List Byte) (h : memWf m = true) :
    memBytes (memPut m a bs) a bs.length = bs := by
  apply List.ext_getElem
  · simp [memBytes]
  · intro i h1 h2
    simp [memBytes, memRead_memPut_in a i bs h h2]

theorem memPutMask_wf {m : Memory} (a : Nat) (ss : List Bool) (bs : List Byte) (h : memWf m = true) :
    memWf (memPutMask m a ss bs) = true := by
  induction ss generalizing m a bs with
  | nil => exact h
  | cons s ss ih =>
    cases bs with
    | nil => exact h
    | cons b bs =>
      simp only [memPutMask]
      refine ih _ _ ?_
      split
      · exact memWrite_wf a b h
      · exact h

/-- A part of a canonical memory chosen entry by entry is canonical. -/
theorem memWf_filter {m : Memory} (p : Nat × Byte → Bool) (h : memWf m = true) : memWf (m.filter p) = true := by
  induction m with
  | nil => rfl
  | cons d r ih =>
    obtain ⟨k, b⟩ := d
    have ht := ih (memWf_tail h)
    simp only [List.filter_cons]
    split
    · exact memWf_cons (memWf_head h) (fun c hc => memWf_lt h c (List.mem_filter.mp hc).1) ht
    · exact ht

theorem memZero_wf {m : Memory} (a n : Nat) (h : memWf m = true) : memWf (memZero m a n) = true := memWf_filter _ h

/-- Two canonical memories one above the other. -/
theorem memWf_append {m n : Memory} (hm : memWf m = true) (hn : memWf n = true) (h : ∀ c ∈ m, ∀ d ∈ n, c.1 < d.1) :
    memWf (m ++ n) = true := by
  induction m with
  | nil => exact hn
  | cons d r ih =>
    obtain ⟨k, b⟩ := d
    refine memWf_cons (memWf_head hm) (fun c hc => ?_) (ih (memWf_tail hm) fun c hc => h c (by simp [hc]))
    rcases List.mem_append.mp hc with hc | hc
    · exact memWf_lt hm c hc
    · exact h (k, b) (by simp) c hc

/-- A canonical memory moved up or down as a whole. -/
theorem memWf_shift {m : Memory} (f : Nat → Nat) (h : memWf m = true) (hf : ∀ c ∈ m, ∀ d ∈ m, c.1 < d.1 → f c.1 < f d.1) :
    memWf (m.map fun c => (f c.1, c.2)) = true := by
  induction m with
  | nil => rfl
  | cons d r ih =>
    obtain ⟨k, b⟩ := d
    refine memWf_cons (memWf_head h) (fun c hc => ?_) (ih (memWf_tail h) fun c hc d hd => hf c (by simp [hc]) d (by simp [hd]))
    obtain ⟨d, hd, rfl⟩ := List.mem_map.mp hc
    exact hf (k, b) (by simp) d (by simp [hd]) (memWf_lt h d hd)

theorem memCopy_wf {dst src : Memory} (at_ a n : Nat) (hd : memWf dst = true) (hs : memWf src = true) :
    memWf (memCopy dst at_ src a n) = true := by
  unfold memCopy
  have hb : memWf ((src.filter fun c => a ≤ c.1 && c.1 < a + n).map fun c => (c.1 - a + at_, c.2)) = true := by
    refine memWf_shift (fun x => x - a + at_) (memWf_filter _ hs) fun c hc d hd hlt => ?_
    have := (List.mem_filter.mp hc).2
    simp at this ⊢
    omega
  refine memWf_append (memWf_append (memWf_filter _ hd) hb ?_) (memWf_filter _ hd) ?_
  · intro c hc d hd
    have h1 := (List.mem_filter.mp hc).2
    obtain ⟨x, hx, rfl⟩ := List.mem_map.mp hd
    simp at h1 ⊢
    omega
  · intro c hc d hd
    have h2 := (List.mem_filter.mp hd).2
    simp at h2
    rcases List.mem_append.mp hc with hc | hc
    · have h1 := (List.mem_filter.mp hc).2
      simp at h1
      omega
    · obtain ⟨x, hx, rfl⟩ := List.mem_map.mp hc
      have h1 := (List.mem_filter.mp hx).2
      simp at h1 ⊢
      omega

end Sys2Proof.Machine
end

