-- ==== Sys2Proof/Laws/Segment.lean ====
section
/-! SUPPORT. Registers and the other fields of a segment are apart: an update of a field leaves every register, and a write of a
register leaves every other field. -/

namespace Sys2Proof.Machine

open Sys2Proof

/-! ## An update of a field leaves the registers -/

@[simp] theorem reg_with_hbm (g : Segment) (x : Memory) (o : Nat) : ({ g with hbm := x } : Segment).reg o = g.reg o := rfl
@[simp] theorem fld_with_hbm (g : Segment) (x : Memory) (f : Fld) : ({ g with hbm := x } : Segment).fld f = g.fld f := rfl

@[simp] theorem reg_with_sp (g : Segment) (x : Memory) (o : Nat) : ({ g with sp := x } : Segment).reg o = g.reg o := rfl
@[simp] theorem fld_with_sp (g : Segment) (x : Memory) (f : Fld) : ({ g with sp := x } : Segment).fld f = g.fld f := rfl

@[simp] theorem reg_with_acc (g : Segment) (x : Access) (o : Nat) : ({ g with acc := x } : Segment).reg o = g.reg o := rfl
@[simp] theorem fld_with_acc (g : Segment) (x : Access) (f : Fld) : ({ g with acc := x } : Segment).fld f = g.fld f := rfl

@[simp] theorem reg_with_captures (g : Segment) (x : List Capture) (o : Nat) : ({ g with captures := x } : Segment).reg o = g.reg o := rfl
@[simp] theorem fld_with_captures (g : Segment) (x : List Capture) (f : Fld) : ({ g with captures := x } : Segment).fld f = g.fld f := rfl

@[simp] theorem reg_with_bridge (g : Segment) (x : List BridgeEnd) (o : Nat) : ({ g with bridge := x } : Segment).reg o = g.reg o := rfl
@[simp] theorem fld_with_bridge (g : Segment) (x : List BridgeEnd) (f : Fld) : ({ g with bridge := x } : Segment).fld f = g.fld f := rfl

@[simp] theorem reg_with_txn (g : Segment) (x : Txn) (o : Nat) : ({ g with txn := x } : Segment).reg o = g.reg o := rfl
@[simp] theorem fld_with_txn (g : Segment) (x : Txn) (f : Fld) : ({ g with txn := x } : Segment).fld f = g.fld f := rfl

@[simp] theorem reg_with_cores (g : Segment) (x : List Core) (o : Nat) : ({ g with cores := x } : Segment).reg o = g.reg o := rfl
@[simp] theorem fld_with_cores (g : Segment) (x : List Core) (f : Fld) : ({ g with cores := x } : Segment).fld f = g.fld f := rfl

@[simp] theorem reg_with_trl (g : Segment) (x : Trl) (o : Nat) : ({ g with trl := x } : Segment).reg o = g.reg o := rfl
@[simp] theorem fld_with_trl (g : Segment) (x : Trl) (f : Fld) : ({ g with trl := x } : Segment).fld f = g.fld f := rfl

@[simp] theorem reg_with_xlt (g : Segment) (x : Xlt) (o : Nat) : ({ g with xlt := x } : Segment).reg o = g.reg o := rfl
@[simp] theorem fld_with_xlt (g : Segment) (x : Xlt) (f : Fld) : ({ g with xlt := x } : Segment).fld f = g.fld f := rfl

@[simp] theorem reg_with_plc (g : Segment) (x : Plc) (o : Nat) : ({ g with plc := x } : Segment).reg o = g.reg o := rfl
@[simp] theorem fld_with_plc (g : Segment) (x : Plc) (f : Fld) : ({ g with plc := x } : Segment).fld f = g.fld f := rfl

@[simp] theorem reg_with_groups (g : Segment) (x : List Grp) (o : Nat) : ({ g with groups := x } : Segment).reg o = g.reg o := rfl
@[simp] theorem fld_with_groups (g : Segment) (x : List Grp) (f : Fld) : ({ g with groups := x } : Segment).fld f = g.fld f := rfl

@[simp] theorem reg_with_stile (g : Segment) (x : List Formed) (o : Nat) : ({ g with stile := x } : Segment).reg o = g.reg o := rfl
@[simp] theorem fld_with_stile (g : Segment) (x : List Formed) (f : Fld) : ({ g with stile := x } : Segment).fld f = g.fld f := rfl

@[simp] theorem reg_with_red (g : Segment) (x : Red) (o : Nat) : ({ g with red := x } : Segment).reg o = g.reg o := rfl
@[simp] theorem fld_with_red (g : Segment) (x : Red) (f : Fld) : ({ g with red := x } : Segment).fld f = g.fld f := rfl

@[simp] theorem reg_with_hmp (g : Segment) (x : Hmp) (o : Nat) : ({ g with hmp := x } : Segment).reg o = g.reg o := rfl
@[simp] theorem fld_with_hmp (g : Segment) (x : Hmp) (f : Fld) : ({ g with hmp := x } : Segment).fld f = g.fld f := rfl

@[simp] theorem reg_with_flt (g : Segment) (x : FaultUnit) (o : Nat) : ({ g with flt := x } : Segment).reg o = g.reg o := rfl
@[simp] theorem fld_with_flt (g : Segment) (x : FaultUnit) (f : Fld) : ({ g with flt := x } : Segment).fld f = g.fld f := rfl

@[simp] theorem reg_with_kpr (g : Segment) (x : Kpr) (o : Nat) : ({ g with kpr := x } : Segment).reg o = g.reg o := rfl
@[simp] theorem fld_with_kpr (g : Segment) (x : Kpr) (f : Fld) : ({ g with kpr := x } : Segment).fld f = g.fld f := rfl

@[simp] theorem reg_with_rte (g : Segment) (x : Rte) (o : Nat) : ({ g with rte := x } : Segment).reg o = g.reg o := rfl
@[simp] theorem fld_with_rte (g : Segment) (x : Rte) (f : Fld) : ({ g with rte := x } : Segment).fld f = g.fld f := rfl

@[simp] theorem reg_with_pwr (g : Segment) (x : Pwr) (o : Nat) : ({ g with pwr := x } : Segment).reg o = g.reg o := rfl
@[simp] theorem fld_with_pwr (g : Segment) (x : Pwr) (f : Fld) : ({ g with pwr := x } : Segment).fld f = g.fld f := rfl

@[simp] theorem reg_with_ports (g : Segment) (x : List Port) (o : Nat) : ({ g with ports := x } : Segment).reg o = g.reg o := rfl
@[simp] theorem fld_with_ports (g : Segment) (x : List Port) (f : Fld) : ({ g with ports := x } : Segment).fld f = g.fld f := rfl

@[simp] theorem reg_with_boot (g : Segment) (x : Boot) (o : Nat) : ({ g with boot := x } : Segment).reg o = g.reg o := rfl
@[simp] theorem fld_with_boot (g : Segment) (x : Boot) (f : Fld) : ({ g with boot := x } : Segment).fld f = g.fld f := rfl

@[simp] theorem reg_with_mbx (g : Segment) (x : List Mbx) (o : Nat) : ({ g with mbx := x } : Segment).reg o = g.reg o := rfl
@[simp] theorem fld_with_mbx (g : Segment) (x : List Mbx) (f : Fld) : ({ g with mbx := x } : Segment).fld f = g.fld f := rfl

@[simp] theorem reg_with_tel (g : Segment) (x : Tel) (o : Nat) : ({ g with tel := x } : Segment).reg o = g.reg o := rfl
@[simp] theorem fld_with_tel (g : Segment) (x : Tel) (f : Fld) : ({ g with tel := x } : Segment).fld f = g.fld f := rfl

@[simp] theorem reg_with_jtag (g : Segment) (x : Jtag) (o : Nat) : ({ g with jtag := x } : Segment).reg o = g.reg o := rfl
@[simp] theorem fld_with_jtag (g : Segment) (x : Jtag) (f : Fld) : ({ g with jtag := x } : Segment).fld f = g.fld f := rfl

@[simp] theorem reg_with_leftRings (g : Segment) (x : List (BitVec 12 × Ring)) (o : Nat) : ({ g with leftRings := x } : Segment).reg o = g.reg o := rfl
@[simp] theorem fld_with_leftRings (g : Segment) (x : List (BitVec 12 × Ring)) (f : Fld) : ({ g with leftRings := x } : Segment).fld f = g.fld f := rfl

@[simp] theorem reg_with_mbxWas (g : Segment) (x : List (Nat × Mbx)) (o : Nat) : ({ g with mbxWas := x } : Segment).reg o = g.reg o := rfl
@[simp] theorem fld_with_mbxWas (g : Segment) (x : List (Nat × Mbx)) (f : Fld) : ({ g with mbxWas := x } : Segment).fld f = g.fld f := rfl

@[simp] theorem reg_with_hwSet (g : Segment) (x : List (Nat × Word)) (o : Nat) : ({ g with hwSet := x } : Segment).reg o = g.reg o := rfl
@[simp] theorem fld_with_hwSet (g : Segment) (x : List (Nat × Word)) (f : Fld) : ({ g with hwSet := x } : Segment).fld f = g.fld f := rfl

@[simp] theorem reg_with_swSet (g : Segment) (x : List SwWrite) (o : Nat) : ({ g with swSet := x } : Segment).reg o = g.reg o := rfl
@[simp] theorem fld_with_swSet (g : Segment) (x : List SwWrite) (f : Fld) : ({ g with swSet := x } : Segment).fld f = g.fld f := rfl

/-! ## A write of a register leaves the other fields -/

theorem straps_setReg (g : Segment) (o : Nat) (w : Word) : (g.setReg o w).straps = g.straps := rfl
theorem hbmSize_setReg (g : Segment) (o : Nat) (w : Word) : (g.setReg o w).hbmSize = g.hbmSize := rfl
theorem spSize_setReg (g : Segment) (o : Nat) (w : Word) : (g.setReg o w).spSize = g.spSize := rfl
theorem sp_setReg (g : Segment) (o : Nat) (w : Word) : (g.setReg o w).sp = g.sp := rfl
theorem acc_setReg (g : Segment) (o : Nat) (w : Word) : (g.setReg o w).acc = g.acc := rfl
theorem captures_setReg (g : Segment) (o : Nat) (w : Word) : (g.setReg o w).captures = g.captures := rfl
theorem bridge_setReg (g : Segment) (o : Nat) (w : Word) : (g.setReg o w).bridge = g.bridge := rfl
theorem txn_setReg (g : Segment) (o : Nat) (w : Word) : (g.setReg o w).txn = g.txn := rfl
theorem trl_setReg (g : Segment) (o : Nat) (w : Word) : (g.setReg o w).trl = g.trl := rfl
theorem xlt_setReg (g : Segment) (o : Nat) (w : Word) : (g.setReg o w).xlt = g.xlt := rfl
theorem plc_setReg (g : Segment) (o : Nat) (w : Word) : (g.setReg o w).plc = g.plc := rfl
theorem groups_setReg (g : Segment) (o : Nat) (w : Word) : (g.setReg o w).groups = g.groups := rfl
theorem stile_setReg (g : Segment) (o : Nat) (w : Word) : (g.setReg o w).stile = g.stile := rfl
theorem red_setReg (g : Segment) (o : Nat) (w : Word) : (g.setReg o w).red = g.red := rfl
theorem hmp_setReg (g : Segment) (o : Nat) (w : Word) : (g.setReg o w).hmp = g.hmp := rfl
theorem flt_setReg (g : Segment) (o : Nat) (w : Word) : (g.setReg o w).flt = g.flt := rfl
theorem kpr_setReg (g : Segment) (o : Nat) (w : Word) : (g.setReg o w).kpr = g.kpr := rfl
theorem rte_setReg (g : Segment) (o : Nat) (w : Word) : (g.setReg o w).rte = g.rte := rfl
theorem pwr_setReg (g : Segment) (o : Nat) (w : Word) : (g.setReg o w).pwr = g.pwr := rfl
theorem ports_setReg (g : Segment) (o : Nat) (w : Word) : (g.setReg o w).ports = g.ports := rfl
theorem boot_setReg (g : Segment) (o : Nat) (w : Word) : (g.setReg o w).boot = g.boot := rfl
theorem mbx_setReg (g : Segment) (o : Nat) (w : Word) : (g.setReg o w).mbx = g.mbx := rfl
theorem tel_setReg (g : Segment) (o : Nat) (w : Word) : (g.setReg o w).tel = g.tel := rfl
theorem jtag_setReg (g : Segment) (o : Nat) (w : Word) : (g.setReg o w).jtag = g.jtag := rfl
theorem leftRings_setReg (g : Segment) (o : Nat) (w : Word) : (g.setReg o w).leftRings = g.leftRings := rfl
theorem mbxWas_setReg (g : Segment) (o : Nat) (w : Word) : (g.setReg o w).mbxWas = g.mbxWas := rfl
theorem hwSet_setReg (g : Segment) (o : Nat) (w : Word) : (g.setReg o w).hwSet = g.hwSet := rfl
theorem swSet_setReg (g : Segment) (o : Nat) (w : Word) : (g.setReg o w).swSet = g.swSet := rfl
theorem levels_setReg (g : Segment) (o : Nat) (w : Word) : (g.setReg o w).levels = g.levels := rfl
theorem straps_setFld (g : Segment) (x : Fld) (n : Nat) : (g.setFld x n).straps = g.straps := rfl
theorem hbmSize_setFld (g : Segment) (x : Fld) (n : Nat) : (g.setFld x n).hbmSize = g.hbmSize := rfl
theorem spSize_setFld (g : Segment) (x : Fld) (n : Nat) : (g.setFld x n).spSize = g.spSize := rfl
theorem hbm_setFld (g : Segment) (x : Fld) (n : Nat) : (g.setFld x n).hbm = g.hbm := rfl
theorem sp_setFld (g : Segment) (x : Fld) (n : Nat) : (g.setFld x n).sp = g.sp := rfl
theorem acc_setFld (g : Segment) (x : Fld) (n : Nat) : (g.setFld x n).acc = g.acc := rfl
theorem captures_setFld (g : Segment) (x : Fld) (n : Nat) : (g.setFld x n).captures = g.captures := rfl
theorem bridge_setFld (g : Segment) (x : Fld) (n : Nat) : (g.setFld x n).bridge = g.bridge := rfl
theorem txn_setFld (g : Segment) (x : Fld) (n : Nat) : (g.setFld x n).txn = g.txn := rfl
theorem cores_setFld (g : Segment) (x : Fld) (n : Nat) : (g.setFld x n).cores = g.cores := rfl
theorem trl_setFld (g : Segment) (x : Fld) (n : Nat) : (g.setFld x n).trl = g.trl := rfl
theorem xlt_setFld (g : Segment) (x : Fld) (n : Nat) : (g.setFld x n).xlt = g.xlt := rfl
theorem plc_setFld (g : Segment) (x : Fld) (n : Nat) : (g.setFld x n).plc = g.plc := rfl
theorem groups_setFld (g : Segment) (x : Fld) (n : Nat) : (g.setFld x n).groups = g.groups := rfl
theorem stile_setFld (g : Segment) (x : Fld) (n : Nat) : (g.setFld x n).stile = g.stile := rfl
theorem red_setFld (g : Segment) (x : Fld) (n : Nat) : (g.setFld x n).red = g.red := rfl
theorem hmp_setFld (g : Segment) (x : Fld) (n : Nat) : (g.setFld x n).hmp = g.hmp := rfl
theorem flt_setFld (g : Segment) (x : Fld) (n : Nat) : (g.setFld x n).flt = g.flt := rfl
theorem kpr_setFld (g : Segment) (x : Fld) (n : Nat) : (g.setFld x n).kpr = g.kpr := rfl
theorem rte_setFld (g : Segment) (x : Fld) (n : Nat) : (g.setFld x n).rte = g.rte := rfl
theorem pwr_setFld (g : Segment) (x : Fld) (n : Nat) : (g.setFld x n).pwr = g.pwr := rfl
theorem ports_setFld (g : Segment) (x : Fld) (n : Nat) : (g.setFld x n).ports = g.ports := rfl
theorem boot_setFld (g : Segment) (x : Fld) (n : Nat) : (g.setFld x n).boot = g.boot := rfl
theorem mbx_setFld (g : Segment) (x : Fld) (n : Nat) : (g.setFld x n).mbx = g.mbx := rfl
theorem tel_setFld (g : Segment) (x : Fld) (n : Nat) : (g.setFld x n).tel = g.tel := rfl
theorem jtag_setFld (g : Segment) (x : Fld) (n : Nat) : (g.setFld x n).jtag = g.jtag := rfl
theorem leftRings_setFld (g : Segment) (x : Fld) (n : Nat) : (g.setFld x n).leftRings = g.leftRings := rfl
theorem mbxWas_setFld (g : Segment) (x : Fld) (n : Nat) : (g.setFld x n).mbxWas = g.mbxWas := rfl
theorem hwSet_setFld (g : Segment) (x : Fld) (n : Nat) : (g.setFld x n).hwSet = g.hwSet := rfl
theorem swSet_setFld (g : Segment) (x : Fld) (n : Nat) : (g.setFld x n).swSet = g.swSet := rfl
theorem levels_setFld (g : Segment) (x : Fld) (n : Nat) : (g.setFld x n).levels = g.levels := rfl
theorem straps_bumpBy (g : Segment) (x : Fld) (n : Nat) : (g.bumpBy x n).straps = g.straps := rfl
theorem hbmSize_bumpBy (g : Segment) (x : Fld) (n : Nat) : (g.bumpBy x n).hbmSize = g.hbmSize := rfl
theorem spSize_bumpBy (g : Segment) (x : Fld) (n : Nat) : (g.bumpBy x n).spSize = g.spSize := rfl
theorem hbm_bumpBy (g : Segment) (x : Fld) (n : Nat) : (g.bumpBy x n).hbm = g.hbm := rfl
theorem sp_bumpBy (g : Segment) (x : Fld) (n : Nat) : (g.bumpBy x n).sp = g.sp := rfl
theorem acc_bumpBy (g : Segment) (x : Fld) (n : Nat) : (g.bumpBy x n).acc = g.acc := rfl
theorem captures_bumpBy (g : Segment) (x : Fld) (n : Nat) : (g.bumpBy x n).captures = g.captures := rfl
theorem bridge_bumpBy (g : Segment) (x : Fld) (n : Nat) : (g.bumpBy x n).bridge = g.bridge := rfl
theorem txn_bumpBy (g : Segment) (x : Fld) (n : Nat) : (g.bumpBy x n).txn = g.txn := rfl
theorem cores_bumpBy (g : Segment) (x : Fld) (n : Nat) : (g.bumpBy x n).cores = g.cores := rfl
theorem trl_bumpBy (g : Segment) (x : Fld) (n : Nat) : (g.bumpBy x n).trl = g.trl := rfl
theorem xlt_bumpBy (g : Segment) (x : Fld) (n : Nat) : (g.bumpBy x n).xlt = g.xlt := rfl
theorem plc_bumpBy (g : Segment) (x : Fld) (n : Nat) : (g.bumpBy x n).plc = g.plc := rfl
theorem groups_bumpBy (g : Segment) (x : Fld) (n : Nat) : (g.bumpBy x n).groups = g.groups := rfl
theorem stile_bumpBy (g : Segment) (x : Fld) (n : Nat) : (g.bumpBy x n).stile = g.stile := rfl
theorem red_bumpBy (g : Segment) (x : Fld) (n : Nat) : (g.bumpBy x n).red = g.red := rfl
theorem hmp_bumpBy (g : Segment) (x : Fld) (n : Nat) : (g.bumpBy x n).hmp = g.hmp := rfl
theorem flt_bumpBy (g : Segment) (x : Fld) (n : Nat) : (g.bumpBy x n).flt = g.flt := rfl
theorem kpr_bumpBy (g : Segment) (x : Fld) (n : Nat) : (g.bumpBy x n).kpr = g.kpr := rfl
theorem rte_bumpBy (g : Segment) (x : Fld) (n : Nat) : (g.bumpBy x n).rte = g.rte := rfl
theorem pwr_bumpBy (g : Segment) (x : Fld) (n : Nat) : (g.bumpBy x n).pwr = g.pwr := rfl
theorem ports_bumpBy (g : Segment) (x : Fld) (n : Nat) : (g.bumpBy x n).ports = g.ports := rfl
theorem boot_bumpBy (g : Segment) (x : Fld) (n : Nat) : (g.bumpBy x n).boot = g.boot := rfl
theorem mbx_bumpBy (g : Segment) (x : Fld) (n : Nat) : (g.bumpBy x n).mbx = g.mbx := rfl
theorem tel_bumpBy (g : Segment) (x : Fld) (n : Nat) : (g.bumpBy x n).tel = g.tel := rfl
theorem jtag_bumpBy (g : Segment) (x : Fld) (n : Nat) : (g.bumpBy x n).jtag = g.jtag := rfl
theorem leftRings_bumpBy (g : Segment) (x : Fld) (n : Nat) : (g.bumpBy x n).leftRings = g.leftRings := rfl
theorem mbxWas_bumpBy (g : Segment) (x : Fld) (n : Nat) : (g.bumpBy x n).mbxWas = g.mbxWas := rfl
theorem hwSet_bumpBy (g : Segment) (x : Fld) (n : Nat) : (g.bumpBy x n).hwSet = g.hwSet := rfl
theorem swSet_bumpBy (g : Segment) (x : Fld) (n : Nat) : (g.bumpBy x n).swSet = g.swSet := rfl
theorem levels_bumpBy (g : Segment) (x : Fld) (n : Nat) : (g.bumpBy x n).levels = g.levels := rfl
theorem straps_bump (g : Segment) (x : Fld) : (g.bump x).straps = g.straps := rfl
theorem hbmSize_bump (g : Segment) (x : Fld) : (g.bump x).hbmSize = g.hbmSize := rfl
theorem spSize_bump (g : Segment) (x : Fld) : (g.bump x).spSize = g.spSize := rfl
theorem hbm_bump (g : Segment) (x : Fld) : (g.bump x).hbm = g.hbm := rfl
theorem sp_bump (g : Segment) (x : Fld) : (g.bump x).sp = g.sp := rfl
theorem acc_bump (g : Segment) (x : Fld) : (g.bump x).acc = g.acc := rfl
theorem captures_bump (g : Segment) (x : Fld) : (g.bump x).captures = g.captures := rfl
theorem bridge_bump (g : Segment) (x : Fld) : (g.bump x).bridge = g.bridge := rfl
theorem cores_bump (g : Segment) (x : Fld) : (g.bump x).cores = g.cores := rfl
theorem xlt_bump (g : Segment) (x : Fld) : (g.bump x).xlt = g.xlt := rfl
theorem plc_bump (g : Segment) (x : Fld) : (g.bump x).plc = g.plc := rfl
theorem groups_bump (g : Segment) (x : Fld) : (g.bump x).groups = g.groups := rfl
theorem stile_bump (g : Segment) (x : Fld) : (g.bump x).stile = g.stile := rfl
theorem red_bump (g : Segment) (x : Fld) : (g.bump x).red = g.red := rfl
theorem hmp_bump (g : Segment) (x : Fld) : (g.bump x).hmp = g.hmp := rfl
theorem flt_bump (g : Segment) (x : Fld) : (g.bump x).flt = g.flt := rfl
theorem kpr_bump (g : Segment) (x : Fld) : (g.bump x).kpr = g.kpr := rfl
theorem rte_bump (g : Segment) (x : Fld) : (g.bump x).rte = g.rte := rfl
theorem pwr_bump (g : Segment) (x : Fld) : (g.bump x).pwr = g.pwr := rfl
theorem ports_bump (g : Segment) (x : Fld) : (g.bump x).ports = g.ports := rfl
theorem boot_bump (g : Segment) (x : Fld) : (g.bump x).boot = g.boot := rfl
theorem mbx_bump (g : Segment) (x : Fld) : (g.bump x).mbx = g.mbx := rfl
theorem tel_bump (g : Segment) (x : Fld) : (g.bump x).tel = g.tel := rfl
theorem jtag_bump (g : Segment) (x : Fld) : (g.bump x).jtag = g.jtag := rfl
theorem leftRings_bump (g : Segment) (x : Fld) : (g.bump x).leftRings = g.leftRings := rfl
theorem mbxWas_bump (g : Segment) (x : Fld) : (g.bump x).mbxWas = g.mbxWas := rfl
theorem hwSet_bump (g : Segment) (x : Fld) : (g.bump x).hwSet = g.hwSet := rfl
theorem swSet_bump (g : Segment) (x : Fld) : (g.bump x).swSet = g.swSet := rfl
theorem levels_bump (g : Segment) (x : Fld) : (g.bump x).levels = g.levels := rfl

end Sys2Proof.Machine
end

