-- ==== Sys2Proof/Tests/Slice0.lean ====
section
/-! SUPPORT. The model's own tests: ill-formed commands, instruction words, worked examples of the spec, and for every statement
with hypotheses a state and operands that meet them together, clause by clause. -/

namespace Sys2Proof.Tests

set_option Elab.async false
set_option linter.unusedVariables false
set_option linter.unusedSimpArgs false

open Sys2Proof Sys2Proof.Machine

/-- The keeper, the steward and a host driver on segment 0, context 0. -/
def kp : Agent := { cls := .keeper, seg := 0, ctx := 0 }
def sw : Agent := { cls := .steward, seg := 0, ctx := 0 }
def hd : Agent := { cls := .hostDriver, seg := 0, ctx := 0 }

/-- The reset package with its first segment changed so. -/
def die0 (f : Segment → Segment) : State := State.reset.mod 0 f

/-- A booted segment whose domains are awake. -/
def live (g : Segment) : Segment :=
  let g := ((g.setStage 7).setFld F.PWR_DOMAIN_REQ_REQ (2 ^ 35 - 1)).setFld F.PWR_DOMAIN_STATE_AWAKE (2 ^ 35 - 1)
  { g with boot := { g.boot with pllAt := some 0 } }

/-- A package at a cycle, its first segment booted and changed so. -/
def run (t : Nat) (f : Segment → Segment) : State := ({ State.reset with time := t } : State).mod 0 fun g => f (live g)

/-- A request of a host lies taken in channel 0, with its record at 64. -/
def asked (notice : BitVec 16) (b : List Byte) (g : Segment) : Segment :=
  { g.put 0 64 b with mbx := g.mbx.set 0 { st := .taken, notice := notice, sender := some hd, msgPtr := 64 } }

/-- A target-channel request. -/
def dq (addr : Word) (size : BitVec 3) : DptReq :=
  { ch := false, id := 5, ctx := 0, addr := addr, size := size, data := List.replicate 128 0, strb := List.replicate 128 true }

/-- A flit of segment 0 with this kind, line and payload. -/
def fl (kind : BitVec 5) (line : BitVec 39) (payload : List Byte) : Flit :=
  { (default : Flit) with kind := kind, line := line, tag := 7, payload := padTo 128 payload }

/-- The fields of an instruction word that is not guarded off. -/
def fi (d a b : BitVec 5) (imm : BitVec 37) : IFields := { d := d, a := a, b := b, pred := 0, inv := false, imm := imm }

/-- The keeper core runs, changed so. -/
def rk (k : Core → Core) : State := run 0 fun g => g.modCore 16 k

/-- Registers g1, g2 and g3. -/
def gs (x y z : Word) : List Word := [0, x, y, z] ++ List.replicate 28 0

def aTrail : Trail := { slot := 1, tickets := [], ticketsVa := 0, count := 9, ctx := 0, line := 0, endIrq := false, cq := {} }
def aTicket : Ticket := { (default : Ticket) with n := 3, trail := 1, index := 0, st := .running, slots := List.replicate 16 {} }

/-- Courier 0 runs ticket 3 of trail 1, in context 0. -/
def couriers (g : Segment) : Segment :=
  let g := { g with trl := { g.trl with trails := [aTrail], tickets := [aTicket] } }
  g.modCore 0 fun k => { k with st := .running, ticket := some 3, pc := 0x10000, codeLimit := 0x20000 }

/-- The same, courier 0 and its segment changed so. -/
def rc (k : Core → Core) (f : Segment → Segment := id) : State := run 0 fun g => f ((couriers g).modCore 0 k)

/-- The cached range of context 0: 1 MiB at context address 0 that lies at 1 MiB of the HBM, with every permission. -/
def aRange : RangeEntry := { ctx := 0, va := 0, len := 0x100000, target := 0x100000, perm := 7 }
def mapped (g : Segment) : Segment := { g with xlt := { g.xlt with sysValid := true, cache := [aRange] } }
def pc (va n : Nat) : Piece := { va := va, len := n, ga := 0x100000 + va, count := true, entVa := 0, entLen := 0x100000 }

/-- A descriptor of these fields (value, bytes) at the start of the lunchbox. -/
def lb (l : List (Nat × Nat)) : Memory := memPut [] 0 (l.flatMap fun x => natBytes x.1 x.2)

/-- The fields of a one-axis shape of `n` elements of four bytes, from context address 0 to 0x1000. -/
def shapeOf (n : Nat) : List (Nat × Nat) :=
  [(1, 1), (2, 1), (0, 6), (0, 8), (0x1000, 8), (0, 40), (n, 4), (n, 4), (n, 4), (n, 4), (0, 4), (0, 4), (4, 8), (4, 8)]

/-- Group 5 of two members in context 0, this segment of rank 0 and root. -/
def aGrp : Grp := { num := 5, st := .ready, members := [0, 0x8000], single := { parent := none, children := [1], root := 0, leaves := [1] } }
def grouped (x : Grp) (g : Segment) : Segment := { g with groups := [x] }

/-- The next state of an outcome, compared as data. -/
def same (o : Host.Outcome State Fault Refusal) (t : State) : Bool := match o with | .next s => s == t | _ => false
theorem eq_of_same {o : Host.Outcome State Fault Refusal} {t : State} (h : same o t = true) : o = .next t := by
  cases o <;> simp_all [same]

/-- A driver of context 1. -/
def h1 : Agent := { cls := .hostDriver, seg := 0, ctx := 1 }

/-- Descriptors of ticket 3's slot 1. -/
def desc (b : Body) (total : Nat) : Desc :=
  { idx := 0, serial := 0, owner := .ticket 3, slot := some 1, core := 0, ctx := 0, body := b, total := total }
def described (d : Desc) (g : Segment) : Segment := { g with trl := { g.trl with descs := [d] } }
def tickets (l : List Ticket) (g : Segment) : Segment := { g with trl := { g.trl with tickets := l } }
def trails (l : List Trail) (g : Segment) : Segment := { g with trl := { g.trl with trails := l } }

def aShape : Shape := { elem := 2, pad := 0, srcBase := 0, dstBase := 0x1000, sigAddr := none, padValue := [0, 0, 0, 0], counts := [16], axes := [{ srcExt := 16, dstExt := 16, win := 16, tile := 16, srcOrg := 0, dstOrg := 0, srcStride := 4, dstStride := 4 }] }
def aOp : COp := { (default : COp) with code := 0x58, d := { redop := 1, inF := 1, carryF := 1, outF := 1, count := 8 } }
def aHead : Head := { op := aOp, large := true, chunks := 5, per := 2, next := [0], progress := 0 }
/-- The group active with a head operation. -/
def busy (h : Head) (f : Grp → Grp := id) : Grp := f { aGrp with st := .active, head := some h, trees := [{ parent := none, children := [1], root := 0 }] }
/-- A flit of group 5 from its other member waits at the collective unit. -/
def colFl (kind : BitVec 5) (payload : List Byte) : Flit := { fl kind (BitVec.ofNat 39 (5 * 2 ^ 27)) payload with srcSeg := 1 }
def ejected (f : List Flit) (g : Segment) : Segment := { g with rte := { g.rte with ejX := f.map fun x => { flit := x, at_ := 0 } } }
def aHeld : Held := { dst := 1, kind := 0x18, serial := 0, tree := 0, c := 0, flits := [], last := 0 }

def aResident : Resident := { (default : Resident) with ctx := 1 }
def resident (r : Resident) (g : Segment) : Segment := { g with xlt := { g.xlt with resident := [r] } }
/-- Port `p` changed so; a frame of a type whose first slot begins so. -/
def ported (p : Nat) (f : Port → Port) (g : Segment) : Segment := g.modPort p f
def fr (typ : BitVec 3) (slot : List Byte) : Frame := { (default : Frame) with typ := typ, slot0 := padTo 144 slot, slot1 := padTo 144 [] }

/-- Key slots and sessions of segment 0's keeper. -/
def keyed (l : List (Nat × KeySlot)) (g : Segment) : Segment :=
  { g with kpr := { g.kpr with slots := l.foldl (fun s x => s.set x.1 x.2) g.kpr.slots } }
def sealed1 : Nat × KeySlot := (8, { kind := 4, ctx := 1, material := List.replicate 64 7 })
def sessions (x : SpdmSes) (stage : Nat) (g : Segment) : Segment :=
  { g with kpr := { g.kpr with sessions := [x, {}, {}, {}], stage := stage } }
def oper : SpdmSes := { opened := true, secured := true, operator := true }

theorem witness_BootStagesAdvance_0 :
    ∃ s : State, ∃ sg : Fin 8, Takes s sg ∧ (s.seg sg).boot.pllAt = none ∧ (s.seg sg).stage = 0 ∧ (s.seg sg).fld F.HMP_BIST_DONE = 0 :=
  ⟨die0 id, 0, by decide +kernel⟩

theorem witness_BootStagesAdvance_1 :
    ∃ s : State, ∃ sg : Fin 8, ∃ rows : List (Fin 12 × BitVec 15), ∃ bad : List (Fin 12), ∃ voter : Bool, Takes s sg ∧ sg ≠ 0 ∧ (s.seg sg).stage = 1 ∧
    (s.seg sg).boot.pllAt ≠ none ∧ (((s.seg sg).bist s.time rows bad voter).setStage 2).deriveKeys.boot.strapErr = false ∧
    (((s.seg sg).bist s.time rows bad voter).setStage 2).deriveKeys.straps.secure = true :=
  ⟨State.reset.mod 1 fun g => { g.setStage 1 with boot := { g.boot with pllAt := some 0 } }, 1, [], [], false, by decide +kernel⟩

theorem witness_BootStagesAdvance_2 :
    ∃ s : State, ∃ sg : Fin 8, Takes s sg ∧ (s.seg sg).stage = 3 :=
  ⟨die0 (·.setStage 3), 0, by decide +kernel⟩

theorem witness_BootStagesAdvance_3 :
    ∃ s : State, ∃ off : BitVec 32, ∃ data : List Byte, Takes s 0 ∧ (Instr.imageWrite off data).wf = true ∧ (s.seg 0).stage = 4 ∧
    (s.seg 0).bootSource = 1 ∧ off.toNat + data.length ≤ bootAreaSize ∧ (s.seg 0).present 0 ((s.seg 0).bootBase + off.toNat) data.length = true :=
  ⟨die0 fun g => (g.setStage 4).setFld F.SEG_BOOT_SOURCE 1, BitVec.ofNat 32 (bootAreaSize - 1), [0xAA], by decide +kernel⟩

theorem witness_BootStagesAdvance_4 :
    ∃ s : State, ∃ sg : Fin 8, ∃ off : BitVec 32, ∃ data : List Byte, Takes s sg ∧ (s.seg sg).stage = 4 ∧ (s.seg sg).bootSource = 2 ∧
    off.toNat + data.length ≤ bootAreaSize ∧ (s.seg sg).present 0 ((s.seg sg).bootBase + off.toNat) data.length = true :=
  ⟨die0 fun g => (g.setStage 4).setFld F.SEG_BOOT_SOURCE 2, 0, 0, [0xAA, 0xBB], by decide +kernel⟩

theorem witness_BootStagesAdvance_5 :
    ∃ s : State, ∃ sg : Fin 8, ∃ ag : Agent, Takes s sg ∧ ag.isHost = true ∧ ((s.accessed ag).seg sg).stage = 4 ∧ ((s.accessed ag).seg sg).bootSource = 0 :=
  ⟨die0 (·.setStage 4), 0, hd, by decide +kernel⟩

theorem witness_BootStagesAdvance_6 :
    ∃ s : State, Takes s 0 ∧ (s.seg 0).stage = 4 ∧ (s.seg 0).bootSource = 1 :=
  ⟨die0 fun g => (g.setStage 4).setFld F.SEG_BOOT_SOURCE 1, by decide +kernel⟩

theorem witness_StewardStarts_0 :
    ∃ s : State, ∃ sg : Fin 8, ∃ ag : Agent, Takes s sg ∧ ag.cls = .steward ∧ ((s.accessed ag).seg sg).boot.stewardStart ≠ none ∧
    ((s.accessed ag).seg sg).boot.update = none ∧ (((s.accessed ag).seg sg).setFld F.SEG_BOOT_STEWARD_READY 1).stage = 6 :=
  ⟨die0 fun g => { g.setStage 6 with boot := { g.boot with stewardStart := some 0 } }, 0, sw, by decide +kernel⟩

theorem witness_StewardStarts_1 :
    ∃ s : State, ∃ sg : Fin 8, ∃ t : Nat, Takes s sg ∧ (s.seg sg).boot.stewardStart = some t ∧ t + 5000000 ≤ s.tick ∧ (s.seg sg).boot.update = none :=
  ⟨run 105000000 fun g => { g with boot := { g.boot with stewardStart := some 0 } }, 0, 0, by decide +kernel⟩

theorem witness_StewardStarts_2 :
    ∃ s : State, ∃ sg : Fin 8, ∃ ag : Agent, Takes s sg ∧ ((s.accessed ag).seg sg).stage = 4 :=
  ⟨die0 (·.setStage 4), 0, hd, by decide +kernel⟩

theorem witness_StewardStarts_3 :
    ∃ s : State, ∃ ag : Agent, Takes s 0 ∧ (s.accessed ag).segs.all (fun g => g.ports.all Port.idle) = true :=
  ⟨die0 id, hd, by decide +kernel⟩

theorem witness_ResetsAct_0 :
    ∃ s : State, ∃ sg : Fin 8, Takes s sg ∧ (s.seg sg).warmOk = true :=
  ⟨run 0 id, 0, by decide +kernel⟩

theorem witness_ResetsAct_1 :
    ∃ s : State, ∃ sg : Fin 8, ∃ ag : Agent, Takes s sg ∧ ag.isKeeper = true ∧ ((s.accessed ag).seg sg).warmOk = true :=
  ⟨run 0 id, 0, kp, by decide +kernel⟩

theorem witness_ResetsAct_2 :
    ∃ s : State, ∃ sg : Fin 8, ∃ t : Nat, Takes s sg ∧ (s.seg sg).boot.scrub = some t ∧ t + max 1 ((s.seg sg).fld F.SEG_RESET_SCRUB_LIMIT) ≤ s.tick :=
  ⟨run 21 fun g => { g.setFld F.SEG_RESET_SCRUB_LIMIT 0 with boot := { g.boot with scrub := some 0 } }, 0, 0, by decide +kernel⟩

theorem witness_ResetsAct_3 :
    ∃ s : State, ∃ sg : Fin 8, ∃ ag : Agent, ∃ d : BitVec 6, Takes s sg ∧ (ag.cls = .keeper ∨ ag.cls = .steward) ∧
    ((s.accessed ag).seg sg).partialOk d.toNat = true :=
  ⟨run 0 id, 0, kp, 6, by decide +kernel⟩

theorem witness_ResetsAct_3b :
    ∃ s : State, ∃ sg : Fin 8, ∃ ag : Agent, ∃ d : BitVec 6, Takes s sg ∧ (ag.cls = .keeper ∨ ag.cls = .steward) ∧
    ((s.accessed ag).seg sg).partialOk d.toNat = true :=
  ⟨run 0 id, 0, sw, 32, by decide +kernel⟩

theorem witness_ResetsAct_4 :
    ∃ s : State, ∃ sg : Fin 8, Takes s sg ∧ (s.seg sg).boot.pllAt ≠ none :=
  ⟨run 0 id, 0, by decide +kernel⟩

theorem witness_ResetsAct_5 :
    ∃ s : State, ∃ sg : Fin 8, Takes s sg :=
  ⟨die0 id, 0, by decide +kernel⟩

theorem witness_ResetsAct_6 :
    ∃ s : State, ∃ sg : Fin 8, ∃ t : Nat, Takes s sg ∧ (s.seg sg).trl.stopUntil = some t ∧ t ≤ s.tick :=
  ⟨run 0 fun g => { g with trl := { g.trl with stopUntil := some 0 } }, 0, 0, by decide +kernel⟩

theorem witness_FirmwareUpdates_0 :
    ∃ s : State, ∃ sg : Fin 8, ∃ ch : Fin 64, ∃ ag : Agent, ∃ ptr : Nat, ∃ pc : Nat, Takes s sg ∧ s.keeperReq sg ch 0x6009 = some (ag, ptr) ∧ ag.ctx = 0 ∧
    (s.seg sg).present 0 ptr 8 = true ∧ zeros ((s.seg sg).hbmBytes ptr 8) 1 7 = true ∧
    (field ((s.seg sg).hbmBytes ptr 8) 0 1 = 1 ∨ field ((s.seg sg).hbmBytes ptr 8) 0 1 = 2) ∧
    field ((s.seg sg).hbmBytes ptr 8) 0 1 ≠ (s.seg sg).fld F.SEG_BOOT_ACTIVE ∧ (s.seg sg).prepareChan = some pc :=
  ⟨run 0 fun g => ((asked 0x6009 [2] g).setFld (F.MBX_CFG_RECV_CLASS.mbx 8) 1).setFld (F.MBX_CFG_SEND_MASK.mbx 8) 1, 0, 0, hd, 64, 8, by decide +kernel⟩

theorem witness_FirmwareUpdates_1 :
    ∃ s : State, ∃ sg : Fin 8, ∃ ch : Fin 64, ∃ ag : Agent, ∃ ptr : Nat, Takes s sg ∧ s.keeperReq sg ch 0x600A = some (ag, ptr) ∧ ag.ctx = 0 ∧
    (s.seg sg).present 0 ptr 8 = true ∧ zeros ((s.seg sg).hbmBytes ptr 8) 0 8 = true :=
  ⟨run 0 fun g => asked 0x600A [] g, 0, 0, hd, 64, by decide +kernel⟩

theorem witness_BridgeLinksAct_0 :
    ∃ s : State, ∃ sg : Fin 8, Takes s sg :=
  ⟨die0 id, 0, by decide +kernel⟩

theorem witness_BridgeLinksAct_3 :
    ∃ s : State, ∃ sg : Fin 8, ∃ b : Fin 2, ∃ t : Nat, ∃ rest : List Nat, Takes s sg ∧ ((s.seg sg).bend b).due = t :: rest ∧ t ≤ s.time ∧
    ((s.seg sg).bend b).st = .up :=
  ⟨run 100 fun g => g.modBend 0 fun e => { e with st := .up, due := [100] }, 0, 0, 100, [], by decide +kernel⟩

theorem witness_BridgeLinksAct_4 :
    ∃ s : State, ∃ sg : Fin 8, ∃ b : Fin 2, Takes s sg ∧ ((s.seg sg).bend b).st = .up :=
  ⟨run 0 fun g => g.modBend 1 fun e => { e with st := .up }, 0, 1, by decide +kernel⟩

theorem witness_BridgeLinksAct_5 :
    ∃ s : State, ∃ sg : Fin 8, ∃ b : Fin 2, ∃ t : Nat, ∃ landed : BitVec 16, Takes s sg ∧ ((s.seg sg).bend b).partnerLanded = some (t, landed) ∧
    t ≤ s.tick ∧ ((s.seg sg).bend b).st = .contained :=
  ⟨run 21 fun g => g.modBend 1 fun e => { e with st := .contained, partnerLanded := some (1, 0) }, 0, 1, 1, 0, by decide +kernel⟩

theorem witness_BridgeLinksAct_6 :
    ∃ s : State, ∃ sg : Fin 8, ∃ b : Fin 2, ∃ sg' : Nat, ∃ b' : Nat, Takes s sg ∧ bridgePartner s.n sg b = (sg', b') ∧ (s.seg sg).boot.pllAt ≠ none ∧
    (s.seg sg').boot.pllAt ≠ none ∧ ((s.seg sg).bend b).readyUp s.tick = true ∧ ((s.seg sg').bend b').readyUp s.tick = true ∧
    ((s.seg sg).bend b).goingDown = false ∧ ((s.seg sg').bend b').goingDown = false :=
  ⟨(run 0 id).mod 1 live, 0, 0, 1, 1, by decide +kernel⟩

theorem witness_BridgeLinksAct_6b :
    ∃ s : State, ∃ sg : Fin 8, ∃ b : Fin 2, ∃ sg' : Nat, ∃ b' : Nat, Takes s sg ∧ bridgePartner s.n sg b = (sg', b') ∧ (s.seg sg).boot.pllAt ≠ none ∧
    (s.seg sg').boot.pllAt ≠ none ∧ ((s.seg sg).bend b).readyUp s.tick = true ∧ ((s.seg sg').bend b').readyUp s.tick = true ∧
    ((s.seg sg).bend b).goingDown = false ∧ ((s.seg sg').bend b').goingDown = false :=
  ⟨(run 0 id).mod 1 live, 1, 0, 0, 1, by decide +kernel⟩

theorem witness_BridgeLinksAct_8 :
    ∃ s : State, ∃ sg : Fin 8, ∃ b : Fin 2, ∃ ag : Agent, Takes s sg ∧ ((s.accessed ag).seg sg).clocked = true ∧
    (((s.accessed ag).seg sg).bend b).st = .down :=
  ⟨run 0 fun g => g.modBend 1 fun e => { e with st := .down }, 0, 1, hd, by decide +kernel⟩

theorem witness_DiePortServes_0 :
    ∃ s : State, ∃ sg : Fin 8, ∃ r : DptReq, Takes s sg ∧ (s.seg sg).usable s.tick domRouter = true ∧ (s.seg sg).dptTakes r.ch r.id = true ∧ r.space ≠ 2 ∧
    (s.seg sg).dptRefusal r = none :=
  ⟨run 0 id, 0, dq 0x80 7, by decide +kernel⟩

theorem witness_DiePortServes_0b :
    ∃ s : State, ∃ sg : Fin 8, ∃ r : DptReq, Takes s sg ∧ (s.seg sg).usable s.tick domRouter = true ∧ (s.seg sg).dptTakes r.ch r.id = true ∧ r.space ≠ 2 ∧
    (s.seg sg).dptRefusal r = none :=
  ⟨run 0 id, 0, dq 0x100000000C 2, by decide +kernel⟩

theorem witness_DiePortServes_1 :
    ∃ s : State, ∃ sg : Fin 8, ∃ r : DptReq, ∃ st, Takes s sg ∧ (s.seg sg).usable s.tick domRouter = true ∧ (s.seg sg).dptTakes r.ch r.id = true ∧
    r.space ≠ 2 ∧ (s.seg sg).dptRefusal r = some st :=
  ⟨run 0 id, 0, dq 0 1, csDenied, by decide +kernel⟩

theorem witness_DiePortServes_1b :
    ∃ s : State, ∃ sg : Fin 8, ∃ r : DptReq, ∃ st, Takes s sg ∧ (s.seg sg).usable s.tick domRouter = true ∧ (s.seg sg).dptTakes r.ch r.id = true ∧
    r.space ≠ 2 ∧ (s.seg sg).dptRefusal r = some st :=
  ⟨run 0 id, 0, dq 0x81 7, csDenied, by decide +kernel⟩

theorem witness_DiePortServes_2 :
    ∃ s : State, ∃ sg : Fin 8, ∃ r : DptReq, Takes s sg ∧ (s.seg sg).usable s.tick domRouter = true ∧ (s.seg sg).dptTakes r.ch r.id = true ∧ r.space = 2 ∧
    (s.seg sg).dptRefusal r = none ∧ (s.seg sg).ownCtl r.addr.toNat = false :=
  ⟨run 0 id, 0, dq (BitVec.ofNat 64 (gaMake 0 1 2 0x8)) 3, by decide +kernel⟩

theorem witness_DiePortServes_3 :
    ∃ s : State, ∃ sg : Fin 8, ∃ ch : Bool, ∃ id : BitVec 12, ∃ ctx : BitVec 12, Takes s sg ∧ (s.seg sg).usable s.tick domRouter = true ∧
    (s.seg sg).dptTakes ch id = true ∧ (s.seg sg).isResident ctx = true :=
  ⟨run 0 id, 0, true, 5, 0, by decide +kernel⟩

def dpmOne (g : Segment) : Segment := { g with txn := { g.txn with dpm := [{ ch := 2, id := 9, space := 0, addr := 256, write := none, use := .atomFill, tick := 0 }] } }
theorem witness_DiePortServes_4 :
    ∃ s : State, ∃ sg : Fin 8, ∃ ch : Fin 6, ∃ id : BitVec 12, ∃ d : DpmReq, Takes s sg ∧ (s.seg sg).dpmAt ch id = some d :=
  ⟨run 0 dpmOne, 0, 2, 9, { ch := 2, id := 9, space := 0, addr := 256, write := none, use := .atomFill, tick := 0 }, by decide +kernel⟩

theorem witness_DiePortServes_5 :
    ∃ s : State, ∃ sg : Fin 8, ∃ ch : Fin 6, ∃ id : BitVec 12, ∃ d : DpmReq, Takes s sg ∧ (s.seg sg).dpmAt ch id = some d ∧ d.tick + 100000 ≤ s.tick :=
  ⟨run 2100000 dpmOne, 0, 2, 9, { ch := 2, id := 9, space := 0, addr := 256, write := none, use := .atomFill, tick := 0 }, by decide +kernel⟩

/-- A read of one line by a courier, waiting or outstanding at a tag. -/
def rq (base sent retry : Option Nat) : Req := { id := 3, kind := 0, ctx := 0, agent := .courier 0, line := 2 ^ 39, len := 1, payload := [], uses := [], left := [0], base := base, sentTick := sent, retryAt := retry }
def asks (r : Req) (g : Segment) : Segment := { g with txn := { g.txn with reqs := [r], tags := [(7, .held 3 0 0 false false)] } }
theorem witness_RequesterActs_1 :
    ∃ s : State, ∃ sg : Fin 8, ∃ req : Nat, ∃ r : Req, Takes s sg ∧ (s.seg sg).req? req = some r ∧ r.unguarded = false ∧ (s.seg sg).shapeReq r = none ∧
    (s.seg sg).canIssue r = true ∧ ((s.seg sg).goesDirect r = true ∨ (s.seg sg).olderWaits s.time ((s.seg sg).reqRank r) none (some r.id) = false) :=
  ⟨run 0 fun g => { asks (rq none none none) g with txn := { (asks (rq none none none) g).txn with tags := [] } }, 0, 3, rq none none none,
   by decide +kernel⟩

def replied (f : Flit) (g : Segment) : Segment := { g with txn := { g.txn with replies := [f] } }
theorem witness_RequesterActs_2 :
    ∃ s : State, ∃ sg : Fin 8, ∃ f : Flit, ∃ rest : List Flit, Takes s sg ∧ (s.seg sg).txn.replies = f :: rest ∧ f.synth = false ∧
    f.dstSeg ≠ (s.seg sg).segId :=
  ⟨run 0 fun g => replied { fl 8 0 [] with dstSeg := 1 } g, 0, { fl 8 0 [] with dstSeg := 1 }, [], by decide +kernel⟩

theorem witness_RequesterActs_3 :
    ∃ s : State, ∃ sg : Fin 8, ∃ bad : Option BadLine, ∃ f : Flit, ∃ rest : List Flit, ∃ t, ∃ ts, ∃ x, Takes s sg ∧ (s.seg sg).txn.replies = f :: rest ∧
    f.synth = false ∧ f.dstSeg = (s.seg sg).segId ∧ bad = none ∧
    ((List.range (f.span + 1)).map fun i => f.tag.toNat + i).filter ((s.seg sg).tagMatches · f.ctx) = t :: ts ∧ (s.seg sg).tagReq t = some x :=
  ⟨run 0 fun g => replied (fl 8 0 []) (asks (rq (some 7) (some 0) none) g), 0, none, fl 8 0 [], [], 7, [], (rq (some 7) (some 0) none, 0),
   by decide +kernel⟩

theorem witness_RequesterActs_4 :
    ∃ s : State, ∃ sg : Fin 8, ∃ f : Flit, ∃ rest : List Flit, ∃ t : Nat, ∃ ts : List Nat, ∃ x : Req × Nat, Takes s sg ∧
    (s.seg sg).txn.replies = f :: rest ∧ f.synth = true ∧ f.doubt = false ∧ f.status ≠ csBusy ∧ f.status ≠ csLinkDown ∧ f.status ≠ csNodeDown ∧
    f.kind ≠ 8 ∧ f.dstSeg = (s.seg sg).segId ∧ ((List.range (f.span + 1)).map fun i => f.tag.toNat + i).filter ((s.seg sg).tagMatches · f.ctx) = t :: ts ∧
    (s.seg sg).tagReq t = some x :=
  ⟨run 0 fun g => replied (fl 9 (BitVec.ofNat 39 (2 ^ 35 + 2 ^ 34)) []) (asks (rq (some 7) (some 0) none) g), 0,
   fl 9 (BitVec.ofNat 39 (2 ^ 35 + 2 ^ 34)) [], [], 7, [], (rq (some 7) (some 0) none, 0), by decide +kernel⟩

theorem witness_RequesterActs_5 :
    ∃ s : State, ∃ sg : Fin 8, ∃ tag : BitVec 16, ∃ id : Nat, ∃ idx : Nat, ∃ ctx : BitVec 12, ∃ doubted : Bool, ∃ again : Bool, ∃ r : Req, ∃ sent : Nat,
    Takes s sg ∧ (s.seg sg).tag? tag.toNat = some (.held id idx ctx doubted again) ∧ (s.seg sg).req? id = some r ∧ r.sentTick = some sent ∧
    sent + (s.seg sg).tagLimit ≤ s.tick :=
  ⟨run (21 * 110000) fun g => (asks (rq (some 7) (some 0) none) g).setFld F.SEG_TAG_CTRL_TIMEOUT 0, 0, 7, 3, 0, 0, false, false,
   rq (some 7) (some 0) none, 0, by decide +kernel⟩

theorem witness_RequesterActs_6 :
    ∃ s : State, ∃ sg : Fin 8, ∃ tag : BitVec 16, ∃ u : Nat, Takes s sg ∧ (s.seg sg).tag? tag.toNat = some (.quarantined u) ∧ u ≤ s.tick :=
  ⟨run 21 fun g => { g with txn := { g.txn with tags := [(7, .quarantined 1)] } }, 0, 7, 1, by decide +kernel⟩

theorem witness_RequesterActs_7 :
    ∃ s : State, ∃ sg : Fin 8, ∃ req : Nat, ∃ r : Req, ∃ at_ : Nat, ∃ base : Nat, Takes s sg ∧ (s.seg sg).req? req = some r ∧ r.retryAt = some at_ ∧
    r.base = some base ∧ at_ ≤ s.tick :=
  ⟨run 21 fun g => asks (rq (some 7) (some 0) (some 1)) g, 0, 3, rq (some 7) (some 0) (some 1), 1, 7, by decide +kernel⟩

theorem witness_RequesterActs_8 :
    ∃ s : State, ∃ sg : Fin 8, ∃ idx : Nat, ∃ e : MergeEntry, Takes s sg ∧ (s.seg sg).txn.merge[idx]? = some e ∧
    e.first + max 1 ((s.seg sg).fld F.SEG_MERGE_CTRL_FLUSH_CYCLES) ≤ s.time :=
  ⟨run 100000000 fun g => { g with txn := { g.txn with merge := [{ line := 2, ctx := 0, first := 0, bytes := [(0, 1)] }] } }, 0, 0, { line := 2, ctx := 0, first := 0, bytes := [(0, 1)] },
   by decide +kernel⟩

theorem witness_RequesterActs_9 :
    ∃ s : State, ∃ sg : Fin 8, Takes s sg :=
  ⟨die0 id, 0, by decide +kernel⟩

theorem witness_LateReplyIsCountedAndDropped : ∃ (s : State) (f : Flit), Takes s 0 ∧ (s.seg 0).txn.replies = [f] ∧
    f.dstSeg = (s.seg 0).segId ∧ ∀ i id idx ctx d x, i ≤ f.span → (s.seg 0).tag? (f.tag.toNat + i) = some (.held id idx ctx d x) → ctx ≠ f.ctx :=
  ⟨run 0 (replied (fl 8 0 [])), fl 8 0 [], by decide +kernel, by decide +kernel, by decide +kernel, fun _ _ _ _ _ _ _ h => nomatch h⟩
def queued (f : Flit) (g : Segment) : Segment := { g with txn := { g.txn with homeQ := [{ flit := f, cycle := 0, slot := 0 }] } }
theorem witness_HomeServesRequests_0 :
    ∃ s : State, ∃ sg : Fin 8, ∃ idx : Nat, ∃ f : Flit, Serves s sg idx [0, 1, 2] f :=
  ⟨run 0 (queued (fl 0 3 [])), 0, 0, fl 0 3 [], by decide +kernel⟩

theorem witness_HomeServesRequests_0b :
    ∃ s : State, ∃ sg : Fin 8, ∃ idx : Nat, ∃ f : Flit, Serves s sg idx [0, 1, 2] f :=
  ⟨run 0 (queued (fl 1 3 [])), 0, 0, fl 1 3 [], by decide +kernel⟩

theorem witness_HomeServesRequests_1 :
    ∃ s : State, ∃ sg : Fin 8, ∃ idx : Nat, ∃ f : Flit, Serves s sg idx [0x10] f :=
  ⟨run 0 (queued (fl 0x10 3 [])), 0, 0, fl 0x10 3 [], by decide +kernel⟩

theorem witness_HomeServesRequests_2 :
    ∃ s : State, ∃ sg : Fin 8, ∃ idx : Nat, ∃ f : Flit, Serves s sg idx [3, 4] f ∧ (s.seg sg).atomAt (((s.seg sg).homeAt f).place 0) = none ∧
    (s.seg sg).txn.atoms.length < 256 :=
  ⟨run 0 (queued (fl 3 3 [2, 3])), 0, 0, fl 3 3 [2, 3], by decide +kernel⟩

def cachedLine : AtomLine := { space := 0, addr := 384, data := some (List.replicate 128 1), at_ := none, bad := none }
theorem witness_HomeServesRequests_3 :
    ∃ s : State, ∃ sg : Fin 8, ∃ idx : Nat, ∃ f : Flit, ∃ x, ∃ line, Serves s sg idx [3, 4] f ∧
    (s.seg sg).atomAt (((s.seg sg).homeAt f).place 0) = some x ∧ x.data = some line ∧ x.at_ ≠ some s.time :=
  ⟨run 0 fun g => { queued (fl 3 3 [2, 3]) g with txn := { (queued (fl 3 3 [2, 3]) g).txn with atoms := [cachedLine] } }, 0, 0, fl 3 3 [2, 3],
   cachedLine, List.replicate 128 1, by decide +kernel⟩

theorem witness_HomeServesRequests_4 :
    ∃ s : State, ∃ sg : Fin 8, ∃ idx : Nat, ∃ f : Flit, Serves s sg idx [5] f :=
  ⟨run 0 (queued (fl 5 3 [])), 0, 0, fl 5 3 [], by decide +kernel⟩

theorem witness_HomeServesRequests_5 :
    ∃ s : State, ∃ sg : Fin 8, ∃ idx : Nat, ∃ q : HomeReq, Takes s sg ∧ (s.seg sg).txn.homeQ[idx]? = some q ∧ q.flit.kind = 3 ∧ q.flit.space = 2 ∧
    (s.seg sg).homeBlocked idx = false ∧ q.flit.dstSeg.toNat ≤ (s.seg sg).straps.dieCount.toNat ∧ badForm q.flit = false ∧
    (s.seg sg).ctlGranted q.flit.ctx = true :=
  ⟨run 0 (queued (fl 3 (BitVec.ofNat 39 (2 ^ 38)) [0, 2])), 0, 0, { flit := fl 3 (BitVec.ofNat 39 (2 ^ 38)) [0, 2], cycle := 0, slot := 0 },
   by decide +kernel⟩

def guarded (g : Segment) : Segment := { g.setFld F.XLT_GUARD_SIZE_HBM_REGIONS 8 with xlt := { g.xlt with guardWritten := true } }
theorem witness_HomeServesRequests_6 :
    ∃ s : State, ∃ sg : Fin 8, ∃ region : BitVec 17, Takes s sg ∧
    ((s.seg sg).guardWaiter region.toNat ≠ none ∨ (s.seg sg).directWaiters region.toNat ≠ []) ∧
    (s.seg sg).present 0 ((s.seg sg).fld F.XLT_GUARD_BASE_BASE * 4096 + 4 * region.toNat) 4 = true :=
  ⟨run 0 fun g => guarded (queued (fl 0 3 []) g), 0, 0, by decide +kernel⟩

theorem witness_HomeServesRequests_7 :
    ∃ s : State, ∃ sg : Fin 8, ∃ region : BitVec 17, ∃ st, ∃ q, Takes s sg ∧ st ≠ 0 ∧ (s.seg sg).guardWaiter region.toNat = some q :=
  ⟨run 0 fun g => guarded (queued (fl 0 3 []) g), 0, 0, 1, ({ flit := fl 0 3 [], cycle := 0, slot := 0 }, 0), by decide +kernel⟩

theorem witness_AluResults : ∃ (s : State) (sg : Fin 8) (c : Fin 18) (f : IFields), Executes s sg c f ∧ Settled s sg c :=
  ⟨rk id, 0, 16, fi 1 2 3 0, by decide +kernel⟩
theorem witness_AluResults_courier : ∃ (s : State) (sg : Fin 8) (f : IFields), Executes s sg 0 f ∧ Settled s sg 0 :=
  ⟨rc id, 0, fi 1 2 3 0, by decide +kernel⟩
theorem witness_DivisionAndNoAluTrap_1 :
    ∃ s : State, ∃ sg : Fin 8, ∃ c : Fin 18, ∃ f : IFields, Executes s sg c f ∧ Settled s sg c ∧ f.d ≠ 0 ∧ ((s.seg sg).core c).b' f = 0 :=
  ⟨rk id, 0, 16, fi 1 2 0 0, by decide +kernel⟩

theorem witness_DivisionAndNoAluTrap_2 :
    ∃ s : State, ∃ sg : Fin 8, ∃ c : Fin 18, ∃ f : IFields, Executes s sg c f ∧ Settled s sg c ∧ f.d ≠ 0 ∧
    ((s.seg sg).core c).r f.a = BitVec.ofInt 64 (-2 ^ 63) ∧ ((s.seg sg).core c).b' f = BitVec.ofInt 64 (-1) :=
  ⟨rk fun k => { k with g := gs 0 0x8000000000000000 0 }, 0, 16, fi 1 2 0 (-1), by decide +kernel⟩

theorem witness_DivisionAndNoAluTrap_3 :
    ∃ s : State, ∃ sg : Fin 8, ∃ c : Fin 18, ∃ f : IFields, Executes s sg c f ∧ Settled s sg c ∧ f.d ≠ 0 ∧ ((s.seg sg).core c).b' f ≠ 0 ∧
    ¬(((s.seg sg).core c).r f.a = BitVec.ofInt 64 (-2 ^ 63) ∧ ((s.seg sg).core c).b' f = BitVec.ofInt 64 (-1)) :=
  ⟨rk fun k => { k with g := gs 0 0x8000000000000000 0 }, 0, 16, fi 1 2 0 1, by decide +kernel⟩

theorem witness_CompareAndPredicateResults_0 :
    ∃ s : State, ∃ sg : Fin 8, ∃ c : Fin 18, ∃ f : IFields, Executes s sg c f ∧ Settled s sg c ∧ f.d.toNat ≤ 7 :=
  ⟨rk id, 0, 16, fi 7 0 0 0, by decide +kernel⟩

theorem witness_CompareAndPredicateResults_6 :
    ∃ s : State, ∃ sg : Fin 8, ∃ c : Fin 18, ∃ f : IFields, Executes s sg c f ∧ Settled s sg c ∧ f.d.toNat ≤ 7 ∧ f.a.toNat ≤ 7 ∧ f.b.toNat ≤ 7 :=
  ⟨rk id, 0, 16, fi 7 7 7 0, by decide +kernel⟩

theorem witness_PredicateRangeIsIllegal_0 :
    ∃ x, ∃ s : State, ∃ sg : Fin 8, ∃ c : Fin 18, ∃ f : IFields, x ∈ predInstrs ∧ Executes s sg c f ∧ 7 < f.d.toNat :=
  ⟨(0x20, .ceq), rk id, 0, 16, fi 8 0 0 0, by simp [aluInstrs, predInstrs, lunchInstrs], by decide +kernel⟩

theorem witness_PredicateRangeIsIllegal_1 :
    ∃ s : State, ∃ sg : Fin 8, ∃ c : Fin 18, ∃ f : IFields, Executes s sg c f ∧ (7 < f.a.toNat ∨ 7 < f.b.toNat) :=
  ⟨rk id, 0, 16, fi 0 8 0 0, by decide +kernel⟩

theorem witness_PredicateRangeIsIllegal_1b :
    ∃ s : State, ∃ sg : Fin 8, ∃ c : Fin 18, ∃ f : IFields, Executes s sg c f ∧ (7 < f.a.toNat ∨ 7 < f.b.toNat) :=
  ⟨rk id, 0, 16, fi 0 0 8 0, by decide +kernel⟩

theorem witness_LoadResults : ∃ (s : State) (sg : Fin 8) (c : Fin 18) (f : IFields), Executes s sg c f ∧ Settled s sg c ∧
    (((s.seg sg).core c).ea f).toNat % 8 = 0 ∧ (((s.seg sg).core c).ea f).toNat + 8 ≤ 0x10000 ∧
    ((s.seg sg).core c).lbBad.contains ((((s.seg sg).core c).ea f).toNat / 8) = false :=
  ⟨rk id, 0, 16, fi 1 0 0 0xFFF8, by decide +kernel⟩
theorem witness_StoreResults_4 :
    ∃ k : Core, memWf k.lb = true :=
  ⟨{ lb := [(3, 1)] }, by decide +kernel⟩

theorem witness_LunchboxTraps_0 :
    ∃ x, ∃ s : State, ∃ sg : Fin 8, ∃ c : Fin 18, ∃ f : IFields, x ∈ lunchInstrs ∧ Executes s sg c f ∧ (((s.seg sg).core c).ea f).toNat % x.2.1 ≠ 0 :=
  ⟨(0x31, 2, true, .ld16), rk id, 0, 16, fi 1 0 0 1, by simp [aluInstrs, predInstrs, lunchInstrs], by decide +kernel⟩

theorem witness_LunchboxTraps_1 :
    ∃ x, ∃ s : State, ∃ sg : Fin 8, ∃ c : Fin 18, ∃ f : IFields, x ∈ lunchInstrs ∧ Executes s sg c f ∧ (((s.seg sg).core c).ea f).toNat % x.2.1 = 0 ∧
    0x10000 < (((s.seg sg).core c).ea f).toNat + x.2.1 :=
  ⟨(0x3B, 8, false, .st64), rk id, 0, 16, fi 1 0 0 0x10000, by simp [aluInstrs, predInstrs, lunchInstrs], by decide +kernel⟩

theorem witness_LunchboxTraps_2 :
    ∃ x, ∃ s : State, ∃ sg : Fin 8, ∃ c : Fin 18, ∃ f : IFields, x ∈ lunchInstrs ∧ Executes s sg c f ∧ (((s.seg sg).core c).ea f).toNat % x.2.1 = 0 ∧
    (((s.seg sg).core c).ea f).toNat + x.2.1 ≤ 0x10000 ∧ x.2.2.1 = true ∧ ((s.seg sg).core c).lbBad.contains ((((s.seg sg).core c).ea f).toNat / 8) = true :=
  ⟨(0x30, 1, true, .ld8), rk fun k => { k with lbBad := [0x1FFF] }, 0, 16, fi 1 0 0 0xFFFF, by simp [aluInstrs, predInstrs, lunchInstrs],
   by decide +kernel⟩

theorem witness_BranchTargets_0 :
    ∃ s : State, ∃ sg : Fin 8, ∃ c : Fin 18, ∃ f : IFields, ∃ to_ : BitVec 32,
    to_ = BitVec.ofInt 32 ((if f.a = 0 then (((s.seg sg).core c).pc.toNat : Int) else ((((s.seg sg).core c).r f.a).toNat : Int)) + f.imm.toInt * 8) ∧
    Executes s sg c f ∧ to_.toNat % 8 ≠ 0 :=
  ⟨rk fun k => { k with g := gs 0x10004 0 0 }, 0, 16, fi 0 1 0 0,
   (BitVec.ofInt 32 ((if (fi 0 1 0 0).a = 0 then ((((rk fun k => { k with g := gs 0x10004 0 0 }).seg (0)).core (16)).pc.toNat : Int) else (((((rk fun k => { k with g := gs 0x10004 0 0 }).seg (0)).core (16)).r (fi 0 1 0 0).a).toNat : Int)) + (fi 0 1 0 0).imm.toInt * 8)),
   rfl, by decide +kernel⟩

theorem witness_BranchTargets_1 :
    ∃ s : State, ∃ sg : Fin 8, ∃ c : Fin 18, ∃ f : IFields, ∃ to_ : BitVec 32,
    to_ = BitVec.ofInt 32 ((if f.a = 0 then (((s.seg sg).core c).pc.toNat : Int) else ((((s.seg sg).core c).r f.a).toNat : Int)) + f.imm.toInt * 8) ∧
    Executes s sg c f ∧ to_.toNat % 8 = 0 ∧ Settled s sg c :=
  ⟨rk id, 0, 16, fi 0 0 0 (-1),
   (BitVec.ofInt 32 ((if (fi 0 0 0 (-1)).a = 0 then ((((rk id).seg (0)).core (16)).pc.toNat : Int) else (((((rk id).seg (0)).core (16)).r (fi 0 0 0 (-1)).a).toNat : Int)) + (fi 0 0 0 (-1)).imm.toInt * 8)),
   rfl, by decide +kernel⟩

theorem witness_BranchTargets_2 :
    ∃ s : State, ∃ sg : Fin 8, ∃ c : Fin 18, ∃ f : IFields, ∃ to_ : BitVec 32,
    to_ = BitVec.ofInt 32 ((if f.a = 0 then (((s.seg sg).core c).pc.toNat : Int) else ((((s.seg sg).core c).r f.a).toNat : Int)) + f.imm.toInt * 8) ∧
    Executes s sg c f ∧ to_.toNat % 8 = 0 ∧ 32 ≤ ((s.seg sg).core c).rs.length :=
  ⟨rk fun k => { k with rs := List.replicate 32 0 }, 0, 16, fi 0 0 0 1,
   (BitVec.ofInt 32 ((if (fi 0 0 0 1).a = 0 then ((((rk fun k => { k with rs := List.replicate 32 0 }).seg (0)).core (16)).pc.toNat : Int) else (((((rk fun k => { k with rs := List.replicate 32 0 }).seg (0)).core (16)).r (fi 0 0 0 1).a).toNat : Int)) + (fi 0 0 0 1).imm.toInt * 8)),
   rfl, by decide +kernel⟩

theorem witness_BranchTargets_3 :
    ∃ s : State, ∃ sg : Fin 8, ∃ c : Fin 18, ∃ f : IFields, ∃ to_ : BitVec 32,
    to_ = BitVec.ofInt 32 ((if f.a = 0 then (((s.seg sg).core c).pc.toNat : Int) else ((((s.seg sg).core c).r f.a).toNat : Int)) + f.imm.toInt * 8) ∧
    Executes s sg c f ∧ to_.toNat % 8 = 0 ∧ ((s.seg sg).core c).rs.length < 32 ∧ Settled s sg c :=
  ⟨rk fun k => { k with rs := List.replicate 31 0 }, 0, 16, fi 0 0 0 1,
   (BitVec.ofInt 32 ((if (fi 0 0 0 1).a = 0 then ((((rk fun k => { k with rs := List.replicate 31 0 }).seg (0)).core (16)).pc.toNat : Int) else (((((rk fun k => { k with rs := List.replicate 31 0 }).seg (0)).core (16)).r (fi 0 0 0 1).a).toNat : Int)) + (fi 0 0 0 1).imm.toInt * 8)),
   rfl, by decide +kernel⟩

theorem witness_BranchTargets_4 :
    ∃ s : State, ∃ sg : Fin 8, ∃ c : Fin 18, ∃ f : IFields, Executes s sg c f ∧ ((s.seg sg).core c).rs = [] :=
  ⟨rk id, 0, 16, fi 0 0 0 0, by decide +kernel⟩

theorem witness_BranchTargets_5 :
    ∃ s : State, ∃ sg : Fin 8, ∃ c : Fin 18, ∃ f : IFields, ∃ l, ∃ to_, Executes s sg c f ∧ ((s.seg sg).core c).rs = l ++ [to_] ∧ Settled s sg c :=
  ⟨rk fun k => { k with rs := [0x10008, 0x10010] }, 0, 16, fi 0 0 0 0, [0x10008], 0x10010, by decide +kernel⟩

theorem witness_SpecialAndControlInstructions_0 :
    ∃ s : State, ∃ sg : Fin 8, ∃ c : Fin 18, ∃ f : IFields, Executes s sg c f ∧ f.imm.toNat ≤ 1 ∧ Settled s sg c :=
  ⟨rk id, 0, 16, fi 1 0 0 1, by decide +kernel⟩

theorem witness_SpecialAndControlInstructions_1 :
    ∃ s : State, ∃ sg : Fin 8, ∃ c : Fin 18, ∃ f : IFields, Executes s sg c f ∧ 1 < f.imm.toNat :=
  ⟨rk id, 0, 16, fi 1 0 0 2, by decide +kernel⟩

theorem witness_SpecialAndControlInstructions_2 :
    ∃ s : State, ∃ sg : Fin 8, ∃ f : IFields, Executes s sg 16 f ∧ Settled s sg 16 :=
  ⟨rk id, 0, fi 0 1 0 0, by decide +kernel⟩

theorem witness_SpecialAndControlInstructions_4 :
    ∃ s : State, ∃ sg : Fin 8, ∃ c : Fin 18, ∃ f : IFields, Executes s sg c f ∧ 16 ≤ c.val ∧ (((s.seg sg).core c).ea f).toNat % 8 = 0 ∧
    (s.seg sg).ownCtl (((s.seg sg).core c).ea f).toNat = true :=
  ⟨rk fun k => { k with g := gs (BitVec.ofNat 64 (gaMake 0 0 2 0)) 0 0 }, 0, 16, fi 2 1 0 8, by decide +kernel⟩

theorem witness_SpecialAndControlInstructions_6 :
    ∃ s : State, ∃ sg : Fin 8, ∃ c : Fin 18, ∃ f : IFields, Executes s sg c f ∧ 16 ≤ c.val ∧ (((s.seg sg).core c).ea f).toNat % 8 = 0 ∧
    (s.seg sg).ownCtl (((s.seg sg).core c).ea f).toNat = false :=
  ⟨rk fun k => { k with g := gs (BitVec.ofNat 64 (gaMake 0 1 2 0)) 0 0 }, 0, 16, fi 2 1 0 8, by decide +kernel⟩

theorem witness_SpecialAndControlInstructions_7 :
    ∃ s : State, ∃ sg : Fin 8, ∃ c : Fin 18, ∃ f : IFields, ∃ n : Nat, Executes s sg c f ∧ ((s.seg sg).core c).ticket = some n ∧
    descExc ((s.seg sg).core c) 0 4096 = none :=
  ⟨rc id, 0, 0, fi 0 0 0 0, 3, by decide +kernel⟩

theorem witness_SpecialAndControlInstructions_8 :
    ∃ s : State, ∃ sg : Fin 8, ∃ c : Fin 18, ∃ f : IFields, Executes s sg c f ∧ 16 ≤ c.val :=
  ⟨rk id, 0, 16, fi 0 0 0 0, by decide +kernel⟩

theorem witness_SpecialAndControlInstructions_9 :
    ∃ s : State, ∃ sg : Fin 8, ∃ c : Fin 18, ∃ f : IFields, ∃ n, Executes s sg c f ∧ c.val < 16 ∧ (((s.seg sg).core c).r f.a).toNat % 16 < 12 ∧
    ((s.seg sg).core c).ticket = some n :=
  ⟨rc fun k => { k with g := gs 11 0 0 }, 0, 0, fi 0 1 0 0, 3, by decide +kernel⟩

theorem witness_SpecialAndControlInstructions_10 :
    ∃ s : State, ∃ sg : Fin 8, ∃ c : Fin 18, ∃ f : IFields, Executes s sg c f ∧ c.val < 16 ∧ 12 ≤ (((s.seg sg).core c).r f.a).toNat % 16 :=
  ⟨rc fun k => { k with g := gs 12 0 0 }, 0, 0, fi 0 1 0 0, by decide +kernel⟩

theorem witness_SpecialAndControlInstructions_11 :
    ∃ s : State, ∃ sg : Fin 8, ∃ c : Fin 18, ∃ f : IFields, Executes s sg c f ∧ 16 ≤ c.val ∧ Settled s sg c :=
  ⟨rk id, 0, 16, fi 0 0 0 0, by decide +kernel⟩

def busySlot (g : Segment) : Segment := { g with trl := { g.trl with tickets := [{ aTicket with slots := [{ st := .busy, kind := .cjoin true 5 0 }] }] } }
theorem witness_WaitAndTicketInstructions_5 :
    ∃ s : State, ∃ sg : Fin 8, ∃ c : Fin 18, ∃ f : IFields, ∃ ps : List Piece, ∃ used : List RangeEntry, Executes s sg c f ∧ f.d.toNat ≤ 7 ∧
    (((s.seg sg).core c).r f.a).toNat % 8 = 0 ∧ (s.seg sg).translate ((s.seg sg).core c).ctx (((s.seg sg).core c).r f.a).toNat 8 1 [] = .ok ps used ∧
    ps.all (s.seg sg).homedHere = true :=
  ⟨rc id mapped, 0, 0, fi 7 0 0 0, [pc 0 8], [aRange], by decide +kernel⟩

theorem witness_WaitAndTicketInstructions_7 :
    ∃ s : State, ∃ sg : Fin 8, ∃ c : Fin 18, ∃ f : IFields, Executes s sg c f ∧ f.d.toNat ≤ 7 ∧
    waiteMet ((s.seg sg).slots ((s.seg sg).ownerOf c)) (f.imm.truncate 16) (f.imm.getLsbD 16) = false :=
  ⟨rc id busySlot, 0, 0, fi 7 0 0 1, by decide +kernel⟩

theorem witness_WaitAndTicketInstructions_10 :
    ∃ s : State, ∃ sg : Fin 8, ∃ c : Fin 18, ∃ f : IFields, Executes s sg c f ∧ f.imm.toNat % 4 = 3 :=
  ⟨rc id, 0, 0, fi 0 0 0 3, by decide +kernel⟩

theorem witness_WaitAndTicketInstructions_11 :
    ∃ s : State, ∃ sg : Fin 8, ∃ c : Fin 18, ∃ f : IFields, Executes s sg c f ∧ f.imm.toNat / 16 % 16 ≤ 4 ∧ Settled s sg c :=
  ⟨rc id, 0, 0, fi 1 0 0 0x4F, by decide +kernel⟩

theorem witness_WaitAndTicketInstructions_12 :
    ∃ s : State, ∃ sg : Fin 8, ∃ c : Fin 18, ∃ f : IFields, Executes s sg c f ∧ 4 < f.imm.toNat / 16 % 16 :=
  ⟨rc id, 0, 0, fi 1 0 0 0x50, by decide +kernel⟩

theorem witness_WaitAndTicketInstructions_15 :
    ∃ s : State, ∃ sg : Fin 8, ∃ c : Fin 18, ∃ f : IFields, ∃ m, ∃ t, ∃ n, ∃ x, Executes s sg c f ∧
    descExc ((s.seg sg).core c) (((s.seg sg).core c).descAt f) 128 = none ∧ ((s.seg sg).core c).ticket = some m ∧ (s.seg sg).ticket? m = some t ∧
    (s.seg sg).freeEntry = some n ∧ (s.seg sg).trail? t.trail = some x ∧ ((s.seg sg).ticketsOf ((s.seg sg).core c).ctx).length < (s.seg sg).ticketQuota :=
  ⟨rc id, 0, 0, fi 1 0 0 0xFF80, 3, aTicket, 0, aTrail, by decide +kernel⟩

def crowd (l : List Nat) (g : Segment) : Segment := { g with trl := { g.trl with tickets := l.map fun n => { aTicket with n := n } } }
theorem crowd_free (l : List Nat) : ((rc id (crowd l)).seg 0).freeEntry = firstFree l 4096 := by
  show firstFree (List.map Ticket.n (List.map (fun n => { aTicket with n := n }) l)) 4096 = _
  rw [List.map_map, show (Ticket.n ∘ fun n => { aTicket with n := n }) = id from rfl, List.map_id]
theorem firstFree_range (n : Nat) : firstFree (List.range n) n = none := by
  simp [firstFree]
theorem witness_WaitAndTicketInstructions_14_full : ∃ (s : State) (sg : Fin 8) (c : Fin 18) (f : IFields) (m : Nat) (t : Ticket),
    Executes s sg c f ∧ descExc ((s.seg sg).core c) (((s.seg sg).core c).descAt f) 128 = none ∧ ((s.seg sg).core c).ticket = some m ∧
    (s.seg sg).ticket? m = some t ∧ (s.seg sg).freeEntry = none :=
  ⟨rc id (crowd (List.range 4096)), 0, 0, fi 1 0 0 0, 3, aTicket, by decide +kernel, by decide +kernel, by decide +kernel, by decide +kernel,
    (crowd_free _).trans (firstFree_range 4096)⟩
theorem witness_WaitAndTicketInstructions_17 :
    ∃ s : State, ∃ sg : Fin 8, ∃ c : Fin 18, ∃ f : IFields, ∃ b : List Byte, ∃ i,
    b = memBytes ((s.seg sg).core c).lb (((s.seg sg).core c).descAt f).toNat 32 ∧ Executes s sg c f ∧ badSlot f = false ∧
    (16 ≤ c.val ∨ ((s.seg sg).privileged ((s.seg sg).core c).ctx = true ∧ field b 16 2 = ((s.seg sg).core c).ctx.toNat)) ∧
    descExc ((s.seg sg).core c) (((s.seg sg).core c).descAt f) 32 = none ∧ (s.seg sg).slotExc ((s.seg sg).ownerOf c) (slotOf f) = none ∧
    badRecall b = false ∧ (s.seg sg).storeFull = false ∧ slotOf f = some i :=
  ⟨rk fun k => { k with lb := lb [(0, 8), (0x10000, 8)] }, 0, 16, fi 15 0 0 0, (memBytes (((rk fun k => { k with lb := lb [(0, 8), (0x10000, 8)] }).seg (0)).core (16)).lb ((((rk fun k => { k with lb := lb [(0, 8), (0x10000, 8)] }).seg (0)).core (16)).descAt (fi 15 0 0 0)).toNat 32),
   15, rfl, by decide +kernel⟩

theorem witness_WaitAndTicketInstructions_20 :
    ∃ s : State, ∃ sg : Fin 8, ∃ c : Fin 18, ∃ f : IFields, ∃ n, ∃ o, Executes s sg c f ∧ f.d.toNat ≤ 15 ∧
    ((s.seg sg).slot ((s.seg sg).ownerOf c) f.d.toNat).st = .busy ∧ ((s.seg sg).slot ((s.seg sg).ownerOf c) f.d.toNat).kind = .cjoin true n o :=
  ⟨rc id busySlot, 0, 0, fi 0 0 0 0, 5, 0, by decide +kernel⟩

theorem witness_MovesAndAtomicsIssue_0 :
    ∃ x, ∃ s : State, ∃ sg : Fin 8, ∃ c : Fin 18, ∃ f : IFields, ∃ k : Core, ∃ b : List Byte, ∃ n : Nat, ∃ fl : Nat, ∃ sides : List (List Piece),
    ∃ used : List RangeEntry, (x ∈ ([(0x50, .get), (0x51, .put), (0x52, .copy)] : List (BitVec 8 × (Fin 8 → Fin 18 → IFields → Instr)))) ∧
    k = (s.seg sg).core c ∧ b = memBytes k.lb (k.descAt f).toNat 32 ∧ Executes s sg c f ∧ badSlot f = false ∧
    (s.seg sg).slotExc ((s.seg sg).ownerOf c) (slotOf f) = none ∧ (s.seg sg).storeFull = false ∧ descExc k (k.descAt f) 32 = none ∧ zeros b 25 7 = true ∧
    fl = field b 24 1 ∧ fl < 4 ∧ (fl % 2 = 1 → x.1 = 0x51) ∧ (fl / 2 % 2 = 1 → x.1 = 0x50) ∧ field b 16 8 ≤ 2 ^ 44 ∧
    n = (if f.b = 0 then field b 16 8 else (k.r f.b).toNat) ∧ 0 < n ∧ n ≤ field b 16 8 ∧ (fl % 2 = 1 → field b 0 8 + n ≤ 0x10000) ∧
    (fl / 2 % 2 = 1 → field b 8 8 + n ≤ 0x10000) ∧ judge none [(s.seg sg).moveSide k.ctx (fl % 2 == 1) (field b 0 8) n 1 [],
    (s.seg sg).moveSide k.ctx (fl / 2 % 2 == 1) (field b 8 8) n 2 []] = .ok sides used ∧
    (x.1 = 0x50 → (sides.getD 1 []).all (fun p => (s.seg sg).owns p.ga) = true) ∧
    (x.1 = 0x51 → (sides.getD 0 []).all (fun p => (s.seg sg).owns p.ga) = true) :=
  ⟨(0x50, .get), rc (fun k => { k with lb := lb [(0x80, 8), (0xFF00, 8), (256, 8), (2, 8)] }) mapped, 0, 0, fi 1 0 0 0,
   (((rc (fun k => { k with lb := lb [(0x80, 8), (0xFF00, 8), (256, 8), (2, 8)] }) mapped).seg (0)).core (0)),
   (memBytes ((((rc (fun k => { k with lb := lb [(0x80, 8), (0xFF00, 8), (256, 8), (2, 8)] }) mapped).seg (0)).core (0))).lb (((((rc (fun k => { k with lb := lb [(0x80, 8), (0xFF00, 8), (256, 8), (2, 8)] }) mapped).seg (0)).core (0))).descAt (fi 1 0 0 0)).toNat 32),
   256, 2, [[pc 0x80 256], []], [aRange], by simp [aluInstrs, predInstrs, lunchInstrs], rfl, rfl, by decide +kernel⟩

theorem witness_MovesAndAtomicsIssue_0b :
    ∃ x, ∃ s : State, ∃ sg : Fin 8, ∃ c : Fin 18, ∃ f : IFields, ∃ k : Core, ∃ b : List Byte, ∃ n : Nat, ∃ fl : Nat, ∃ sides : List (List Piece),
    ∃ used : List RangeEntry, (x ∈ ([(0x50, .get), (0x51, .put), (0x52, .copy)] : List (BitVec 8 × (Fin 8 → Fin 18 → IFields → Instr)))) ∧
    k = (s.seg sg).core c ∧ b = memBytes k.lb (k.descAt f).toNat 32 ∧ Executes s sg c f ∧ badSlot f = false ∧
    (s.seg sg).slotExc ((s.seg sg).ownerOf c) (slotOf f) = none ∧ (s.seg sg).storeFull = false ∧ descExc k (k.descAt f) 32 = none ∧ zeros b 25 7 = true ∧
    fl = field b 24 1 ∧ fl < 4 ∧ (fl % 2 = 1 → x.1 = 0x51) ∧ (fl / 2 % 2 = 1 → x.1 = 0x50) ∧ field b 16 8 ≤ 2 ^ 44 ∧
    n = (if f.b = 0 then field b 16 8 else (k.r f.b).toNat) ∧ 0 < n ∧ n ≤ field b 16 8 ∧ (fl % 2 = 1 → field b 0 8 + n ≤ 0x10000) ∧
    (fl / 2 % 2 = 1 → field b 8 8 + n ≤ 0x10000) ∧ judge none [(s.seg sg).moveSide k.ctx (fl % 2 == 1) (field b 0 8) n 1 [],
    (s.seg sg).moveSide k.ctx (fl / 2 % 2 == 1) (field b 8 8) n 2 []] = .ok sides used ∧
    (x.1 = 0x50 → (sides.getD 1 []).all (fun p => (s.seg sg).owns p.ga) = true) ∧
    (x.1 = 0x51 → (sides.getD 0 []).all (fun p => (s.seg sg).owns p.ga) = true) :=
  ⟨(0x51, .put), rc (fun k => { k with lb := lb [(0xFFFF, 8), (0x200, 8), (256, 8), (1, 8)], g := gs 1 0 0 }) mapped, 0, 0, fi 31 0 1 0,
   (((rc (fun k => { k with lb := lb [(0xFFFF, 8), (0x200, 8), (256, 8), (1, 8)], g := gs 1 0 0 }) mapped).seg (0)).core (0)),
   (memBytes ((((rc (fun k => { k with lb := lb [(0xFFFF, 8), (0x200, 8), (256, 8), (1, 8)], g := gs 1 0 0 }) mapped).seg (0)).core (0))).lb (((((rc (fun k => { k with lb := lb [(0xFFFF, 8), (0x200, 8), (256, 8), (1, 8)], g := gs 1 0 0 }) mapped).seg (0)).core (0))).descAt (fi 31 0 1 0)).toNat 32),
   1, 1, [[], [pc 0x200 1]], [aRange], by simp [aluInstrs, predInstrs, lunchInstrs], rfl, rfl, by decide +kernel⟩

theorem witness_MovesAndAtomicsIssue_0c :
    ∃ x, ∃ s : State, ∃ sg : Fin 8, ∃ c : Fin 18, ∃ f : IFields, ∃ k : Core, ∃ b : List Byte, ∃ n : Nat, ∃ fl : Nat, ∃ sides : List (List Piece),
    ∃ used : List RangeEntry, (x ∈ ([(0x50, .get), (0x51, .put), (0x52, .copy)] : List (BitVec 8 × (Fin 8 → Fin 18 → IFields → Instr)))) ∧
    k = (s.seg sg).core c ∧ b = memBytes k.lb (k.descAt f).toNat 32 ∧ Executes s sg c f ∧ badSlot f = false ∧
    (s.seg sg).slotExc ((s.seg sg).ownerOf c) (slotOf f) = none ∧ (s.seg sg).storeFull = false ∧ descExc k (k.descAt f) 32 = none ∧ zeros b 25 7 = true ∧
    fl = field b 24 1 ∧ fl < 4 ∧ (fl % 2 = 1 → x.1 = 0x51) ∧ (fl / 2 % 2 = 1 → x.1 = 0x50) ∧ field b 16 8 ≤ 2 ^ 44 ∧
    n = (if f.b = 0 then field b 16 8 else (k.r f.b).toNat) ∧ 0 < n ∧ n ≤ field b 16 8 ∧ (fl % 2 = 1 → field b 0 8 + n ≤ 0x10000) ∧
    (fl / 2 % 2 = 1 → field b 8 8 + n ≤ 0x10000) ∧ judge none [(s.seg sg).moveSide k.ctx (fl % 2 == 1) (field b 0 8) n 1 [],
    (s.seg sg).moveSide k.ctx (fl / 2 % 2 == 1) (field b 8 8) n 2 []] = .ok sides used ∧
    (x.1 = 0x50 → (sides.getD 1 []).all (fun p => (s.seg sg).owns p.ga) = true) ∧
    (x.1 = 0x51 → (sides.getD 0 []).all (fun p => (s.seg sg).owns p.ga) = true) :=
  ⟨(0x52, .copy), rc (fun k => { k with lb := lb [(0, 8), (0x1000, 8), (256, 8), (0, 8)] }) mapped, 0, 0, fi 0 0 0 0,
   (((rc (fun k => { k with lb := lb [(0, 8), (0x1000, 8), (256, 8), (0, 8)] }) mapped).seg (0)).core (0)),
   (memBytes ((((rc (fun k => { k with lb := lb [(0, 8), (0x1000, 8), (256, 8), (0, 8)] }) mapped).seg (0)).core (0))).lb (((((rc (fun k => { k with lb := lb [(0, 8), (0x1000, 8), (256, 8), (0, 8)] }) mapped).seg (0)).core (0))).descAt (fi 0 0 0 0)).toNat 32),
   256, 0, [[pc 0 256], [pc 0x1000 256]], [aRange], by simp [aluInstrs, predInstrs, lunchInstrs], rfl, rfl, by decide +kernel⟩

theorem witness_MovesAndAtomicsIssue_1 :
    ∃ s : State, ∃ sg : Fin 8, ∃ c : Fin 18, ∃ f : IFields, ∃ k : Core, ∃ b : List Byte, ∃ size : Nat, ∃ sh : Shape, ∃ g : Segment, ∃ cs : List Nat,
    ∃ sides : List (List Piece), ∃ used : List RangeEntry, k = (s.seg sg).core c ∧
    size = 64 + 40 * (if (memRead k.lb (k.descAt f).toNat).toNat ≤ 5 then (memRead k.lb (k.descAt f).toNat).toNat else 0) ∧
    b = memBytes k.lb (k.descAt f).toNat size ∧ Executes s sg c f ∧ badSlot f = false ∧ (s.seg sg).slotExc ((s.seg sg).ownerOf c) (slotOf f) = none ∧
    (s.seg sg).storeFull = false ∧ descExc k (k.descAt f) 64 = none ∧ descExc k (k.descAt f) size = none ∧ parseShape b = some sh ∧
    (s.seg sg).shapeCounts k.ctx b sh = (g, .inl cs) ∧ tooWide sh cs = false ∧ cs.all (· != 0) = true ∧
    judge none [g.trSpan k.ctx ({ sh with counts := cs } : Shape).srcSpan 1 [], g.trSpan k.ctx ({ sh with counts := cs } : Shape).dstSpan 2 [],
    g.trSpan k.ctx (({ sh with counts := cs } : Shape).sigAddr.map fun va => (va, 8)) 3 []] = .ok sides used :=
  ⟨rc (fun k => { k with lb := lb (shapeOf 16) }) mapped, 0, 0, fi 1 0 0 0,
   (((rc (fun k => { k with lb := lb (shapeOf 16) }) mapped).seg (0)).core (0)),
   (memBytes ((((rc (fun k => { k with lb := lb (shapeOf 16) }) mapped).seg (0)).core (0))).lb (((((rc (fun k => { k with lb := lb (shapeOf 16) }) mapped).seg (0)).core (0))).descAt (fi 1 0 0 0)).toNat ((64 + 40 * (if (memRead ((((rc (fun k => { k with lb := lb (shapeOf 16) }) mapped).seg (0)).core (0))).lb (((((rc (fun k => { k with lb := lb (shapeOf 16) }) mapped).seg (0)).core (0))).descAt (fi 1 0 0 0)).toNat).toNat ≤ 5 then (memRead ((((rc (fun k => { k with lb := lb (shapeOf 16) }) mapped).seg (0)).core (0))).lb (((((rc (fun k => { k with lb := lb (shapeOf 16) }) mapped).seg (0)).core (0))).descAt (fi 1 0 0 0)).toNat).toNat else 0)))),
   (64 + 40 * (if (memRead ((((rc (fun k => { k with lb := lb (shapeOf 16) }) mapped).seg (0)).core (0))).lb (((((rc (fun k => { k with lb := lb (shapeOf 16) }) mapped).seg (0)).core (0))).descAt (fi 1 0 0 0)).toNat).toNat ≤ 5 then (memRead ((((rc (fun k => { k with lb := lb (shapeOf 16) }) mapped).seg (0)).core (0))).lb (((((rc (fun k => { k with lb := lb (shapeOf 16) }) mapped).seg (0)).core (0))).descAt (fi 1 0 0 0)).toNat).toNat else 0)),
   aShape, ((rc (fun k => { k with lb := lb (shapeOf 16) }) mapped).seg 0), [16], [[pc 0 64], [pc 0x1000 64], []], [aRange], rfl, rfl, rfl,
   by decide +kernel⟩

theorem witness_MovesAndAtomicsIssue_2 :
    ∃ x, ∃ s : State, ∃ sg : Fin 8, ∃ c : Fin 18, ∃ f : IFields, ∃ k : Core, ∃ b : List Byte, ∃ role : Nat, ∃ ga : Nat, ∃ sides : List (List Piece),
    ∃ used : List RangeEntry, (x ∈ ([(0x54, false, .atom), (0x55, true, .atomf)] : List (BitVec 8 × Bool × (Fin 8 → Fin 18 → IFields → Instr)))) ∧
    k = (s.seg sg).core c ∧ b = memBytes k.lb (k.descAt f).toNat 112 ∧ ga = (((sides.getD 0 []).head?).map Piece.ga).getD 0 ∧ Executes s sg c f ∧
    badSlot f = false ∧ (s.seg sg).slotExc ((s.seg sg).ownerOf c) (slotOf f) = none ∧ (s.seg sg).storeFull = false ∧ descExc k (k.descAt f) 112 = none ∧
    zeros b 12 4 = true ∧ role = atomRole x.2.1 (field b 8 1) ∧
    judge none [(s.seg sg).translate k.ctx (field b 0 8) (atomSpan x.2.1 b) (if role == 0 then 1 else if role == 1 then 2 else 3) []] = .ok sides used :=
  ⟨(0x54, false, .atom), rc (fun k => { k with lb := lb [(0x40, 8), (2, 1), (2, 1), (0, 6)] }) mapped, 0, 0, fi 1 0 0 0,
   (((rc (fun k => { k with lb := lb [(0x40, 8), (2, 1), (2, 1), (0, 6)] }) mapped).seg (0)).core (0)),
   (memBytes ((((rc (fun k => { k with lb := lb [(0x40, 8), (2, 1), (2, 1), (0, 6)] }) mapped).seg (0)).core (0))).lb (((((rc (fun k => { k with lb := lb [(0x40, 8), (2, 1), (2, 1), (0, 6)] }) mapped).seg (0)).core (0))).descAt (fi 1 0 0 0)).toNat 112),
   2, ((((([[pc 0x40 8]]).getD 0 []).head?).map Piece.ga).getD 0), [[pc 0x40 8]], [aRange], by simp [aluInstrs, predInstrs, lunchInstrs], rfl, rfl, rfl,
   by decide +kernel⟩

theorem witness_MovesAndAtomicsIssue_2b :
    ∃ x, ∃ s : State, ∃ sg : Fin 8, ∃ c : Fin 18, ∃ f : IFields, ∃ k : Core, ∃ b : List Byte, ∃ role : Nat, ∃ ga : Nat, ∃ sides : List (List Piece),
    ∃ used : List RangeEntry, (x ∈ ([(0x54, false, .atom), (0x55, true, .atomf)] : List (BitVec 8 × Bool × (Fin 8 → Fin 18 → IFields → Instr)))) ∧
    k = (s.seg sg).core c ∧ b = memBytes k.lb (k.descAt f).toNat 112 ∧ ga = (((sides.getD 0 []).head?).map Piece.ga).getD 0 ∧ Executes s sg c f ∧
    badSlot f = false ∧ (s.seg sg).slotExc ((s.seg sg).ownerOf c) (slotOf f) = none ∧ (s.seg sg).storeFull = false ∧ descExc k (k.descAt f) 112 = none ∧
    zeros b 12 4 = true ∧ role = atomRole x.2.1 (field b 8 1) ∧
    judge none [(s.seg sg).translate k.ctx (field b 0 8) (atomSpan x.2.1 b) (if role == 0 then 1 else if role == 1 then 2 else 3) []] = .ok sides used :=
  ⟨(0x55, true, .atomf), rc (fun k => { k with lb := lb [(0x40, 8), (0, 1), (0, 1), (2, 1), (1, 5)] }) mapped, 0, 0, fi 1 0 0 0,
   (((rc (fun k => { k with lb := lb [(0x40, 8), (0, 1), (0, 1), (2, 1), (1, 5)] }) mapped).seg (0)).core (0)),
   (memBytes ((((rc (fun k => { k with lb := lb [(0x40, 8), (0, 1), (0, 1), (2, 1), (1, 5)] }) mapped).seg (0)).core (0))).lb (((((rc (fun k => { k with lb := lb [(0x40, 8), (0, 1), (0, 1), (2, 1), (1, 5)] }) mapped).seg (0)).core (0))).descAt (fi 1 0 0 0)).toNat 112),
   2, ((((([[pc 0x40 64]]).getD 0 []).head?).map Piece.ga).getD 0), [[pc 0x40 64]], [aRange], by simp [aluInstrs, predInstrs, lunchInstrs], rfl, rfl,
   rfl, by decide +kernel⟩

theorem witness_MovesAndAtomicsIssue_3 :
    ∃ s : State, ∃ sg : Fin 8, ∃ c : Fin 18, ∃ f : IFields, ∃ k : Core, ∃ sides : List (List Piece), ∃ used : List RangeEntry, k = (s.seg sg).core c ∧
    Executes s sg c f ∧ badSlot f = false ∧ (s.seg sg).slotExc ((s.seg sg).ownerOf c) (slotOf f) = none ∧ (s.seg sg).storeFull = false ∧
    (k.r f.a).toNat % 8 = 0 ∧ judge none [(s.seg sg).translate k.ctx (k.r f.a).toNat 8 3 []] = .ok sides used ∧
    (f.imm.getLsbD 16 = false ∨ (s.seg sg).fenceSet ((s.seg sg).ownerOf c) 1 = []) :=
  ⟨rc id mapped, 0, 0, fi 1 0 0 0x10000, (((rc id mapped).seg (0)).core (0)), [[pc 0 8]], [aRange], rfl, by decide +kernel⟩

theorem witness_CollectivesIssue_0 :
    ∃ x, ∃ s : State, ∃ sg : Fin 8, ∃ c : Fin 18, ∃ f : IFields, ∃ k : Core, ∃ n : BitVec 12, ∃ st, (x ∈ ([(0x5A, 0x5A, .camp), (0x5B, 0x5B, .vote),
    (0x5C, 0x5C, .ride)] : List (BitVec 8 × Nat × (Fin 8 → Fin 18 → IFields → Instr)))) ∧ k = (s.seg sg).core c ∧ n = (k.r f.a).truncate 12 ∧
    Executes s sg c f ∧ badSlot f = false ∧ (x.1 = 0x5C → f.flags % 16 ≤ 9) ∧ (s.seg sg).slotExc ((s.seg sg).ownerOf c) (slotOf f) = none ∧
    (s.seg sg).groupRefuses n k.ctx = some st :=
  ⟨(0x5A, 0x5A, .camp), rc id, 0, 0, fi 1 0 0 0, (((rc id).seg (0)).core (0)), ((((((rc id).seg (0)).core (0))).r (fi 1 0 0 0).a).truncate 12),
   csDenied, by simp [aluInstrs, predInstrs, lunchInstrs], rfl, rfl, by decide +kernel⟩

theorem witness_CollectivesIssue_1 :
    ∃ x, ∃ s : State, ∃ sg : Fin 8, ∃ c : Fin 18, ∃ f : IFields, ∃ k : Core, ∃ n : BitVec 12, ∃ y, (x ∈ ([(0x5A, 0x5A, .camp), (0x5B, 0x5B, .vote), (0x5C,
    0x5C, .ride)] : List (BitVec 8 × Nat × (Fin 8 → Fin 18 → IFields → Instr)))) ∧ k = (s.seg sg).core c ∧ n = (k.r f.a).truncate 12 ∧ Executes s sg c f ∧
    badSlot f = false ∧ (x.1 = 0x5C → f.flags % 16 ≤ 9) ∧ (s.seg sg).slotExc ((s.seg sg).ownerOf c) (slotOf f) = none ∧
    (s.seg sg).groupRefuses n k.ctx = none ∧ (s.seg sg).grp? n = some y ∧ (s.seg sg).storeFull = false ∧ (s.seg sg).queueHeld s.time c n y = false :=
  ⟨(0x5C, 0x5C, .ride), rc (fun k => { k with g := gs 5 0 0 }) (grouped aGrp), 0, 0, fi 1 1 0 0x90000,
   (((rc (fun k => { k with g := gs 5 0 0 }) (grouped aGrp)).seg (0)).core (0)),
   ((((((rc (fun k => { k with g := gs 5 0 0 }) (grouped aGrp)).seg (0)).core (0))).r (fi 1 1 0 0x90000).a).truncate 12), aGrp, by simp [aluInstrs,
   predInstrs, lunchInstrs], rfl, rfl, by decide +kernel⟩

def joinAt : State := rc (fun k => { k with lb := lb [(5, 2), (0, 1), (1, 1), (1, 1), (1, 1), (0, 1), (1, 1), (0, 8), (8, 8), (0, 8), (0x1000, 8)] }) fun g => grouped aGrp (mapped g)
theorem witness_CollectivesIssue_2 :
    ∃ s : State, ∃ sg : Fin 8, ∃ c : Fin 18, ∃ f : IFields, ∃ k : Core, ∃ b : List Byte, ∃ shb : List Byte, ∃ off : Nat, ∃ size : Nat, ∃ n : BitVec 12,
    ∃ x : Grp, ∃ sh : Option Shape, ∃ g : Segment, ∃ counts : List Nat ⊕ BitVec 4, ∃ op : COp, ∃ sides : List (List Piece), ∃ used : List RangeEntry,
    k = (s.seg sg).core c ∧ b = memBytes k.lb (k.descAt f).toNat 64 ∧ off = field b 40 2 ∧
    size = (if off == 0 then 0 else inlineSize k (k.descAt f).toNat off) ∧ n = BitVec.ofNat 12 (field b 0 2) ∧
    shb = memBytes k.lb ((k.descAt f).toNat + off) size ∧ sh = (if size == 0 then none else parseShape shb) ∧
    op = { x.joinOp g c f b sh counts with at_ := k.issueAge s.time, raw := memBytes k.lb (k.descAt f).toNat (if size == 0 then 64 else off + size) } ∧
    Executes s sg c f ∧ badSlot f = false ∧ (s.seg sg).slotExc ((s.seg sg).ownerOf c) (slotOf f) = none ∧ descExc k (k.descAt f) 64 = none ∧
    descExc k (k.descAt f) (if size == 0 then 64 else off + size) = none ∧ (s.seg sg).groupRefuses n k.ctx = none ∧ (s.seg sg).grp? n = some x ∧
    x.badCDesc b sh = false ∧ (s.seg sg).storeFull = false ∧ (s.seg sg).queueHeld s.time c n x = false ∧ (s.seg sg).joinCounts c f x b sh shb = (g,
    counts) ∧ judge none [g.trSpan k.ctx (x.joinSpans op (runCount counts)).1 1 [],
    g.trSpan k.ctx (x.joinSpans op (runCount counts)).2 2 []] = .ok sides used :=
  ⟨joinAt, 0, 0, fi 1 0 0 0, (((joinAt).seg (0)).core (0)),
   (memBytes ((((joinAt).seg (0)).core (0))).lb (((((joinAt).seg (0)).core (0))).descAt (fi 1 0 0 0)).toNat 64),
   (memBytes ((((joinAt).seg (0)).core (0))).lb ((((((joinAt).seg (0)).core (0))).descAt (fi 1 0 0 0)).toNat + ((field ((memBytes ((((joinAt).seg (0)).core (0))).lb (((((joinAt).seg (0)).core (0))).descAt (fi 1 0 0 0)).toNat 64)) 40 2))) (((if ((field ((memBytes ((((joinAt).seg (0)).core (0))).lb (((((joinAt).seg (0)).core (0))).descAt (fi 1 0 0 0)).toNat 64)) 40 2)) == 0 then 0 else inlineSize ((((joinAt).seg (0)).core (0))) (((((joinAt).seg (0)).core (0))).descAt (fi 1 0 0 0)).toNat ((field ((memBytes ((((joinAt).seg (0)).core (0))).lb (((((joinAt).seg (0)).core (0))).descAt (fi 1 0 0 0)).toNat 64)) 40 2)))))),
   (field ((memBytes ((((joinAt).seg (0)).core (0))).lb (((((joinAt).seg (0)).core (0))).descAt (fi 1 0 0 0)).toNat 64)) 40 2),
   ((if ((field ((memBytes ((((joinAt).seg (0)).core (0))).lb (((((joinAt).seg (0)).core (0))).descAt (fi 1 0 0 0)).toNat 64)) 40 2)) == 0 then 0 else inlineSize ((((joinAt).seg (0)).core (0))) (((((joinAt).seg (0)).core (0))).descAt (fi 1 0 0 0)).toNat ((field ((memBytes ((((joinAt).seg (0)).core (0))).lb (((((joinAt).seg (0)).core (0))).descAt (fi 1 0 0 0)).toNat 64)) 40 2)))),
   (BitVec.ofNat 12 (field ((memBytes ((((joinAt).seg (0)).core (0))).lb (((((joinAt).seg (0)).core (0))).descAt (fi 1 0 0 0)).toNat 64)) 0 2)), aGrp,
   ((if (((if ((field ((memBytes ((((joinAt).seg (0)).core (0))).lb (((((joinAt).seg (0)).core (0))).descAt (fi 1 0 0 0)).toNat 64)) 40 2)) == 0 then 0 else inlineSize ((((joinAt).seg (0)).core (0))) (((((joinAt).seg (0)).core (0))).descAt (fi 1 0 0 0)).toNat ((field ((memBytes ((((joinAt).seg (0)).core (0))).lb (((((joinAt).seg (0)).core (0))).descAt (fi 1 0 0 0)).toNat 64)) 40 2))))) == 0 then none else parseShape ((memBytes ((((joinAt).seg (0)).core (0))).lb ((((((joinAt).seg (0)).core (0))).descAt (fi 1 0 0 0)).toNat + ((field ((memBytes ((((joinAt).seg (0)).core (0))).lb (((((joinAt).seg (0)).core (0))).descAt (fi 1 0 0 0)).toNat 64)) 40 2))) (((if ((field ((memBytes ((((joinAt).seg (0)).core (0))).lb (((((joinAt).seg (0)).core (0))).descAt (fi 1 0 0 0)).toNat 64)) 40 2)) == 0 then 0 else inlineSize ((((joinAt).seg (0)).core (0))) (((((joinAt).seg (0)).core (0))).descAt (fi 1 0 0 0)).toNat ((field ((memBytes ((((joinAt).seg (0)).core (0))).lb (((((joinAt).seg (0)).core (0))).descAt (fi 1 0 0 0)).toNat 64)) 40 2))))))))),
   joinAt.seg 0, .inl [8],
   ({ (aGrp).joinOp (joinAt.seg 0) (0) (fi 1 0 0 0) ((memBytes ((((joinAt).seg (0)).core (0))).lb (((((joinAt).seg (0)).core (0))).descAt (fi 1 0 0 0)).toNat 64)) (((if (((if ((field ((memBytes ((((joinAt).seg (0)).core (0))).lb (((((joinAt).seg (0)).core (0))).descAt (fi 1 0 0 0)).toNat 64)) 40 2)) == 0 then 0 else inlineSize ((((joinAt).seg (0)).core (0))) (((((joinAt).seg (0)).core (0))).descAt (fi 1 0 0 0)).toNat ((field ((memBytes ((((joinAt).seg (0)).core (0))).lb (((((joinAt).seg (0)).core (0))).descAt (fi 1 0 0 0)).toNat 64)) 40 2))))) == 0 then none else parseShape ((memBytes ((((joinAt).seg (0)).core (0))).lb ((((((joinAt).seg (0)).core (0))).descAt (fi 1 0 0 0)).toNat + ((field ((memBytes ((((joinAt).seg (0)).core (0))).lb (((((joinAt).seg (0)).core (0))).descAt (fi 1 0 0 0)).toNat 64)) 40 2))) (((if ((field ((memBytes ((((joinAt).seg (0)).core (0))).lb (((((joinAt).seg (0)).core (0))).descAt (fi 1 0 0 0)).toNat 64)) 40 2)) == 0 then 0 else inlineSize ((((joinAt).seg (0)).core (0))) (((((joinAt).seg (0)).core (0))).descAt (fi 1 0 0 0)).toNat ((field ((memBytes ((((joinAt).seg (0)).core (0))).lb (((((joinAt).seg (0)).core (0))).descAt (fi 1 0 0 0)).toNat 64)) 40 2)))))))))) (.inl [8]) with at_ := ((((joinAt).seg (0)).core (0))).issueAge (joinAt).time, raw := memBytes ((((joinAt).seg (0)).core (0))).lb (((((joinAt).seg (0)).core (0))).descAt (fi 1 0 0 0)).toNat (if (((if ((field ((memBytes ((((joinAt).seg (0)).core (0))).lb (((((joinAt).seg (0)).core (0))).descAt (fi 1 0 0 0)).toNat 64)) 40 2)) == 0 then 0 else inlineSize ((((joinAt).seg (0)).core (0))) (((((joinAt).seg (0)).core (0))).descAt (fi 1 0 0 0)).toNat ((field ((memBytes ((((joinAt).seg (0)).core (0))).lb (((((joinAt).seg (0)).core (0))).descAt (fi 1 0 0 0)).toNat 64)) 40 2))))) == 0 then 64 else ((field ((memBytes ((((joinAt).seg (0)).core (0))).lb (((((joinAt).seg (0)).core (0))).descAt (fi 1 0 0 0)).toNat 64)) 40 2)) + (((if ((field ((memBytes ((((joinAt).seg (0)).core (0))).lb (((((joinAt).seg (0)).core (0))).descAt (fi 1 0 0 0)).toNat 64)) 40 2)) == 0 then 0 else inlineSize ((((joinAt).seg (0)).core (0))) (((((joinAt).seg (0)).core (0))).descAt (fi 1 0 0 0)).toNat ((field ((memBytes ((((joinAt).seg (0)).core (0))).lb (((((joinAt).seg (0)).core (0))).descAt (fi 1 0 0 0)).toNat 64)) 40 2)))))) }),
   [[pc 0 32], [pc 0x1000 32]], [aRange], rfl, rfl, rfl, rfl, rfl, rfl, rfl, rfl, by decide +kernel⟩

def joinShaped : State := rc (fun k => { k with lb := lb ([(5, 2), (0, 1), (1, 1), (1, 1), (1, 1), (0, 1), (1, 1), (0, 8), (8, 8), (0, 16), (64, 24)] ++ shapeOf 8) }) fun g => grouped aGrp (mapped g)
theorem witness_CollectivesIssue_2b :
    ∃ s : State, ∃ sg : Fin 8, ∃ c : Fin 18, ∃ f : IFields, ∃ k : Core, ∃ b : List Byte, ∃ shb : List Byte, ∃ off : Nat, ∃ size : Nat, ∃ n : BitVec 12,
    ∃ x : Grp, ∃ sh : Option Shape, ∃ g : Segment, ∃ counts : List Nat ⊕ BitVec 4, ∃ op : COp, ∃ sides : List (List Piece), ∃ used : List RangeEntry,
    k = (s.seg sg).core c ∧ b = memBytes k.lb (k.descAt f).toNat 64 ∧ off = field b 40 2 ∧
    size = (if off == 0 then 0 else inlineSize k (k.descAt f).toNat off) ∧ n = BitVec.ofNat 12 (field b 0 2) ∧
    shb = memBytes k.lb ((k.descAt f).toNat + off) size ∧ sh = (if size == 0 then none else parseShape shb) ∧
    op = { x.joinOp g c f b sh counts with at_ := k.issueAge s.time, raw := memBytes k.lb (k.descAt f).toNat (if size == 0 then 64 else off + size) } ∧
    Executes s sg c f ∧ badSlot f = false ∧ (s.seg sg).slotExc ((s.seg sg).ownerOf c) (slotOf f) = none ∧ descExc k (k.descAt f) 64 = none ∧
    descExc k (k.descAt f) (if size == 0 then 64 else off + size) = none ∧ (s.seg sg).groupRefuses n k.ctx = none ∧ (s.seg sg).grp? n = some x ∧
    x.badCDesc b sh = false ∧ (s.seg sg).storeFull = false ∧ (s.seg sg).queueHeld s.time c n x = false ∧ (s.seg sg).joinCounts c f x b sh shb = (g,
    counts) ∧ judge none [g.trSpan k.ctx (x.joinSpans op (runCount counts)).1 1 [],
    g.trSpan k.ctx (x.joinSpans op (runCount counts)).2 2 []] = .ok sides used :=
  ⟨joinShaped, 0, 0, fi 1 0 0 0, (((joinShaped).seg (0)).core (0)),
   (memBytes ((((joinShaped).seg (0)).core (0))).lb (((((joinShaped).seg (0)).core (0))).descAt (fi 1 0 0 0)).toNat 64),
   (memBytes ((((joinShaped).seg (0)).core (0))).lb ((((((joinShaped).seg (0)).core (0))).descAt (fi 1 0 0 0)).toNat + ((field ((memBytes ((((joinShaped).seg (0)).core (0))).lb (((((joinShaped).seg (0)).core (0))).descAt (fi 1 0 0 0)).toNat 64)) 40 2))) (((if ((field ((memBytes ((((joinShaped).seg (0)).core (0))).lb (((((joinShaped).seg (0)).core (0))).descAt (fi 1 0 0 0)).toNat 64)) 40 2)) == 0 then 0 else inlineSize ((((joinShaped).seg (0)).core (0))) (((((joinShaped).seg (0)).core (0))).descAt (fi 1 0 0 0)).toNat ((field ((memBytes ((((joinShaped).seg (0)).core (0))).lb (((((joinShaped).seg (0)).core (0))).descAt (fi 1 0 0 0)).toNat 64)) 40 2)))))),
   (field ((memBytes ((((joinShaped).seg (0)).core (0))).lb (((((joinShaped).seg (0)).core (0))).descAt (fi 1 0 0 0)).toNat 64)) 40 2),
   ((if ((field ((memBytes ((((joinShaped).seg (0)).core (0))).lb (((((joinShaped).seg (0)).core (0))).descAt (fi 1 0 0 0)).toNat 64)) 40 2)) == 0 then 0 else inlineSize ((((joinShaped).seg (0)).core (0))) (((((joinShaped).seg (0)).core (0))).descAt (fi 1 0 0 0)).toNat ((field ((memBytes ((((joinShaped).seg (0)).core (0))).lb (((((joinShaped).seg (0)).core (0))).descAt (fi 1 0 0 0)).toNat 64)) 40 2)))),
   (BitVec.ofNat 12 (field ((memBytes ((((joinShaped).seg (0)).core (0))).lb (((((joinShaped).seg (0)).core (0))).descAt (fi 1 0 0 0)).toNat 64)) 0 2)),
   aGrp,
   ((if (((if ((field ((memBytes ((((joinShaped).seg (0)).core (0))).lb (((((joinShaped).seg (0)).core (0))).descAt (fi 1 0 0 0)).toNat 64)) 40 2)) == 0 then 0 else inlineSize ((((joinShaped).seg (0)).core (0))) (((((joinShaped).seg (0)).core (0))).descAt (fi 1 0 0 0)).toNat ((field ((memBytes ((((joinShaped).seg (0)).core (0))).lb (((((joinShaped).seg (0)).core (0))).descAt (fi 1 0 0 0)).toNat 64)) 40 2))))) == 0 then none else parseShape ((memBytes ((((joinShaped).seg (0)).core (0))).lb ((((((joinShaped).seg (0)).core (0))).descAt (fi 1 0 0 0)).toNat + ((field ((memBytes ((((joinShaped).seg (0)).core (0))).lb (((((joinShaped).seg (0)).core (0))).descAt (fi 1 0 0 0)).toNat 64)) 40 2))) (((if ((field ((memBytes ((((joinShaped).seg (0)).core (0))).lb (((((joinShaped).seg (0)).core (0))).descAt (fi 1 0 0 0)).toNat 64)) 40 2)) == 0 then 0 else inlineSize ((((joinShaped).seg (0)).core (0))) (((((joinShaped).seg (0)).core (0))).descAt (fi 1 0 0 0)).toNat ((field ((memBytes ((((joinShaped).seg (0)).core (0))).lb (((((joinShaped).seg (0)).core (0))).descAt (fi 1 0 0 0)).toNat 64)) 40 2))))))))),
   joinShaped.seg 0, .inl [8],
   ({ (aGrp).joinOp (joinShaped.seg 0) (0) (fi 1 0 0 0) ((memBytes ((((joinShaped).seg (0)).core (0))).lb (((((joinShaped).seg (0)).core (0))).descAt (fi 1 0 0 0)).toNat 64)) (((if (((if ((field ((memBytes ((((joinShaped).seg (0)).core (0))).lb (((((joinShaped).seg (0)).core (0))).descAt (fi 1 0 0 0)).toNat 64)) 40 2)) == 0 then 0 else inlineSize ((((joinShaped).seg (0)).core (0))) (((((joinShaped).seg (0)).core (0))).descAt (fi 1 0 0 0)).toNat ((field ((memBytes ((((joinShaped).seg (0)).core (0))).lb (((((joinShaped).seg (0)).core (0))).descAt (fi 1 0 0 0)).toNat 64)) 40 2))))) == 0 then none else parseShape ((memBytes ((((joinShaped).seg (0)).core (0))).lb ((((((joinShaped).seg (0)).core (0))).descAt (fi 1 0 0 0)).toNat + ((field ((memBytes ((((joinShaped).seg (0)).core (0))).lb (((((joinShaped).seg (0)).core (0))).descAt (fi 1 0 0 0)).toNat 64)) 40 2))) (((if ((field ((memBytes ((((joinShaped).seg (0)).core (0))).lb (((((joinShaped).seg (0)).core (0))).descAt (fi 1 0 0 0)).toNat 64)) 40 2)) == 0 then 0 else inlineSize ((((joinShaped).seg (0)).core (0))) (((((joinShaped).seg (0)).core (0))).descAt (fi 1 0 0 0)).toNat ((field ((memBytes ((((joinShaped).seg (0)).core (0))).lb (((((joinShaped).seg (0)).core (0))).descAt (fi 1 0 0 0)).toNat 64)) 40 2)))))))))) (.inl [8]) with at_ := ((((joinShaped).seg (0)).core (0))).issueAge (joinShaped).time, raw := memBytes ((((joinShaped).seg (0)).core (0))).lb (((((joinShaped).seg (0)).core (0))).descAt (fi 1 0 0 0)).toNat (if (((if ((field ((memBytes ((((joinShaped).seg (0)).core (0))).lb (((((joinShaped).seg (0)).core (0))).descAt (fi 1 0 0 0)).toNat 64)) 40 2)) == 0 then 0 else inlineSize ((((joinShaped).seg (0)).core (0))) (((((joinShaped).seg (0)).core (0))).descAt (fi 1 0 0 0)).toNat ((field ((memBytes ((((joinShaped).seg (0)).core (0))).lb (((((joinShaped).seg (0)).core (0))).descAt (fi 1 0 0 0)).toNat 64)) 40 2))))) == 0 then 64 else ((field ((memBytes ((((joinShaped).seg (0)).core (0))).lb (((((joinShaped).seg (0)).core (0))).descAt (fi 1 0 0 0)).toNat 64)) 40 2)) + (((if ((field ((memBytes ((((joinShaped).seg (0)).core (0))).lb (((((joinShaped).seg (0)).core (0))).descAt (fi 1 0 0 0)).toNat 64)) 40 2)) == 0 then 0 else inlineSize ((((joinShaped).seg (0)).core (0))) (((((joinShaped).seg (0)).core (0))).descAt (fi 1 0 0 0)).toNat ((field ((memBytes ((((joinShaped).seg (0)).core (0))).lb (((((joinShaped).seg (0)).core (0))).descAt (fi 1 0 0 0)).toNat 64)) 40 2)))))) }),
   [[pc 0 32], [pc 0x1000 32]], [aRange], rfl, rfl, rfl, rfl, rfl, rfl, rfl, rfl, by decide +kernel⟩

theorem witness_GuardedOffAndFetch_0 :
    ∃ i : Instr, ∃ op : BitVec 8, ∃ x : Fetched, ∃ s : State, ∃ code, ∃ info, i.opcode = some (op, x) ∧ Takes s x.sg ∧
    ((s.seg x.sg).core x.c).st = .running ∧ (s.seg x.sg).clocked = true ∧ (s.seg x.sg).stopHeld x.c = false ∧
    (16 ≤ x.c.val → (s.seg x.sg).usable s.tick (x.c.val - 15) = true) ∧ ((s.seg x.sg).core x.c).fetchExc x.c = some (code, info) :=
  ⟨.add 0 16 (fi 1 0 0 0), 0x01, { sg := 0, c := 16, f := fi 1 0 0 0 }, rk fun k => { k with pc := 0x18000 }, 0x5, 0x18000, by decide +kernel⟩

theorem witness_GuardedOffAndFetch_1 :
    ∃ i : Instr, ∃ op : BitVec 8, ∃ x : Fetched, ∃ s : State, i.opcode = some (op, x) ∧ Takes s x.sg ∧ ((s.seg x.sg).core x.c).st = .running ∧
    (s.seg x.sg).clocked = true ∧ (s.seg x.sg).stopHeld x.c = false ∧ (16 ≤ x.c.val → (s.seg x.sg).usable s.tick (x.c.val - 15) = true) ∧
    ((s.seg x.sg).core x.c).fetchExc x.c = none ∧ ((s.seg x.sg).core x.c).guarded x.f = false :=
  ⟨.add 0 16 { fi 1 0 0 0 with inv := true }, 0x01, { sg := 0, c := 16, f := { fi 1 0 0 0 with inv := true } }, rk id, by decide +kernel⟩

theorem witness_GuardedOffAndFetch_2 :
    ∃ y, ∃ s : State, ∃ sg : Fin 8, ∃ c : Fin 18, ∃ f : IFields, (y ∈ ([(0x41, 2, .sets), (0x42, 1, .cld), (0x43, 1, .cst), (0x4D, 1,
    .eret)] : List (BitVec 8 × Nat × (Fin 8 → Fin 18 → IFields → Instr)))) ∧ Executes s sg c f ∧
    (if c.val = 16 then 2 else if c.val = 17 then 1 else 0) < y.2.1 :=
  ⟨(0x41, 2, .sets), run 0 fun g => g.modCore 17 fun k => { k with st := .running }, 0, 17, fi 0 1 0 0, by simp [aluInstrs, predInstrs, lunchInstrs],
   by decide +kernel⟩

theorem witness_ExceptionEntry_0 : ∃ (i : Instr) (s : State) (sg : Fin 8) (c : Fin 18) (op : BitVec 8) (code : BitVec 4) (info : Word),
    Takes s sg ∧ 16 ≤ c.val ∧ ((s.seg sg).core c).st ≠ .idle ∧ ((s.seg sg).core c).handler = false ∧ Raises i s sg c op code info :=
  ⟨.ld16 0 16 (fi 1 0 0 1), rk id, 0, 16, 0x31, 0x3, 1, by decide +kernel, by decide, by decide +kernel, by decide +kernel, eq_of_same (by decide +kernel)⟩
theorem witness_ExceptionEntry_1 : ∃ (i : Instr) (s : State) (sg : Fin 8) (c : Fin 18) (op : BitVec 8) (code : BitVec 4) (info : Word) (n : Nat),
    Takes s sg ∧ c.val < 16 ∧ ((s.seg sg).core c).ticket = some n ∧ Raises i s sg c op code info :=
  ⟨.sets 0 0 (fi 0 1 0 0), rc id, 0, 0, 0x41, 0x2, 0, 3, by decide +kernel, by decide, by decide +kernel, eq_of_same (by decide +kernel)⟩
theorem witness_CoreEventsAct_0 :
    ∃ s : State, ∃ sg : Fin 8, ∃ c : Fin 18, ∃ n : Nat, ∃ limit : Nat, limit = (s.seg sg).fld (F.CUR_CTRL_RUN_LIMIT.core c) * 65536 ∧ Takes s sg ∧
    c.val < 16 ∧ ((s.seg sg).core c).ticket = some n ∧ ((s.seg sg).core c).st ≠ .stopped ∧ ((s.seg sg).core c).canStop = true ∧ 0 < limit ∧
    limit ≤ s.tick - ((s.seg sg).core c).startTick ∧ (((s.seg sg).core c).st = .running → 21 * (((s.seg sg).core c).startTick + limit) < s.time) ∧
    (((s.seg sg).core c).st ≠ .running → s.lapsed (((s.seg sg).core c).startTick + limit) = true) :=
  ⟨run (21 * 65536 + 1) fun g => (couriers g).setFld (F.CUR_CTRL_RUN_LIMIT.core 0) 1, 0, 0, 3,
   (((run (21 * 65536 + 1) fun g => (couriers g).setFld (F.CUR_CTRL_RUN_LIMIT.core 0) 1).seg (0)).fld (F.CUR_CTRL_RUN_LIMIT.core (0)) * 65536), rfl,
   by decide +kernel⟩

def waiting (w : Wait) : State := rc fun k => { k with st := .waiting, wait := some w }
theorem witness_CoreEventsAct_1 :
    ∃ s : State, ∃ sg : Fin 8, ∃ c : Fin 18, ∃ va : Word, ∃ addr : Nat, ∃ val : Word, ∃ pd : BitVec 5, ∃ dl : Option Nat, ∃ due : Nat, Takes s sg ∧
    ((s.seg sg).core c).wait = some (.waits va addr val pd dl due) ∧ due ≤ s.time ∧ val.toNat ≤ bytesNat ((s.seg sg).gaBytes addr 8) :=
  ⟨waiting (.waits 0 0x100 0 7 none 0), 0, 0, 0, 0x100, 0, 7, none, 0, by decide +kernel⟩

theorem witness_CoreEventsAct_2 :
    ∃ s : State, ∃ sg : Fin 8, ∃ c : Fin 18, ∃ va : Word, ∃ addr : Nat, ∃ val : Word, ∃ pd : BitVec 5, ∃ dl : Option Nat, ∃ due : Nat, Takes s sg ∧
    ((s.seg sg).core c).wait = some (.waits va addr val pd dl due) ∧ due ≤ s.time ∧ bytesNat ((s.seg sg).gaBytes addr 8) < val.toNat :=
  ⟨waiting (.waits 0 0x100 1 7 none 0), 0, 0, 0, 0x100, 1, 7, none, 0, by decide +kernel⟩

theorem witness_CoreEventsAct_3 :
    ∃ s : State, ∃ sg : Fin 8, ∃ c : Fin 18, ∃ va : Word, ∃ addr : Nat, ∃ val : Word, ∃ pd : BitVec 5, ∃ dl : Option Nat, ∃ due : Nat, ∃ st, Takes s sg ∧
    ((s.seg sg).core c).wait = some (.waits va addr val pd dl due) ∧ due ≤ s.time ∧ st ≠ 0 :=
  ⟨waiting (.waits 0 0x100 1 7 none 0), 0, 0, 0, 0x100, 1, 7, none, 0, 1, by decide +kernel⟩

theorem witness_CoreEventsAct_4 :
    ∃ s : State, ∃ sg : Fin 8, ∃ c : Fin 18, ∃ pd : BitVec 5, ∃ dl : Nat, ∃ va, ∃ addr, ∃ val, ∃ due, Takes s sg ∧ s.lapsed dl = true ∧
    ((s.seg sg).core c).wait = some (.waits va addr val pd (some dl) due) :=
  ⟨{ waiting (.waits 0 0x100 1 7 (some 0) 9) with time := 20 }, 0, 0, 7, 0, 0, 0x100, 1, 9, by decide +kernel⟩

theorem witness_CoreEventsAct_5 :
    ∃ s : State, ∃ sg : Fin 8, ∃ c : Fin 18, ∃ pd : BitVec 5, ∃ dl : Nat, ∃ mask, ∃ any, Takes s sg ∧ s.lapsed dl = true ∧
    ((s.seg sg).core c).wait = some (.waite mask any pd (some dl)) :=
  ⟨{ waiting (.waite 1 false 7 (some 0)) with time := 20 }, 0, 0, 7, 0, 1, false, by decide +kernel⟩

def aCopy : Desc := desc (.move 0x52 (.span 0 [pc 0 256]) (.span 0x1000 [pc 0x1000 256]) 256 false) 256
def copying : State := rc id (described aCopy)
theorem witness_CoreEventsAct_6 :
    ∃ s : State, ∃ sg : Fin 8, ∃ desc : Fin 1024, ∃ d : Desc, ∃ g' : Segment, Takes s sg ∧ (s.seg sg).desc? desc = some d ∧
    (s.seg sg).nextLine s.time d = some g' ∧ (injected (s.seg sg) g' = true → (s.seg sg).olderWaits s.time d.rank (some d.idx) none = false) :=
  ⟨copying, 0, 0, aCopy, ((copying.seg 0).nextLine 0 aCopy).getD default, by decide +kernel⟩

theorem witness_CoreEventsAct_7 :
    ∃ s : State, ∃ sg : Fin 8, ∃ c : Fin 18, Takes s sg ∧ ((s.seg sg).core c).st = .running ∧ (s.seg sg).stopHeld c = false ∧
    inCode c ((s.seg sg).core c) = true ∧ ((s.seg sg).core c).icache.contains (((s.seg sg).core c).pc.toNat / 128) = false :=
  ⟨rc id, 0, 0, by decide +kernel⟩

theorem witness_CoreEventsAct_8 :
    ∃ s : State, ∃ sg : Fin 8, ∃ c : Fin 18, Takes s sg ∧ (((s.seg sg).core c).st = .running ∨ (((s.seg sg).core c).st = .idle ∧ c.val < 16)) ∧
    (s.seg sg).stopHeld c = true :=
  ⟨(rk id).mod 0 fun g => g.setFld (F.CUR_CTRL_STOP.core 16) 1, 0, 16, by decide +kernel⟩

theorem witness_CoreEventsAct_9 :
    ∃ s : State, ∃ sg : Fin 8, ∃ c : Fin 18, Takes s sg ∧ ((s.seg sg).core c).st = .stopped ∧ (s.seg sg).stopHeld c = false :=
  ⟨rc fun k => { k with st := .stopped }, 0, 0, by decide +kernel⟩

theorem witness_CoreEventsAct_10 :
    ∃ s : State, ∃ sg : Fin 8, ∃ c : Fin 18, ∃ ag : Agent, ∃ g : Segment, ∃ w : Nat, g = (s.reached sg ag [coreDomain c]).seg sg ∧
    w = g.fld (F.CUR_LB_ADDR_ADDR.core c) ∧ Takes s sg ∧ (c.val = 16 → ag.isKeeper = true) ∧
    ((g.core c).ticket.isSome && g.sealedCtx (g.core c).ctx) = false ∧ (g.core c).lbBad.contains w = false :=
  ⟨rk id, 0, 16, kp, (((rk id).reached (0) (kp) [coreDomain (16)]).seg (0)),
   (((((rk id).reached (0) (kp) [coreDomain (16)]).seg (0))).fld (F.CUR_LB_ADDR_ADDR.core (16))), rfl, rfl, by decide +kernel⟩

theorem witness_CoreEventsAct_11 :
    ∃ s : State, ∃ sg : Fin 8, ∃ c : Fin 18, ∃ ag : Agent, ∃ g : Segment, ∃ w : Nat, g = (s.reached sg ag [coreDomain c]).seg sg ∧
    w = g.fld (F.CUR_LB_ADDR_ADDR.core c) ∧ Takes s sg ∧ (c.val = 16 → ag.isKeeper = true) ∧
    ((g.core c).ticket.isSome && g.sealedCtx (g.core c).ctx) = false :=
  ⟨rk id, 0, 17, hd, (((rk id).reached (0) (hd) [coreDomain (17)]).seg (0)),
   (((((rk id).reached (0) (hd) [coreDomain (17)]).seg (0))).fld (F.CUR_LB_ADDR_ADDR.core (17))), rfl, rfl, by decide +kernel⟩

theorem witness_CoreEventsAct_12 :
    ∃ s : State, ∃ sg : Fin 8, ∃ c : Fin 18, ∃ ag : Agent, Takes s sg ∧ (c.val = 16 → ag.isKeeper = true) :=
  ⟨rk id, 0, 17, hd, by decide +kernel⟩

theorem witness_TrailsAndTickets_0 :
    ∃ s : State, ∃ sg : Fin 8, ∃ ag : Agent, Takes s sg ∧ ((s.reached sg ag [domRange]).seg sg).trl.fifo.length < 64 :=
  ⟨run 0 fun g => { g with trl := { g.trl with fifo := List.replicate 63 (0, hd) } }, 0, hd, by decide +kernel⟩

theorem witness_TrailsAndTickets_1 :
    ∃ s : State, ∃ sg : Fin 8, ∃ ag : Agent, Takes s sg ∧ 64 ≤ ((s.reached sg ag [domRange]).seg sg).trl.fifo.length :=
  ⟨run 0 fun g => { g with trl := { g.trl with fifo := List.replicate 64 (0, hd) } }, 0, hd, by decide +kernel⟩

def header : List Byte := natBytes 0 8 ++ natBytes 2 4 ++ natBytes 0 4 ++ natBytes 0x2000 8 ++ natBytes 0x3000 8 ++ [4]
def submitted : State := run 0 fun g => { mapped (g.put 0 0x1000 header) with trl := { g.trl with fifo := [(0x1000, hd)] } }
def headRing : Ring := { parts := [{ off := 0, len := 256, space := 0, at_ := 0x102000 }], head := 0x103000, headSpace := 0, log2 := 4 }
theorem witness_TrailsAndTickets_2 :
    ∃ s : State, ∃ sg : Fin 8, ∃ off : Nat, ∃ ag : Agent, ∃ rest : List (Nat × Agent), ∃ slot : Nat, ∃ b : List Byte, ∃ ctx : BitVec 12, ∃ g1 : Segment,
    ∃ g2 : Segment, ∃ r : Ring, ∃ ps : List Piece, b = (s.seg sg).hbmBytes off 64 ∧ ctx = BitVec.ofNat 12 (field b 12 2) ∧ Takes s sg ∧
    (s.seg sg).trl.fifo = (off, ag) :: rest ∧ firstFree ((s.seg sg).trl.trails.map Trail.slot) 32 = some slot ∧ (s.seg sg).present 0 off 64 = true ∧
    badHeader b = false ∧ Segment.headerRing { s.seg sg with trl := { (s.seg sg).trl with fifo := rest } } b = (g1, .inl r) ∧
    g1.localSpan ctx (field b 0 8) (128 * field b 8 4) 1 = (g2, .inl ps) ∧ (ag.admin = true ∨ ag.ctx = ctx) :=
  ⟨submitted, 0, 0x1000, hd, [], 0, (((submitted).seg (0)).hbmBytes (0x1000) 64),
   (BitVec.ofNat 12 (field ((((submitted).seg (0)).hbmBytes (0x1000) 64)) 12 2)),
   (Segment.headerRing { submitted.seg 0 with trl := { (submitted.seg 0).trl with fifo := [] } } (padTo 64 header)).1,
   ((Segment.headerRing { submitted.seg 0 with trl := { (submitted.seg 0).trl with fifo := [] } } (padTo 64 header)).1.localSpan 0 0 256 1).1, headRing,
   [pc 0 256], rfl, rfl, by decide +kernel⟩

theorem witness_TrailsAndTickets_3 :
    ∃ s : State, ∃ sg : Fin 8, ∃ slot : Fin 32, ∃ x : Trail, ∃ n : Nat, Takes s sg ∧ (s.seg sg).nextTrail = some x ∧ x.slot = slot.val ∧
    (s.seg sg).freeEntry = some n ∧ (s.seg sg).trl.admitAt ≠ some s.time :=
  ⟨run 0 (trails [{ aTrail with since := some 0 }]), 0, 1, { aTrail with since := some 0 }, 0, by decide +kernel⟩

theorem witness_TrailsAndTickets_4 :
    ∃ s : State, ∃ sg : Fin 8, ∃ n : Fin 4096, ∃ t : Ticket, ∃ a : Nat, Takes s sg ∧ (s.seg sg).ticket? n = some t ∧ t.gateGa = some a ∧ t.st = .waiting ∧
    t.gateOpen = false ∧ t.gateAt ≤ s.time :=
  ⟨run 0 (tickets [{ aTicket with st := .waiting, gateGa := some 0x100000, gateOpen := false }]), 0, 3, { aTicket with st := .waiting, gateGa := some 0x100000, gateOpen := false },
   0x100000, by decide +kernel⟩

theorem witness_TrailsAndTickets_5 :
    ∃ s : State, ∃ sg : Fin 8, ∃ t : Ticket, ∃ c : Nat, Takes s sg ∧ (s.seg sg).trl.stopUntil = none ∧ (s.seg sg).trl.dispatchAt ≠ some s.time ∧
    (s.seg sg).nextTicket = some t ∧ (s.seg sg).pickCourier s.tick t.ctx = some c ∧ (s.seg sg).budgetOk runCost = true :=
  ⟨run 0 (fun g => trails [aTrail] (tickets [{ aTicket with st := .ready, gateOpen := true, disp := some 0 }] g)), 0, { aTicket with st := .ready, gateOpen := true, disp := some 0 },
   0, by decide +kernel⟩

theorem witness_TrailsAndTickets_6 :
    ∃ s : State, ∃ sg : Fin 8, ∃ n : Fin 4096, ∃ t : Ticket, ∃ mask, ∃ any, Takes s sg ∧ (s.seg sg).ticket? n = some t ∧ t.st = .saved mask any ∧
    mask ≠ 0 ∧ waiteMet t.slots mask any = true :=
  ⟨run 0 (tickets [{ aTicket with st := .saved 0x8000 true }]), 0, 3, { aTicket with st := .saved 0x8000 true }, 0x8000, true, by decide +kernel⟩

theorem witness_TrailsAndTickets_7 :
    ∃ s : State, ∃ sg : Fin 8, ∃ n : Fin 4096, ∃ t : Ticket, ∃ st, ∃ reason, ∃ exc, Takes s sg ∧ (s.seg sg).ticket? n = some t ∧
    t.st = .ending st reason exc ∧ (s.seg sg).spent t = true :=
  ⟨run 0 (tickets [{ aTicket with st := .ending 11 0 0 }]), 0, 3, { aTicket with st := .ending 11 0 0 }, 11, 0, 0, by decide +kernel⟩

theorem witness_TrailsAndTickets_8 :
    ∃ s : State, ∃ sg : Fin 8, ∃ desc : Fin 1024, ∃ d : Desc, ∃ sh : Shape, ∃ src : List Piece, ∃ dst : List Piece, ∃ sig : List Piece, Takes s sg ∧
    (s.seg sg).desc? desc = some d ∧ d.body = .shape sh src dst sig ∧ ((s.seg sg).tileJobs d.idx).all (fun j => j.waits.isEmpty) = true ∧
    ((s.seg sg).tileJobs d.idx ≠ [] ∨ d.pos < d.total) :=
  ⟨run 0 (described (desc (.shape aShape [pc 0 64] [pc 0x1000 64] []) 1)), 0, 0, desc (.shape aShape [pc 0 64] [pc 0x1000 64] []) 1, aShape, [pc 0 64],
   [pc 0x1000 64], [], by decide +kernel⟩

theorem witness_CancelsAndRings_0 :
    ∃ s : State, ∃ sg : Fin 8, ∃ ag : Agent, ∃ g : Segment, ∃ n : Fin 4096, ∃ t, g = (s.reached sg ag [domRange]).seg sg ∧ Takes s sg ∧
    g.ticket? n = some t ∧ t.st ≠ .done ∧ (ag.admin || ag.ctx == t.ctx) = true :=
  ⟨run 0 (tickets [aTicket]), 0, hd, (((run 0 (tickets [aTicket])).reached (0) (hd) [domRange]).seg (0)), 3, aTicket, rfl, by decide +kernel⟩

theorem witness_CancelsAndRings_1 :
    ∃ s : State, ∃ sg : Fin 8, ∃ ag : Agent, ∃ g : Segment, ∃ n : Fin 4096, ∃ t, g = (s.reached sg ag [domRange]).seg sg ∧ Takes s sg ∧
    g.ticket? n = some t ∧ t.st ≠ .done ∧ (ag.admin || ag.ctx == t.ctx) = false :=
  ⟨run 0 (tickets [aTicket]), 0, h1, (((run 0 (tickets [aTicket])).reached (0) (h1) [domRange]).seg (0)), 3, aTicket, rfl, by decide +kernel⟩

theorem witness_CancelsAndRings_2 :
    ∃ s : State, ∃ sg : Fin 8, ∃ ag : Agent, ∃ g : Segment, ∃ slot : BitVec 12, ∃ x, g = (s.reached sg ag [domRange]).seg sg ∧ Takes s sg ∧
    g.trail? slot.toNat = some x ∧ x.ended = false ∧ (ag.admin || ag.ctx == x.ctx) = true :=
  ⟨run 0 (trails [{ aTrail with slot := 31, ctx := 1 }]), 0, h1, (((run 0 (trails [{ aTrail with slot := 31, ctx := 1 }])).reached (0) (h1) [domRange]).seg (0)),
   31, { aTrail with slot := 31, ctx := 1 }, rfl, by decide +kernel⟩

theorem witness_CancelsAndRings_3 :
    ∃ s : State, ∃ sg : Fin 8, ∃ ag : Agent, ∃ g : Segment, ∃ slot : BitVec 12, ∃ x, g = (s.reached sg ag [domRange]).seg sg ∧ Takes s sg ∧
    g.trail? slot.toNat = some x ∧ x.ended = false ∧ (ag.admin || ag.ctx == x.ctx) = false :=
  ⟨run 0 (trails [{ aTrail with slot := 31 }]), 0, h1, (((run 0 (trails [{ aTrail with slot := 31 }])).reached (0) (h1) [domRange]).seg (0)), 31,
   { aTrail with slot := 31 }, rfl, by decide +kernel⟩

theorem witness_CancelsAndRings_4 :
    ∃ s : State, ∃ sg : Fin 8, ∃ ag : Agent, ∃ g : Segment, ∃ ctx : BitVec 12, g = (s.reached sg ag [domRange]).seg sg ∧ Takes s sg ∧
    ((g.trl.tickets.any fun t => t.ctx == ctx && t.st != .done) || g.trl.trails.any fun x => x.ctx == ctx && !x.ended) = true ∧
    (ag.admin || ag.ctx == ctx) = true :=
  ⟨run 0 (tickets [aTicket]), 0, sw, (((run 0 (tickets [aTicket])).reached (0) (sw) [domRange]).seg (0)), 0, rfl, by decide +kernel⟩

theorem witness_CancelsAndRings_5 :
    ∃ s : State, ∃ sg : Fin 8, ∃ ag : Agent, ∃ g : Segment, ∃ ctx : BitVec 12, g = (s.reached sg ag [domRange]).seg sg ∧ Takes s sg ∧
    ((g.trl.tickets.any fun t => t.ctx == ctx && t.st != .done) || g.trl.trails.any fun x => x.ctx == ctx && !x.ended) = true ∧
    (ag.admin || ag.ctx == ctx) = false :=
  ⟨run 0 (tickets [aTicket]), 0, h1, (((run 0 (tickets [aTicket])).reached (0) (h1) [domRange]).seg (0)), 0, rfl, by decide +kernel⟩

theorem witness_CancelsAndRings_6 :
    ∃ s : State, ∃ sg : Fin 8, ∃ ag : Agent, Takes s sg ∧
    (((s.reached sg ag [domRange]).seg sg).trl.tickets.any fun t => match t.st with | .saved _ _ => true | _ => false) = false :=
  ⟨run 0 (tickets [aTicket]), 0, sw, by decide +kernel⟩

theorem witness_CancelsAndRings_7 :
    ∃ s : State, ∃ sg : Fin 8, ∃ ring : Nat, Takes s sg ∧ ring < 32 :=
  ⟨run 0 id, 0, 31, by decide +kernel⟩

theorem witness_CancelsAndRings_8 :
    ∃ s : State, ∃ sg : Fin 8, ∃ ring : Nat, Takes s sg ∧ 32 ≤ ring ∧ ring < 4128 :=
  ⟨run 0 id, 0, 32, by decide +kernel⟩

theorem witness_CancelsAndRings_8b :
    ∃ s : State, ∃ sg : Fin 8, ∃ ring : Nat, Takes s sg ∧ 32 ≤ ring ∧ ring < 4128 :=
  ⟨run 0 id, 0, 4127, by decide +kernel⟩

theorem witness_CancelsAndRings_10 :
    ∃ s : State, ∃ sg : Fin 8, ∃ ring : Nat, ∃ t0 : Nat, ∃ x, Takes s sg ∧ ring < 32 ∧ (s.seg sg).trail? ring = some x ∧ x.cq.fullSince = some t0 ∧
    x.cq.fullFault = false ∧ t0 + 50000 ≤ s.tick :=
  ⟨run (21 * 50000) (trails [{ aTrail with cq := { fullSince := some 0 } }]), 0, 1, 0, { aTrail with cq := { fullSince := some 0 } }, by decide +kernel⟩

theorem witness_GroupsOpenAndClose_0 :
    ∃ s : State, ∃ sg : Fin 8, ∃ ag : Agent, Takes s sg ∧ ((s.reached sg ag [domRange]).seg sg).groups = [] :=
  ⟨run 0 id, 0, sw, by decide +kernel⟩

def opens : State := run 0 fun g => (g.put 0 (128 * 5) (natBytes 0x10000 8 ++ natBytes 2 4 ++ natBytes 0 28 ++ [4])).put 0 0x10000 (natBytes 0 4 ++ natBytes 0x8000 4)
theorem witness_GroupsOpenAndClose_1 :
    ∃ s : State, ∃ r : State, ∃ sg : Fin 8, ∃ ag : Agent, ∃ grp : BitVec 12, ∃ st : DpmStatus, ∃ stList : DpmStatus, ∃ stCtx : DpmStatus, ∃ x : Grp,
    ∃ reason : Nat, ∃ status : BitVec 4, r = s.reached sg ag [domRange] ∧ Takes s sg ∧ ag.admin = true ∧ (r.seg sg).grp? grp = none ∧
    r.openChecks sg grp st stList stCtx = (x, reason, status) :=
  ⟨opens, ((opens).reached (0) (sw) [domRange]), 0, sw, 5, some 0, some 0, some 0,
   ((opens.reached 0 sw [domRange]).openChecks 0 5 (some 0) (some 0) (some 0)).1,
   ((opens.reached 0 sw [domRange]).openChecks 0 5 (some 0) (some 0) (some 0)).2.1,
   ((opens.reached 0 sw [domRange]).openChecks 0 5 (some 0) (some 0) (some 0)).2.2, rfl, by decide +kernel⟩

theorem witness_GroupsOpenAndClose_2 :
    ∃ s : State, ∃ sg : Fin 8, ∃ grp : BitVec 12, ∃ x : Grp, Takes s sg ∧ (s.seg sg).grp? grp = some x ∧ x.st = .opening :=
  ⟨run 0 (grouped { aGrp with st := .opening }), 0, 5, { aGrp with st := .opening }, by decide +kernel⟩

theorem witness_GroupsOpenAndClose_3 :
    ∃ s : State, ∃ r : State, ∃ sg : Fin 8, ∃ ag : Agent, ∃ grp : BitVec 12, ∃ x : Grp, r = s.reached sg ag [domRange] ∧ Takes s sg ∧
    (s.seg sg).clocked = true ∧ ag.admin = true ∧ (r.seg sg).grp? grp = some x ∧ x.st ≠ .opening ∧ x.st ≠ .closing :=
  ⟨run 0 (grouped aGrp), ((run 0 (grouped aGrp)).reached (0) (sw) [domRange]), 0, sw, 5, aGrp, rfl, by decide +kernel⟩

theorem witness_GroupsOpenAndClose_4 :
    ∃ s : State, ∃ r : State, ∃ sg : Fin 8, ∃ ag : Agent, ∃ grp : BitVec 12, ∃ x : Grp, r = s.reached sg ag [domRange] ∧ Takes s sg ∧
    (s.seg sg).clocked = true ∧ ag.admin = true ∧ (r.seg sg).grp? grp = some x ∧ (x.st = .active ∨ x.st = .suspended) :=
  ⟨run 0 (grouped (busy aHead)), ((run 0 (grouped (busy aHead))).reached (0) (sw) [domRange]), 0, sw, 5, busy aHead, rfl, by decide +kernel⟩

theorem witness_GroupsOpenAndClose_5 :
    ∃ s : State, ∃ sg : Fin 8, ∃ grp : BitVec 12, ∃ x : Grp, Takes s sg ∧ (s.seg sg).grp? grp = some x ∧ x.st = .closing :=
  ⟨run 0 (grouped { aGrp with st := .closing }), 0, 5, { aGrp with st := .closing }, by decide +kernel⟩

theorem witness_GroupsOpenAndClose_6 :
    ∃ s : State, ∃ sg : Fin 8, ∃ grp : BitVec 12, ∃ x : Grp, ∃ op : COp, ∃ rest : List COp, Takes s sg ∧ (s.seg sg).grp? grp = some x ∧
    x.queue = op :: rest ∧ x.head = none ∧ (x.st = .ready ∨ x.st = .active) ∧ (x.future.find? fun f => f.1 == x.serial + 1) = none :=
  ⟨run 0 (grouped { aGrp with queue := [aOp] }), 0, 5, { aGrp with queue := [aOp] }, aOp, [], by decide +kernel⟩

theorem witness_GroupsOpenAndClose_8 :
    ∃ s : State, ∃ sg : Fin 8, ∃ grp : BitVec 12, ∃ x : Grp, ∃ h : Head, Takes s sg ∧ (s.seg sg).grp? grp = some x ∧ x.head = some h ∧ x.st ≠ .suspended ∧
    h.straggled = false ∧ 0 < (s.seg sg).fld F.CLV_TIMERS_STRAGGLER ∧ s.lapsed (h.progress + (s.seg sg).fld F.CLV_TIMERS_STRAGGLER) = true :=
  ⟨run 41 fun g => (grouped (busy aHead) g).setFld F.CLV_TIMERS_STRAGGLER 1, 0, 5, busy aHead, aHead, by decide +kernel⟩

theorem witness_GroupsOpenAndClose_9 :
    ∃ s : State, ∃ sg : Fin 8, ∃ grp : BitVec 12, ∃ x : Grp, ∃ h : Head, Takes s sg ∧ (s.seg sg).grp? grp = some x ∧ x.head = some h ∧ x.st = .active ∧
    s.lapsed (h.progress + (if (s.seg sg).fld F.CLV_TIMERS_HARD = 0 then 4294967295 else (s.seg sg).fld F.CLV_TIMERS_HARD)) = true :=
  ⟨run 41 fun g => (grouped (busy aHead) g).setFld F.CLV_TIMERS_HARD 1, 0, 5, busy aHead, aHead, by decide +kernel⟩

theorem witness_GroupsOpenAndClose_9b :
    ∃ s : State, ∃ sg : Fin 8, ∃ grp : BitVec 12, ∃ x : Grp, ∃ h : Head, Takes s sg ∧ (s.seg sg).grp? grp = some x ∧ x.head = some h ∧ x.st = .active ∧
    s.lapsed (h.progress + (if (s.seg sg).fld F.CLV_TIMERS_HARD = 0 then 4294967295 else (s.seg sg).fld F.CLV_TIMERS_HARD)) = true :=
  ⟨run (21 * 4294967295 + 20) fun g => (grouped (busy aHead) g).setFld F.CLV_TIMERS_HARD 0, 0, 5, busy aHead, aHead, by decide +kernel⟩

theorem witness_GroupsOpenAndClose_10 :
    ∃ s : State, ∃ sg : Fin 8, ∃ grp : BitVec 12, ∃ x : Grp, ∃ t : Nat, Takes s sg ∧ (s.seg sg).grp? grp = some x ∧ x.abortAt = some t ∧
    x.st = .aborting ∧ t + 50000000 ≤ s.tick :=
  ⟨run (21 * 50000000) (grouped (busy aHead fun x => { x with st := .aborting, abortAt := some 0 })), 0, 5,
   busy aHead (fun x => { x with st := .aborting, abortAt := some 0 }), 0, by decide +kernel⟩

theorem witness_GroupsOpenAndClose_11 :
    ∃ s : State, ∃ sg : Fin 8, ∃ grp : BitVec 12, ∃ x : Grp, ∃ t : Nat, Takes s sg ∧ (s.seg sg).grp? grp = some x ∧ x.ring.fullSince = some t ∧
    x.ring.fullFault = false ∧ t + 50000 ≤ s.tick :=
  ⟨run (21 * 50000) (grouped { aGrp with ring := { fullSince := some 0 } }), 0, 5, { aGrp with ring := { fullSince := some 0 } }, 0, by decide +kernel⟩

def aFormed : Formed := { (default : Formed) with grp := 5, hasEntry := true, at_ := 0 }
theorem witness_GroupsOpenAndClose_12 :
    ∃ s : State, ∃ sg : Fin 8, ∃ grp : BitVec 12, ∃ i : Nat, ∃ f : Formed, Takes s sg ∧ ((s.seg sg).stile.findIdx? fun f => f.grp == grp) = some i ∧
    (s.seg sg).stile[i]? = some f ∧ f.hasEntry = true ∧ f.at_ ≤ s.tick :=
  ⟨run 0 fun g => { g with stile := [aFormed] }, 0, 5, 0, aFormed, by decide +kernel⟩

theorem witness_ChunksMove_0 :
    ∃ s : State, ∃ sg : Fin 8, ∃ grp : BitVec 12, ∃ tree : Fin 64, ∃ x : Grp, ∃ h : Head, ∃ c, Takes s sg ∧ (s.seg sg).grp? grp = some x ∧
    x.head = some h ∧ x.st = .active ∧ h.op.code = 0x58 ∧ h.op.launch = 0 ∧ h.large = true ∧ h.next[tree.val]? = some c ∧ c < h.chunks ∧
    (c < x.k * x.depth ∨ h.doneList.contains (c - x.k * x.depth) = true) ∧ (h.op.gated = true → h.op.ready ≤ c → x.contributes h c = false) ∧
    x.lowerWaits h c = false :=
  ⟨run 0 (grouped (busy aHead)), 0, 5, 0, busy aHead, aHead, 0, by decide +kernel⟩

theorem witness_ChunksMove_0b :
    ∃ s : State, ∃ sg : Fin 8, ∃ grp : BitVec 12, ∃ tree : Fin 64, ∃ x : Grp, ∃ h : Head, ∃ c, Takes s sg ∧ (s.seg sg).grp? grp = some x ∧
    x.head = some h ∧ x.st = .active ∧ h.op.code = 0x58 ∧ h.op.launch = 0 ∧ h.large = true ∧ h.next[tree.val]? = some c ∧ c < h.chunks ∧
    (c < x.k * x.depth ∨ h.doneList.contains (c - x.k * x.depth) = true) ∧ (h.op.gated = true → h.op.ready ≤ c → x.contributes h c = false) ∧
    x.lowerWaits h c = false :=
  ⟨run 0 (grouped (busy { aHead with next := [4], doneList := [0] })), 0, 5, 0, busy { aHead with next := [4], doneList := [0] },
   { aHead with next := [4], doneList := [0] }, 4, by decide +kernel⟩

theorem witness_ChunksMove_1 :
    ∃ s : State, ∃ sg : Fin 8, ∃ grp : BitVec 12, ∃ tree : Fin 64, ∃ x : Grp, ∃ h : Head, Takes s sg ∧ (s.seg sg).grp? grp = some x ∧ x.head = some h ∧
    x.st = .active ∧ h.op.code = 0x58 ∧ h.op.launch = 0 ∧ h.large = false ∧ tree.val = singleTree ∧ h.chk? singleTree 0 = none ∧
    (h.op.gated = true → h.op.ready = 0 → x.contributes h 0 = false) :=
  ⟨run 0 (grouped (busy { aHead with large := false })), 0, 5, 63, busy { aHead with large := false }, { aHead with large := false }, by decide +kernel⟩

theorem witness_ChunksMove_2 :
    ∃ s : State, ∃ sg : Fin 8, ∃ f : Flit, ∃ g : Segment, Takes s sg ∧ (s.seg sg).takeX [0x18] = some (f, g) :=
  ⟨run 0 (ejected [colFl 0x18 []]), 0, colFl 0x18 [], (run 0 (ejected [])).seg 0, by decide +kernel⟩

theorem witness_ChunksMove_3 :
    ∃ s : State, ∃ sg : Fin 8, ∃ g : Segment, ∃ i, ∃ e, Takes s sg ∧ ((s.seg sg).rte.ejX.findIdx? fun e => e.flit.kind == 0x19) = some i ∧
    (s.seg sg).takeAt i = some (e, g) ∧ g.decidedWith e = false :=
  ⟨run 0 (ejected [colFl 0x19 []]), 0, (run 0 (ejected [])).seg 0, 0, { flit := colFl 0x19 [], at_ := 0 }, by decide +kernel⟩

theorem witness_ChunksMove_5 :
    ∃ s : State, ∃ sg : Fin 8, ∃ f : Flit, ∃ g : Segment, Takes s sg ∧ (s.seg sg).takeX [0x1C] = some (f, g) :=
  ⟨run 0 (ejected [colFl 0x1C []]), 0, colFl 0x1C [], (run 0 (ejected [])).seg 0, by decide +kernel⟩

theorem witness_ChunksMove_6 :
    ∃ s : State, ∃ sg : Fin 8, ∃ f : Flit, ∃ g : Segment, Takes s sg ∧ (s.seg sg).takeX [0x1D] = some (f, g) :=
  ⟨run 0 (ejected [colFl 0x1D []]), 0, colFl 0x1D [], (run 0 (ejected [])).seg 0, by decide +kernel⟩

def sent (l : List Held) (e : List Flit) : State := run 0 fun g => ejected e (grouped (busy aHead fun x => { x with sent := l }) g)
theorem witness_ChunksMove_7 :
    ∃ s : State, ∃ sg : Fin 8, ∃ f : Flit, ∃ g : Segment, ∃ x : Grp, ∃ d : Nat, ∃ ser : BitVec 32, ∃ t : Nat, ∃ c : Nat, Takes s sg ∧
    (g.grp? (colGroup f)).filter Grp.takesFlits = some x ∧ x.answerOf f = some (d, ser, t, c) ∧ (s.seg sg).takeX [0x1A] = some (f, g) ∧
    (x.sent.any fun q => q.answers (d, ser, t, c)) = true :=
  ⟨sent [aHeld] [colFl 0x1A []], 0, colFl 0x1A [], (sent [aHeld] []).seg 0, busy aHead (fun x => { x with sent := [aHeld] }), 1, 0, 0, 0,
   by decide +kernel⟩

theorem witness_ChunksMove_8 :
    ∃ s : State, ∃ sg : Fin 8, ∃ f : Flit, ∃ g : Segment, ∃ x : Grp, ∃ d : Nat, ∃ ser : BitVec 32, ∃ t : Nat, ∃ c : Nat, Takes s sg ∧
    (g.grp? (colGroup f)).filter Grp.takesFlits = some x ∧ x.answerOf f = some (d, ser, t, c) ∧ (s.seg sg).takeX [0x1A] = some (f, g) ∧
    (x.sent.any fun q => q.answers (d, ser, t, c)) = false :=
  ⟨sent [] [colFl 0x1A []], 0, colFl 0x1A [], (sent [] []).seg 0, busy aHead (fun x => { x with sent := [] }), 1, 0, 0, 0, by decide +kernel⟩

theorem witness_ChunksMove_9 :
    ∃ s : State, ∃ sg : Fin 8, ∃ f : Flit, ∃ g : Segment, ∃ x : Grp, ∃ d : Nat, ∃ ser : BitVec 32, ∃ t : Nat, ∃ c : Nat, ∃ q, Takes s sg ∧
    (g.grp? (colGroup f)).filter Grp.takesFlits = some x ∧ x.answerOf f = some (d, ser, t, c) ∧ (s.seg sg).takeX [0x1B] = some (f, g) ∧
    (x.sent.find? fun q => q.answers (d, ser, t, c) || (q.dst == d && q.serial == ser && q.c == c)) = some q ∧ field f.payload 9 1 = 0 ∧ 2 ≤ q.naks :=
  ⟨sent [{ aHeld with naks := 2 }] [colFl 0x1B []], 0, colFl 0x1B [], (sent [{ aHeld with naks := 2 }] []).seg 0,
   busy aHead (fun x => { x with sent := [{ aHeld with naks := 2 }] }), 1, 0, 0, 0, { aHeld with naks := 2 }, by decide +kernel⟩

theorem witness_ChunksMove_12 :
    ∃ s : State, ∃ sg : Fin 8, ∃ f : Flit, ∃ g : Segment, ∃ x : Grp, ∃ d : Nat, ∃ ser : BitVec 32, ∃ t : Nat, ∃ c : Nat, ∃ q, Takes s sg ∧
    (g.grp? (colGroup f)).filter Grp.takesFlits = some x ∧ x.answerOf f = some (d, ser, t, c) ∧ (s.seg sg).takeX [0x1B] = some (f, g) ∧
    (x.sent.find? fun q => q.answers (d, ser, t, c) || (q.dst == d && q.serial == ser && q.c == c)) = some q ∧ field f.payload 9 1 ≠ 0 ∧
    (x.held = none ∨ q.serial ≠ x.serial) :=
  ⟨sent [aHeld] [colFl 0x1B [0, 0, 0, 0, 0, 0, 0, 0, 0, 1]], 0, colFl 0x1B [0, 0, 0, 0, 0, 0, 0, 0, 0, 1], (sent [aHeld] []).seg 0,
   busy aHead (fun x => { x with sent := [aHeld] }), 1, 0, 0, 0, aHeld, by decide +kernel⟩

theorem witness_ChunksMove_13 :
    ∃ s : State, ∃ sg : Fin 8, ∃ grp : BitVec 12, ∃ x : Grp, Takes s sg ∧ (s.seg sg).grp? grp = some x :=
  ⟨sent [aHeld] [], 0, 5, busy aHead (fun x => { x with sent := [aHeld] }), by decide +kernel⟩

def aChk : Chk := { tree := 0, c := 1, own := some (List.replicate 8 0) }
def aRx : Rx := { serial := 0, tree := 0, c := 1, down := false, frm := 1, hdr := some (List.replicate 128 0), flits := [(0, List.replicate 128 0)], order := 1 }
theorem witness_ChunksMove_14 :
    ∃ s : State, ∃ sg : Fin 8, ∃ grp : BitVec 12, ∃ serial : BitVec 16, ∃ x : Grp, ∃ h : Head, ∃ k : Chk, ∃ rs, Takes s sg ∧
    (s.seg sg).grp? grp = some x ∧ x.head = some h ∧
    (h.chk.find? fun k => k.c % 2 ^ 16 == serial.toNat && k.own.isSome && !k.formed && k.stepEnd.isNone) = some k ∧ x.upRx h k.tree k.c = some rs ∧
    x.st = .active ∧ h.op.d.isRed = true ∧ (h.large = false → h.sweepStatus rs = 0) ∧ (s.seg sg).stepFirst grp (k.ready.getD 0) = true ∧
    (s.seg sg).usable s.tick domReduction = true ∧
    (s.seg sg).budgetOk (250 * (ceilDiv (((h.elems k.c).2 - (h.elems k.c).1) * h.op.d.carrySize) 128 * (rs.length + 1))) = true :=
  ⟨run 0 (grouped (busy { aHead with chk := [aChk] } fun x => { x with rx := [aRx] })), 0, 5, 1,
   busy { aHead with chk := [aChk] } (fun x => { x with rx := [aRx] }), { aHead with chk := [aChk] }, aChk, [aRx], by decide +kernel⟩

theorem witness_ChunksMove_15 :
    ∃ s : State, ∃ sg : Fin 8, ∃ grp : BitVec 12, ∃ serial : BitVec 16, ∃ x : Grp, ∃ h : Head, ∃ k : Chk, ∃ t, Takes s sg ∧ (s.seg sg).grp? grp = some x ∧
    x.head = some h ∧ (h.chk.find? fun k => k.c % 2 ^ 16 == serial.toNat && k.stepEnd.isSome && !k.formed) = some k ∧ k.stepEnd = some t ∧ t ≤ s.time :=
  ⟨run 100 (grouped (busy { aHead with chk := [{ aChk with stepEnd := some 100 }] })), 0, 5, 1,
   busy { aHead with chk := [{ aChk with stepEnd := some 100 }] }, { aHead with chk := [{ aChk with stepEnd := some 100 }] },
   { aChk with stepEnd := some 100 }, 100, by decide +kernel⟩

theorem witness_ChunksMove_16 :
    ∃ s : State, ∃ sg : Fin 8, ∃ grp : BitVec 12, ∃ serial : BitVec 16, ∃ x : Grp, ∃ h : Head, ∃ k : Chk, Takes s sg ∧ (s.seg sg).grp? grp = some x ∧
    x.head = some h ∧ (h.chk.find? fun k => k.c % 2 ^ 16 == serial.toNat && k.result.isSome && !k.written) = some k ∧ x.st = .active ∧
    (h.large = true → h.go = true) :=
  ⟨run 0 (grouped (busy { aHead with go := true, chk := [{ aChk with result := some ([], []) }] })), 0, 5, 1, busy { aHead with go := true, chk := [{ aChk with result := some ([], []) }] },
   { aHead with go := true, chk := [{ aChk with result := some ([], []) }] }, { aChk with result := some ([], []) }, by decide +kernel⟩

def closing : Grp := busy { aHead with go := true, chunks := 1, doneList := [0] } fun x => { x with rx := [{ aRx with tree := 63, c := 0xFFFFFFFE }] }
theorem witness_ChunksMove_17 :
    ∃ s : State, ∃ sg : Fin 8, ∃ grp : BitVec 12, ∃ x : Grp, ∃ h : Head, ∃ hs : List (List Byte), Takes s sg ∧ (s.seg sg).grp? grp = some x ∧
    x.head = some h ∧ h.large = true ∧ h.go = true ∧ h.closing = false ∧ x.st = .active ∧ h.chunks ≤ h.doneList.length ∧ x.roundRx 0xFFFFFFFE = some hs :=
  ⟨run 0 (grouped closing), 0, 5, closing, { aHead with go := true, chunks := 1, doneList := [0] }, [List.replicate 128 0], by decide +kernel⟩

theorem witness_ChunksMove_18 :
    ∃ s : State, ∃ sg : Fin 8, ∃ f : Flit, ∃ g : Segment, ∃ x : Grp, ∃ serial : BitVec 32, ∃ st : BitVec 4, Takes s sg ∧ (s.seg sg).takeAbort = some (f,
    g) ∧ (g.grp? (colGroup f)).filter Grp.takesFlits = some x ∧ serial = BitVec.ofNat 32 (field f.payload 0 4) ∧
    st = BitVec.ofNat 4 (field f.payload 4 1) ∧ (field f.payload 5 1 = 0 → x.single.root = x.rank) ∧ x.serialAt serial = .current ∧ x.held = none :=
  ⟨run 0 fun g => ejected [colFl 0x1E [0, 0, 0, 0, 7]] (grouped (busy aHead) g), 0, colFl 0x1E [0, 0, 0, 0, 7],
   (run 0 fun g => ejected [] (grouped (busy aHead) g)).seg 0, busy aHead, 0, 7, by decide +kernel⟩

theorem witness_ContextsAndRanges_0 :
    ∃ s : State, ∃ sg : Fin 8, ∃ ag : Agent, Takes s sg ∧ ((s.reached sg ag [domRange]).seg sg).xlt.resident = [] :=
  ⟨run 0 id, 0, sw, by decide +kernel⟩

def entered : State := run 0 fun g => g.put 0 64 (natBytes 0 16 ++ natBytes 0x10000 8 ++ natBytes 4096 4)
theorem witness_ContextsAndRanges_1 :
    ∃ s : State, ∃ r : State, ∃ sg : Fin 8, ∃ ag : Agent, ∃ ctx : BitVec 12, ∃ st, r = s.reached sg ag [domRange] ∧ Takes s sg ∧
    (s.seg sg).clocked = true ∧ (r.seg sg).ctxCmd s.tick ag 1 ctx ((r.seg sg).resident? ctx).isSome = none ∧ r.loadReason sg ctx st = 0 :=
  ⟨entered, ((entered).reached (0) (sw) [domRange]), 0, sw, 1, some 0, rfl, by decide +kernel⟩

theorem witness_ContextsAndRanges_2 :
    ∃ s : State, ∃ r : State, ∃ sg : Fin 8, ∃ ag : Agent, ∃ ctx : BitVec 12, r = s.reached sg ag [domRange] ∧ Takes s sg ∧ (s.seg sg).clocked = true ∧
    (r.seg sg).ctxCmd s.tick ag 2 ctx (!(r.seg sg).isResident ctx) = none :=
  ⟨run 0 (resident aResident), ((run 0 (resident aResident)).reached (0) (sw) [domRange]), 0, sw, 1, rfl, by decide +kernel⟩

theorem witness_ContextsAndRanges_3 :
    ∃ s : State, ∃ r : State, ∃ sg : Fin 8, ∃ ag : Agent, ∃ ctx : BitVec 12, r = s.reached sg ag [domRange] ∧ Takes s sg ∧ (s.seg sg).clocked = true ∧
    (r.seg sg).ctxCmd s.tick ag 3 ctx (!(r.seg sg).isResident ctx) = none :=
  ⟨run 0 (resident aResident), ((run 0 (resident aResident)).reached (0) (sw) [domRange]), 0, sw, 1, rfl, by decide +kernel⟩

def evicts : State := run 0 (resident { aResident with evicting := true })
theorem witness_ContextsAndRanges_4 :
    ∃ s : State, ∃ t : State, ∃ sg : Fin 8, ∃ c : BitVec 12, s.evictEnd sg = (t, some c) ∧ Takes s sg ∧ (t.seg sg).kpr.tearing.contains c = false :=
  ⟨evicts, (evicts.evictEnd 0).1, 0, 1, Prod.ext rfl (by decide +kernel), by decide +kernel⟩

def missing (n : Nat) : State := rc (fun k => { k with st := .waiting, wait := some (.issue { op := 0x61, f := fi 7 0 0 0, start := 0 }) }) fun g =>
  { g.put 0 0x8000 (natBytes 0 8 ++ natBytes 0x100000 8 ++ natBytes 0x100000 8 ++ [7]) with xlt := { g.xlt with sysValid := true, sys := { rangeBase := 0x8000, rangeCount := n } } }
theorem witness_ContextsAndRanges_6 :
    ∃ s : State, ∃ sg : Fin 8, ∃ c : Fin 18, ∃ x : Stall, ∃ va : Nat, ∃ r, Takes s sg ∧ ((s.seg sg).core c).wait = some (.issue x) ∧ x.asks = false ∧
    s.missOf sg c x = some va ∧ ((s.seg sg).bump F.XLT_COUNT_MISSES).searchRange ((s.seg sg).core c).ctx va = (some r, false) :=
  ⟨missing 1, 0, 0, { op := 0x61, f := fi 7 0 0 0, start := 0 }, 0, aRange, by decide +kernel⟩

theorem witness_ContextsAndRanges_7 :
    ∃ s : State, ∃ sg : Fin 8, ∃ c : Fin 18, ∃ x : Stall, ∃ va : Nat, Takes s sg ∧ ((s.seg sg).core c).wait = some (.issue x) ∧ x.asks = false ∧
    s.missOf sg c x = some va ∧ ((s.seg sg).bump F.XLT_COUNT_MISSES).searchRange ((s.seg sg).core c).ctx va = (none, false) ∧ ((s.seg sg).core c).ctx = 0 :=
  ⟨missing 0, 0, 0, { op := 0x61, f := fi 7 0 0 0, start := 0 }, 0, by decide +kernel⟩

theorem witness_ContextsAndRanges_9 :
    ∃ s : State, ∃ r : State, ∃ sg : Fin 8, ∃ ag : Agent, r = s.reached sg ag [domRange] ∧ Takes s sg ∧ (s.seg sg).clocked = true ∧ ag.isKeeper = true :=
  ⟨run 0 id, ((run 0 id).reached (0) (kp) [domRange]), 0, kp, rfl, by decide +kernel⟩

theorem witness_ContextsAndRanges_10 :
    ∃ s : State, ∃ r : State, ∃ sg : Fin 8, ∃ ag : Agent, ∃ v : Word, ∃ off : Nat, r = s.reached sg ag [domRange] ∧ off = bitsOf v 43 5 * 32 ∧
    Takes s sg ∧ (s.seg sg).clocked = true ∧ ag.admin = true ∧ (r.seg sg).present 0 off 32 = true ∧ badRecall ((r.seg sg).hbmBytes off 32) = false :=
  ⟨run 0 fun g => g.put 0 0x8000 (natBytes 0 8 ++ natBytes 0x10000 8),
   ((run 0 fun g => g.put 0 0x8000 (natBytes 0 8 ++ natBytes 0x10000 8)).reached (0) (sw) [domRange]), 0, sw, 0x8000, (bitsOf (0x8000) 43 5 * 32), rfl,
   rfl, by decide +kernel⟩

theorem witness_ContextsAndRanges_11 :
    ∃ s : State, ∃ r : State, ∃ sg : Fin 8, ∃ ag : Agent, ∃ v : Word, ∃ off : Nat, r = s.reached sg ag [domRange] ∧ off = bitsOf v 43 5 * 32 ∧
    Takes s sg ∧ (s.seg sg).clocked = true ∧ ag.admin = true ∧ ((r.seg sg).present 0 off 32 = false ∨ badRecall ((r.seg sg).hbmBytes off 32) = true) :=
  ⟨run 0 id, ((run 0 id).reached (0) (sw) [domRange]), 0, sw, 0x8000, (bitsOf (0x8000) 43 5 * 32), rfl, rfl, by decide +kernel⟩

theorem witness_ContextsAndRanges_11b :
    ∃ s : State, ∃ r : State, ∃ sg : Fin 8, ∃ ag : Agent, ∃ v : Word, ∃ off : Nat, r = s.reached sg ag [domRange] ∧ off = bitsOf v 43 5 * 32 ∧
    Takes s sg ∧ (s.seg sg).clocked = true ∧ ag.admin = true ∧ ((r.seg sg).present 0 off 32 = false ∨ badRecall ((r.seg sg).hbmBytes off 32) = true) :=
  ⟨run 0 id, ((run 0 id).reached (0) (sw) [domRange]), 0, sw, 0xFFFFFFFFFE0, (bitsOf (0xFFFFFFFFFE0) 43 5 * 32), rfl, rfl, by decide +kernel⟩

def aRecall : Recall := { (default : Recall) with id := 4, submitted := true, segs := [] }
theorem witness_ContextsAndRanges_12 :
    ∃ s : State, ∃ sg : Fin 8, ∃ r : Recall, Takes s sg ∧ s.ackable sg false (s.seg sg).xlt.recalls = some r :=
  ⟨run 0 fun g => { g with xlt := { g.xlt with recalls := [aRecall] } }, 0, aRecall, by decide +kernel⟩

theorem witness_ContextsAndRanges_13 :
    ∃ s : State, ∃ sg : Fin 8, Takes s sg ∧ 0 < (s.seg sg).fld F.XLT_HOT_CTRL_DECAY ∧
    (s.seg sg).xlt.decayAt + (s.seg sg).fld F.XLT_HOT_CTRL_DECAY ≤ s.tick :=
  ⟨run 21 fun g => g.setFld F.XLT_HOT_CTRL_DECAY 1, 0, by decide +kernel⟩

def aMig : MigReq := { n := 15, core := 0, page := 0, tick := 0 }
theorem witness_ContextsAndRanges_14 :
    ∃ s : State, ∃ sg : Fin 8, ∃ ag : Agent, ∃ v : Word, ∃ m : MigReq, Takes s sg ∧ (s.seg sg).clocked = true ∧
    (((s.reached sg ag [domRange]).seg sg).xlt.migs.find? fun m => m.n == bitsOf v 3 0) = some m :=
  ⟨run 0 fun g => { g with xlt := { g.xlt with migs := [aMig] } }, 0, sw, 15, aMig, by decide +kernel⟩

theorem witness_ContextsAndRanges_15 :
    ∃ s : State, ∃ sg : Fin 8, ∃ req : Fin 16, ∃ m : MigReq, Takes s sg ∧ ((s.seg sg).xlt.migs.find? fun m => m.n == req.val) = some m ∧
    m.tick + max 1 ((s.seg sg).fld F.XLT_MIGRATE_CTRL_TIMEOUT) ≤ s.tick :=
  ⟨run 21 fun g => { g.setFld F.XLT_MIGRATE_CTRL_TIMEOUT 0 with xlt := { g.xlt with migs := [aMig] } }, 0, 15, aMig, by decide +kernel⟩

theorem witness_ReplicasAndFabricHoming_0 :
    ∃ s : State, ∃ sg : Fin 8, Takes s sg ∧ s.tick % 50 = 0 :=
  ⟨run (21 * 50) id, 0, by decide +kernel⟩

theorem witness_ReplicasAndFabricHoming_1 :
    ∃ s : State, ∃ sg : Fin 8, ∃ c : ReplicaCopy, Takes s sg ∧ ((s.seg sg).plc.copies.find? fun c => c.start + 780 ≤ s.tick) = some c :=
  ⟨run (21 * 780) fun g => { g with plc := { g.plc with copies := [{ (default : ReplicaCopy) with region := 8, home := 1 }] } }, 0,
   { (default : ReplicaCopy) with region := 8, home := 1 }, by decide +kernel⟩

theorem witness_ReplicasAndFabricHoming_2 :
    ∃ s : State, ∃ sg : Fin 8, ∃ r : Replica, Takes s sg ∧ ((s.seg sg).plc.replicas.find? fun r => r.withdrawn && !(s.seg sg).frameBusy r.frame) = some r :=
  ⟨run 0 fun g => { g with plc := { g.plc with replicas := [{ (default : Replica) with withdrawn := true }] } }, 0,
   { (default : Replica) with withdrawn := true }, by decide +kernel⟩

theorem witness_ReplicasAndFabricHoming_3 :
    ∃ s : State, ∃ sg : Fin 8, ∃ ag : Agent, Takes s sg ∧ ag.admin = true :=
  ⟨run 0 id, 0, sw, by decide +kernel⟩

theorem witness_ReplicasAndFabricHoming_4 :
    ∃ s : State, ∃ r : State, ∃ sg : Fin 8, ∃ ag : Agent, ∃ sz : Sz, ∃ v : Word, ∃ w : Word, r = s.reached sg ag [domRange] ∧
    w = mergeSize ((r.seg sg).reg 0x150020) sz v ∧ Takes s sg ∧ ag.admin = true ∧ (r.seg sg).fld F.XLT_GUARD_SIZE_HBM_REGIONS ≤ bitsOf w 54 32 ∧
    bitsOf w 54 32 + bitsOf w 12 0 ≤ 2 ^ 23 ∧ bitsOf w 12 0 ≤ 4096 ∧ (r.seg sg).declared sg = [] :=
  ⟨run 0 id, ((run 0 id).reached (0) (sw) [domRange]), 0, sw, .w64, 0x800001000,
   (mergeSize (((((run 0 id).reached (0) (sw) [domRange])).seg (0)).reg 0x150020) (.w64) (0x800001000)), rfl, rfl, by decide +kernel⟩

def window (frames : Nat) : State := run 0 fun g => (g.setFld F.PLC_FH_WINDOW_REGIONS 4096).setFld F.PLC_POOL_FRAMES frames
def asked' (s : State) : State := (s.reached 0 sw [domRange]).mod 0 fun g => g.answer csOk 0
theorem witness_ReplicasAndFabricHoming_5 :
    ∃ s : State, ∃ r : State, ∃ sg : Fin 8, ∃ ag : Agent, ∃ v : Word, ∃ t, r = (s.reached sg ag [domRange]).mod sg (fun g => g.answer csOk 0) ∧
    Takes s sg ∧ (s.seg sg).clocked = true ∧ (r.seg sg).fhTakes sg ag v true = true ∧
    r.declareAll sg (BitVec.ofNat 32 (bitsOf v 63 32)) ((List.range (bitsOf v 12 0)).map fun i => bitsOf v 27 16 + i) = some t :=
  ⟨window 1, (((window 1).reached (0) (sw) [domRange]).mod (0) (fun g => g.answer csOk 0)), 0, sw, 0x8C0000000FFF0001,
   (((asked' (window 1)).declareAll 0 0x8C000000 [0xFFF])).getD default, rfl, by decide +kernel⟩

theorem witness_ReplicasAndFabricHoming_6 :
    ∃ s : State, ∃ r : State, ∃ sg : Fin 8, ∃ ag : Agent, ∃ v : Word, r = (s.reached sg ag [domRange]).mod sg (fun g => g.answer csOk 0) ∧ Takes s sg ∧
    (s.seg sg).clocked = true ∧ (r.seg sg).fhTakes sg ag v true = true ∧
    r.declareAll sg (BitVec.ofNat 32 (bitsOf v 63 32)) ((List.range (bitsOf v 12 0)).map fun i => bitsOf v 27 16 + i) = none :=
  ⟨window 0, (((window 0).reached (0) (sw) [domRange]).mod (0) (fun g => g.answer csOk 0)), 0, sw, 0x8C0000000FFF0001, rfl, by decide +kernel⟩

theorem witness_ReplicasAndFabricHoming_7 :
    ∃ s : State, ∃ r : State, ∃ sg : Fin 8, ∃ ag : Agent, ∃ v : Word, r = (s.reached sg ag [domRange]).mod sg (fun g => g.answer csOk 0) ∧ Takes s sg ∧
    (s.seg sg).clocked = true ∧ (r.seg sg).fhTakes sg ag v false = true :=
  ⟨window 1, (((window 1).reached (0) (sw) [domRange]).mod (0) (fun g => g.answer csOk 0)), 0, sw, 0x1000, rfl, by decide +kernel⟩

theorem witness_ReplicasAndFabricHoming_8 :
    ∃ s : State, ∃ sg : Fin 8, Takes s sg ∧ (s.seg sg).plc.moveAt + max 1 ((s.seg sg).fld F.PLC_MOVE_PERIOD) ≤ s.tick :=
  ⟨run 21 fun g => g.setFld F.PLC_MOVE_PERIOD 0, 0, by decide +kernel⟩

def aMove : Move := { (default : Move) with region := 8, target := 1 }
def aHoming : Homing := { region := 8, guard := 0, moving := true, holder := 0, frame := 0 }
def moves (m : Move) : State := (run 0 fun g => { g.modBend 0 (fun e => { e with st := .up }) with plc := { g.plc with moves := [m], homing := [(8, aHoming)] } })
theorem witness_ReplicasAndFabricHoming_9 :
    ∃ s : State, ∃ sg : Fin 8, ∃ m : Move, ∃ rest : List Move, ∃ key : Nat, ∃ h : Homing, Takes s sg ∧ (s.seg sg).plc.moves = m :: rest ∧
    ((s.seg sg).plc.homing.find? fun h => h.1 / 4096 == m.win && h.2.region == m.region) = some (key, h) ∧ s.joined sg m.target = true ∧
    m.flipping = false ∧ m.start + 32 * m.copying.length ≤ s.time ∧
    (m.hold = true → ((s.seg sg).txn.dpm.any fun d => d.space == 0 && d.write.isSome && (s.seg sg).frameOff h.frame ≤ d.addr && d.addr < (s.seg sg).frameOff h.frame + regionSize) = false) :=
  ⟨moves aMove, 0, aMove, [], 8, aHoming, by decide +kernel⟩

theorem witness_ReplicasAndFabricHoming_9b :
    ∃ s : State, ∃ sg : Fin 8, ∃ m : Move, ∃ rest : List Move, ∃ key : Nat, ∃ h : Homing, Takes s sg ∧ (s.seg sg).plc.moves = m :: rest ∧
    ((s.seg sg).plc.homing.find? fun h => h.1 / 4096 == m.win && h.2.region == m.region) = some (key, h) ∧ s.joined sg m.target = true ∧
    m.flipping = false ∧ m.start + 32 * m.copying.length ≤ s.time ∧
    (m.hold = true → ((s.seg sg).txn.dpm.any fun d => d.space == 0 && d.write.isSome && (s.seg sg).frameOff h.frame ≤ d.addr && d.addr < (s.seg sg).frameOff h.frame + regionSize) = false) :=
  ⟨moves { aMove with hold := true }, 0, { aMove with hold := true }, [], 8, aHoming, by decide +kernel⟩

theorem witness_ReplicasAndFabricHoming_10 :
    ∃ s : State, ∃ sg : Fin 8, ∃ m : Move, ∃ rest : List Move, ∃ key : Nat, ∃ h : Homing, Takes s sg ∧ (s.seg sg).plc.moves = m :: rest ∧
    ((s.seg sg).plc.homing.find? fun h => h.1 / 4096 == m.win && h.2.region == m.region) = some (key, h) ∧ s.joined sg m.target = true ∧ m.flipping = true :=
  ⟨moves { aMove with flipping := true }, 0, { aMove with flipping := true }, [], 8, aHoming, by decide +kernel⟩

def landed : State := run 1 (ported 5 fun q => { q with st := .active, txPwr := .active, rxPwr := .active, land := [{ flit := fl 0 0 [] }] })
theorem witness_RouterActs_0 :
    ∃ s : State, ∃ sg : Fin 8, ∃ port : Fin 8, ∃ g : Segment, ∃ x : Presented,
    g = (((s.seg sg).newCycle s.time).bridgeLookup s.time 0).bridgeLookup s.time 1 ∧ Takes s sg ∧ g.landable s.time = some x ∧ x.port = port.val ∧
    x.port < 6 :=
  ⟨landed, 0, 5, (((((landed).seg (0)).newCycle (landed).time).bridgeLookup (landed).time 0).bridgeLookup (landed).time 1), { port := 5, idx := 0, slot := 5, bf := { flit := fl 0 0 [] } },
   rfl, by decide +kernel⟩

theorem witness_RouterActs_2 :
    ∃ s : State, ∃ t : State, ∃ sg : Fin 8, ∃ isX : Bool, ∃ idx : Nat, ∃ bf : BFlit, ∃ o : Nat, ∃ eg : Option (Nat × Nat), ∃ q : List BFlit,
    t = s.mod sg (fun g => (g.newCycle s.time).rollBudget s.time) ∧ q = (if isX then (t.seg sg).rte.injX else (t.seg sg).rte.injL) ∧ Takes s sg ∧
    q[idx]? = some bf ∧ (t.seg sg).landable s.time = none ∧ (t.seg sg).epochLost = false ∧ (t.injTo sg bf = .out o eg ∨ t.injTo sg bf = .eject) ∧
    t.injReady sg bf = true ∧ (isX = false → (t.injTo sg bf).slot ≠ some 8 → ∀ x ∈ (t.seg sg).rte.injX,
    (t.injTo sg x).slot = (t.injTo sg bf).slot → t.injReady sg x = false) ∧ (∀ x ∈ q.zipIdx,
    (t.injTo sg x.1).slot = (t.injTo sg bf).slot → t.injReady sg x.1 = true → injBefore x (bf, idx) = false) :=
  ⟨run 0 fun g => { g with rte := { g.rte with injL := [{ flit := fl 0 0 [] }], budget := 256 } },
   ((run 0 fun g => { g with rte := { g.rte with injL := [{ flit := fl 0 0 [] }], budget := 256 } }).mod (0) (fun g => (g.newCycle (run 0 fun g => { g with rte := { g.rte with injL := [{ flit := fl 0 0 [] }], budget := 256 } }).time).rollBudget (run 0 fun g => { g with rte := { g.rte with injL := [{ flit := fl 0 0 [] }], budget := 256 } }).time)),
   0, false, 0, { flit := fl 0 0 [] }, 0, none, ((if (false) then ((((run 0 fun g => { g with rte := { g.rte with injL := [{ flit := fl 0 0 [] }], budget := 256 } }).mod (0) (fun g => (g.newCycle (run 0 fun g => { g with rte := { g.rte with injL := [{ flit := fl 0 0 [] }], budget := 256 } }).time).rollBudget (run 0 fun g => { g with rte := { g.rte with injL := [{ flit := fl 0 0 [] }], budget := 256 } }).time))).seg (0)).rte.injX else ((((run 0 fun g => { g with rte := { g.rte with injL := [{ flit := fl 0 0 [] }], budget := 256 } }).mod (0) (fun g => (g.newCycle (run 0 fun g => { g with rte := { g.rte with injL := [{ flit := fl 0 0 [] }], budget := 256 } }).time).rollBudget (run 0 fun g => { g with rte := { g.rte with injL := [{ flit := fl 0 0 [] }], budget := 256 } }).time))).seg (0)).rte.injL)),
   rfl, rfl, by decide +kernel⟩

theorem witness_RouterActs_3 :
    ∃ s : State, ∃ sg : Fin 8, Takes s sg ∧ (s.seg sg).rte.alignAt + 50 ≤ s.tick :=
  ⟨run (21 * 50) id, 0, by decide +kernel⟩

def calm : State := run (21 * 50) fun g => g.setFld F.RTE_THROTTLE_CTRL_ENABLE 1
def calmG : Segment := (calm.seg 0).rollBudget calm.time
theorem witness_RouterActs_4 :
    ∃ s : State, ∃ sg : Fin 8, ∃ g : Segment, ∃ hist : List (Nat × Nat), ∃ occNow : Nat, ∃ isHot : Prop,
    (isHot = (max 1 (g.fld F.RTE_THROTTLE_CTRL_OCC_LIMIT) < max g.rte.occMax occNow ∨ 0 < hist.foldl (fun n x => n + x.2) 0 ∧
    g.fld F.RTE_THROTTLE_CTRL_DEFL_LIMIT * hist.foldl (fun n x => n + x.2) 0 < hist.foldl (fun n x => n + x.1) 0 * 256)) ∧ Takes s sg ∧
    g = (s.seg sg).rollBudget s.time ∧ g.rte.updateAt + 50 ≤ s.tick ∧ hist = ((g.rte.defl, g.rte.asgn) :: g.rte.hist).take 10 ∧
    occNow = g.ports.foldl (fun n p => max n p.land.length) 0 ∧ g.fld F.RTE_THROTTLE_CTRL_ENABLE ≠ 0 ∧ ¬isHot :=
  ⟨calm, 0, calmG, [(0, 0)], 0, ((max 1 ((calmG).fld F.RTE_THROTTLE_CTRL_OCC_LIMIT) < max (calmG).rte.occMax (0) ∨ 0 < ([(0,
   0)]).foldl (fun n x => n + x.2) 0 ∧ (calmG).fld F.RTE_THROTTLE_CTRL_DEFL_LIMIT * ([(0, 0)]).foldl (fun n x => n + x.2) 0 < ([(0,
   0)]).foldl (fun n x => n + x.1) 0 * 256)), rfl, by decide +kernel⟩

def hot : State := run (21 * 50) fun g => { g.setFld F.RTE_THROTTLE_CTRL_ENABLE 1 with rte := { g.rte with occMax := 1000 } }
def hotG : Segment := (hot.seg 0).rollBudget hot.time
theorem witness_RouterActs_5 :
    ∃ s : State, ∃ sg : Fin 8, ∃ g : Segment, ∃ hist : List (Nat × Nat), ∃ occNow : Nat, ∃ isHot : Prop,
    (isHot = (max 1 (g.fld F.RTE_THROTTLE_CTRL_OCC_LIMIT) < max g.rte.occMax occNow ∨ 0 < hist.foldl (fun n x => n + x.2) 0 ∧
    g.fld F.RTE_THROTTLE_CTRL_DEFL_LIMIT * hist.foldl (fun n x => n + x.2) 0 < hist.foldl (fun n x => n + x.1) 0 * 256)) ∧ (∀ t,
    g.rte.lastCut = some t → 500 ≤ s.tick - t) ∧ Takes s sg ∧ g = (s.seg sg).rollBudget s.time ∧ g.rte.updateAt + 50 ≤ s.tick ∧ hist = ((g.rte.defl,
    g.rte.asgn) :: g.rte.hist).take 10 ∧ occNow = g.ports.foldl (fun n p => max n p.land.length) 0 ∧ g.fld F.RTE_THROTTLE_CTRL_ENABLE ≠ 0 ∧ isHot :=
  ⟨hot, 0, hotG, [(0, 0)], 0, ((max 1 ((hotG).fld F.RTE_THROTTLE_CTRL_OCC_LIMIT) < max (hotG).rte.occMax (0) ∨ 0 < ([(0,
   0)]).foldl (fun n x => n + x.2) 0 ∧ (hotG).fld F.RTE_THROTTLE_CTRL_DEFL_LIMIT * ([(0, 0)]).foldl (fun n x => n + x.2) 0 < ([(0,
   0)]).foldl (fun n x => n + x.1) 0 * 256)), rfl,
   (fun t h => absurd (h.symm.trans (show hotG.rte.lastCut = none by decide +kernel)) (Option.some_ne_none t)), by decide +kernel⟩

theorem witness_RouterActs_6 :
    ∃ s : State, ∃ sg : Fin 8, ∃ ag : Agent, ∃ table : Fin 2, ∃ idx : BitVec 11, ∃ sz : Sz, ∃ v : Word, Takes s sg ∧ ag.admin = true ∧ idx.toNat < 1088 ∧
    ((s.accessed ag).seg sg).tableState table = 0 ∧
    (storeEntry (mergeSize (((s.accessed ag).seg sg).reg (0x104000 + 0x4000 * table.val + 8 * idx.toNat)) sz v)).2 = false :=
  ⟨run 0 id, 0, sw, 1, 1087, .w64, 0x3FFFFFFF, by decide +kernel⟩

theorem witness_RouterActs_7 :
    ∃ s : State, ∃ sg : Fin 8, ∃ ag : Agent, ∃ table : Fin 2, Takes s sg ∧ ag.admin = true ∧ ((s.reached sg ag [domRouter]).seg sg).tableState table = 0 :=
  ⟨run 0 id, 0, sw, 0, by decide +kernel⟩

theorem witness_RouterActs_8 :
    ∃ s : State, ∃ sg : Fin 8, ∃ ag : Agent, ∃ table : Fin 2, Takes s sg ∧ ag.admin = true ∧ ((s.reached sg ag [domRouter]).seg sg).tableState table = 1 :=
  ⟨run 0 fun g => g.setFld F.RTE_EPOCH_STATUS_STATE1 1, 0, sw, 1, by decide +kernel⟩

theorem witness_RouterActs_9 :
    ∃ s : State, ∃ sg : Fin 8, ∃ ag : Agent, ∃ cur : Nat, ∃ other : Nat, cur = ((s.accessed ag).seg sg).epoch.toNat ∧ other = 1 - cur ∧ Takes s sg ∧
    ag.isKeeper = true ∧ ((s.accessed ag).seg sg).tableState other = 1 ∧ ((s.accessed ag).seg sg).tableState cur = 2 :=
  ⟨run 0 fun g => (g.setFld F.RTE_EPOCH_STATUS_STATE1 1).setFld F.RTE_EPOCH_STATUS_STATE0 2, 0, kp,
   ((((run 0 fun g => (g.setFld F.RTE_EPOCH_STATUS_STATE1 1).setFld F.RTE_EPOCH_STATUS_STATE0 2).accessed (kp)).seg (0)).epoch.toNat),
   (1 - (((((run 0 fun g => (g.setFld F.RTE_EPOCH_STATUS_STATE1 1).setFld F.RTE_EPOCH_STATUS_STATE0 2).accessed (kp)).seg (0)).epoch.toNat))), rfl, rfl,
   by decide +kernel⟩

theorem witness_RouterActs_10 :
    ∃ s : State, ∃ sg : Fin 8, ∃ ag : Agent, ∃ cur : Nat, ∃ other : Nat, cur = ((s.accessed ag).seg sg).epoch.toNat ∧ other = 1 - cur ∧ Takes s sg ∧
    ag.isKeeper = true ∧ ((s.accessed ag).seg sg).tableState other = 1 ∧ ((s.accessed ag).seg sg).tableState cur ≠ 2 :=
  ⟨run 0 fun g => g.setFld F.RTE_EPOCH_STATUS_STATE1 1, 0, kp,
   ((((run 0 fun g => g.setFld F.RTE_EPOCH_STATUS_STATE1 1).accessed (kp)).seg (0)).epoch.toNat),
   (1 - (((((run 0 fun g => g.setFld F.RTE_EPOCH_STATUS_STATE1 1).accessed (kp)).seg (0)).epoch.toNat))), rfl, rfl, by decide +kernel⟩

theorem witness_RouterActs_11 :
    ∃ s : State, ∃ sg : Fin 8, ∃ e : Nat, Takes s sg ∧ (s.seg sg).retiring = some e ∧ (s.seg sg).rte.retireAt ≤ s.tick ∧ (s.seg sg).oldLive e = 0 :=
  ⟨run 0 fun g => g.setFld F.RTE_EPOCH_STATUS_STATE1 3, 0, 1, by decide +kernel⟩

theorem witness_FramesArePassed_0 :
    ∃ s : State, ∃ sg : Fin 8, ∃ p : Fin 6, ∃ q : Port, q = (s.seg sg).port p ∧ Takes s sg ∧ (q.st = .active ∧
    (q.txPwr = .active ∨ q.txPwr = .kettle) ∨ q.st = .retrain ∧ q.wait = none ∨ q.st = .width ∨ q.st = .training ∧ q.lanesUp = true) :=
  ⟨run 0 (ported 5 fun q => { q with st := .active, txPwr := .kettle }), 0, 5, (((run 0 (ported 5 fun q => { q with st := .active, txPwr := .kettle })).seg (0)).port (5)),
   rfl, by decide +kernel⟩

theorem witness_FramesArePassed_1 :
    ∃ s : State, ∃ sg : Fin 8, ∃ f : Frame, Takes s sg ∧ f.typ = 0 :=
  ⟨run 0 id, 0, fr 0 [], by decide +kernel⟩

theorem witness_FramesArePassed_2 :
    ∃ s : State, ∃ sg : Fin 8, ∃ f : Frame, Takes s sg ∧ (f.typ = 1 ∨ 4 < f.typ.toNat ∨ f.typ = 4 ∧ ctrlBad f = true) :=
  ⟨run 0 id, 0, fr 1 [], by decide +kernel⟩

theorem witness_FramesArePassed_2b :
    ∃ s : State, ∃ sg : Fin 8, ∃ f : Frame, Takes s sg ∧ (f.typ = 1 ∨ 4 < f.typ.toNat ∨ f.typ = 4 ∧ ctrlBad f = true) :=
  ⟨run 0 id, 0, fr 7 [], by decide +kernel⟩

theorem witness_FramesArePassed_2c :
    ∃ s : State, ∃ sg : Fin 8, ∃ f : Frame, Takes s sg ∧ (f.typ = 1 ∨ 4 < f.typ.toNat ∨ f.typ = 4 ∧ ctrlBad f = true) :=
  ⟨run 0 id, 0, fr 4 [6], by decide +kernel⟩

theorem witness_FramesArePassed_3 :
    ∃ s : State, ∃ sg : Fin 8, ∃ f : Frame, Takes s sg ∧ f.typ = 2 :=
  ⟨run 0 id, 0, fr 2 [], by decide +kernel⟩

theorem witness_FramesArePassed_4 :
    ∃ s : State, ∃ sg : Fin 8, ∃ f : Frame, Takes s sg ∧ f.typ = 3 :=
  ⟨run 0 id, 0, fr 3 [], by decide +kernel⟩

theorem witness_FramesArePassed_5 :
    ∃ s : State, ∃ sg : Fin 8, ∃ f : Frame, Takes s sg ∧ isMsg f 1 = true :=
  ⟨run 0 id, 0, fr 4 [1, 5], by decide +kernel⟩

theorem witness_FramesArePassed_6 :
    ∃ s : State, ∃ sg : Fin 8, ∃ f : Frame, Takes s sg ∧ isMsg f 2 = true :=
  ⟨run 0 id, 0, fr 4 [2], by decide +kernel⟩

theorem witness_FramesArePassed_7 :
    ∃ s : State, ∃ sg : Fin 8, ∃ f : Frame, Takes s sg ∧ isMsg f 3 = true :=
  ⟨run 0 id, 0, fr 4 [3, 4], by decide +kernel⟩

theorem witness_FramesArePassed_8 :
    ∃ s : State, ∃ sg : Fin 8, ∃ f : Frame, Takes s sg ∧ isMsg f 4 = true :=
  ⟨run 0 id, 0, fr 4 [4, 4], by decide +kernel⟩

theorem witness_FramesArePassed_9 :
    ∃ s : State, ∃ sg : Fin 8, ∃ f : Frame, Takes s sg ∧ isMsg f 5 = true :=
  ⟨run 0 id, 0, fr 4 [5], by decide +kernel⟩

theorem witness_FramesArePassed_10 :
    ∃ s : State, ∃ sg : Fin 8, ∃ p : Fin 6, Takes s sg ∧ ((s.seg sg).port p).hears = true :=
  ⟨run 0 (ported 0 fun q => { q with st := .active }), 0, 0, by decide +kernel⟩

theorem witness_FramesArePassed_11 :
    ∃ s : State, ∃ sg : Fin 8, Takes s sg :=
  ⟨run 0 id, 0, by decide +kernel⟩

theorem witness_LinkTimersAndCommands_0 :
    ∃ s : State, ∃ sg : Fin 8, ∃ p : Fin 6, ∃ q : Port, q = (s.seg sg).port p ∧ Takes s sg ∧ q.st = .active ∧ q.replay ≠ [] ∧
    q.timerAt + max 1 ((s.seg sg).fld (F.LNK_TIMERS_REPLAY_TIMER.port p)) ≤ s.tick :=
  ⟨run 21 fun g => (ported 0 (fun q => { q with st := .active, replay := [default] }) g).setFld (F.LNK_TIMERS_REPLAY_TIMER.port 0) 0, 0, 0,
   (((run 21 fun g => (ported 0 (fun q => { q with st := .active, replay := [default] }) g).setFld (F.LNK_TIMERS_REPLAY_TIMER.port 0) 0).seg (0)).port (0)),
   rfl, by decide +kernel⟩

theorem witness_LinkTimersAndCommands_1 :
    ∃ s : State, ∃ sg : Fin 8, ∃ p : Fin 6, ∃ q : Port, q = (s.seg sg).port p ∧ Takes s sg ∧ q.st = .active ∧ q.gap = true ∧ q.nakLast ≠ none :=
  ⟨run 0 (ported 0 fun q => { q with st := .active, gap := true, nakLast := some (0, 0) }), 0, 0, (((run 0 (ported 0 fun q => { q with st := .active, gap := true, nakLast := some (0, 0) })).seg (0)).port (0)),
   rfl, by decide +kernel⟩

def errs (n : Nat) : State := run (21 * 50000) fun g => ((ported 5 (fun q => { q with replays := 1, sent := 1 }) g).setFld (F.LNK_ERR_CTRL_REPLAY_PPB.port 5) 1).setFld (F.LNK_ERR_CTRL_HOT_WINDOWS.port 5) n
theorem witness_LinkTimersAndCommands_2 :
    ∃ s : State, ∃ sg : Fin 8, ∃ p : Fin 6, ∃ q : Port, ∃ ppb : Nat, ∃ sent : Nat, ∃ replays : Nat, ∃ run : Nat, q = (s.seg sg).port p ∧
    ppb = (s.seg sg).fld (F.LNK_ERR_CTRL_REPLAY_PPB.port p) ∧ run = (if 0 < replays ∧ ppb * sent < replays * 1000000000 then q.hotRun + 1 else 0) ∧
    Takes s sg ∧ q.windowEnd ≤ s.tick ∧ (sent, replays) = (match q.closed with | some x => x | none => (q.sent, q.replays)) ∧ ppb ≠ 0 ∧
    max 1 ((s.seg sg).fld (F.LNK_ERR_CTRL_HOT_WINDOWS.port p)) ≤ run :=
  ⟨errs 1, 0, 5, (((errs 1).seg (0)).port (5)), (((errs 1).seg (0)).fld (F.LNK_ERR_CTRL_REPLAY_PPB.port (5))), 1, 1,
   ((if 0 < (1) ∧ ((((errs 1).seg (0)).fld (F.LNK_ERR_CTRL_REPLAY_PPB.port (5)))) * (1) < (1) * 1000000000 then ((((errs 1).seg (0)).port (5))).hotRun + 1 else 0)),
   rfl, rfl, rfl, by decide +kernel⟩

theorem witness_LinkTimersAndCommands_3 :
    ∃ s : State, ∃ sg : Fin 8, ∃ p : Fin 6, ∃ q : Port, ∃ ppb : Nat, ∃ sent : Nat, ∃ replays : Nat, ∃ run : Nat, q = (s.seg sg).port p ∧
    ppb = (s.seg sg).fld (F.LNK_ERR_CTRL_REPLAY_PPB.port p) ∧ run = (if 0 < replays ∧ ppb * sent < replays * 1000000000 then q.hotRun + 1 else 0) ∧
    Takes s sg ∧ q.windowEnd ≤ s.tick ∧ (sent, replays) = (match q.closed with | some x => x | none => (q.sent, q.replays)) ∧
    (ppb = 0 ∨ run < max 1 ((s.seg sg).fld (F.LNK_ERR_CTRL_HOT_WINDOWS.port p))) :=
  ⟨errs 2, 0, 5, (((errs 2).seg (0)).port (5)), (((errs 2).seg (0)).fld (F.LNK_ERR_CTRL_REPLAY_PPB.port (5))), 1, 1,
   ((if 0 < (1) ∧ ((((errs 2).seg (0)).fld (F.LNK_ERR_CTRL_REPLAY_PPB.port (5)))) * (1) < (1) * 1000000000 then ((((errs 2).seg (0)).port (5))).hotRun + 1 else 0)),
   rfl, rfl, rfl, by decide +kernel⟩

theorem witness_LinkTimersAndCommands_4 :
    ∃ s : State, ∃ sg : Fin 8, ∃ p : Fin 6, ∃ q : Port, ∃ cause, ∃ t, q = (s.seg sg).port p ∧ Takes s sg ∧ q.st = .retrain ∧ q.req = some (false, cause,
    t) ∧ t + 50 ≤ s.tick :=
  ⟨run (21 * 50) (ported 0 fun q => { q with st := .retrain, req := some (false, 5, 0) }), 0, 0,
   (((run (21 * 50) (ported 0 fun q => { q with st := .retrain, req := some (false, 5, 0) })).seg (0)).port (0)), 5, 0, rfl, by decide +kernel⟩

theorem witness_LinkTimersAndCommands_5 :
    ∃ s : State, ∃ sg : Fin 8, ∃ p : Fin 6, ∃ q : Port, q = (s.seg sg).port p ∧ Takes s sg ∧ q.start + (s.seg sg).retrainLimit p ≤ s.tick ∧
    q.st = .training :=
  ⟨run (21 * 5000) fun g => (ported 0 (fun q => { q with st := .training }) g).setFld (F.LNK_ERR_CTRL_RETRAIN_LIMIT.port 0) 0, 0, 0,
   (((run (21 * 5000) fun g => (ported 0 (fun q => { q with st := .training }) g).setFld (F.LNK_ERR_CTRL_RETRAIN_LIMIT.port 0) 0).seg (0)).port (0)),
   rfl, by decide +kernel⟩

theorem witness_LinkTimersAndCommands_6 :
    ∃ s : State, ∃ sg : Fin 8, ∃ p : Fin 6, ∃ q : Port, q = (s.seg sg).port p ∧ Takes s sg ∧ q.start + (s.seg sg).retrainLimit p ≤ s.tick ∧
    q.st = .retrain ∧ q.wait = none :=
  ⟨run (21 * 5000) fun g => (ported 0 (fun q => { q with st := .retrain }) g).setFld (F.LNK_ERR_CTRL_RETRAIN_LIMIT.port 0) 0, 0, 0,
   (((run (21 * 5000) fun g => (ported 0 (fun q => { q with st := .retrain }) g).setFld (F.LNK_ERR_CTRL_RETRAIN_LIMIT.port 0) 0).seg (0)).port (0)), rfl,
   by decide +kernel⟩

theorem witness_LinkTimersAndCommands_7 :
    ∃ s : State, ∃ sg : Fin 8, ∃ p : Fin 6, ∃ q : Port, ∃ t, q = (s.seg sg).port p ∧ Takes s sg ∧ q.st = .retrain ∧ q.wait = some t ∧ t ≤ s.tick :=
  ⟨run 0 (ported 0 fun q => { q with st := .retrain, wait := some 0 }), 0, 0, (((run 0 (ported 0 fun q => { q with st := .retrain, wait := some 0 })).seg (0)).port (0)),
   0, rfl, by decide +kernel⟩

theorem witness_LinkTimersAndCommands_8 :
    ∃ s : State, ∃ sg : Fin 8, ∃ p : Fin 6, ∃ q : Port, q = (s.seg sg).port p ∧ (q.st = .width ∧ q.start + 500 ≤ s.tick ∨ q.st = .active ∧ (∃ w t,
    q.req = some (true, w, t) ∧ t + 50 ≤ s.tick)) ∧ Takes s sg :=
  ⟨run (21 * 500) (ported 0 fun q => { q with st := .width }), 0, 0, (((run (21 * 500) (ported 0 fun q => { q with st := .width })).seg (0)).port (0)),
   rfl, Or.inl (by decide +kernel), by decide +kernel⟩

theorem witness_LinkTimersAndCommands_8b :
    ∃ s : State, ∃ sg : Fin 8, ∃ p : Fin 6, ∃ q : Port, q = (s.seg sg).port p ∧ (q.st = .width ∧ q.start + 500 ≤ s.tick ∨ q.st = .active ∧ (∃ w t,
    q.req = some (true, w, t) ∧ t + 50 ≤ s.tick)) ∧ Takes s sg :=
  ⟨run (21 * 50) (ported 0 fun q => { q with st := .active, req := some (true, 4, 0) }), 0, 0,
   (((run (21 * 50) (ported 0 fun q => { q with st := .active, req := some (true, 4, 0) })).seg (0)).port (0)), rfl, Or.inr ⟨by decide +kernel, 4, 0,
   by decide +kernel⟩, by decide +kernel⟩

theorem witness_LinkTimersAndCommands_9 :
    ∃ s : State, ∃ sg : Fin 8, ∃ p : Fin 6, ∃ q : Port, ∃ r, ∃ rest, q = (s.seg sg).port p ∧ Takes s sg ∧ q.txRuns = r :: rest ∧ r.ft + 256 ≤ q.ft :=
  ⟨run 0 (ported 0 fun q => { q with ft := 256, txRuns := [default] }), 0, 0, (((run 0 (ported 0 fun q => { q with ft := 256, txRuns := [default] })).seg (0)).port (0)),
   default, [], rfl, by decide +kernel⟩

theorem witness_LinkTimersAndCommands_10 :
    ∃ s : State, ∃ sg : Fin 8, ∃ ag : Agent, Takes s sg ∧ ag.admin = true :=
  ⟨run 0 id, 0, sw, by decide +kernel⟩

theorem witness_LinkTimersAndCommands_11 :
    ∃ s : State, ∃ sg : Fin 8, ∃ ag : Agent, Takes s sg ∧ ag.isKeeper = true :=
  ⟨run 0 id, 0, kp, by decide +kernel⟩

def ob (signal : BitVec 9) (partner : BitVec 3) : TrainObs := { (default : TrainObs) with signal := signal, partnerPhase := partner }
def one : State := run 0 (ported 0 fun q => { q with st := .training, phase := 1 })
theorem witness_LanesTrainAndHandOver_0 :
    ∃ s : State, ∃ sg : Fin 8, ∃ p : Fin 6, ∃ obs : TrainObs, ∃ g, Takes s sg ∧ ((s.seg sg).port p).isTraining = true ∧
    (s.seg sg).phaseEnd s.tick p obs = (g, false) :=
  ⟨one, 0, 0, ob 3 0, ((one.seg 0).phaseEnd one.tick 0 (ob 3 0)).1, by decide +kernel⟩

def seven : State := run 0 (ported 0 fun q => { q with st := .retrain, phase := 7 })
theorem witness_LanesTrainAndHandOver_1 :
    ∃ s : State, ∃ sg : Fin 8, ∃ p : Fin 6, ∃ obs : TrainObs, ∃ g, Takes s sg ∧ ((s.seg sg).port p).isTraining = true ∧
    (s.seg sg).phaseEnd s.tick p obs = (g, true) ∧ (g.port p).st = .retrain :=
  ⟨seven, 0, 0, ob 0 7, ((seven.seg 0).phaseEnd seven.tick 0 (ob 0 7)).1, by decide +kernel⟩

theorem witness_LanesTrainAndHandOver_2 :
    ∃ s : State, ∃ sg : Fin 8, ∃ p : Fin 6, Takes s sg ∧ ((s.seg sg).port p).isTraining = true ∧
    ((s.seg sg).port p).phaseTick + (s.seg sg).phaseLimit p ((s.seg sg).port p).phase ≤ s.tick ∧ ((s.seg sg).port p).phase = 5 :=
  ⟨run 21000000 (ported 0 fun q => { q with st := .training, phase := 5 }), 0, 0, by decide +kernel⟩

theorem witness_LanesTrainAndHandOver_3 :
    ∃ s : State, ∃ sg : Fin 8, ∃ p : Fin 6, Takes s sg ∧ ((s.seg sg).port p).isTraining = true ∧
    ((s.seg sg).port p).phaseTick + (s.seg sg).phaseLimit p ((s.seg sg).port p).phase ≤ s.tick ∧ ((s.seg sg).port p).phase ≠ 5 ∧
    ((s.seg sg).port p).phase ≠ 6 :=
  ⟨run (21 * 250) (ported 0 fun q => { q with st := .training, phase := 1 }), 0, 0, by decide +kernel⟩

def lanes (f : Port → Port) (t : Nat := 0) : State := run t fun g => ported 0 (fun q => f { q with st := .active, txPwr := .active, rxPwr := .active, mapTx := [0, 1, 2, 3, 4, 5, 6, 7], mapRx := [0, 1, 2, 3, 4, 5, 6, 7], spareTx := 8, spareRx := 8, partnerCap := 0xF }) g
theorem witness_LanesTrainAndHandOver_4 :
    ∃ s : State, ∃ sg : Fin 8, ∃ p : Fin 6, ∃ q : Port, ∃ lane : Fin 9, ∃ heads, q = (s.seg sg).port p ∧ Takes s sg ∧ q.st = .active ∧ q.rxPwr ≠ .flask ∧
    losesLock heads = true ∧ q.mapRx.contains lane.val = true :=
  ⟨lanes id, 0, 0, (((lanes id).seg (0)).port (0)), 7, List.replicate 64 0, rfl, by decide +kernel⟩

theorem witness_LanesTrainAndHandOver_5 :
    ∃ s : State, ∃ sg : Fin 8, ∃ p : Fin 6, ∃ q : Port, ∃ lane : Fin 9, ∃ heads, q = (s.seg sg).port p ∧ Takes s sg ∧ q.st = .active ∧ q.rxPwr ≠ .flask ∧
    losesLock heads = true ∧ q.mapRx.contains lane.val = false ∧ (q.spareRx = lane.val ∨ q.calRx = lane.val) :=
  ⟨lanes id, 0, 0, (((lanes id).seg (0)).port (0)), 8, List.replicate 64 3, rfl, by decide +kernel⟩

theorem witness_LanesTrainAndHandOver_6 :
    ∃ s : State, ∃ sg : Fin 8, ∃ p : Fin 6, ∃ q : Port, ∃ l : Fin 8, q = (s.seg sg).port p ∧ Takes s sg ∧ q.st = .active ∧ q.spareRx ≠ 15 ∧
    q.mapRx.getD l 15 ≠ 15 :=
  ⟨lanes id, 0, 0, (((lanes id).seg (0)).port (0)), 7, rfl, by decide +kernel⟩

theorem witness_LanesTrainAndHandOver_7 :
    ∃ s : State, ∃ sg : Fin 8, ∃ p : Fin 6, ∃ q : Port, ∃ l : Fin 8, q = (s.seg sg).port p ∧ Takes s sg ∧ q.st = .active ∧ q.rotTx.step = 1 ∧
    q.rotTx.l = l.val :=
  ⟨lanes fun q => { q with rotTx := { step := 1, l := 7 } }, 0, 0, (((lanes fun q => { q with rotTx := { step := 1, l := 7 } }).seg (0)).port (0)), 7,
   rfl, by decide +kernel⟩

theorem witness_LanesTrainAndHandOver_8 :
    ∃ s : State, ∃ sg : Fin 8, ∃ p : Fin 6, ∃ q : Port, q = (s.seg sg).port p ∧ Takes s sg ∧ q.st = .active ∧ q.rotTx.step = 3 :=
  ⟨lanes fun q => { q with rotTx := { step := 3, l := 7 } }, 0, 0, (((lanes fun q => { q with rotTx := { step := 3, l := 7 } }).seg (0)).port (0)), rfl,
   by decide +kernel⟩

theorem witness_LanesTrainAndHandOver_9 :
    ∃ s : State, ∃ sg : Fin 8, ∃ p : Fin 6, ∃ q : Port, q = (s.seg sg).port p ∧ Takes s sg ∧ q.st = .active ∧ (q.calTx ≠ 15 ∨ q.spareTx ≠ 15) :=
  ⟨lanes fun q => { q with calTx := 3 }, 0, 0, (((lanes fun q => { q with calTx := 3 }).seg (0)).port (0)), rfl, by decide +kernel⟩

theorem witness_LanesTrainAndHandOver_10 :
    ∃ s : State, ∃ sg : Fin 8, ∃ p : Fin 6, ∃ q : Port, ∃ k, q = (s.seg sg).port p ∧ Takes s sg ∧ q.st = .active ∧ (s.seg sg).mayRotate p = true ∧
    q.rotAt + max 5000 ((s.seg sg).fld (F.LNE_ROTATE_PERIOD.port p)) ≤ s.tick ∧ nextRetired q.mapTx q.retired = some k :=
  ⟨(lanes id (21 * 5000)).mod 0 fun g => ((g.setFld (F.LNE_ROTATE_PERIOD.port 0) 0).setFld (F.LNE_CFG_RATE.port 0) 0).setFld (F.LNE_CFG_ROTATE_EN.port 0) 1,
   0, 0,
   ((((lanes id (21 * 5000)).mod 0 fun g => ((g.setFld (F.LNE_ROTATE_PERIOD.port 0) 0).setFld (F.LNE_CFG_RATE.port 0) 0).setFld (F.LNE_CFG_ROTATE_EN.port 0) 1).seg (0)).port (0)),
   0, rfl, by decide +kernel⟩

theorem witness_LanesTrainAndHandOver_11 :
    ∃ s : State, ∃ sg : Fin 8, ∃ p : Fin 6, ∃ q : Port, q = (s.seg sg).port p ∧ Takes s sg ∧ q.st = .active ∧ q.rotRx.step = 1 ∧ q.spareRx = q.rotRx.s ∧
    q.serviceTx = true :=
  ⟨lanes fun q => { q with rotRx := { step := 1, s := 8 } }, 0, 0, (((lanes fun q => { q with rotRx := { step := 1, s := 8 } }).seg (0)).port (0)), rfl,
   by decide +kernel⟩

theorem witness_LanesTrainAndHandOver_12 :
    ∃ s : State, ∃ sg : Fin 8, ∃ p : Fin 6, ∃ q : Port, q = (s.seg sg).port p ∧ Takes s sg ∧ q.st = .active ∧ q.rotRx.step = 2 ∧ q.calRx = q.rotRx.k ∧
    q.rotRx.tick + max 1 ((s.seg sg).fld (F.LNE_ROTATE_CAL_PRBS_TICKS.port p)) ≤ s.tick :=
  ⟨(lanes (fun q => { q with calRx := 3, rotRx := { step := 2, k := 3 } }) 21).mod 0 fun g => g.setFld (F.LNE_ROTATE_CAL_PRBS_TICKS.port 0) 1, 0, 0,
   ((((lanes (fun q => { q with calRx := 3, rotRx := { step := 2, k := 3 } }) 21).mod 0 fun g => g.setFld (F.LNE_ROTATE_CAL_PRBS_TICKS.port 0) 1).seg (0)).port (0)),
   rfl, by decide +kernel⟩

theorem witness_LanesTrainAndHandOver_13 :
    ∃ s : State, ∃ sg : Fin 8, ∃ p : Fin 6, ∃ q : Port, ∃ lane : Fin 9, q = (s.seg sg).port p ∧ Takes s sg ∧ q.st = .active ∧
    q.mapTx.contains lane.val = true :=
  ⟨lanes id, 0, 0, (((lanes id).seg (0)).port (0)), 0, rfl, by decide +kernel⟩

theorem witness_LanesTrainAndHandOver_14 :
    ∃ s : State, ∃ sg : Fin 8, ∃ p : Fin 6, ∃ lim : Nat, lim = max 600 ((s.seg sg).fld (F.LNE_ROTATE_CAL_LIMIT.port p)) ∧ Takes s sg ∧
    ((s.seg sg).port p).rotTx.step = 1 ∧ ((s.seg sg).port p).rotTx.tick + fourGroups ((s.seg sg).fld (F.LNE_CFG_RATE.port p)) + lim ≤ s.tick :=
  ⟨(lanes (fun q => { q with rotTx := { step := 1 } }) (21 * 632)).mod 0 fun g => g.setFld (F.LNE_ROTATE_CAL_LIMIT.port 0) 0, 0, 0,
   (max 600 ((((lanes (fun q => { q with rotTx := { step := 1 } }) (21 * 632)).mod 0 fun g => g.setFld (F.LNE_ROTATE_CAL_LIMIT.port 0) 0).seg (0)).fld (F.LNE_ROTATE_CAL_LIMIT.port (0)))),
   rfl, by decide +kernel⟩

theorem witness_LanesTrainAndHandOver_15 :
    ∃ s : State, ∃ sg : Fin 8, ∃ p : Fin 6, ∃ lim : Nat, lim = max 600 ((s.seg sg).fld (F.LNE_ROTATE_CAL_LIMIT.port p)) ∧ Takes s sg ∧
    ((s.seg sg).port p).rotTx.step = 3 ∧ ((s.seg sg).port p).rotTx.tick + lim ≤ s.tick :=
  ⟨(lanes (fun q => { q with rotTx := { step := 3 } }) (21 * 600)).mod 0 fun g => g.setFld (F.LNE_ROTATE_CAL_LIMIT.port 0) 0, 0, 0,
   (max 600 ((((lanes (fun q => { q with rotTx := { step := 3 } }) (21 * 600)).mod 0 fun g => g.setFld (F.LNE_ROTATE_CAL_LIMIT.port 0) 0).seg (0)).fld (F.LNE_ROTATE_CAL_LIMIT.port (0)))),
   rfl, by decide +kernel⟩

theorem witness_LanesTrainAndHandOver_16 :
    ∃ s : State, ∃ sg : Fin 8, ∃ p : Fin 6, ∃ ag : Agent, Takes s sg ∧ ag.admin = true ∧
    ((((s.accessed ag).seg sg).port p).st = .disabled ∨ (((s.accessed ag).seg sg).port p).st = .down) :=
  ⟨run 0 id, 0, 0, sw, by decide +kernel⟩

theorem witness_LanesTrainAndHandOver_17 :
    ∃ s : State, ∃ sg : Fin 8, Takes s sg :=
  ⟨run 0 id, 0, by decide +kernel⟩

theorem witness_LanePowerStates_0 :
    ∃ s : State, ∃ sg : Fin 8, ∃ p : Fin 6, ∃ q : Port, q = (s.seg sg).port p ∧ Takes s sg ∧ q.st = .active ∧ q.txPwr = .active ∧ q.stage = [] ∧
    q.replaying = none ∧ q.txRuns = [] ∧ q.seqFt + max 1 ((s.seg sg).fld (F.LNE_PWR_CTRL_KETTLE_ENTRY.port p)) ≤ q.ft :=
  ⟨(lanes fun q => { q with ft := 1 }).mod 0 fun g => g.setFld (F.LNE_PWR_CTRL_KETTLE_ENTRY.port 0) 0, 0, 0,
   ((((lanes fun q => { q with ft := 1 }).mod 0 fun g => g.setFld (F.LNE_PWR_CTRL_KETTLE_ENTRY.port 0) 0).seg (0)).port (0)), rfl, by decide +kernel⟩

theorem witness_LanePowerStates_1 :
    ∃ s : State, ∃ sg : Fin 8, ∃ p : Fin 6, ∃ q : Port, q = (s.seg sg).port p ∧ Takes s sg ∧ q.st = .active ∧ (q.rxPwr = .active ∨ q.rxPwr = .kettle) :=
  ⟨lanes fun q => { q with rxPwr := .kettle }, 0, 0, (((lanes fun q => { q with rxPwr := .kettle }).seg (0)).port (0)), rfl, by decide +kernel⟩

theorem witness_LanePowerStates_2 :
    ∃ s : State, ∃ sg : Fin 8, ∃ p : Fin 6, ∃ q : Port, q = (s.seg sg).port p ∧ Takes s sg ∧ q.st = .active ∧ q.flask = 1 :=
  ⟨lanes fun q => { q with flask := 1 }, 0, 0, (((lanes fun q => { q with flask := 1 }).seg (0)).port (0)), rfl, by decide +kernel⟩

theorem witness_LanePowerStates_3 :
    ∃ s : State, ∃ sg : Fin 8, ∃ p : Fin 6, ∃ q : Port, q = (s.seg sg).port p ∧ Takes s sg ∧ q.st = .active ∧ q.flask = 0 ∧ (s.seg sg).flaskOk p = true ∧
    q.inHandover = false :=
  ⟨(lanes fun q => { q with txPwr := .kettle, rxPwr := .doze }).mod 0 fun g => (g.setFld (F.LNE_CFG_RATE.port 0) 0).setFld (F.LNE_CFG_FLASK_EN.port 0) 1,
   0, 0, ((((lanes fun q => { q with txPwr := .kettle, rxPwr := .doze }).mod 0 fun g => (g.setFld (F.LNE_CFG_RATE.port 0) 0).setFld (F.LNE_CFG_FLASK_EN.port 0) 1).seg (0)).port (0)),
   rfl, by decide +kernel⟩

theorem witness_LanePowerStates_4 :
    ∃ s : State, ∃ sg : Fin 8, ∃ p : Fin 6, ∃ q : Port, q = (s.seg sg).port p ∧ Takes s sg ∧ q.st = .active ∧ q.flask ≠ 1 ∧ (s.seg sg).flaskOk p = false :=
  ⟨lanes id, 0, 0, (((lanes id).seg (0)).port (0)), rfl, by decide +kernel⟩

theorem witness_LanePowerStates_5 :
    ∃ s : State, ∃ sg : Fin 8, ∃ p : Fin 6, ∃ q : Port, q = (s.seg sg).port p ∧ Takes s sg ∧ q.st = .active ∧ q.flask = 2 :=
  ⟨lanes fun q => { q with flask := 2 }, 0, 0, (((lanes fun q => { q with flask := 2 }).seg (0)).port (0)), rfl, by decide +kernel⟩

theorem witness_LanePowerStates_6 :
    ∃ s : State, ∃ sg : Fin 8, ∃ p : Fin 6, ∃ q : Port, ∃ t, q = (s.seg sg).port p ∧ Takes s sg ∧ q.st = .active ∧ q.relock = some t ∧ t + 2500 ≤ s.tick :=
  ⟨lanes (fun q => { q with relock := some 0 }) (21 * 2500), 0, 0, (((lanes (fun q => { q with relock := some 0 }) (21 * 2500)).seg (0)).port (0)), 0,
   rfl, by decide +kernel⟩

theorem witness_LanePowerStates_7 :
    ∃ s : State, ∃ sg : Fin 8, ∃ p : Fin 6, ∃ q : Port, q = (s.seg sg).port p ∧ Takes s sg ∧ q.flask = 1 :=
  ⟨lanes fun q => { q with flask := 1 }, 0, 0, (((lanes fun q => { q with flask := 1 }).seg (0)).port (0)), rfl, by decide +kernel⟩

theorem witness_LanePowerStates_8 :
    ∃ s : State, ∃ sg : Fin 8, ∃ p : Fin 6, ∃ q : Port, q = (s.seg sg).port p ∧ Takes s sg ∧ q.txPwr = .doze ∧
    (q.wakeHeld = true ∨ q.ackOwed = true ∨ q.owed ≠ 0 ∨ q.stage ≠ [] ∨ q.st ≠ .active) :=
  ⟨lanes fun q => { q with txPwr := .doze, wakeHeld := true }, 0, 0, (((lanes fun q => { q with txPwr := .doze, wakeHeld := true }).seg (0)).port (0)),
   rfl, by decide +kernel⟩

theorem witness_LanePowerStates_9 :
    ∃ s : State, ∃ sg : Fin 8, ∃ p : Fin 6, ∃ q : Port, q = (s.seg sg).port p ∧ Takes s sg :=
  ⟨lanes id, 0, 0, (((lanes id).seg (0)).port (0)), rfl, by decide +kernel⟩

theorem witness_LanePowerStates_13 :
    ∃ s : State, ∃ sg : Fin 8, ∃ ag : Agent, Takes s sg ∧ ag.admin = true :=
  ⟨run 0 id, 0, sw, by decide +kernel⟩

theorem witness_PowerDomainsAct_0 :
    ∃ s : State, ∃ sg : Fin 8, Takes s sg :=
  ⟨run 0 id, 0, by decide +kernel⟩

theorem witness_PowerDomainsAct_1 :
    ∃ s : State, ∃ sg : Fin 8, ∃ d : Fin 35, Takes s sg ∧ (s.seg sg).pwr.woke.contains d.val = false ∧ (d.val = 1 ∨ d.val = 2) ∧
    (s.seg sg).awake d = true ∧ s.sleepCond sg d = true ∧ (s.seg sg).pwrHeld d = false ∧ (s.seg sg).pwr.restart.contains d.val = false :=
  ⟨rk fun k => { k with st := .asleep }, 0, 1, by decide +kernel⟩

theorem witness_PowerDomainsAct_2 :
    ∃ s : State, ∃ sg : Fin 8, ∃ d : Fin 35, ∃ t : Nat, Takes s sg ∧ (s.seg sg).pwr.woke.contains d.val = false ∧ d.val ≠ 1 ∧ d.val ≠ 2 ∧
    s.sleepDue sg d = some t ∧ s.dropOk sg (dropKey t 0 d) (64 * (if 9 ≤ d.val ∧ d.val ≤ 20 then 131 else (s.seg sg).domMw d)) = true :=
  ⟨run 21 fun g => { (g.setFld F.PWR_CTRL_SLEEP_IDLE 1).setFld F.PWR_RAMP_CLASS 0 with pwr := { g.pwr with idleSince := [(8, 0)] } }, 0, 8, 1,
   by decide +kernel⟩

theorem witness_PowerDomainsAct_3 :
    ∃ s : State, ∃ sg : Fin 8, ∃ ag : Agent, Takes s sg ∧ ag.admin = true :=
  ⟨run 0 id, 0, sw, by decide +kernel⟩

theorem witness_RampAndPortsAct_0 :
    ∃ s : State, ∃ sg : Fin 8, ∃ w : Nat, w = (s.seg sg).pwr.windowEnd ∧ Takes s sg ∧ w ≤ s.tick :=
  ⟨run (21 * 50) id, 0, (((run (21 * 50) id).seg (0)).pwr.windowEnd), rfl, by decide +kernel⟩

theorem witness_RampAndPortsAct_1 :
    ∃ s : State, ∃ sg : Fin 8, ∃ ag : Agent, ∃ sz : Sz, Takes s sg ∧ ag.isKeeper = true ∧ sz.covers 1 0 = true :=
  ⟨run 0 id, 0, kp, .lo32, by decide +kernel⟩

theorem witness_RampAndPortsAct_2 :
    ∃ s : State, ∃ sg : Fin 8, ∃ p : Fin 6, ∃ t : Nat, Takes s sg ∧ (s.seg sg).dozeDue s.tick p = some t ∧
    s.dropOk sg (dropKey t 1 p) ((s.seg sg).stepDrop p 90) = true :=
  ⟨(lanes id 21000000).mod 0 fun g => (g.setFld F.PWR_RAMP_CLASS 0).setFld F.PWR_KETTLE_HOLD 1, 0, 0, 1, by decide +kernel⟩

theorem witness_RampAndPortsAct_3 :
    ∃ s : State, ∃ sg : Fin 8, ∃ p : Fin 6, ∃ t : Nat, Takes s sg ∧ (s.seg sg).flaskDue s.tick p = some t ∧
    s.dropOk sg (dropKey t 1 p) ((s.seg sg).stepDrop p 4) = true :=
  ⟨(lanes id 21000000).mod 0 fun g => ((g.setFld F.PWR_RAMP_CLASS 0).setFld F.PWR_KETTLE_HOLD 1).setFld F.PWR_KETTLE_FLASK_AFTER 1, 0, 0, 1,
   by decide +kernel⟩

def aFormed' : Formed := { (default : Formed) with grp := 5, hasEntry := true, at_ := 2500 }
theorem witness_RampAndPortsAct_4 :
    ∃ s : State, ∃ sg : Fin 8, ∃ grp : BitVec 12, ∃ p : Nat, (∀ t, (s.seg sg).pwr.portWakeAt = some t → t + 50 ≤ s.tick) ∧ Takes s sg ∧
    ((s.seg sg).stile.any fun f => f.grp == grp && f.hasEntry && f.at_ ≤ s.tick + 2500) = true ∧ (s.seg sg).portToWake = some p :=
  ⟨(lanes fun q => { q with txPwr := .doze }).mod 0 fun g => { g with stile := [aFormed'] }, 0, 5, 0,
   fun t h => absurd (h.symm.trans (show _ = none by decide +kernel)) (by simp), by decide +kernel⟩

theorem witness_RampAndPortsAct_5 :
    ∃ s : State, ∃ sg : Fin 8, ∃ t : Nat, Takes s sg ∧ (s.seg sg).pwr.coarse = some t ∧ t ≤ s.tick ∧ (s.seg sg).sealedResident = false :=
  ⟨run 0 fun g => { g with pwr := { g.pwr with coarse := some 0 } }, 0, 0, by decide +kernel⟩

theorem witness_HamperActs_0 :
    ∃ s : State, ∃ sg : Fin 8, Takes s sg :=
  ⟨run 0 id, 0, by decide +kernel⟩

def banks (n b : Nat) : State := run 0 fun g => g.setFld (F.HMP_BANK_STATUS_STATE.bank b) n
theorem witness_HamperActs_1 :
    ∃ s : State, ∃ sg : Fin 8, ∃ ag : Agent, ∃ bank : BitVec 4, Takes s sg ∧ ag.admin = true ∧ bank.toNat ≤ 11 ∧
    ((s.accessed ag).seg sg).bankOpen bank.toNat = true ∧ 5 ≤ ((List.range 12).filter fun b => ((s.accessed ag).seg sg).bankOpen b).length :=
  ⟨run 0 id, 0, sw, 11, by decide +kernel⟩

theorem witness_HamperActs_2 :
    ∃ s : State, ∃ sg : Fin 8, ∃ ag : Agent, ∃ bank : BitVec 4, Takes s sg ∧ ag.admin = true ∧ bank.toNat ≤ 11 ∧
    ((s.accessed ag).seg sg).bankState bank.toNat = 3 :=
  ⟨banks 3 11, 0, sw, 11, by decide +kernel⟩

theorem witness_HamperActs_3 :
    ∃ s : State, ∃ sg : Fin 8, ∃ bank : Fin 12, Takes s sg ∧ (s.seg sg).bankState bank = 2 ∧ (s.seg sg).hmp.movable bank = 0 ∧
    (s.seg sg).poolUsed ≤ (s.seg sg).txn.poolLines :=
  ⟨banks 2 11, 0, 11, by decide +kernel⟩

theorem witness_HamperActs_4 :
    ∃ s : State, ∃ sg : Fin 8, ∃ bank : Fin 12, Takes s sg ∧ (∀ w ∈ (s.seg sg).swSet, w.off = 0x130010 → w.v.getLsbD bank = false) :=
  ⟨run 0 id, 0, 0, by decide +kernel⟩

theorem witness_HamperActs_5 :
    ∃ s : State, ∃ sg : Fin 8, ∃ bank : Fin 12, ∃ rows : List (BitVec 15), ∃ rs : List Nat, rs = (rows.map fun r => min 512 r.toNat).eraseDups ∧
    Takes s sg ∧ (s.seg sg).bankState bank = 4 ∧ rs.length ≤ 8 :=
  ⟨banks 4 11, 0, 11, ([600, 3, 3] : List (BitVec 15)), (((([600, 3, 3] : List (BitVec 15))).map fun r => min 512 r.toNat).eraseDups), rfl,
   by decide +kernel⟩

theorem witness_HamperActs_6 :
    ∃ s : State, ∃ sg : Fin 8, ∃ bank : Fin 12, ∃ rows : List (BitVec 15), ∃ rs : List Nat, rs = (rows.map fun r => min 512 r.toNat).eraseDups ∧
    Takes s sg ∧ (s.seg sg).bankState bank = 4 ∧ 8 < rs.length :=
  ⟨banks 4 11, 0, 11, ([0, 1, 2, 3, 4, 5, 6, 7, 8] : List (BitVec 15)), (((([0, 1, 2, 3, 4, 5, 6, 7,
   8] : List (BitVec 15))).map fun r => min 512 r.toNat).eraseDups), rfl, by decide +kernel⟩

theorem witness_HamperActs_7 :
    ∃ s : State, ∃ sg : Fin 8, ∃ word : Fin 72, Takes s sg ∧ critWords.contains word.val = true :=
  ⟨run 0 id, 0, 0, by decide +kernel⟩

theorem witness_HamperActs_8 :
    ∃ s : State, ∃ sg : Fin 8, ∃ ag : Agent, ∃ v : Word, Takes s sg ∧ ag.admin = true ∧ (∀ b,
    b < 12 → v.getLsbD b = true → ((s.accessed ag).seg sg).bankState b = 3 ∨ ((s.accessed ag).seg sg).bankState b = 2 ∨ ((s.accessed ag).seg sg).hmp.usedIn b = 0) :=
  ⟨run 0 id, 0, sw, 0xFFF, by decide +kernel⟩

theorem witness_FaultUnitActs_0 :
    ∃ s : State, ∃ sg : Fin 8, ∃ ag : Agent, ∃ v : Word, Takes s sg ∧
    ((v.truncate 16 : BitVec 16) - ((s.accessed ag).seg sg).flt.head).toNat ≤ ((s.accessed ag).seg sg).flt.pendingCount :=
  ⟨run 0 fun g => { g with flt := { g.flt with tail := 3 } }, 0, sw, 3, by decide +kernel⟩

theorem witness_FaultUnitActs_1 :
    ∃ s : State, ∃ sg : Fin 8, ∃ ag : Agent, ∃ v : Word, Takes s sg ∧
    ((s.accessed ag).seg sg).flt.pendingCount < ((v.truncate 16 : BitVec 16) - ((s.accessed ag).seg sg).flt.head).toNat :=
  ⟨run 0 fun g => { g with flt := { g.flt with tail := 3 } }, 0, sw, 4, by decide +kernel⟩

theorem witness_FaultUnitActs_2 :
    ∃ s : State, ∃ sg : Fin 8, ∃ ag : Agent, Takes s sg ∧ (ag.cls = .keeper ∨ ag.cls = .steward) :=
  ⟨run 0 id, 0, sw, by decide +kernel⟩

theorem witness_FaultUnitActs_3 :
    ∃ s : State, ∃ sg : Fin 8, Takes s sg :=
  ⟨run 0 id, 0, by decide +kernel⟩

theorem witness_FaultUnitActs_4 :
    ∃ s : State, ∃ sg : Fin 8, ∃ ag : Agent, Takes s sg ∧ ag.admin = true :=
  ⟨run 0 id, 0, sw, by decide +kernel⟩

theorem witness_FaultUnitActs_5 :
    ∃ s : State, ∃ sg : Fin 8, ∃ ag : Agent, Takes s sg ∧ ag.admin = true :=
  ⟨run 0 id, 0, sw, by decide +kernel⟩

theorem witness_MailboxesAct_0 :
    ∃ s : State, ∃ sg : Fin 8, Takes s sg :=
  ⟨run 0 id, 0, by decide +kernel⟩

def full (a : Agent) : Mbx := { st := .full, sender := some a }
def mailed (a : Agent) : State := run 21 fun g => { g.setFld (F.MBX_CFG_TIMEOUT.mbx 8) 1 with mbx := g.mbx.set 8 (full a) }
theorem witness_MailboxesAct_1 :
    ∃ s : State, ∃ sg : Fin 8, ∃ ch : Fin 64, ∃ m : Mbx, ∃ a : Agent, ∃ lim : Nat, m = (s.seg sg).chan ch ∧
    lim = (s.seg sg).fld (F.MBX_CFG_TIMEOUT.mbx ch) ∧ Takes s sg ∧ m.st = .full ∧ lim ≠ 0 ∧ m.since + lim ≤ s.tick ∧ m.sender = some a ∧
    (s.seg sg).boot.update = none ∧ a.isHost = false :=
  ⟨mailed sw, 0, 8, (((mailed sw).seg (0)).chan (8)), sw, (((mailed sw).seg (0)).fld (F.MBX_CFG_TIMEOUT.mbx (8))), rfl, rfl, by decide +kernel⟩

theorem witness_MailboxesAct_2 :
    ∃ s : State, ∃ sg : Fin 8, ∃ ch : Fin 64, ∃ m : Mbx, ∃ a : Agent, ∃ lim : Nat, m = (s.seg sg).chan ch ∧
    lim = (s.seg sg).fld (F.MBX_CFG_TIMEOUT.mbx ch) ∧ Takes s sg ∧ m.st = .full ∧ lim ≠ 0 ∧ m.since + lim ≤ s.tick ∧ m.sender = some a ∧
    (s.seg sg).boot.update = none ∧ a.isHost = true :=
  ⟨mailed hd, 0, 8, (((mailed hd).seg (0)).chan (8)), hd, (((mailed hd).seg (0)).fld (F.MBX_CFG_TIMEOUT.mbx (8))), rfl, rfl, by decide +kernel⟩

theorem witness_MailboxesAct_3 :
    ∃ s : State, ∃ sg : Fin 8, ∃ ch : Fin 64, ∃ ag : Agent, Takes s sg ∧ ag.isKeeper = true ∧ (((s.accessed ag).seg sg).chan ch).st = .empty :=
  ⟨run 0 id, 0, 8, kp, by decide +kernel⟩

theorem witness_KeeperRequestsAct_0 : ∃ (s : State) (ag : Agent) (a : SpdmAns), KeeperTakes s 0 0 0x6001 ag 64 ∧ (s.seg 0).present 0 64 32 = true ∧
    s.signedBlocks "quote" ((s.seg 0).hbmBytes 64 32) s.blocks = some a ∧ (s.seg 0).present 0 (64 + 32) (Config.spdmEncode a).length = true :=
  let s (n : Nat) : State := run 0 fun g => { asked 0x6001 [] (keyed [(0, { kind := 1 })] g) with hbmSize := n }
  let a : SpdmAns := ((s 0).signedBlocks "quote" (((s 0).seg 0).hbmBytes 64 32) (s 0).blocks).getD default
  ⟨s (64 + 32 + (Config.spdmEncode a).length), hd, a, by decide +kernel, decide_eq_true (Nat.le_add_right 96 _), rfl, decide_eq_true (Nat.le_refl _)⟩
theorem witness_KeeperRequestsAct_3 :
    ∃ s : State, ∃ sg : Fin 8, ∃ ch : Fin 64, ∃ ag : Agent, ∃ ptr : Nat, ∃ n : Nat, n = memNat (s.seg sg).hbm ptr 2 ∧ KeeperTakes s sg ch 0x6003 ag ptr ∧
    (s.seg sg).present 0 ptr 2 = true ∧ n < 4096 ∧ (ag.ctx = 0 ∨ ag.ctx = BitVec.ofNat 12 n) ∧ ((∃ g ∈ s.segs,
    g.sealedCtx (BitVec.ofNat 12 n) = true) ∨ s.loading (BitVec.ofNat 12 n) ≠ []) ∧ (∀ g ∈ s.segs, g.kpr.tearing.contains (BitVec.ofNat 12 n) = false) :=
  ⟨run 0 fun g => asked 0x6003 [1, 0] (keyed [sealed1] g), 0, 0, hd, 64, (memNat ((run 0 fun g => asked 0x6003 [1,
   0] (keyed [sealed1] g)).seg (0)).hbm (64) 2), rfl, by decide +kernel⟩

theorem memNat_nil (a n : Nat) : memNat [] a n = 0 := by
  have h : ∀ k, List.foldr (fun (b : Byte) acc => acc * 256 + b.toNat) 0 (List.replicate k 0#8) = 0 := by
    intro k
    induction k <;> simp_all [List.replicate_succ]
  simpa [memNat, bytesNat, memBytes, memRead, memDefault] using h n
def guardAsk (n : Nat) : State := run 0 fun g => { asked 0x6004 [] (g.setFld F.XLT_GUARD_SIZE_HBM_REGIONS 1) with hbmSize := 64 + 8 * n }
theorem guardAsk_hbm (n : Nat) : ((guardAsk n).seg 0).hbm = [] :=
  (show ((guardAsk n).seg 0).hbm = ((guardAsk 0).seg 0).hbm from rfl).trans (by decide +kernel)
theorem guardAsk_idx (n : Nat) : ((guardAsk n).seg 0).guardIdx 0 0 = some 0 :=
  (show ((guardAsk n).seg 0).guardIdx 0 0 = ((guardAsk 0).seg 0).guardIdx 0 0 from rfl).trans (by decide +kernel)
theorem guardAsk_base (n : Nat) : ((guardAsk n).seg 0).fld F.XLT_GUARD_BASE_BASE = 0 :=
  (show ((guardAsk n).seg 0).fld F.XLT_GUARD_BASE_BASE = ((guardAsk 0).seg 0).fld F.XLT_GUARD_BASE_BASE from rfl).trans (by decide +kernel)
theorem guardAsk_entry (n : Nat) : ((guardAsk n).seg 0).guardEntry hd 0 = 0 := by
  have hi : ((guardAsk n).seg 0).guardIdx (0 / 2 ^ 58 % 4) (0 / 2 ^ 32 % 2 ^ 26 * regionSize) = some 0 :=
    guardAsk_idx n
  have hm : ((guardAsk n).seg 0).guardMem 0 = 0 := by
    simp only [Segment.guardMem, guardAsk_hbm, memNat_nil]
    split <;> rfl
  have hh : ((guardAsk n).seg 0).guardHeld 0 = true := by
    simp only [Segment.guardHeld, guardAsk_base]
    exact decide_eq_true (show 4 ≤ 64 + 8 * n by omega)
  unfold Segment.guardEntry
  simp only [hi, hm, hh]
  rfl
theorem witness_KeeperRequestsAct_4 : ∃ (s : State) (ag : Agent) (n : Nat) (es : List Nat), KeeperTakes s 0 0 0x6004 ag 64 ∧
    n = 1 + (Config.freeWord s.freeCtr).toNat ∧ (s.seg 0).present 0 64 (8 * n) = true ∧
    es = (List.range n).map (fun i => memNat (s.seg 0).hbm (64 + 8 * i) 8) ∧ ∀ e ∈ es, (s.seg 0).guardEntry ag e = 0 :=
  ⟨guardAsk (1 + (Config.freeWord 0).toNat), hd, _, _, by decide +kernel, rfl, decide_eq_true (Nat.le_refl _), rfl, by
    intro e he
    obtain ⟨i, -, rfl⟩ := List.mem_map.mp he
    rw [guardAsk_hbm, memNat_nil]
    exact guardAsk_entry _⟩
theorem witness_KeeperRequestsAct_5 :
    ∃ s : State, ∃ t : State, ∃ sg : Fin 8, ∃ ch : Fin 64, ∃ ag : Agent, ∃ ptr : Nat, ∃ b : List Byte, ∃ k : KeySlot, b = (s.seg sg).hbmBytes ptr 24 ∧ (t, rcOk) = (List.range s.n).foldl (fun (x : State × Nat) i => let (g, bad) := (x.1.seg i).armPorts s.tick (field b 2 1) (BitVec.ofNat 12 (field b 0 2)) (field b (16 + i) 1); (x.1.setSeg i g, if bad then rcState else x.2)) (s.modAll fun g => g.recordSerial (BitVec.ofNat 12 (field b 0 2)) (BitVec.ofNat 64 (field b 8 8)), rcOk) ∧ KeeperTakes s sg ch 0x6005 ag ptr ∧ (s.seg sg).present 0 ptr 24 = true ∧ field b 0 2 < 4096 ∧ field b 2 1 ≠ 0 ∧ field b 2 1 ≤ 63 ∧ zeros b 3 5 = true ∧ ((List.range 8).all fun i => field b (16 + i) 1 < 64 && (i < s.n || field b (16 + i) 1 == 0)) = true ∧ (ag.ctx = 0 ∨ ag.ctx = BitVec.ofNat 12 (field b 0 2)) ∧ ((s.seg sg).kpr.slots.find? fun k => k.kind == 4 && k.ctx == BitVec.ofNat 12 (field b 0 2)) = some k ∧ k.lost = false ∧ k.serial.toNat < field b 8 8 :=
  ⟨run 0 fun g => asked 0x6005 (natBytes 1 2 ++ natBytes 63 6 ++ natBytes 1 8 ++ [0]) (keyed [sealed1] g), (((List.range (run 0 fun g => asked 0x6005 (natBytes 1 2 ++ natBytes 63 6 ++ natBytes 1 8 ++ [0]) (keyed [sealed1] g)).n).foldl (fun (x : State × Nat) i => let (g, bad) := (x.1.seg i).armPorts (run 0 fun g => asked 0x6005 (natBytes 1 2 ++ natBytes 63 6 ++ natBytes 1 8 ++ [0]) (keyed [sealed1] g)).tick (field ((((run 0 fun g => asked 0x6005 (natBytes 1 2 ++ natBytes 63 6 ++ natBytes 1 8 ++ [0]) (keyed [sealed1] g)).seg (0)).hbmBytes (64) 24)) 2 1) (BitVec.ofNat 12 (field ((((run 0 fun g => asked 0x6005 (natBytes 1 2 ++ natBytes 63 6 ++ natBytes 1 8 ++ [0]) (keyed [sealed1] g)).seg (0)).hbmBytes (64) 24)) 0 2)) (field ((((run 0 fun g => asked 0x6005 (natBytes 1 2 ++ natBytes 63 6 ++ natBytes 1 8 ++ [0]) (keyed [sealed1] g)).seg (0)).hbmBytes (64) 24)) (16 + i) 1); (x.1.setSeg i g, if bad then rcState else x.2)) ((run 0 fun g => asked 0x6005 (natBytes 1 2 ++ natBytes 63 6 ++ natBytes 1 8 ++ [0]) (keyed [sealed1] g)).modAll fun g => g.recordSerial (BitVec.ofNat 12 (field ((((run 0 fun g => asked 0x6005 (natBytes 1 2 ++ natBytes 63 6 ++ natBytes 1 8 ++ [0]) (keyed [sealed1] g)).seg (0)).hbmBytes (64) 24)) 0 2)) (BitVec.ofNat 64 (field ((((run 0 fun g => asked 0x6005 (natBytes 1 2 ++ natBytes 63 6 ++ natBytes 1 8 ++ [0]) (keyed [sealed1] g)).seg (0)).hbmBytes (64) 24)) 8 8)), rcOk)).1), 0, 0, hd, 64, (((run 0 fun g => asked 0x6005 (natBytes 1 2 ++ natBytes 63 6 ++ natBytes 1 8 ++ [0]) (keyed [sealed1] g)).seg (0)).hbmBytes (64) 24), sealed1.2, rfl, Prod.ext rfl (by decide +kernel), by decide +kernel⟩

theorem spdm_none (n : Nat) (r : SpdmReq) : ((run 0 fun g => { asked 0x6006 [] g with hbmSize := n }).spdm true none r).2 =
    ((run 0 fun g => { asked 0x6006 [] g with hbmSize := 0 }).spdm true none r).2 := by cases r <;> rfl
theorem witness_KeeperRequestsAct_6 : ∃ (s s' : State) (ag : Agent) (len : Nat) (r : SpdmReq) (a : SpdmAns), KeeperTakes s 0 0 0x6006 ag 64 ∧ ag.isHost = true ∧
    Config.spdmDecode ((s.seg 0).hbmBytes 64 4096) = (r, len) ∧ (s.seg 0).present 0 64 len = true ∧ s.spdm true none r = (s', a) ∧
    (s.seg 0).present 0 (64 + len) (Config.spdmEncode a).length = true :=
  let s (n : Nat) : State := run 0 fun g => { asked 0x6006 [] g with hbmSize := n }
  let d := Config.spdmDecode (((s 0).seg 0).hbmBytes 64 4096)
  let a := ((s 0).spdm true none d.1).2
  let n := 64 + d.2 + (Config.spdmEncode a).length
  ⟨s n, ((s n).spdm true none d.1).1, hd, d.2, d.1, a, by decide +kernel, by decide, rfl, decide_eq_true (Nat.le_add_right _ _),
   Prod.ext rfl (spdm_none n d.1), decide_eq_true (Nat.le_refl _)⟩
def copies : State := run 0 fun g => (asked 0x6007 (natBytes 0 16 ++ natBytes 0x10000 16 ++ natBytes 4096 4 ++ [1]) (keyed [sealed1, (7, { kind := 5, ctx := 1 })] g)
  |>.put 0 0 (natBytes 0xC0000001 4)).setFld F.XLT_GUARD_SIZE_HBM_REGIONS 2
theorem witness_KeeperRequestsAct_7 :
    ∃ s : State, ∃ sg : Fin 8, ∃ ch : Fin 64, ∃ ag : Agent, ∃ ptr : Nat, ∃ addr : Nat, ∃ len : Nat, ∃ b : List Byte, ∃ material : List Byte,
    ∃ k : KeySlot, b = (s.seg sg).hbmBytes ptr 64 ∧ addr = field b 16 8 ∧ len = field b 32 4 ∧ k = (s.seg sg).keySlot 7 ∧
    KeeperTakes s sg ch 0x6007 ag ptr ∧ ag.isHost = true ∧ (s.seg sg).present 0 ptr 64 = true ∧ field b 0 8 % 4096 = 0 ∧ field b 8 8 % 16 = 0 ∧
    addr % 4096 = 0 ∧ (s.seg sg).owns addr = true ∧ len % 4096 = 0 ∧ len ≤ 2 ^ 26 ∧ field b 36 1 = 1 ∧ zeros b 37 27 = true ∧
    (s.seg sg).keyMat 7 5 = some material ∧ ((s.seg sg).ctxKey k.ctx).isSome = true ∧ (s.seg sg).present (gaSpace addr) (gaOff addr) len = true ∧
    (s.seg sg).ownsSealed k.ctx (gaSpace addr) (gaOff addr) len = true :=
  ⟨copies, 0, 0, hd, 64, (field ((((copies).seg (0)).hbmBytes (64) 64)) 16 8), (field ((((copies).seg (0)).hbmBytes (64) 64)) 32 4),
   (((copies).seg (0)).hbmBytes (64) 64), [], (((copies).seg (0)).keySlot 7), rfl, rfl, rfl, rfl, by decide +kernel⟩

theorem witness_KeeperRequestsAct_8 :
    ∃ s : State, ∃ sg : Fin 8, ∃ ch : Fin 64, ∃ ag : Agent, ∃ ptr : Nat, ∃ w : Nat, w = memNat (s.seg sg).hbm ptr 4 ∧ KeeperTakes s sg ch 0x6008 ag ptr ∧
    ag.ctx = 0 ∧ (s.seg sg).present 0 ptr 4 = true ∧ w / 2 ^ 12 % 16 = 0 ∧ w / 2 ^ 22 % 64 = 0 ∧ (s.seg sg).sealedCtx (BitVec.ofNat 12 w) = true :=
  ⟨run 0 fun g => asked 0x6008 [1, 0, 0, 0] (keyed [sealed1] g), 0, 0, hd, 64, (memNat ((run 0 fun g => asked 0x6008 [1, 0, 0,
   0] (keyed [sealed1] g)).seg (0)).hbm (64) 4), rfl, by decide +kernel⟩

theorem witness_SpdmAnswers_0 :
    ∃ s : State, ∃ ses : Session, KeeperHears s ses :=
  ⟨run 0 id, none, by decide +kernel⟩

theorem witness_SpdmAnswers_0b :
    ∃ s : State, ∃ ses : Session, KeeperHears s ses :=
  ⟨run 0 (sessions oper 0), some 0, by decide +kernel⟩

theorem witness_SpdmAnswers_1 :
    ∃ s : State, ∃ ses : Session, KeeperHears s ses ∧ (s.heard ses).spdmStage false ≠ 0 :=
  ⟨run 0 (sessions {} 1), none, by decide +kernel⟩

theorem witness_SpdmAnswers_2 :
    ∃ s : State, ∃ ses : Session, ∃ asym : BitVec 32, ∃ hash : BitVec 32, KeeperHears s ses ∧ 2 ≤ (s.heard ses).spdmStage false ∧ asym.getLsbD 7 = true ∧
    hash.getLsbD 1 = true :=
  ⟨run 0 (sessions {} 2), none, 0x80, 0x2, by decide +kernel⟩

theorem witness_SpdmAnswers_3 :
    ∃ s : State, ∃ t : State, ∃ ses : Session, ∃ slot : BitVec 8, ∃ c : List Byte, t = s.heard ses ∧ c = (t.seg 0).chain slot.toNat ∧ KeeperHears s ses ∧
    3 ≤ t.spdmStage false :=
  ⟨run 0 (sessions {} 3), ((run 0 (sessions {} 3)).heard (none)), none, (0 : BitVec 8),
   (((((run 0 (sessions {} 3)).heard (none))).seg 0).chain ((0 : BitVec 8)).toNat), rfl, rfl, by decide +kernel⟩

def talks : State := run 0 fun g => sessions {} 3 (keyed [(0, { kind := 1 })] g)
theorem witness_SpdmAnswers_3_signed : ∃ (s t : State) (k : List Byte) (b : List (Nat × List Byte)) (a : SpdmAns), KeeperHears s none ∧ t = s.heard none ∧
    3 ≤ t.spdmStage false ∧ (t.seg 0).keyMat 0 1 = some k ∧ t.blocksFor 0xFF = some b ∧ t.signedBlocks "measurements" [] b = some a :=
  ⟨talks, _, [], _, _, by decide +kernel, rfl, by decide +kernel, by decide +kernel, rfl, rfl⟩
theorem witness_SpdmAnswers_4 :
    ∃ s : State, ∃ t : State, ∃ ses : Session, ∃ k : List Byte, ∃ i : Fin 4, ∃ n : Nat, t = s.heard ses ∧ n = t.freeCtr ∧ KeeperHears s ses ∧
    3 ≤ t.spdmStage false ∧ (t.seg 0).keyMat 0 1 = some k ∧ (t.seg 0).kpr.nextSession = i.val ∧ (t.session false (some i)).map SpdmSes.opened = some false :=
  ⟨talks, ((talks).heard (none)), none, [], 0, ((((talks).heard (none))).freeCtr), rfl, rfl, by decide +kernel⟩

theorem witness_SpdmAnswers_5 :
    ∃ s : State, ∃ t : State, ∃ ses : Session, ∃ mac : List Byte, ∃ x : SpdmSes, t = s.heard ses ∧ Config.spdmFinished x.secret (x.id ++ x.random) = mac ∧
    KeeperHears s ses ∧ t.session false ses = some x ∧ x.opened = true ∧ x.secured = false :=
  ⟨run 0 (sessions { opened := true } 3), ((run 0 (sessions { opened := true } 3)).heard (some 0)), some 0,
   (Config.spdmFinished (({ opened := true } : SpdmSes)).secret ((({ opened := true } : SpdmSes)).id ++ (({ opened := true } : SpdmSes)).random)),
   ({ opened := true } : SpdmSes), rfl, rfl, by decide +kernel⟩

theorem witness_SpdmAnswers_6 :
    ∃ s : State, ∃ ses : Session, ∃ x : SpdmSes, Takes s 0 ∧ s.session ses.isNone ses = some x ∧ x.opened = true ∧ x.last + sessionLimit ≤ s.tick :=
  ⟨run (21 * 90000000000) (sessions oper 3), some 0, oper, by decide +kernel⟩

theorem witness_ManagementAnswers_0 :
    ∃ s : State, ∃ ses : Session, Takes s 0 ∧ s.sessionRefused ses = false :=
  ⟨run 0 id, none, by decide +kernel⟩

theorem witness_ManagementAnswers_1 :
    ∃ s : State, ∃ t : State, ∃ ses : Session, ∃ x : SpdmSes, t = s.heard ses ∧ KeeperHears s ses ∧ s.session false ses = some x ∧ x.opened = true ∧
    x.secured = true :=
  ⟨run 0 (sessions oper 3), ((run 0 (sessions oper 3)).heard (some 0)), some 0, oper, rfl, by decide +kernel⟩

theorem witness_ManagementAnswers_2 :
    ∃ s : State, ∃ t : State, ∃ ses : Session, ∃ x : SpdmSes, ∃ n, t = s.heard ses ∧ Obeys s ses x ∧ ([2, 3, 4,
    5].find? fun n => !(t.seg 0).operators.contains n) = some n :=
  ⟨run 0 (sessions oper 3), ((run 0 (sessions oper 3)).heard (some 0)), some 0, oper, 2, rfl, by decide +kernel⟩

theorem witness_ManagementAnswers_3 :
    ∃ s : State, ∃ t : State, ∃ ses : Session, ∃ x : SpdmSes, ∃ digest : List Byte, ∃ hit, t = s.heard ses ∧
    hit = ((t.seg 0).operators.filter fun n => (t.seg 0).keyMat n 3 == some (padTo 48 digest)) ∧ Obeys s ses x ∧ hit ≠ [] :=
  ⟨run 0 fun g => sessions oper 3 (keyed [(2, { kind := 3, material := List.replicate 48 0 })] g), ((run 0 fun g => sessions oper 3 (keyed [(2,
   { kind := 3, material := List.replicate 48 0 })] g)).heard (some 0)), some 0, oper, ([] : List Byte), ((((((run 0 fun g => sessions oper 3 (keyed [(2,
   { kind := 3, material := List.replicate 48 0 })] g)).heard (some 0))).seg 0).operators.filter fun n => ((((run 0 fun g => sessions oper 3 (keyed [(2,
   { kind := 3, material := List.replicate 48 0 })] g)).heard (some 0))).seg 0).keyMat n 3 == some (padTo 48 (([] : List Byte))))), rfl, rfl,
   by decide +kernel⟩

theorem witness_ManagementAnswers_4 :
    ∃ s : State, ∃ t : State, ∃ ses : Session, ∃ x : SpdmSes, t = s.heard ses ∧ Obeys s ses x :=
  ⟨run 0 (sessions oper 3), ((run 0 (sessions oper 3)).heard (some 0)), some 0, oper, rfl, by decide +kernel⟩

theorem witness_ManagementAnswers_5 :
    ∃ s : State, ∃ t : State, ∃ ses : Session, ∃ x : SpdmSes, t = s.heard ses ∧ Obeys s ses x ∧ t.sealedAll = [] :=
  ⟨run 0 (sessions oper 3), ((run 0 (sessions oper 3)).heard (some 0)), some 0, oper, rfl, by decide +kernel⟩

theorem witness_ManagementAnswers_6 :
    ∃ s : State, ∃ t : State, ∃ ses : Session, ∃ x : SpdmSes, t = s.heard ses ∧ Obeys s ses x :=
  ⟨run 0 (sessions oper 3), ((run 0 (sessions oper 3)).heard (some 0)), some 0, oper, rfl, by decide +kernel⟩

def opers : State := run 0 fun g => sessions oper 3 (keyed [sealed1] g)
theorem witness_ManagementAnswers_7 :
    ∃ s : State, ∃ t : State, ∃ ses : Session, ∃ x : SpdmSes, ∃ ctx, ∃ u, t = s.heard ses ∧ (t.reply .silent).askTeardown 0 ctx none = some u ∧
    Obeys s ses x :=
  ⟨opers, ((opers).heard (some 0)), some 0, oper, 1, ((((opers.heard (some 0)).reply .silent).askTeardown 0 1 none)).getD default, rfl, by rfl,
   by decide +kernel⟩

theorem witness_ManagementAnswers_8 :
    ∃ s : State, ∃ op : BitVec 2, ∃ eid : BitVec 8, Takes s 0 ∧ op.toNat < 2 ∧ eid ≠ 0 ∧ eid ≠ 0xFF :=
  ⟨run 0 id, 1, 0xFE, by decide +kernel⟩

theorem witness_ManagementAnswers_9 :
    ∃ s : State, Takes s 0 :=
  ⟨run 0 id, by decide +kernel⟩

theorem witness_TestPortActs_0 :
    ∃ s : State, ∃ sg : Fin 8, Takes s sg ∧ ((s.seg sg).stage = 8 ∨ (s.seg sg).stage = 9) :=
  ⟨run 0 (·.setStage 8), 0, by decide +kernel⟩

theorem witness_TestPortActs_0b :
    ∃ s : State, ∃ sg : Fin 8, Takes s sg ∧ ((s.seg sg).stage = 8 ∨ (s.seg sg).stage = 9) :=
  ⟨run 0 (·.setStage 9), 0, by decide +kernel⟩

theorem witness_TestPortActs_1 :
    ∃ s : State, ∃ sg : Fin 8, Takes s sg :=
  ⟨run 0 id, 0, by decide +kernel⟩

theorem witness_TestPortActs_3 :
    ∃ s : State, ∃ sg : Fin 8, ∃ code : BitVec 8, Takes s sg ∧ (s.seg sg).actsAsBypass code.toNat = true :=
  ⟨run 0 id, 0, 0x10, by decide +kernel⟩

def unlocked (j : Jtag) : State := run 0 fun g => { g.setFld F.KPR_STATE_DEBUG 1 with jtag := j }
theorem witness_TestPortActs_5 :
    ∃ s : State, ∃ sg : Fin 8, ∃ v : BitVec 72, ∃ j : Jtag, j = (s.seg sg).jtag ∧ Takes s sg ∧ (s.seg sg).ctrlOk = true ∧ scanOk v = true ∧
    v.toNat / 64 % 4 = 0 :=
  ⟨unlocked {}, 0, 0, (((unlocked {}).seg (0)).jtag), rfl, by decide +kernel⟩

theorem witness_TestPortActs_6 :
    ∃ s : State, ∃ sg : Fin 8, ∃ v : BitVec 72, ∃ j : Jtag, j = (s.seg sg).jtag ∧ Takes s sg ∧ (s.seg sg).ctrlOk = true ∧ scanOk v = true ∧
    j.busy = none ∧ v.toNat / 64 % 4 = 1 :=
  ⟨unlocked {}, 0, 0x1FFFFC40, (((unlocked {}).seg (0)).jtag), rfl, by decide +kernel⟩

theorem witness_TestPortActs_7 :
    ∃ s : State, ∃ sg : Fin 8, ∃ v : BitVec 72, ∃ j : Jtag, j = (s.seg sg).jtag ∧ Takes s sg ∧ (s.seg sg).ctrlOk = true ∧ scanOk v = true ∧
    j.busy = none ∧ v.toNat / 64 % 4 = 2 :=
  ⟨unlocked {}, 0, 0xA0, (((unlocked {}).seg (0)).jtag), rfl, by decide +kernel⟩

theorem witness_TestPortActs_8 :
    ∃ s : State, ∃ sg : Fin 8, ∃ v : BitVec 72, ∃ j : Jtag, j = (s.seg sg).jtag ∧ Takes s sg ∧ (s.seg sg).ctrlOk = true ∧ scanOk v = true ∧
    j.busy = none ∧ v.toNat / 64 % 4 = 3 :=
  ⟨unlocked {}, 0, 0xFFFFFFFFC0, (((unlocked {}).seg (0)).jtag), rfl, by decide +kernel⟩

theorem witness_TestPortActs_9 :
    ∃ s : State, ∃ t : State, ∃ sg : Fin 8, ∃ write : Bool, ∃ wide : Bool, ∃ inc : Bool, ∃ v : Word, ∃ a : Nat, ∃ ag : Agent, ∃ sz : Sz,
    a = (s.seg sg).jtag.addr ∧ ag = { cls := .jtag, seg := (s.seg sg).segId, ctx := 0 } ∧
    sz = (if wide then .w64 else if a / 4 % 2 = 1 then .hi32 else .lo32) ∧ t = (if write then s.ctlWrite sg ag a sz v else s.ctlRead sg ag a sz) ∧
    Takes s sg ∧ (s.seg sg).jtag.busy = some (write, wide, inc, v) ∧ (s.seg sg).ctlWaits a sz write = false :=
  ⟨unlocked { busy := some (false, true, true, 0), addr := 0x10 }, ((if (false) then (unlocked { busy := some (false, true, true, 0), addr := 0x10 }).ctlWrite (0) (({ cls := .jtag, seg := ((unlocked { busy := some (false, true, true, 0), addr := 0x10 }).seg (0)).segId, ctx := 0 })) ((((unlocked { busy := some (false, true, true, 0), addr := 0x10 }).seg (0)).jtag.addr)) (((if (true) then .w64 else if ((((unlocked { busy := some (false, true, true, 0), addr := 0x10 }).seg (0)).jtag.addr)) / 4 % 2 = 1 then .hi32 else .lo32))) (0) else (unlocked { busy := some (false, true, true, 0), addr := 0x10 }).ctlRead (0) (({ cls := .jtag, seg := ((unlocked { busy := some (false, true, true, 0), addr := 0x10 }).seg (0)).segId, ctx := 0 })) ((((unlocked { busy := some (false, true, true, 0), addr := 0x10 }).seg (0)).jtag.addr)) (((if (true) then .w64 else if ((((unlocked { busy := some (false, true, true, 0), addr := 0x10 }).seg (0)).jtag.addr)) / 4 % 2 = 1 then .hi32 else .lo32))))),
   0, false, true, true, 0, (((unlocked { busy := some (false, true, true, 0), addr := 0x10 }).seg (0)).jtag.addr), ({ cls := .jtag, seg := ((unlocked { busy := some (false, true, true, 0), addr := 0x10 }).seg (0)).segId, ctx := 0 }),
   ((if (true) then .w64 else if ((((unlocked { busy := some (false, true, true, 0), addr := 0x10 }).seg (0)).jtag.addr)) / 4 % 2 = 1 then .hi32 else .lo32)),
   rfl, rfl, rfl, rfl, by decide +kernel⟩

theorem row16 : (rowAt 0x10).isSome = true := by decide +kernel
theorem witness_RegistersAndSnapshots_0 :
    ∃ s : State, ∃ sg : Fin 8, ∃ ag : Agent, ∃ off : BitVec 21, ∃ sz : Sz, ∃ o : Nat, ∃ r : RegRow, rowAt o = some r ∧ (r.size = .any ∨ sz = .w64) ∧
    Takes s sg ∧ regOf off.toNat sz = some o ∧ ((s.accessed ag).seg sg).waitsClock o (r.writeCopied sz) = false :=
  ⟨run 0 id, 0, hd, 0x10, .w64, 0x10, (rowAt 0x10).get row16, (Option.some_get row16).symm, Or.inr rfl, by decide +kernel⟩

theorem witness_RegistersAndSnapshots_1 :
    ∃ s : State, ∃ sg : Fin 8, ∃ ag : Agent, ∃ off : BitVec 21, ∃ sz : Sz, ∃ o : Nat, ∃ r : RegRow, rowAt o = some r ∧ (r.size = .a64 → sz = .w64) ∧
    Takes s sg ∧ regOf off.toNat sz = some o ∧ o ≠ 0x230 ∧ ¬(ag.cls = .jtag ∧ o / 0x10000 = 4) ∧
    ((s.accessed ag).seg sg).waitsClock o (r.copied sz) = false ∧ ¬(0x30000 ≤ o ∧ o < 0x31000 ∧ o % 64 = 0x18) ∧ ¬(0x180000 ≤ o ∧ o < 0x192000 ∧
    o % 0x1000 = 0x40) :=
  ⟨run 0 id, 0, hd, 0x10, .w64, 0x10, (rowAt 0x10).get row16, (Option.some_get row16).symm, fun _ => rfl, by decide +kernel⟩

theorem witness_RegistersAndSnapshots_3 :
    ∃ s : State, ∃ sg : Fin 8, ∃ off : BitVec 21, ∃ sz : Sz, Takes s sg ∧ regOf off.toNat sz = none :=
  ⟨run 0 id, 0, 0x11, .w64, by decide +kernel⟩

theorem witness_RegistersAndSnapshots_4 :
    ∃ s : State, ∃ sg : Fin 8, ∃ off : BitVec 21, ∃ sz : Sz, ∃ o, Takes s sg ∧ regOf off.toNat sz = some o ∧ rowAt o = none ∧ o < 0x200000 :=
  ⟨run 0 id, 0, 0x1FFFF8, .w64, 0x1FFFF8, by decide +kernel⟩

theorem witness_RegistersAndSnapshots_5 :
    ∃ s : State, ∃ sg : Fin 8, ∃ ag : Agent, Takes s sg ∧ ag.admin = true :=
  ⟨run 0 id, 0, hd, by decide +kernel⟩

theorem witness_RegistersAndSnapshots_6 :
    ∃ s : State, ∃ sg : Fin 8, ∃ n : Nat, n = (s.seg sg).fld F.TEL_CTRL_PERIOD ∧ Takes s sg ∧ n ≠ 0 ∧ s.tick % n = 0 ∧
    (s.seg sg).tel.periodTick ≠ some s.tick :=
  ⟨run 21 fun g => g.setFld F.TEL_CTRL_PERIOD 1, 0, (((run 21 fun g => g.setFld F.TEL_CTRL_PERIOD 1).seg (0)).fld F.TEL_CTRL_PERIOD), rfl,
   by decide +kernel⟩

theorem witness_WakeTimersFire_0 :
    ∃ s : State, ∃ sg : Fin 8, Takes s sg ∧ (s.seg sg).swWrote F.PWR_TIMER_K_TICK.off = none ∧ (s.seg sg).fld F.PWR_TIMER_K_TICK ≠ 0 ∧
    (s.seg sg).fld F.PWR_TIMER_K_TICK ≤ s.tick :=
  ⟨run 21 fun g => g.setFld F.PWR_TIMER_K_TICK 1, 0, by decide +kernel⟩

theorem witness_WakeTimersFire_2 :
    ∃ s : State, ∃ sg : Fin 8, Takes s sg ∧ (s.seg sg).swWrote F.PWR_TIMER_S_TICK.off = none ∧ (s.seg sg).fld F.PWR_TIMER_S_TICK ≠ 0 ∧
    (s.seg sg).fld F.PWR_TIMER_S_TICK ≤ s.tick :=
  ⟨run 21 fun g => g.setFld F.PWR_TIMER_S_TICK 1, 0, by decide +kernel⟩

theorem witness_WakeTimersFire_1 :
    ∃ s : State, ∃ sg : Fin 8, Takes s sg ∧ (s.seg sg).swWrote F.PWR_TIMER_K_TICK.off = none ∧
    ((s.seg sg).fld F.PWR_TIMER_K_TICK = 0 ∨ s.tick < (s.seg sg).fld F.PWR_TIMER_K_TICK) :=
  ⟨run 20 fun g => g.setFld F.PWR_TIMER_K_TICK 1, 0, by decide +kernel⟩

theorem witness_WakeTimersFire_3 :
    ∃ s : State, ∃ sg : Fin 8, Takes s sg ∧ (s.seg sg).swWrote F.PWR_TIMER_S_TICK.off = none ∧
    ((s.seg sg).fld F.PWR_TIMER_S_TICK = 0 ∨ s.tick < (s.seg sg).fld F.PWR_TIMER_S_TICK) :=
  ⟨run 20 fun g => g.setFld F.PWR_TIMER_S_TICK 1, 0, by decide +kernel⟩

def cutLately : State := run (21 * 499) fun g => { g.setFld F.RTE_THROTTLE_CTRL_ENABLE 1 with rte := { g.rte with occMax := 1000, lastCut := some 0 } }
def cutG : Segment := (cutLately.seg 0).rollBudget cutLately.time
theorem witness_ThrottleHoldsRate_0 :
    ∃ s : State, ∃ sg : Fin 8, ∃ g : Segment, ∃ hist : List (Nat × Nat), ∃ occNow : Nat, ∃ cut : Nat, Takes s sg ∧ g = (s.seg sg).rollBudget s.time ∧
    g.rte.updateAt + 50 ≤ s.tick ∧ hist = ((g.rte.defl, g.rte.asgn) :: g.rte.hist).take 10 ∧ occNow = g.ports.foldl (fun n p => max n p.land.length) 0 ∧
    (max 1 (g.fld F.RTE_THROTTLE_CTRL_OCC_LIMIT) < max g.rte.occMax occNow ∨ 0 < hist.foldl (fun n x => n + x.2) 0 ∧
    g.fld F.RTE_THROTTLE_CTRL_DEFL_LIMIT * hist.foldl (fun n x => n + x.2) 0 < hist.foldl (fun n x => n + x.1) 0 * 256) ∧ g.rte.lastCut = some cut ∧
    s.tick - cut < 500 :=
  ⟨cutLately, 0, cutG, [(0, 0)], 0, 0, by decide +kernel⟩

theorem witness_BlocksOfSpecialLanes_0 :
    ∃ code : Nat, ∃ lanes : List (Option FVal), ∃ cf : FFmt, (∃ v, some v ∈ lanes ∧ v.isFinite = false) ∧ isBlock code = true ∧ lanes.length ≤ 32 ∧
    (cf = .b32 ∨ cf = .bf16) :=
  ⟨0x15, [some (.inf true)], .bf16, ⟨.inf true, by simp, rfl⟩, by decide +kernel⟩

theorem witness_BlocksOfSpecialLanes_2 :
    ∃ code : Nat, ∃ lanes : List (Option FVal), ∃ cf : FFmt, (∀ v, some v ∈ lanes → ∃ e, v = .fin true 0 e) ∧ isBlock code = true ∧ lanes.length ≤ 32 ∧
    (cf = .b32 ∨ cf = .bf16) :=
  ⟨0x10, [some (.fin true 0 0), none], .b32, by intro v h; simp at h; exact ⟨0, h⟩, by decide +kernel⟩

theorem witness_ZerosKeepTheirSigns_0 :
    ∃ d : CDesc, ∃ vals : List Nat, d.redop = 2 ∧ (d.carryF = 1 ∨ d.carryF = 3) ∧ (∀ v ∈ vals, v = 0 ∨ v = 2 ^ (d.cf.eb + d.cf.mb)) ∧ 0 ∈ vals :=
  ⟨{ redop := 2, carryF := 1 }, [0, 2147483648], by decide +kernel⟩

theorem witness_ZerosKeepTheirSigns_1 :
    ∃ vals : List Word, vals ≠ [] ∧ (∀ v ∈ vals, v &&& 0xFFFFFFFF = 0x80000000) :=
  ⟨[0x80000000, 0xFFFFFFFF80000000], by simp, by simp⟩

theorem witness_StoreThenLoad : ∃ (s : State) (f : IFields), Executes s 0 16 f ∧ Settled s 0 16 ∧ memWf ((s.seg 0).core 16).lb = true ∧
    (((s.seg 0).core 16).ea f).toNat % 8 = 0 ∧ (((s.seg 0).core 16).ea f).toNat + 8 ≤ 0x10000 :=
  ⟨rk id, fi 0 0 1 0xFFF8, by decide +kernel⟩
theorem witness_CourierWordsRoundTrip_0 :
    ∃ i : Instr, ∃ w : Word, ∃ op : BitVec 8, ∃ x : Fetched, i.opcode = some (op, x) ∧ encodeCourier i = some w :=
  ⟨.add 0 16 (fi 31 31 31 (-1)), 0x01FFFE1FFFFFFFFF, 0x01, { sg := 0, c := 16, f := fi 31 31 31 (-1) }, by decide +kernel⟩

theorem witness_CourierWordsRoundTrip_1 :
    ∃ i : Instr, ∃ w : Word, ∃ sg : Fin 8, ∃ c : Fin 18, ∃ st : DpmStatus, decodeCourier sg c st w = some i :=
  ⟨.put 0 0 (fi 1 0 5 0x120), 0x51080A0000000120, 0, 0, none, by decide +kernel⟩

theorem witness_MemoriesStayCanonical : ∃ s t : State, s.memOk = true ∧ step s = .next t :=
  ⟨State.reset, (match step State.reset with | .next t => t | _ => State.reset), by decide +kernel, eq_of_same (by decide +kernel)⟩
def bundleReq : List Byte := natBytes 0x20000 8 ++ natBytes 320 8 ++ natBytes 1 2 ++ natBytes 1 2 ++ natBytes 0 20 ++ natBytes 0x200000 8 ++ natBytes 4 8 ++ natBytes 0x200200 8 ++ natBytes 0x200000 8 ++ natBytes 0x200000 8
def sealing : State := run 0 fun g => (asked 0x6002 bundleReq g).put 0 0x20000 (natBytes 1 2 ++ natBytes 1 2 ++ natBytes 16 4)
def orNone (x : Except Nat SealReq) : SealReq := match x with | .ok r => r | .error _ => default
def isGood (x : Except Nat SealReq) : Bool := match x with | .ok _ => true | .error _ => false
theorem ok_of (x : Except Nat SealReq) (h : isGood x = true) : x = .ok (orNone x) := by
  cases x with
  | ok r => rfl
  | error e => exact absurd h (by simp [isGood])
theorem ok_or (x : Except Nat (List Byte)) : (∃ e, x = .error e) ∨ ∃ k, x = .ok k := by cases x <;> simp
theorem witness_KeeperRequestsAct_1 : ∃ (s : State) (ag : Agent) (r : SealReq), KeeperTakes s 0 0 0x6002 ag 64 ∧
    (ag.ctx = 0 ∨ ag.ctx = BitVec.ofNat 12 (memNat (s.seg 0).hbm (64 + 16) 2)) ∧ s.sealReq 0 64 = .ok r ∧ s.ctxBusy r.ctx = false ∧
    (s.seg 0).straps.secure = true ∧ (∀ g ∈ s.segs, g.debugOn = false) ∧ ((∃ e, s.bundleKey r = .error e) ∨ ∃ key, s.bundleKey r = .ok key) :=
  ⟨sealing, hd, orNone (sealing.sealReq 0 64), by decide +kernel, by decide +kernel, ok_of (sealing.sealReq 0 64) (by decide +kernel), by decide +kernel, by decide +kernel, by decide +kernel,
   ok_or _⟩
def bridgeIn : State := run 0 fun g => g.modBend 0 fun e => { e with st := .up, landing := [{ flit := fl 0 0 [] }] }
def bridgeIn1 : Presented := { port := 6, idx := 0, slot := 6, bf := { flit := fl 0 0 [] } }
theorem witness_BridgeLinksAct_1 :
    ∃ s : State, ∃ sg : Fin 8, ∃ b : Fin 2, ∃ flips : List (Fin 38 × Fin 32), ∃ x : Presented, receiveFlit x.bf.flit flips = none ∧ Takes s sg ∧
    ((s.seg sg).newCycle s.time).landable s.time = some x ∧ x.port = 6 + b.val ∧ flips ≠ [] :=
  ⟨bridgeIn, 0, 0, [(0, 0)], bridgeIn1, Option.not_isSome_iff_eq_none.1 (by rw [receiveFlit_isSome]; decide +kernel), by decide +kernel⟩

def evenFlips : Flit := (receiveFlit bridgeIn1.bf.flit [(0, 0), (0, 1)]).get (by rw [receiveFlit_isSome]; decide +kernel)
theorem witness_BridgeLinksAct_2 :
    ∃ s : State, ∃ sg : Fin 8, ∃ b : Fin 2, ∃ flips : List (Fin 38 × Fin 32), ∃ x : Presented, ∃ f, receiveFlit x.bf.flit flips = some f ∧ Takes s sg ∧
    ((s.seg sg).newCycle s.time).landable s.time = some x ∧ x.port = 6 + b.val ∧ flips ≠ [] :=
  ⟨bridgeIn, 0, 0, [(0, 0), (0, 1)], bridgeIn1, evenFlips, (Option.some_get _).symm, by decide +kernel⟩

theorem witness_BridgeLinksAct_7 :
    ∃ s : State, ∃ sg : Fin 8, ∃ b : Fin 2, ∃ sg' : Nat, ∃ b' : Nat, ∃ repaired, Takes s sg ∧ bridgePartner s.n sg b = (sg', b') ∧
    (s.seg sg).boot.pllAt ≠ none ∧ (s.seg sg').boot.pllAt ≠ none ∧ ((s.seg sg).bend b).readyUp s.tick = true ∧
    ((s.seg sg').bend b').readyUp s.tick = true ∧ (repaired = false ∨ ((s.seg sg).bend b).goingDown = true ∨ ((s.seg sg').bend b').goingDown = true) :=
  ⟨(run 0 id).mod 1 live, 0, 0, 1, 1, false, by decide +kernel⟩

def unguardedReq (l : Nat) : Req := { rq none none none with unguarded := true, line := l }
theorem witness_RequesterActs_0 :
    ∃ s : State, ∃ sg : Fin 8, ∃ req : Nat, ∃ r : Req, Takes s sg ∧ (s.seg sg).req? req = some r ∧ r.unguarded = true :=
  ⟨run 0 (asks (unguardedReq 3)), 0, 3, unguardedReq 3, by decide +kernel⟩

theorem witness_HomeServesRequests_8 :
    ∃ s : State, ∃ sg : Fin 8, ∃ region : BitVec 17, ∃ st, ∃ r, ∃ rest, Takes s sg ∧ st ≠ 0 ∧ (s.seg sg).guardWaiter region.toNat = none ∧
    (s.seg sg).directWaiters region.toNat = r :: rest :=
  ⟨run 0 fun g => guarded (asks (unguardedReq 3) g), 0, 0, 1, unguardedReq 3, [], by decide +kernel⟩

theorem witness_SpecialAndControlInstructions_3 :
    ∃ s : State, ∃ sg : Fin 8, ∃ c : Fin 18, ∃ f : IFields, Executes s sg c f ∧ 16 ≤ c.val ∧ (((s.seg sg).core c).ea f).toNat % 8 ≠ 0 :=
  ⟨rk fun k => { k with g := gs 1 0 0 }, 0, 16, fi 2 1 0 0, by decide +kernel⟩

theorem witness_WaitAndTicketInstructions_0 :
    ∃ s : State, ∃ sg : Fin 8, ∃ c : Fin 18, ∃ f : IFields, Executes s sg c f ∧ 7 < f.d.toNat :=
  ⟨rc id, 0, 0, fi 8 0 0 0, by decide +kernel⟩

theorem witness_WaitAndTicketInstructions_1 :
    ∃ s : State, ∃ sg : Fin 8, ∃ c : Fin 18, ∃ f : IFields, Executes s sg c f ∧ f.d.toNat ≤ 7 ∧ (((s.seg sg).core c).r f.a).toNat % 8 ≠ 0 :=
  ⟨rc fun k => { k with g := gs 1 0 0 }, 0, 0, fi 7 1 0 0, by decide +kernel⟩

theorem witness_WaitAndTicketInstructions_2 :
    ∃ s : State, ∃ sg : Fin 8, ∃ c : Fin 18, ∃ f : IFields, ∃ st', Executes s sg c f ∧ f.d.toNat ≤ 7 ∧ (((s.seg sg).core c).r f.a).toNat % 8 = 0 ∧
    (s.seg sg).translate ((s.seg sg).core c).ctx (((s.seg sg).core c).r f.a).toNat 8 1 [] = .bad st' :=
  ⟨rc id fun g => { mapped g with xlt := { (mapped g).xlt with cache := [{ aRange with perm := 2 }] } }, 0, 0, fi 7 0 0 0, csDenied, by decide +kernel⟩

theorem witness_WaitAndTicketInstructions_3 :
    ∃ s : State, ∃ sg : Fin 8, ∃ c : Fin 18, ∃ f : IFields, ∃ va, Executes s sg c f ∧ f.d.toNat ≤ 7 ∧ (((s.seg sg).core c).r f.a).toNat % 8 = 0 ∧
    (s.seg sg).translate ((s.seg sg).core c).ctx (((s.seg sg).core c).r f.a).toNat 8 1 [] = .miss va :=
  ⟨rc id fun g => { g with xlt := { g.xlt with sysValid := true } }, 0, 0, fi 7 0 0 0, 0, by decide +kernel⟩

def farRange : RangeEntry := { aRange with target := gaMake 1 0 0 0 }
theorem witness_WaitAndTicketInstructions_4 :
    ∃ s : State, ∃ sg : Fin 8, ∃ c : Fin 18, ∃ f : IFields, ∃ ps, ∃ used, Executes s sg c f ∧ f.d.toNat ≤ 7 ∧ (((s.seg sg).core c).r f.a).toNat % 8 = 0 ∧
    (s.seg sg).translate ((s.seg sg).core c).ctx (((s.seg sg).core c).r f.a).toNat 8 1 [] = .ok ps used ∧ ps.all (s.seg sg).homedHere = false :=
  ⟨rc id fun g => { mapped g with xlt := { (mapped g).xlt with cache := [farRange] } }, 0, 0, fi 7 0 0 0, [{ pc 0 8 with ga := gaMake 1 0 0 0 }],
   [farRange], by decide +kernel⟩

theorem witness_WaitAndTicketInstructions_6 :
    ∃ s : State, ∃ sg : Fin 8, ∃ c : Fin 18, ∃ f : IFields, Executes s sg c f ∧ f.d.toNat ≤ 7 ∧
    waiteMet ((s.seg sg).slots ((s.seg sg).ownerOf c)) (f.imm.truncate 16) (f.imm.getLsbD 16) = true :=
  ⟨rc id, 0, 0, fi 7 0 0 1, by decide +kernel⟩

theorem witness_WaitAndTicketInstructions_8 :
    ∃ s : State, ∃ sg : Fin 8, ∃ c : Fin 18, ∃ f : IFields, Executes s sg c f ∧ f.imm.toNat % 4 ≠ 3 ∧
    (s.seg sg).fenceSet ((s.seg sg).ownerOf c) (f.imm.toNat % 4) = [] :=
  ⟨rc id, 0, 0, fi 0 0 0 0, by decide +kernel⟩

theorem witness_WaitAndTicketInstructions_9 :
    ∃ s : State, ∃ sg : Fin 8, ∃ c : Fin 18, ∃ f : IFields, Executes s sg c f ∧ f.imm.toNat % 4 ≠ 3 ∧
    (s.seg sg).fenceSet ((s.seg sg).ownerOf c) (f.imm.toNat % 4) ≠ [] :=
  ⟨copying, 0, 0, fi 0 0 0 0, by decide +kernel⟩

theorem witness_WaitAndTicketInstructions_13 :
    ∃ s : State, ∃ sg : Fin 8, ∃ c : Fin 18, ∃ f : IFields, ∃ code, ∃ info, Executes s sg c f ∧
    descExc ((s.seg sg).core c) (((s.seg sg).core c).descAt f) 128 = some (code, info) :=
  ⟨rc fun k => { k with g := gs 1 0 0 }, 0, 0, fi 1 1 0 0, 3, 1, by decide +kernel⟩

theorem witness_WaitAndTicketInstructions_14 :
    ∃ s : State, ∃ sg : Fin 8, ∃ c : Fin 18, ∃ f : IFields, Executes s sg c f ∧ descExc ((s.seg sg).core c) (((s.seg sg).core c).descAt f) 128 = none ∧
    (((s.seg sg).core c).ticket = none ∨ (s.seg sg).freeEntry = none ∨ (s.seg sg).ticketQuota ≤ ((s.seg sg).ticketsOf ((s.seg sg).core c).ctx).length) :=
  ⟨run 0 fun g => ({ g with trl := { g.trl with trails := [aTrail] } }).modCore 0 fun k => { k with st := .running, pc := 0x10000, codeLimit := 0x20000 },
   0, 0, fi 1 0 0 0, by decide +kernel⟩

theorem witness_WaitAndTicketInstructions_16 :
    ∃ s : State, ∃ sg : Fin 8, ∃ c : Fin 18, ∃ f : IFields, ∃ b : List Byte, b = memBytes ((s.seg sg).core c).lb (((s.seg sg).core c).descAt f).toNat 32 ∧
    Executes s sg c f ∧ badSlot f = false ∧ c.val < 16 ∧ (s.seg sg).privileged ((s.seg sg).core c).ctx = false :=
  ⟨rc fun k => { k with ctx := 1 }, 0, 0, fi 0 0 0 0,
   (memBytes (((rc fun k => { k with ctx := 1 }).seg (0)).core (0)).lb ((((rc fun k => { k with ctx := 1 }).seg (0)).core (0)).descAt (fi 0 0 0 0)).toNat 32),
   rfl, by decide +kernel⟩

theorem witness_WaitAndTicketInstructions_18 :
    ∃ s : State, ∃ sg : Fin 8, ∃ c : Fin 18, ∃ f : IFields, ∃ b : List Byte, b = memBytes ((s.seg sg).core c).lb (((s.seg sg).core c).descAt f).toNat 32 ∧
    Executes s sg c f ∧ badSlot f = false ∧ (16 ≤ c.val ∨ ((s.seg sg).privileged ((s.seg sg).core c).ctx = true ∧
    field b 16 2 = ((s.seg sg).core c).ctx.toNat)) ∧ descExc ((s.seg sg).core c) (((s.seg sg).core c).descAt f) 32 = none ∧
    (s.seg sg).slotExc ((s.seg sg).ownerOf c) (slotOf f) = none ∧ badRecall b = false ∧ (s.seg sg).storeFull = false ∧ slotOf f = none :=
  ⟨rk fun k => { k with lb := lb [(0, 8), (0x10000, 8)] }, 0, 16, fi 31 0 0 0, (memBytes (((rk fun k => { k with lb := lb [(0, 8), (0x10000, 8)] }).seg (0)).core (16)).lb ((((rk fun k => { k with lb := lb [(0, 8), (0x10000, 8)] }).seg (0)).core (16)).descAt (fi 31 0 0 0)).toNat 32),
   rfl, by decide +kernel⟩

theorem witness_WaitAndTicketInstructions_19 :
    ∃ s : State, ∃ sg : Fin 8, ∃ c : Fin 18, ∃ f : IFields, Executes s sg c f ∧ 15 < f.d.toNat :=
  ⟨rc id, 0, 0, fi 16 0 0 0, by decide +kernel⟩

theorem witness_WaitAndTicketInstructions_21 :
    ∃ s : State, ∃ sg : Fin 8, ∃ c : Fin 18, ∃ f : IFields, (((s.seg sg).slot ((s.seg sg).ownerOf c) f.d.toNat).st ≠ .busy ∨ (∀ n o,
    ((s.seg sg).slot ((s.seg sg).ownerOf c) f.d.toNat).kind ≠ .cjoin true n o)) ∧ Executes s sg c f ∧ f.d.toNat ≤ 15 :=
  ⟨rc id, 0, 0, fi 0 0 0 0, Or.inl (by decide +kernel), by decide +kernel⟩

theorem witness_MovesAndAtomicsIssue_4 :
    ∃ s : State, ∃ sg : Fin 8, ∃ c : Fin 18, ∃ f : IFields, ∃ k : Core, ∃ sides : List (List Piece), ∃ used : List RangeEntry, k = (s.seg sg).core c ∧
    Executes s sg c f ∧ badSlot f = false ∧ (s.seg sg).slotExc ((s.seg sg).ownerOf c) (slotOf f) = none ∧ (s.seg sg).storeFull = false ∧
    (k.r f.a).toNat % 8 = 0 ∧ judge none [(s.seg sg).translate k.ctx (k.r f.a).toNat 8 3 []] = .ok sides used ∧ f.imm.getLsbD 16 = true ∧
    (s.seg sg).fenceSet ((s.seg sg).ownerOf c) 1 ≠ [] :=
  ⟨rc id fun g => mapped (described aCopy g), 0, 0, fi 1 0 0 0x10000, (((rc id fun g => mapped (described aCopy g)).seg (0)).core (0)), [[pc 0 8]],
   [aRange], rfl, by decide +kernel⟩

theorem witness_CancelsAndRings_9 :
    ∃ s : State, ∃ sg : Fin 8, ∃ ring : Nat, ∃ r, Takes s sg ∧ 4128 ≤ ring ∧ (s.seg sg).xlt.resident.find? (fun r => r.slot == ring - 4128) = some r :=
  ⟨run 0 (resident aResident), 0, 4128, aResident, by decide +kernel⟩

theorem witness_CancelsAndRings_11 :
    ∃ s : State, ∃ sg : Fin 8, ∃ ring : Nat, ∃ t0 : Nat, ∃ r, Takes s sg ∧ 4128 ≤ ring ∧
    (s.seg sg).xlt.resident.find? (fun r => r.slot == ring - 4128) = some r ∧ r.mig.fullSince = some t0 ∧ r.mig.fullFault = false ∧ t0 + 50000 ≤ s.tick :=
  ⟨run (21 * 50000) (resident { aResident with mig := { fullSince := some 0 } }), 0, 4128, 0, { aResident with mig := { fullSince := some 0 } },
   by decide +kernel⟩

theorem witness_GroupsOpenAndClose_7 :
    ∃ s : State, ∃ sg : Fin 8, ∃ grp : BitVec 12, ∃ x : Grp, ∃ op : COp, ∃ rest : List COp, ∃ f : BitVec 32 × BitVec 4, Takes s sg ∧
    (s.seg sg).grp? grp = some x ∧ x.queue = op :: rest ∧ x.head = none ∧ (x.st = .ready ∨ x.st = .active) ∧
    (x.future.find? fun f => f.1 == x.serial + 1) = some f :=
  ⟨run 0 (grouped { aGrp with queue := [aOp], future := [(aGrp.serial + 1, 3)] }), 0, 5, { aGrp with queue := [aOp], future := [(aGrp.serial + 1, 3)] },
   aOp, [], (aGrp.serial + 1, 3), by decide +kernel⟩

theorem witness_ChunksMove_4 :
    ∃ s : State, ∃ sg : Fin 8, ∃ g : Segment, ∃ i, ∃ e, Takes s sg ∧ ((s.seg sg).rte.ejX.findIdx? fun e => e.flit.kind == 0x19) = some i ∧
    (s.seg sg).takeAt i = some (e, g) ∧ g.decidedWith e = true :=
  ⟨run 0 (ejected [colFl 0x19 [], colFl 0x1E [0, 0, 0, 0, 0, 1]]), 0, (run 0 (ejected [colFl 0x1E [0, 0, 0, 0, 0, 1]])).seg 0, 0,
   { flit := colFl 0x19 [], at_ := 0 }, by decide +kernel⟩

theorem witness_ChunksMove_10 :
    ∃ s : State, ∃ sg : Fin 8, ∃ f : Flit, ∃ g : Segment, ∃ x : Grp, ∃ d : Nat, ∃ ser : BitVec 32, ∃ t : Nat, ∃ c : Nat, ∃ q, Takes s sg ∧
    (g.grp? (colGroup f)).filter Grp.takesFlits = some x ∧ x.answerOf f = some (d, ser, t, c) ∧ (s.seg sg).takeX [0x1B] = some (f, g) ∧
    (x.sent.find? fun q => q.answers (d, ser, t, c) || (q.dst == d && q.serial == ser && q.c == c)) = some q ∧ field f.payload 9 1 = 0 ∧ q.naks < 2 :=
  ⟨sent [aHeld] [colFl 0x1B []], 0, colFl 0x1B [], (sent [aHeld] []).seg 0, busy aHead (fun x => { x with sent := [aHeld] }), 1, 0, 0, 0, aHeld,
   by decide +kernel⟩

def decided (e : List Flit) : State := run 0 fun g => ejected e (grouped (busy aHead fun x => { x with sent := [aHeld], held := some 3 }) g)
theorem witness_ChunksMove_11 :
    ∃ s : State, ∃ sg : Fin 8, ∃ f : Flit, ∃ g : Segment, ∃ x : Grp, ∃ d : Nat, ∃ ser : BitVec 32, ∃ t : Nat, ∃ c : Nat, ∃ q, Takes s sg ∧
    (g.grp? (colGroup f)).filter Grp.takesFlits = some x ∧ x.answerOf f = some (d, ser, t, c) ∧ (s.seg sg).takeX [0x1B] = some (f, g) ∧
    (x.sent.find? fun q => q.answers (d, ser, t, c) || (q.dst == d && q.serial == ser && q.c == c)) = some q ∧ field f.payload 9 1 ≠ 0 ∧ x.held ≠ none ∧
    q.serial = x.serial :=
  ⟨decided [colFl 0x1B [0, 0, 0, 0, 0, 0, 0, 0, 0, 1]], 0, colFl 0x1B [0, 0, 0, 0, 0, 0, 0, 0, 0, 1], (decided []).seg 0,
   busy aHead (fun x => { x with sent := [aHeld], held := some 3 }), 1, 0, 0, 0, aHeld, by decide +kernel⟩

theorem witness_ChunksMove_19 :
    ∃ s : State, ∃ sg : Fin 8, ∃ f : Flit, ∃ g : Segment, ∃ x : Grp, ∃ serial : BitVec 32, ∃ st : BitVec 4, Takes s sg ∧ (s.seg sg).takeAbort = some (f,
    g) ∧ (g.grp? (colGroup f)).filter Grp.takesFlits = some x ∧ serial = BitVec.ofNat 32 (field f.payload 0 4) ∧
    st = BitVec.ofNat 4 (field f.payload 4 1) ∧ (field f.payload 5 1 = 0 → x.single.root = x.rank) ∧ x.serialAt serial = .current ∧ x.held ≠ none :=
  ⟨decided [colFl 0x1E [0, 0, 0, 0, 7]], 0, colFl 0x1E [0, 0, 0, 0, 7], (decided []).seg 0, busy aHead (fun x => { x with sent := [aHeld], held := some 3 }),
   0, 7, by decide +kernel⟩

def torn : State := evicts.mod 0 fun g => { g with kpr := { g.kpr with tearing := [1] } }
theorem witness_ContextsAndRanges_5 :
    ∃ s : State, ∃ t : State, ∃ sg : Fin 8, ∃ c : BitVec 12, s.evictEnd sg = (t, some c) ∧ Takes s sg ∧ (t.seg sg).kpr.tearing.contains c = true ∧
    (((t.sealFinish sg c).sealSettle).seg sg).boot.scrub = none :=
  ⟨torn, (torn.evictEnd 0).1, 0, 1, Prod.ext rfl (by decide +kernel), by decide +kernel⟩

theorem witness_ContextsAndRanges_8 :
    ∃ s : State, ∃ sg : Fin 8, ∃ c : Fin 18, ∃ x : Stall, ∃ va : Nat, ∃ e, Takes s sg ∧ ((s.seg sg).core c).wait = some (.issue x) ∧ x.asks = false ∧
    s.missOf sg c x = some va ∧ e ≠ 0 :=
  ⟨missing 1, 0, 0, { op := 0x61, f := fi 7 0 0 0, start := 0 }, 0, 1, by decide +kernel⟩

theorem witness_RouterActs_1 :
    ∃ s : State, ∃ sg : Fin 8, ∃ port : Fin 8, ∃ g : Segment, ∃ x : Presented, ∃ sg', ∃ b',
    g = (((s.seg sg).newCycle s.time).bridgeLookup s.time 0).bridgeLookup s.time 1 ∧ Takes s sg ∧ g.landable s.time = some x ∧ x.port = port.val ∧
    6 ≤ x.port ∧ bridgePartner s.n sg (x.port - 6) = (sg', b') :=
  ⟨bridgeIn, 0, 6, (((((bridgeIn).seg (0)).newCycle (bridgeIn).time).bridgeLookup (bridgeIn).time 0).bridgeLookup (bridgeIn).time 1), bridgeIn1, 1, 1,
   rfl, by decide +kernel⟩

def kprState : RegRow := (rowAt 0x40000).get (by decide +kernel)
theorem witness_RegistersAndSnapshots_2 :
    ∃ s : State, ∃ sg : Fin 8, ∃ ag : Agent, ∃ off : BitVec 21, ∃ sz : Sz, ∃ o : Nat, ∃ r : RegRow, rowAt o = some r ∧ (r.size = .any ∨ sz = .w64) ∧
    Takes s sg ∧ regOf off.toNat sz = some o ∧ ((s.accessed ag).seg sg).waitsClock o (r.writeCopied sz) = true :=
  ⟨die0 id, 0, hd, 0x40000, .w64, 0x40000, kprState, (Option.some_get _).symm, Or.inl (by decide +kernel), by decide +kernel⟩

theorem witness_WakeTimersFire_4 :
    ∃ s : State, ∃ sg : Fin 8, ∃ w, Takes s sg ∧ (s.seg sg).swWrote F.PWR_TIMER_K_TICK.off = some w ∧ w.old ≠ 0 ∧ w.old.toNat ≤ s.tick :=
  ⟨run 21 fun g => { g with swSet := [⟨F.PWR_TIMER_K_TICK.off, 1, 0, 0, 0⟩] }, 0, ⟨F.PWR_TIMER_K_TICK.off, 1, 0, 0, 0⟩, by decide +kernel⟩

theorem witness_WakeTimersFire_5 :
    ∃ s : State, ∃ sg : Fin 8, ∃ w, Takes s sg ∧ (s.seg sg).swWrote F.PWR_TIMER_S_TICK.off = some w ∧ w.old ≠ 0 ∧ w.old.toNat ≤ s.tick :=
  ⟨run 21 fun g => { g with swSet := [⟨F.PWR_TIMER_S_TICK.off, 1, 0, 0, 0⟩] }, 0, ⟨F.PWR_TIMER_S_TICK.off, 1, 0, 0, 0⟩, by decide +kernel⟩

theorem witness_CompletionOfEach_0 :
    ∃ l : List Straps, 1 ≤ l.length ∧ l.length ≤ 8 :=
  ⟨[resetStraps 0], by decide +kernel⟩

theorem witness_CompletionOfEach_1 :
    ∃ s : State, ∃ sg : Fin 8, ∃ c : Fin 18, ∃ f : IFields, ∃ g : Segment, ∃ k : Core, ∃ p, ∃ used, g = s.seg sg ∧ k = g.core c ∧ Executes s sg c f ∧
    f.d.toNat ≤ 7 ∧ (k.r f.a).toNat % 8 = 0 ∧ g.translate k.ctx (k.r f.a).toNat 8 1 [] = .ok [p] used ∧ g.homedHere p = true ∧
    (k.r f.b).toNat ≤ bytesNat ((g.touch used).gaBytes p.ga 8) :=
  ⟨rc id mapped, 0, 0, fi 7 0 0 0, ((rc id mapped).seg (0)), ((((rc id mapped).seg (0))).core (0)), pc 0 8, [aRange], rfl, rfl, by decide +kernel⟩

theorem witness_CompletionOfEach_2 :
    ∃ s : State, ∃ sg : Fin 8, ∃ c : Fin 18, ∃ f : IFields, ∃ g : Segment, ∃ k : Core, g = s.seg sg ∧ k = g.core c ∧ Executes s sg c f ∧ f.d.toNat ≤ 7 ∧
    waiteMet (g.slots (g.ownerOf c)) (f.imm.truncate 16) (f.imm.getLsbD 16) = true :=
  ⟨rc id, 0, 0, fi 7 0 0 1, ((rc id).seg (0)), ((((rc id).seg (0))).core (0)), rfl, rfl, by decide +kernel⟩

theorem witness_CompletionOfEach_3 :
    ∃ s : State, ∃ sg : Fin 8, ∃ c : Fin 18, ∃ f : IFields, ∃ g : Segment, ∃ k : Core, g = s.seg sg ∧ k = g.core c ∧ Executes s sg c f ∧
    f.imm.toNat % 4 ≠ 3 ∧ g.fenceSet (g.ownerOf c) (f.imm.toNat % 4) = [] :=
  ⟨rc id, 0, 0, fi 0 0 0 0, ((rc id).seg (0)), ((((rc id).seg (0))).core (0)), rfl, rfl, by decide +kernel⟩

theorem witness_CompletionOfEach_4 :
    ∃ s : State, ∃ sg : Fin 8, ∃ c : Fin 18, ∃ f : IFields, ∃ g : Segment, ∃ k : Core, g = s.seg sg ∧ k = g.core c ∧ Executes s sg c f ∧
    f.imm.toNat / 16 % 16 ≤ 4 :=
  ⟨rc id, 0, 0, fi 1 0 0 0x40, ((rc id).seg (0)), ((((rc id).seg (0))).core (0)), rfl, rfl, by decide +kernel⟩

theorem witness_CompletionOfEach_5 :
    ∃ s : State, ∃ sg : Fin 8, ∃ c : Fin 18, ∃ f : IFields, ∃ g : Segment, ∃ k : Core, ∃ m, ∃ t, ∃ n, ∃ x, g = s.seg sg ∧ k = g.core c ∧
    Executes s sg c f ∧ descExc k (k.descAt f) 128 = none ∧ k.ticket = some m ∧ g.ticket? m = some t ∧ g.freeEntry = some n ∧ g.trail? t.trail = some x ∧
    x.cancelled = false ∧ (g.ticketsOf k.ctx).length < g.ticketQuota :=
  ⟨rc id, 0, 0, fi 1 0 0 0, ((rc id).seg (0)), ((((rc id).seg (0))).core (0)), 3, aTicket, 0, aTrail, rfl, rfl, by decide +kernel⟩

theorem witness_CompletionOfEach_6 :
    ∃ s : State, ∃ sg : Fin 8, ∃ c : Fin 18, ∃ f : IFields, ∃ g : Segment, ∃ k : Core, ∃ b, g = s.seg sg ∧ k = g.core c ∧
    b = memBytes k.lb (k.descAt f).toNat 32 ∧ Executes s sg c f ∧ 16 ≤ c.val ∧ badSlot f = false ∧ slotOf f = none ∧ descExc k (k.descAt f) 32 = none ∧
    badRecall b = false ∧ g.storeFull = false :=
  ⟨rk fun k => { k with lb := lb [(0, 8), (0x10000, 8)] }, 0, 16, fi 31 0 0 0, ((rk fun k => { k with lb := lb [(0, 8), (0x10000, 8)] }).seg (0)),
   ((((rk fun k => { k with lb := lb [(0, 8), (0x10000, 8)] }).seg (0))).core (16)), (memBytes (((((rk fun k => { k with lb := lb [(0, 8), (0x10000, 8)] }).seg (0))).core (16))).lb ((((((rk fun k => { k with lb := lb [(0, 8), (0x10000, 8)] }).seg (0))).core (16))).descAt (fi 31 0 0 0)).toNat 32),
   rfl, rfl, rfl, by decide +kernel⟩

theorem witness_CompletionOfEach_7 :
    ∃ s : State, ∃ sg : Fin 8, ∃ c : Fin 18, ∃ f : IFields, ∃ g : Segment, ∃ k : Core, ∃ n, ∃ o, g = s.seg sg ∧ k = g.core c ∧ Executes s sg c f ∧
    f.d.toNat ≤ 15 ∧ (g.slot (g.ownerOf c) f.d.toNat).st = .busy ∧ (g.slot (g.ownerOf c) f.d.toNat).kind = .cjoin true n o :=
  ⟨rc id busySlot, 0, 0, fi 0 0 0 0, ((rc id busySlot).seg (0)), ((((rc id busySlot).seg (0))).core (0)), 5, 0, rfl, rfl, by decide +kernel⟩

def smallHead : Head := { aHead with large := false }
theorem witness_CompletionOfEach_8 :
    ∃ s : State, ∃ sg : Fin 8, ∃ grp : BitVec 12, ∃ x : Grp, ∃ h : Head, Takes s sg ∧ (s.seg sg).grp? grp = some x ∧ x.head = some h ∧ x.st = .active ∧
    h.op.code = 0x58 ∧ h.op.launch = 0 ∧ h.large = false ∧ h.chk? singleTree 0 = none ∧ h.op.gated = false :=
  ⟨run 0 (grouped (busy smallHead)), 0, 5, busy smallHead, smallHead, by decide +kernel⟩

def stepHead : Head := { aHead with chk := [aChk] }
theorem witness_CompletionOfEach_9 :
    ∃ s : State, ∃ sg : Fin 8, ∃ grp : BitVec 12, ∃ serial : BitVec 16, ∃ x : Grp, ∃ h : Head, ∃ k, ∃ rs, Takes s sg ∧ (s.seg sg).grp? grp = some x ∧
    x.head = some h ∧ x.st = .active ∧ (h.chk.find? fun k => k.c % 2 ^ 16 == serial.toNat && k.own.isSome && !k.formed && k.stepEnd.isNone) = some k ∧
    x.upRx h k.tree k.c = some rs ∧ h.op.d.isRed = true ∧ h.large = true ∧ (s.seg sg).stepFirst grp (k.ready.getD 0) = true ∧
    (s.seg sg).usable s.tick domReduction = true ∧
    (s.seg sg).budgetOk (250 * (ceilDiv (((h.elems k.c).2 - (h.elems k.c).1) * h.op.d.carrySize) 128 * (rs.length + 1))) = true :=
  ⟨run 0 (grouped (busy stepHead fun x => { x with rx := [aRx] })), 0, 5, 1, busy stepHead (fun x => { x with rx := [aRx] }), stepHead, aChk, [aRx],
   by decide +kernel⟩

def endedHead : Head := { aHead with chk := [{ aChk with stepEnd := some 100 }] }
theorem witness_CompletionOfEach_10 :
    ∃ s : State, ∃ sg : Fin 8, ∃ grp : BitVec 12, ∃ serial : BitVec 16, ∃ x : Grp, ∃ h : Head, ∃ k, ∃ t, Takes s sg ∧ (s.seg sg).grp? grp = some x ∧
    x.head = some h ∧ x.st = .active ∧ (h.chk.find? fun k => k.c % 2 ^ 16 == serial.toNat && k.stepEnd.isSome && !k.formed) = some k ∧
    k.stepEnd = some t ∧ t ≤ s.time :=
  ⟨run 100 (grouped (busy endedHead)), 0, 5, 1, busy endedHead, endedHead, { aChk with stepEnd := some 100 }, 100, by decide +kernel⟩

def writeHead : Head := { aHead with go := true, chk := [{ aChk with result := some ([], []) }] }
theorem witness_CompletionOfEach_11 :
    ∃ s : State, ∃ sg : Fin 8, ∃ grp : BitVec 12, ∃ serial : BitVec 16, ∃ x : Grp, ∃ h : Head, ∃ k, Takes s sg ∧ (s.seg sg).grp? grp = some x ∧
    x.head = some h ∧ x.st = .active ∧ (h.chk.find? fun k => k.c % 2 ^ 16 == serial.toNat && k.result.isSome && !k.written) = some k ∧ h.go = true :=
  ⟨run 0 (grouped (busy writeHead)), 0, 5, 1, busy writeHead, writeHead, { aChk with result := some ([], []) }, by decide +kernel⟩

theorem witness_CompletionOfEach_12 :
    ∃ s : State, ∃ sg : Fin 8, ∃ grp : BitVec 12, ∃ x : Grp, ∃ h : Head, ∃ hs, Takes s sg ∧ (s.seg sg).grp? grp = some x ∧ x.head = some h ∧
    x.st = .active ∧ h.large = true ∧ h.go = true ∧ h.closing = false ∧ h.chunks ≤ h.doneList.length ∧ x.roundRx 0xFFFFFFFE = some hs ∧
    x.single.root = x.rank :=
  ⟨run 0 (grouped closing), 0, 5, closing, { aHead with go := true, chunks := 1, doneList := [0] }, [List.replicate 128 0], by decide +kernel⟩

def sentOne (q : Held) (t : Nat) : State := { sent [q] [] with time := t }
theorem witness_CompletionOfEach_13 :
    ∃ s : State, ∃ sg : Fin 8, ∃ grp : BitVec 12, ∃ x : Grp, ∃ h : Head, ∃ q, Takes s sg ∧ (s.seg sg).grp? grp = some x ∧ x.head = some h ∧
    x.st = .active ∧ x.sent = [q] ∧ q.nrAt = none ∧ q.last + 5000 * 2 ^ min 7 q.reps ≤ s.tick ∧ q.tree < 64 :=
  ⟨sentOne aHeld (21 * 5000), 0, 5, busy aHead (fun x => { x with sent := [aHeld] }), aHead, aHeld, by decide +kernel⟩

def notReady : Held := { aHeld with nrAt := some 0 }
theorem witness_CompletionOfEach_14 :
    ∃ s : State, ∃ sg : Fin 8, ∃ grp : BitVec 12, ∃ x : Grp, ∃ h : Head, ∃ q, ∃ t, Takes s sg ∧ (s.seg sg).grp? grp = some x ∧ x.head = some h ∧
    x.st = .active ∧ x.sent = [q] ∧ q.nrAt = some t ∧ t + 64 * 2 ^ min 10 (q.nrs - 1) ≤ s.tick :=
  ⟨sentOne notReady (21 * 64), 0, 5, busy aHead (fun x => { x with sent := [notReady] }), aHead, notReady, 0, by decide +kernel⟩

theorem witness_CompletionOfEach_15 :
    ∃ s : State, ∃ sg : Fin 8, ∃ f : Flit, ∃ g : Segment, Takes s sg ∧ (s.seg sg).takeX [0x18] = some (f, g) :=
  ⟨run 0 (ejected [colFl 0x18 []]), 0, colFl 0x18 [], (run 0 (ejected [])).seg 0, by decide +kernel⟩

theorem witness_CompletionOfEach_16 :
    ∃ s : State, ∃ sg : Fin 8, ∃ g : Segment, ∃ e, Takes s sg ∧ (s.seg sg).rte.ejX = [e] ∧ e.flit.kind = 0x19 ∧
    g = { s.seg sg with rte := { (s.seg sg).rte with ejX := [] } } ∧ g.decidedWith e = false :=
  ⟨run 0 (ejected [colFl 0x19 []]), 0, (run 0 (ejected [])).seg 0, { flit := colFl 0x19 [], at_ := 0 }, by decide +kernel⟩

theorem witness_CompletionOfEach_17 :
    ∃ s : State, ∃ sg : Fin 8, ∃ f : Flit, ∃ g : Segment, Takes s sg ∧ (s.seg sg).takeX [0x1C] = some (f, g) :=
  ⟨run 0 (ejected [colFl 0x1C []]), 0, colFl 0x1C [], (run 0 (ejected [])).seg 0, by decide +kernel⟩

theorem witness_CompletionOfEach_18 :
    ∃ s : State, ∃ sg : Fin 8, ∃ f : Flit, ∃ g : Segment, Takes s sg ∧ (s.seg sg).takeX [0x1D] = some (f, g) :=
  ⟨run 0 (ejected [colFl 0x1D []]), 0, colFl 0x1D [], (run 0 (ejected [])).seg 0, by decide +kernel⟩

theorem witness_CompletionOfEach_19 :
    ∃ s : State, ∃ sg : Fin 8, ∃ f : Flit, ∃ g : Segment, ∃ x, ∃ d, ∃ ser, ∃ t, ∃ c, Takes s sg ∧ (g.grp? (colGroup f)).filter Grp.takesFlits = some x ∧
    x.answerOf f = some (d, ser, t, c) ∧ (s.seg sg).takeX [0x1A] = some (f, g) ∧ (x.sent.any fun q => q.answers (d, ser, t, c)) = true :=
  ⟨sent [aHeld] [colFl 0x1A []], 0, colFl 0x1A [], (sent [aHeld] []).seg 0, busy aHead (fun x => { x with sent := [aHeld] }), 1, 0, 0, 0,
   by decide +kernel⟩

theorem witness_CompletionOfEach_20 :
    ∃ s : State, ∃ sg : Fin 8, ∃ f : Flit, ∃ g : Segment, ∃ x, ∃ d, ∃ ser, ∃ t, ∃ c, ∃ q, Takes s sg ∧
    (g.grp? (colGroup f)).filter Grp.takesFlits = some x ∧ x.answerOf f = some (d, ser, t, c) ∧ (s.seg sg).takeX [0x1B] = some (f, g) ∧
    (x.sent.find? fun q => q.answers (d, ser, t, c) || (q.dst == d && q.serial == ser && q.c == c)) = some q ∧ field f.payload 9 1 = 0 ∧ q.naks < 2 :=
  ⟨sent [aHeld] [colFl 0x1B []], 0, colFl 0x1B [], (sent [aHeld] []).seg 0, busy aHead (fun x => { x with sent := [aHeld] }), 1, 0, 0, 0, aHeld,
   by decide +kernel⟩

theorem witness_CompletionOfEach_21 :
    ∃ s : State, ∃ sg : Fin 8, ∃ f : Flit, ∃ g : Segment, ∃ x, Takes s sg ∧ (s.seg sg).takeAbort = some (f, g) ∧
    (g.grp? (colGroup f)).filter Grp.takesFlits = some x ∧ field f.payload 5 1 = 1 ∧ x.serialAt (BitVec.ofNat 32 (field f.payload 0 4)) = .current ∧
    x.held = none :=
  ⟨sent [] [colFl 0x1E [0, 0, 0, 0, 7, 1]], 0, colFl 0x1E [0, 0, 0, 0, 7, 1], (sent [] []).seg 0, busy aHead (fun x => { x with sent := [] }),
   by decide +kernel⟩

theorem witness_CompletionOfEach_22 :
    ∃ s : State, ∃ r : State, ∃ sg : Fin 8, ∃ ag : Agent, ∃ ctx : BitVec 12, r = (s.reached sg ag [domRange]).mod sg (fun g => g.answer csOk 0) ∧
    Takes s sg ∧ (s.seg sg).clocked = true ∧ ag.admin = true ∧ ctx ≠ 0 ∧ (r.seg sg).xlt.resident = [] :=
  ⟨run 0 id, (((run 0 id).reached (0) (sw) [domRange]).mod (0) (fun g => g.answer csOk 0)), 0, sw, 1, rfl, by decide +kernel⟩

theorem witness_CompletionOfEach_23 :
    ∃ s : State, ∃ r : State, ∃ sg : Fin 8, ∃ ag : Agent, ∃ ctx : BitVec 12, r = (s.reached sg ag [domRange]).mod sg (fun g => g.answer csOk 0) ∧
    Takes s sg ∧ (s.seg sg).clocked = true ∧ ag.admin = true ∧ ctx ≠ 0 ∧ (r.seg sg).resident? ctx = none ∧
    (s.reached sg ag [domRange]).loadReason sg ctx (some 0) = 0 :=
  ⟨entered, (((entered).reached (0) (sw) [domRange]).mod (0) (fun g => g.answer csOk 0)), 0, sw, 1, rfl, by decide +kernel⟩

theorem witness_CompletionOfEach_24 :
    ∃ s : State, ∃ r : State, ∃ sg : Fin 8, ∃ ag : Agent, ∃ ctx : BitVec 12, r = (s.reached sg ag [domRange]).mod sg (fun g => g.answer csOk 0) ∧
    Takes s sg ∧ (s.seg sg).clocked = true ∧ ag.admin = true ∧ ctx ≠ 0 ∧ (r.seg sg).isResident ctx = true :=
  ⟨run 0 (resident aResident), (((run 0 (resident aResident)).reached (0) (sw) [domRange]).mod (0) (fun g => g.answer csOk 0)), 0, sw, 1, rfl,
   by decide +kernel⟩

theorem witness_CompletionOfEach_25 :
    ∃ s : State, ∃ r : State, ∃ sg : Fin 8, ∃ ag : Agent, ∃ ctx : BitVec 12, ∃ v : Word,
    r = (s.reached sg ag [domRange]).mod sg (fun g => g.answer csOk 0) ∧ Takes s sg ∧ (s.seg sg).clocked = true ∧ ag.admin = true ∧ ctx ≠ 0 ∧
    ((s.reached sg ag [domRange]).seg sg).present 0 (bitsOf v 43 5 * 32) 32 = true ∧
    badRecall (((s.reached sg ag [domRange]).seg sg).hbmBytes (bitsOf v 43 5 * 32) 32) = false :=
  ⟨run 0 fun g => g.put 0 0x8000 (natBytes 0 8 ++ natBytes 0x10000 8),
   (((run 0 fun g => g.put 0 0x8000 (natBytes 0 8 ++ natBytes 0x10000 8)).reached (0) (sw) [domRange]).mod (0) (fun g => g.answer csOk 0)), 0, sw, 1,
   0x8000, rfl, by decide +kernel⟩

theorem witness_CompletionOfEach_26 :
    ∃ s : State, ∃ r : State, ∃ sg : Fin 8, ∃ ag : Agent, ∃ ctx : BitVec 12, ∃ v : Word, ∃ m,
    r = (s.reached sg ag [domRange]).mod sg (fun g => g.answer csOk 0) ∧ Takes s sg ∧ (s.seg sg).clocked = true ∧ ag.admin = true ∧ ctx ≠ 0 ∧
    ((r.seg sg).xlt.migs.find? fun m => m.n == bitsOf v 3 0) = some m :=
  ⟨run 0 fun g => { g with xlt := { g.xlt with migs := [aMig] } },
   (((run 0 fun g => { g with xlt := { g.xlt with migs := [aMig] } }).reached (0) (sw) [domRange]).mod (0) (fun g => g.answer csOk 0)), 0, sw, 1, 15,
   aMig, rfl, by decide +kernel⟩

theorem witness_CompletionOfEach_27 :
    ∃ s : State, ∃ r : State, ∃ sg : Fin 8, ∃ ag : Agent, ∃ ctx : BitVec 12, r = (s.reached sg ag [domRange]).mod sg (fun g => g.answer csOk 0) ∧
    Takes s sg ∧ (s.seg sg).clocked = true ∧ ag.admin = true ∧ ctx ≠ 0 :=
  ⟨run 0 id, (((run 0 id).reached (0) (sw) [domRange]).mod (0) (fun g => g.answer csOk 0)), 0, sw, 1, rfl, by decide +kernel⟩

theorem witness_CompletionOfEach_28 :
    ∃ s : State, ∃ r : State, ∃ sg : Fin 8, ∃ ag : Agent, ∃ ctx : BitVec 12, ∃ v : Word, ∃ t,
    r = (s.reached sg ag [domRange]).mod sg (fun g => g.answer csOk 0) ∧ Takes s sg ∧ (s.seg sg).clocked = true ∧ ag.admin = true ∧ ctx ≠ 0 ∧
    (r.seg sg).fhTakes sg ag v true = true ∧
    r.declareAll sg (BitVec.ofNat 32 (bitsOf v 63 32)) ((List.range (bitsOf v 12 0)).map fun i => bitsOf v 27 16 + i) = some t :=
  ⟨window 1, (((window 1).reached (0) (sw) [domRange]).mod (0) (fun g => g.answer csOk 0)), 0, sw, 1, 0x8C0000000FFF0001,
   ((asked' (window 1)).declareAll 0 0x8C000000 [0xFFF]).getD default, rfl, by decide +kernel⟩

theorem witness_CompletionOfEach_29 :
    ∃ s : State, ∃ r : State, ∃ sg : Fin 8, ∃ ag : Agent, ∃ ctx : BitVec 12, ∃ v : Word,
    r = (s.reached sg ag [domRange]).mod sg (fun g => g.answer csOk 0) ∧ Takes s sg ∧ (s.seg sg).clocked = true ∧ ag.admin = true ∧ ctx ≠ 0 ∧
    (r.seg sg).fhTakes sg ag v false = true :=
  ⟨window 1, (((window 1).reached (0) (sw) [domRange]).mod (0) (fun g => g.answer csOk 0)), 0, sw, 1, 1, rfl, by decide +kernel⟩

theorem witness_CompletionOfEach_30 :
    ∃ s : State, ∃ r : State, ∃ sg : Fin 8, ∃ ag : Agent, ∃ ctx : BitVec 12, ∃ v : Word, ∃ w,
    r = (s.reached sg ag [domRange]).mod sg (fun g => g.answer csOk 0) ∧ w = mergeSize ((r.seg sg).reg 0x150020) .w64 v ∧ Takes s sg ∧
    (s.seg sg).clocked = true ∧ ag.admin = true ∧ ctx ≠ 0 ∧ (r.seg sg).fld F.XLT_GUARD_SIZE_HBM_REGIONS ≤ bitsOf w 54 32 ∧
    bitsOf w 54 32 + bitsOf w 12 0 ≤ 2 ^ 23 ∧ bitsOf w 12 0 ≤ 4096 ∧ (r.seg sg).declared sg = [] :=
  ⟨run 0 id, (((run 0 id).reached (0) (sw) [domRange]).mod (0) (fun g => g.answer csOk 0)), 0, sw, 1, 0x800001000,
   (mergeSize ((((((run 0 id).reached (0) (sw) [domRange]).mod (0) (fun g => g.answer csOk 0))).seg (0)).reg 0x150020) .w64 (0x800001000)), rfl, rfl,
   by decide +kernel⟩

theorem witness_CompletionOfEach_31 :
    ∃ s : State, ∃ r : State, ∃ sg : Fin 8, ∃ ag : Agent, r = s.reached sg ag [domRange] ∧ Takes s sg ∧ (s.seg sg).clocked = true ∧ ag.isKeeper = true :=
  ⟨run 0 id, ((run 0 id).reached (0) (kp) [domRange]), 0, kp, rfl, by decide +kernel⟩

theorem witness_CompletionOfEach_32 :
    ∃ s : State, ∃ sg : Fin 8, ∃ t, ∃ c, s.evictEnd sg = (t, some c) ∧ Takes s sg ∧ (t.seg sg).kpr.tearing.contains c = false :=
  ⟨evicts, 0, (evicts.evictEnd 0).1, 1, Prod.ext rfl (by decide +kernel), by decide +kernel⟩

theorem witness_CompletionOfEach_33 :
    ∃ s : State, ∃ sg : Fin 8, ∃ c : Fin 18, ∃ x, ∃ va, ∃ r, Takes s sg ∧ ((s.seg sg).core c).wait = some (.issue x) ∧ x.asks = false ∧
    s.missOf sg c x = some va ∧ ((s.seg sg).bump F.XLT_COUNT_MISSES).searchRange ((s.seg sg).core c).ctx va = (some r, false) :=
  ⟨missing 1, 0, 0, { op := 0x61, f := fi 7 0 0 0, start := 0 }, 0, aRange, by decide +kernel⟩

theorem witness_CompletionOfEach_34 :
    ∃ s : State, ∃ sg : Fin 8, ∃ r, Takes s sg ∧ s.ackable sg false (s.seg sg).xlt.recalls = some r ∧ r.submitted = true ∧ r.owner = none :=
  ⟨run 0 fun g => { g with xlt := { g.xlt with recalls := [aRecall] } }, 0, aRecall, by decide +kernel⟩

theorem witness_CompletionOfEach_35 :
    ∃ s : State, ∃ sg : Fin 8, Takes s sg ∧ 0 < (s.seg sg).fld F.XLT_HOT_CTRL_DECAY ∧
    (s.seg sg).xlt.decayAt + (s.seg sg).fld F.XLT_HOT_CTRL_DECAY ≤ s.tick :=
  ⟨run 21 fun g => g.setFld F.XLT_HOT_CTRL_DECAY 1, 0, by decide +kernel⟩

theorem witness_CompletionOfEach_36 :
    ∃ s : State, ∃ sg : Fin 8, ∃ req : Fin 16, ∃ m, Takes s sg ∧ ((s.seg sg).xlt.migs.find? fun m => m.n == req.val) = some m ∧
    m.tick + max 1 ((s.seg sg).fld F.XLT_MIGRATE_CTRL_TIMEOUT) ≤ s.tick :=
  ⟨run 21 fun g => { g.setFld F.XLT_MIGRATE_CTRL_TIMEOUT 0 with xlt := { g.xlt with migs := [aMig] } }, 0, 15, aMig, by decide +kernel⟩

theorem witness_CompletionOfEach_37 :
    ∃ s : State, ∃ sg : Fin 8, Takes s sg ∧ s.tick % 50 = 0 :=
  ⟨run (21 * 50) id, 0, by decide +kernel⟩

def aReplica : ReplicaCopy := { (default : ReplicaCopy) with region := 8, home := 1 }
theorem witness_CompletionOfEach_38 :
    ∃ s : State, ∃ sg : Fin 8, ∃ c, Takes s sg ∧ (s.seg sg).plc.copies = [c] ∧ c.start + 780 ≤ s.tick :=
  ⟨run (21 * 780) fun g => { g with plc := { g.plc with copies := [aReplica] } }, 0, aReplica, by decide +kernel⟩

def goneReplica : Replica := { (default : Replica) with withdrawn := true }
theorem witness_CompletionOfEach_39 :
    ∃ s : State, ∃ sg : Fin 8, ∃ r, Takes s sg ∧ (s.seg sg).plc.replicas = [r] ∧ r.withdrawn = true ∧ (s.seg sg).frameBusy r.frame = false :=
  ⟨run 0 fun g => { g with plc := { g.plc with replicas := [goneReplica] } }, 0, goneReplica, by decide +kernel⟩

theorem witness_CompletionOfEach_40 :
    ∃ s : State, ∃ sg : Fin 8, Takes s sg ∧ (s.seg sg).plc.moveAt + max 1 ((s.seg sg).fld F.PLC_MOVE_PERIOD) ≤ s.tick ∧
    (s.seg sg).fld F.PLC_CTRL_HOMING_MOVE = 0 :=
  ⟨run 21 fun g => (g.setFld F.PLC_MOVE_PERIOD 0).setFld F.PLC_CTRL_HOMING_MOVE 0, 0, by decide +kernel⟩

theorem witness_CompletionOfEach_41 :
    ∃ s : State, ∃ sg : Fin 8, ∃ m, ∃ key, ∃ h, Takes s sg ∧ (s.seg sg).plc.moves = [m] ∧
    ((s.seg sg).plc.homing.find? fun h => h.1 / 4096 == m.win && h.2.region == m.region) = some (key, h) ∧ s.joined sg m.target = true ∧
    m.flipping = false ∧ m.start + 32 * m.copying.length ≤ s.time ∧ m.hold = false ∧ m.dirty.length ≤ min 64 ((s.seg sg).fld F.PLC_MOVE_FINAL_BLOCKS) :=
  ⟨moves aMove, 0, aMove, 8, aHoming, by decide +kernel⟩

theorem witness_CompletionOfEach_42 :
    ∃ s : State, ∃ sg : Fin 8, ∃ m, ∃ key, ∃ h, Takes s sg ∧ (s.seg sg).plc.moves = [m] ∧
    ((s.seg sg).plc.homing.find? fun h => h.1 / 4096 == m.win && h.2.region == m.region) = some (key, h) ∧ s.joined sg m.target = true ∧ m.flipping = true :=
  ⟨moves { aMove with flipping := true }, 0, { aMove with flipping := true }, 8, aHoming, by decide +kernel⟩

theorem witness_CompletionOfEach_43 :
    ∃ s : State, ∃ sg : Fin 8, ∃ p : Fin 6, ∃ q : Port, q = (s.seg sg).port p ∧ Takes s sg ∧ q.st = .active ∧ q.replay ≠ [] ∧
    q.timerAt + max 1 ((s.seg sg).fld (F.LNK_TIMERS_REPLAY_TIMER.port p)) ≤ s.tick :=
  ⟨run 21 fun g => (ported 0 (fun q => { q with st := .active, replay := [default] }) g).setFld (F.LNK_TIMERS_REPLAY_TIMER.port 0) 0, 0, 0,
   (((run 21 fun g => (ported 0 (fun q => { q with st := .active, replay := [default] }) g).setFld (F.LNK_TIMERS_REPLAY_TIMER.port 0) 0).seg (0)).port (0)),
   rfl, by decide +kernel⟩

theorem witness_CompletionOfEach_44 :
    ∃ s : State, ∃ sg : Fin 8, ∃ p : Fin 6, ∃ q : Port, q = (s.seg sg).port p ∧ Takes s sg ∧ q.st = .active ∧ q.gap = true ∧ q.nakLast ≠ none :=
  ⟨run 0 (ported 0 fun q => { q with st := .active, gap := true, nakLast := some (0, 0) }), 0, 0, (((run 0 (ported 0 fun q => { q with st := .active, gap := true, nakLast := some (0, 0) })).seg (0)).port (0)),
   rfl, by decide +kernel⟩

theorem witness_CompletionOfEach_45 :
    ∃ s : State, ∃ sg : Fin 8, ∃ p : Fin 6, ∃ q : Port, ∃ w, ∃ t, q = (s.seg sg).port p ∧ Takes s sg ∧ q.st = .active ∧ q.req = some (true, w, t) ∧
    t + 50 ≤ s.tick :=
  ⟨run (21 * 50) (ported 0 fun q => { q with st := .active, req := some (true, 4, 0) }), 0, 0,
   (((run (21 * 50) (ported 0 fun q => { q with st := .active, req := some (true, 4, 0) })).seg (0)).port (0)), 4, 0, rfl, by decide +kernel⟩

theorem witness_CompletionOfEach_46 :
    ∃ s : State, ∃ sg : Fin 8, ∃ p : Fin 6, ∃ q : Port, q = (s.seg sg).port p ∧ Takes s sg ∧ q.windowEnd ≤ s.tick ∧
    (s.seg sg).fld (F.LNK_ERR_CTRL_REPLAY_PPB.port p) = 0 :=
  ⟨run (21 * 50000) fun g => (ported 5 id g).setFld (F.LNK_ERR_CTRL_REPLAY_PPB.port 5) 0, 0, 5,
   (((run (21 * 50000) fun g => (ported 5 id g).setFld (F.LNK_ERR_CTRL_REPLAY_PPB.port 5) 0).seg (0)).port (5)), rfl, by decide +kernel⟩

theorem witness_CompletionOfEach_47 :
    ∃ s : State, ∃ sg : Fin 8, ∃ p : Fin 6, ∃ q : Port, ∃ cause, ∃ t, q = (s.seg sg).port p ∧ Takes s sg ∧ q.st = .retrain ∧ q.req = some (false, cause,
    t) ∧ t + 50 ≤ s.tick :=
  ⟨run (21 * 50) (ported 0 fun q => { q with st := .retrain, req := some (false, 5, 0) }), 0, 0,
   (((run (21 * 50) (ported 0 fun q => { q with st := .retrain, req := some (false, 5, 0) })).seg (0)).port (0)), 5, 0, rfl, by decide +kernel⟩

theorem witness_CompletionOfEach_48 :
    ∃ s : State, ∃ sg : Fin 8, ∃ p : Fin 6, ∃ q : Port, q = (s.seg sg).port p ∧ Takes s sg ∧ q.st = .training ∧
    q.start + (s.seg sg).retrainLimit p ≤ s.tick :=
  ⟨run (21 * 5000) fun g => (ported 0 (fun q => { q with st := .training }) g).setFld (F.LNK_ERR_CTRL_RETRAIN_LIMIT.port 0) 0, 0, 0,
   (((run (21 * 5000) fun g => (ported 0 (fun q => { q with st := .training }) g).setFld (F.LNK_ERR_CTRL_RETRAIN_LIMIT.port 0) 0).seg (0)).port (0)),
   rfl, by decide +kernel⟩

theorem witness_CompletionOfEach_49 :
    ∃ s : State, ∃ sg : Fin 8, ∃ p : Fin 6, ∃ q : Port, ∃ t, q = (s.seg sg).port p ∧ Takes s sg ∧ q.st = .retrain ∧ q.wait = some t ∧ t ≤ s.tick :=
  ⟨run 0 (ported 0 fun q => { q with st := .retrain, wait := some 0 }), 0, 0, (((run 0 (ported 0 fun q => { q with st := .retrain, wait := some 0 })).seg (0)).port (0)),
   0, rfl, by decide +kernel⟩

theorem witness_CompletionOfEach_50 :
    ∃ s : State, ∃ sg : Fin 8, ∃ p : Fin 6, ∃ q : Port, ∃ r, ∃ rest, q = (s.seg sg).port p ∧ Takes s sg ∧ q.txRuns = r :: rest ∧ r.ft + 256 ≤ q.ft :=
  ⟨run 0 (ported 0 fun q => { q with ft := 256, txRuns := [default] }), 0, 0, (((run 0 (ported 0 fun q => { q with ft := 256, txRuns := [default] })).seg (0)).port (0)),
   default, [], rfl, by decide +kernel⟩

theorem witness_CompletionOfEach_51 :
    ∃ s : State, ∃ sg : Fin 8, ∃ p : Fin 6, ∃ q : Port, ∃ obs, ∃ g, q = (s.seg sg).port p ∧ Takes s sg ∧ q.isTraining = true ∧
    (s.seg sg).phaseEnd s.tick p obs = (g, false) :=
  ⟨one, 0, 0, (((one).seg (0)).port (0)), ob 3 0, ((one.seg 0).phaseEnd one.tick 0 (ob 3 0)).1, rfl, by decide +kernel⟩

theorem witness_CompletionOfEach_52 :
    ∃ s : State, ∃ sg : Fin 8, ∃ p : Fin 6, ∃ q : Port, q = (s.seg sg).port p ∧ Takes s sg ∧ q.isTraining = true ∧ q.phase = 5 ∧
    q.phaseTick + (s.seg sg).phaseLimit p 5 ≤ s.tick :=
  ⟨run 21000000 (ported 0 fun q => { q with st := .training, phase := 5 }), 0, 0, (((run 21000000 (ported 0 fun q => { q with st := .training, phase := 5 })).seg (0)).port (0)),
   rfl, by decide +kernel⟩

theorem witness_CompletionOfEach_53 :
    ∃ s : State, ∃ sg : Fin 8, ∃ p : Fin 6, ∃ q : Port, ∃ t, q = (s.seg sg).port p ∧ Takes s sg ∧ q.st = .retrain ∧ q.wait = some t :=
  ⟨run 0 (ported 0 fun q => { q with st := .retrain, wait := some 0 }), 0, 0, (((run 0 (ported 0 fun q => { q with st := .retrain, wait := some 0 })).seg (0)).port (0)),
   0, rfl, by decide +kernel⟩

theorem witness_CompletionOfEach_54 :
    ∃ s : State, ∃ sg : Fin 8, ∃ ag : Agent, Takes s sg ∧ (s.seg sg).clocked = true ∧ ag.isKeeper = true :=
  ⟨run 0 id, 0, kp, by decide +kernel⟩

theorem witness_CompletionOfEach_55 :
    ∃ s : State, ∃ sg : Fin 8, ∃ p : Fin 6, ∃ q : Port, ∃ lane : Fin 9, ∃ heads, q = (s.seg sg).port p ∧ Takes s sg ∧ q.st = .active ∧ q.rxPwr ≠ .flask ∧
    losesLock heads = true ∧ q.mapRx.contains lane.val = true :=
  ⟨lanes id, 0, 0, (((lanes id).seg (0)).port (0)), 7, List.replicate 64 0, rfl, by decide +kernel⟩

theorem witness_CompletionOfEach_56 :
    ∃ s : State, ∃ sg : Fin 8, ∃ p : Fin 6, ∃ q : Port, ∃ l : Fin 8, q = (s.seg sg).port p ∧ Takes s sg ∧ q.st = .active ∧ q.spareRx ≠ 15 ∧
    q.mapRx.getD l 15 ≠ 15 :=
  ⟨lanes id, 0, 0, (((lanes id).seg (0)).port (0)), 7, rfl, by decide +kernel⟩

theorem witness_CompletionOfEach_57 :
    ∃ s : State, ∃ sg : Fin 8, ∃ p : Fin 6, ∃ q : Port, ∃ l : Fin 8, q = (s.seg sg).port p ∧ Takes s sg ∧ q.st = .active ∧ q.rotTx.step = 1 ∧
    q.rotTx.l = l.val :=
  ⟨lanes fun q => { q with rotTx := { step := 1, l := 7 } }, 0, 0, (((lanes fun q => { q with rotTx := { step := 1, l := 7 } }).seg (0)).port (0)), 7,
   rfl, by decide +kernel⟩

theorem witness_CompletionOfEach_58 :
    ∃ s : State, ∃ sg : Fin 8, ∃ p : Fin 6, ∃ q : Port, q = (s.seg sg).port p ∧ Takes s sg ∧ q.st = .active ∧ q.rotTx.step = 3 :=
  ⟨lanes fun q => { q with rotTx := { step := 3, l := 7 } }, 0, 0, (((lanes fun q => { q with rotTx := { step := 3, l := 7 } }).seg (0)).port (0)), rfl,
   by decide +kernel⟩

theorem witness_CompletionOfEach_59 :
    ∃ s : State, ∃ sg : Fin 8, ∃ p : Fin 6, ∃ q : Port, ∃ k, q = (s.seg sg).port p ∧ Takes s sg ∧ q.st = .active ∧ (s.seg sg).mayRotate p = true ∧
    q.rotAt + max 5000 ((s.seg sg).fld (F.LNE_ROTATE_PERIOD.port p)) ≤ s.tick ∧ nextRetired q.mapTx q.retired = some k :=
  ⟨(lanes id (21 * 5000)).mod 0 fun g => ((g.setFld (F.LNE_ROTATE_PERIOD.port 0) 0).setFld (F.LNE_CFG_RATE.port 0) 0).setFld (F.LNE_CFG_ROTATE_EN.port 0) 1,
   0, 0,
   ((((lanes id (21 * 5000)).mod 0 fun g => ((g.setFld (F.LNE_ROTATE_PERIOD.port 0) 0).setFld (F.LNE_CFG_RATE.port 0) 0).setFld (F.LNE_CFG_ROTATE_EN.port 0) 1).seg (0)).port (0)),
   0, rfl, by decide +kernel⟩

theorem witness_CompletionOfEach_60 :
    ∃ s : State, ∃ sg : Fin 8, ∃ p : Fin 6, ∃ q : Port, q = (s.seg sg).port p ∧ Takes s sg ∧ q.st = .active ∧ q.rotRx.step = 1 ∧ q.spareRx = q.rotRx.s ∧
    q.serviceTx = true :=
  ⟨lanes fun q => { q with rotRx := { step := 1, s := 8 } }, 0, 0, (((lanes fun q => { q with rotRx := { step := 1, s := 8 } }).seg (0)).port (0)), rfl,
   by decide +kernel⟩

theorem witness_CompletionOfEach_61 :
    ∃ s : State, ∃ sg : Fin 8, ∃ p : Fin 6, ∃ q : Port, q = (s.seg sg).port p ∧ Takes s sg ∧ q.st = .active ∧ q.rotRx.step = 2 ∧ q.calRx = q.rotRx.k ∧
    q.rotRx.tick + max 1 ((s.seg sg).fld (F.LNE_ROTATE_CAL_PRBS_TICKS.port p)) ≤ s.tick :=
  ⟨(lanes (fun q => { q with calRx := 3, rotRx := { step := 2, k := 3 } }) 21).mod 0 fun g => g.setFld (F.LNE_ROTATE_CAL_PRBS_TICKS.port 0) 1, 0, 0,
   ((((lanes (fun q => { q with calRx := 3, rotRx := { step := 2, k := 3 } }) 21).mod 0 fun g => g.setFld (F.LNE_ROTATE_CAL_PRBS_TICKS.port 0) 1).seg (0)).port (0)),
   rfl, by decide +kernel⟩

theorem witness_CompletionOfEach_62 :
    ∃ s : State, ∃ sg : Fin 8, ∃ p : Fin 6, ∃ q : Port, ∃ lane : Fin 9, q = (s.seg sg).port p ∧ Takes s sg ∧ q.st = .active ∧
    q.mapTx.contains lane.val = true ∧ q.spareTx = 15 ∧ q.width = 8 :=
  ⟨lanes (fun q => { q with spareTx := 15, width := 8 }), 0, 0, (((lanes (fun q => { q with spareTx := 15, width := 8 })).seg (0)).port (0)), 0, rfl,
   by decide +kernel⟩

theorem witness_IdleStepIsOneCycle : State.reset.pending = [] ∧ State.reset.inColdReset = false ∧ (State.reset.time + 1) % 21 ≠ 0 ∧
    (State.reset.seg 0).kpr.broken = [] ∧
    ∀ k, k < State.reset.n → (State.reset.seg k).clocked = false ∧ (State.reset.seg k).pwr.slept = [] ∧ (State.reset.seg k).pwr.woke = [] := by
  decide

theorem witness_NothingHappensInColdReset :
    ({ State.reset with inColdReset := true } : State).heldWith State.reset.segs ∧
    (∀ l, ({ State.reset with inColdReset := true } : State).pending.head? ≠ some (.coldReset l)) ∧
    step { State.reset with inColdReset := true } = .next { State.reset with inColdReset := true } :=
  ⟨⟨rfl, rfl⟩, fun l h => absurd (h.symm.trans rfl) (Option.some_ne_none (Instr.coldReset l)), rfl⟩

theorem witness_ColdResetTakesStraps : (Instr.coldReset [resetStraps 0]).wf = true ∧ 1 ≤ [resetStraps 0].length ∧
    (Instr.coldReset ((List.range 8).map resetStraps)).wf = true ∧ ((List.range 8).map resetStraps).length ≤ 8 := by
  decide

/-! ## Ill-formed commands are refused -/

def aReq (d m : Nat) : DptReq := { dq 0 0 with data := List.replicate d 0, strb := List.replicate m true }
def badFrame : Frame := { (default : Frame) with slot0 := List.replicate 144 0, slot1 := List.replicate 143 0 }

theorem test_wf_straps : (Instr.coldReset []).wf = false ∧ (Instr.coldReset ((List.range 9).map resetStraps)).wf = false := by
  decide

theorem test_wf_image : (Instr.imageWrite 0 []).wf = false ∧ (Instr.imageWrite 0 (List.replicate 57 0)).wf = false := by decide

theorem test_wf_diePort : (Instr.dptWrite 0 (aReq 127 128)).wf = false ∧ (Instr.dptRead 0 (aReq 128 127)).wf = false ∧
    (Instr.dptControlAccess 0 true (aReq 129 128)).wf = false := by decide +kernel

theorem test_wf_frames : (Instr.dataFrame 0 0 badFrame 0).wf = false ∧ (Instr.idleFrame 0 0 badFrame 0).wf = false ∧
    (Instr.nakFrame 0 0 badFrame 0).wf = false ∧ (Instr.trailerFrame 0 0 badFrame 0).wf = false ∧
    (Instr.retrainReq 0 0 badFrame 0).wf = false ∧ (Instr.retrainAck 0 0 badFrame 0).wf = false ∧
    (Instr.widthReq 0 0 badFrame 0).wf = false ∧ (Instr.widthAck 0 0 badFrame 0).wf = false ∧
    (Instr.resume 0 0 badFrame 0).wf = false := by decide +kernel

theorem test_wf_training : (Instr.trainingPhaseEnd 0 0 default).wf = false ∧
    (Instr.relockDone 0 0 ⟨List.replicate 9 0, List.replicate 8 0⟩).wf = false ∧
    (Instr.relockDone 0 0 ⟨[], List.replicate 9 0⟩).wf = false ∧ (Instr.blockLockLoss 0 0 ⟨0, List.replicate 63 0⟩).wf = false := by decide

theorem test_wf_hostCopy : (Instr.hostCopy 0 0 [0] []).wf = false ∧
    (Instr.hostCopy 0 0 (List.replicate 4096 0) (List.replicate 15 0)).wf = false := by decide +kernel

theorem test_wf_session : (Instr.challenge none 0 (List.replicate 31 0)).wf = false ∧
    (Instr.getMeasurements none 0 (some (List.replicate 33 0))).wf = false ∧
    (Instr.keyExchange none 0 (List.replicate 95 0)).wf = false ∧ (Instr.finish none (List.replicate 47 0)).wf = false := by decide

theorem test_wf_operator : (Instr.operatorAuth none (List.replicate 96 0) []).wf = false ∧
    (Instr.operatorKeyAdd none (List.replicate 47 0)).wf = false ∧
    (Instr.operatorKeyRemove none (List.replicate 49 0)).wf = false := by decide

theorem test_wf_boundaryScan : (Instr.samplePreload 0 [true] []).wf = false := by decide

/-! ## Instruction words written out from Tables 3.4 and 3.5 -/

/-- PUT with d 1, a 0, b 5 and immediate 0x120, not guarded. -/
theorem test_word_put : decodeCourier 0 3 none 0x51080A0000000120 = some (.put 0 3 (fi 1 0 5 0x120)) := by decide

/-- HALT with a 8 under the inverted guard p2. -/
theorem test_word_halt : decodeCourier 0 3 none 0x4C0200A000000000 =
    some (.halt 0 3 { (fi 0 8 0 0) with pred := 2, inv := true }) := by decide

/-- SIG of slot 31 with a 4 and immediate 1. -/
theorem test_word_sig : decodeCourier 1 0 none 0x60F9000000000001 = some (.sig 1 0 (fi 31 4 0 1)) := by decide

/-- Opcode 0x00 and the other reserved opcodes are no instruction (Table 3.5). -/
theorem test_word_reserved : decodeCourier 0 0 none 0 = none ∧ decodeCourier 0 0 none 0x1900000000000000 = none ∧
    decodeCourier 0 0 none 0x6700000000000000 = none := by decide

/-! ## Worked examples of the spec -/

/-- Example 0.1. -/
theorem test_example_0_1 : gaMake 0x12DB 3 0 0x2A400000 = 0x25B6C0002A400000 ∧ 0x2A400000 / 128 = 0x548000 := by decide

/-- Example 15.1. -/
theorem test_example_15_1 : gaMake 0x12DB 0 2 0x20038 = 0x25B6200000020038 := by decide

/-- Example 2.3: the mask and the bytes of the merged write. -/
theorem test_example_2_3 :
    let m := List.replicate 32 true ++ List.replicate 32 false ++ List.replicate 64 true
    let p := wrmPayload m ((List.range 128).map (BitVec.ofNat 8))
    maskCount m = 96 ∧ p.take 16 = [255, 255, 255, 255, 0, 0, 0, 0, 255, 255, 255, 255, 255, 255, 255, 255] ∧
    p[16]? = some 0 ∧ p[47]? = some 31 ∧ p[48]? = some 64 ∧ p[111]? = some 127 ∧ p.drop 112 = List.replicate 16 0 := by
  decide +kernel

/-- The axes of Example 4.1. -/
def haloAxes : List Axis :=
  [{ srcExt := 1000, dstExt := 1000, win := 1000, tile := 256, srcOrg := 0, dstOrg := 0, srcStride := 2, dstStride := 2 },
   { srcExt := 4096, dstExt := 4100, win := 2, tile := 2, srcOrg := -2, dstOrg := 0, srcStride := 2048, dstStride := 2048 }]
def halo : Shape := { (default : Shape) with elem := 1, pad := 2, srcBase := 0x10000, dstBase := 0x20000, axes := haloAxes, counts := [1000, 2] }

/-- Example 4.1: the line bound, the tiles, and the last tile, whose positions come from row 0. -/
theorem test_example_4_1 : haloAxes.all axisOk = true ∧ tileBound haloAxes = 10 ∧ halo.tiles = 4 ∧
    (halo.tilePositions 3).length = 464 ∧
    (halo.tilePositions 3)[232]? = some (0x20000 + 2048 + 1536, .elem (0x10000 + 1536)) := by decide +kernel

/-- Example 6.1: 5.3 and 0.01 in MXFP8 with E4M3 elements, as their binary32 values. -/
theorem test_example_6_1 :
    let r := encodeBlock 0x10 [some (FFmt.b32.decode 0x40A9999A), some (FFmt.b32.decode 0x3C23D70A)] (fun _ => .rne)
    r.bytes.take 3 = [0x79, 0x7B, 0x32] ∧ r.bytes.length = 33 ∧ r.saturated = 0 := by decide +kernel

/-- Example 6.3: eight vote words of step 918 with 64 spoiled positions each. -/
theorem test_example_6_3 :
    (List.replicate 7 0x0000039600004001).foldl (fun a v => a.bind fun a => voteOp a v) (some 0x0000039600004001)
      = some 0x0000039600020001 := by decide

/-- Example 9.1: the four frames, the second of them bad. -/
theorem test_example_9_1 :
    let q : Port := { (default : Port) with out := 200, window := 256, seen := 0x3A10, prevTaken := true }
    let q := q.takeCredits 2 0x3A12
    let r := { q with prevTaken := false }.takeCredits 1 0x3A16
    let t := { r with prevTaken := true }.takeCredits 2 0x3A19
    (q.out, q.window, q.seen) = (198, 256, 0x3A12) ∧ (r.out, r.window) = (194, 256) ∧ (t.out, t.window) = (191, 255) := by
  decide

/-- R449's mixing, by hand for SALT 0x1357_2468, group 0x10D, serial 918, node 0x12DB and SPREAD 80,000. -/
theorem test_stile_offset : stileOffset 0x13572468 0x10D 918 0x12DB 80000 = 46754 := by decide

/-- The sequence of R404, by hand: from a 1 in the latest bit alone, the next ones of x^31 + x^28 + 1 stand 28 and 31 places on. -/
theorem test_prbs31 : scramble (List.replicate 31 false) 1 = List.replicate 27 false ++ [true, false, false, true] := by decide

/-- The even parity of a run (R27), by hand: seven ones among the data bits of a run make its parity bit 1. -/
theorem test_parity : parityBit (List.replicate 7 true ++ List.replicate 24 false) = true := by decide

/-- R576, by hand: SEG_IRQ_MASK written in one cycle by the keeper (5), then in the queue by the steward (3), holds the keeper's value, and
a read of the cycle returns what stood there before. -/
theorem test_same_cycle_writes :
    (((run 0 id).ctlWrite 0 kp 0x320 .w64 5).ctlWrite 0 sw 0x320 .w64 3 |>.seg 0).reg 0x320 = 5 ∧
    ((((run 0 id).ctlWrite 0 kp 0x320 .w64 5).ctlRead 0 sw 0x320 .w64).seg 0).acc.data = 0 := by decide +kernel

/-- No word of the opcode table spells a command: its rows give no bits. -/
theorem test_table_words : decodeTableWord 0 0 = none ∧ State.reset.withFetchWord 0 0 = State.reset := ⟨rfl, rfl⟩

end Sys2Proof.Tests
end

section
/-! The saturating counter fields of a register, and replies that complete nothing (R59). -/

namespace Sys2Proof.Machine

open Sys2Proof

/-! ## Bits of a word and fields of a register -/

/-- A word whose bits [hi:lo] are replaced has there the bits of the number, and its own elsewhere. -/
theorem getLsbD_setBits (w : Word) (hi lo n i : Nat) (hi64 : hi < 64) :
    (setBits w hi lo n).getLsbD i = if lo ≤ i ∧ i ≤ hi then n.testBit (i - lo) else w.getLsbD i := by
  have mask : ((2 ^ (hi + 1 - lo) - 1) * 2 ^ lo).testBit i = decide (lo ≤ i ∧ i ≤ hi) := by
    rw [Nat.testBit_mul_two_pow, Nat.testBit_two_pow_sub_one, Bool.eq_iff_iff]
    simp only [Bool.and_eq_true, decide_eq_true_eq]
    omega
  have ins : (n % 2 ^ (hi + 1 - lo) * 2 ^ lo).testBit i = (decide (lo ≤ i ∧ i ≤ hi) && n.testBit (i - lo)) := by
    rw [Nat.testBit_mul_two_pow, Nat.testBit_mod_two_pow]
    by_cases h : lo ≤ i ∧ i ≤ hi <;> simp [h] <;> omega
  rcases Nat.lt_or_ge i 64 with h | h
  · simp only [setBits, BitVec.getLsbD_or, BitVec.getLsbD_and, BitVec.getLsbD_not, BitVec.getLsbD_ofNat, mask, ins, h]
    by_cases hf : lo ≤ i ∧ i ≤ hi <;> simp [hf]
  · have hf : ¬ (lo ≤ i ∧ i ≤ hi) := by omega
    simp [hf, BitVec.getLsbD_of_ge _ _ h]

/-- The bits of a field are those of the word from the field's lowest on. -/
theorem testBit_bitsOf (w : Word) (hi lo i : Nat) :
    (bitsOf w hi lo).testBit i = (decide (i < hi + 1 - lo) && w.getLsbD (lo + i)) := by
  rw [bitsOf, Nat.testBit_mod_two_pow, Nat.testBit_div_two_pow, BitVec.testBit_toNat, Nat.add_comm i lo]

/-- Bits replaced read as the number, cut to their width. -/
theorem bitsOf_setBits_same (w : Word) (hi lo n : Nat) (h : hi < 64) :
    bitsOf (setBits w hi lo n) hi lo = n % 2 ^ (hi + 1 - lo) := by
  refine Nat.eq_of_testBit_eq fun i => ?_
  rw [testBit_bitsOf, getLsbD_setBits _ _ _ _ _ h, Nat.testBit_mod_two_pow]
  by_cases hi' : i < hi + 1 - lo
  · simp [hi', show lo + i ≤ hi by omega]
  · simp [hi']

/-- Bits replaced leave those of a field apart from them. -/
theorem bitsOf_setBits_apart (w : Word) (hi lo hi' lo' n : Nat) (h : hi < 64) (apart : hi < lo' ∨ hi' < lo) :
    bitsOf (setBits w hi lo n) hi' lo' = bitsOf w hi' lo' := by
  refine Nat.eq_of_testBit_eq fun i => ?_
  rw [testBit_bitsOf, testBit_bitsOf, getLsbD_setBits _ _ _ _ _ h]
  by_cases hf : i < hi' + 1 - lo'
  · rw [if_neg (by omega)]
  · simp [hf]

/-! ## Counters -/

/-- A counter advanced goes up by one, to its largest value at most. -/
theorem fld_bump_same (g : Segment) (f : Fld) (h : f.hi < 64) :
    (g.bump f).fld f = min (2 ^ (f.hi + 1 - f.lo) - 1) (g.fld f + 1) := by
  have fits : sat (f.hi + 1 - f.lo) (g.fld f + 1) < 2 ^ (f.hi + 1 - f.lo) := by
    have pos := Nat.two_pow_pos (f.hi + 1 - f.lo)
    unfold sat; omega
  unfold Segment.bump Segment.bumpBy Segment.setFld
  rw [Segment.fld, reg_setReg_same, bitsOf_setBits_same _ _ _ _ h, Nat.mod_eq_of_lt fits, sat, Nat.min_comm]

/-- A counter advanced leaves the fields of its register that are apart from it. -/
theorem fld_bump_apart (g : Segment) (f x : Fld) (h : f.hi < 64) (off : x.off = f.off) (apart : f.hi < x.lo ∨ x.hi < f.lo) :
    (g.bump f).fld x = g.fld x := by
  unfold Segment.bump Segment.bumpBy Segment.setFld
  rw [Segment.fld, off, reg_setReg_same, bitsOf_setBits_apart _ _ _ _ _ _ h apart, Segment.fld, off]

/-- A counter advanced leaves every other register. -/
theorem reg_bump_ne (g : Segment) (f : Fld) (o : Nat) (h : o ≠ f.off) : (g.bump f).reg o = g.reg o :=
  reg_setReg_ne _ _ _ _ h

/-- A counter advanced leaves the segment but for its registers. -/
theorem bump_without_regs (g : Segment) (f : Fld) : { g.bump f with regs := [] } = { g with regs := [] } := rfl

theorem fld_takeReply (g : Segment) (x : Fld) : g.takeReply.fld x = g.fld x := rfl
theorem reg_takeReply (g : Segment) (o : Nat) : g.takeReply.reg o = g.reg o := rfl

theorem onlyIn_setSeg (s : State) (i : Nat) (g : Segment) : OnlyIn i s (s.setSeg i g) :=
  ⟨n_setSeg s i g, rfl, rfl, rfl, rfl, fun j h => seg_setSeg_ne s i j g h⟩

/-! ## A reply that completes nothing -/

/-- The count of a reply's landing before its tags are looked at: a busy turnaround or another synthetic completion advances a
counter, those then discarded included (Table 2.5). -/
def Segment.countLanding (g : Segment) (f : Flit) : Segment :=
  if !f.synth then g
  else if f.status == csBusy then g.bump F.SEG_TXN_COUNT_BUSY_TURNS
  else g.bump F.SEG_TXN_COUNT_SYNTH_RECEIVED

/-- The landing of a reply is counted nowhere, in BUSY_TURNS or in SYNTH_RECEIVED. -/
theorem countLanding_cases (g : Segment) (f : Flit) :
    g.countLanding f = g ∨ g.countLanding f = g.bump F.SEG_TXN_COUNT_BUSY_TURNS ∨
    g.countLanding f = g.bump F.SEG_TXN_COUNT_SYNTH_RECEIVED := by
  unfold Segment.countLanding
  split
  · exact .inl rfl
  · split
    · exact .inr (.inl rfl)
    · exact .inr (.inr rfl)

@[simp] theorem segId_countLanding (g : Segment) (f : Flit) : (g.countLanding f).segId = g.segId := by
  rcases countLanding_cases g f with h | h | h <;> rw [h] <;> rfl

@[simp] theorem tagMatches_countLanding (g : Segment) (f : Flit) (t : Nat) (c : BitVec 12) :
    (g.countLanding f).tagMatches t c = g.tagMatches t c := by
  rcases countLanding_cases g f with h | h | h <;> rw [h] <;> rfl

theorem fld_countLanding_late (g : Segment) (f : Flit) :
    (g.countLanding f).fld F.SEG_TXN_COUNT_LATE_REPLIES = g.fld F.SEG_TXN_COUNT_LATE_REPLIES := by
  rcases countLanding_cases g f with h | h | h <;> rw [h]
  all_goals exact fld_bump_apart _ _ _ (by decide) rfl (by decide)

theorem reg_countLanding_ne (g : Segment) (f : Flit) (o : Nat) (ho : o ≠ F.SEG_TXN_COUNT_LATE_REPLIES.off) :
    (g.countLanding f).reg o = g.reg o := by
  rcases countLanding_cases g f with h | h | h <;> rw [h]
  all_goals exact reg_bump_ne _ _ _ ho

theorem countLanding_without_regs (g : Segment) (f : Flit) :
    { g.countLanding f with regs := [] } = { g with regs := [] } := by
  rcases countLanding_cases g f with h | h | h <;> rw [h] <;> rfl

/-- A tag that is not held under a context is none that a reply of that context may complete. -/
theorem tagMatches_eq_false (g : Segment) (t : Nat) (c : BitVec 12)
    (h : ∀ id idx ctx d x, g.tag? t = some (.held id idx ctx d x) → ctx ≠ c) : g.tagMatches t c = false := by
  unfold Segment.tagMatches
  split
  · exact beq_eq_false_iff_ne.mpr (h _ _ _ _ _ ‹_›)
  · rfl

/-- A reply none of whose tags it may complete is taken and counted, and nothing else comes of it. -/
theorem execReplyLand_unmatched (s : State) (sg : Fin 8) (bad : Option BadLine) (f : Flit) (rest : List Flit) (ht : Takes s sg)
    (hr : (s.seg sg).txn.replies = f :: rest) (hd : f.dstSeg = (s.seg sg).segId)
    (hm : ∀ i, i ≤ f.span → (s.seg sg).tagMatches (f.tag.toNat + i) f.ctx = false) :
    execReplyLand sg bad s =
      .next (s.setSeg sg (((s.seg sg).takeReply.countLanding f).bump F.SEG_TXN_COUNT_LATE_REPLIES)) := by
  have unmatched : (((List.range (f.span + 1)).map fun i => f.tag.toNat + i).filter fun t =>
      ((s.seg sg).takeReply.countLanding f).tagMatches t f.ctx) = [] := by
    simpa [Nat.lt_succ_iff] using hm
  have here : (f.dstSeg == ((s.seg sg).takeReply.countLanding f).segId) = true := by simp [hd]
  unfold Segment.countLanding at unmatched here ⊢
  rw [execReplyLand, onSeg_takes _ _ _ ht]
  simp only [hr, unmatched, here]

/-- Settles O14: the reply is taken, its landing and its lateness are counted, and every counter touched is a field of the
register of LATE_REPLIES. -/
theorem lateReplyIsCountedAndDropped : Obligations.LateReplyIsCountedAndDropped := by
  intro s sg bad f rest ht hr hd hm
  refine ⟨_, execReplyLand_unmatched s sg bad f rest ht hr hd fun i hi =>
    tagMatches_eq_false _ _ _ fun id idx ctx d x => hm i id idx ctx d x hi, onlyIn_setSeg _ _ _, ?_⟩
  rw [seg_setSeg_same _ _ _ ht.1]
  refine ⟨?_, ?_, fun o ho => ?_⟩
  · rw [fld_bump_same _ _ (by decide), fld_countLanding_late, fld_takeReply]; rfl
  · rw [bump_without_regs, countLanding_without_regs]
  · rw [reg_bump_ne _ _ _ ho, reg_countLanding_ne _ _ _ ho, reg_takeReply]

end Sys2Proof.Machine
end

section
/-! ALU instructions and division (R107), predicate fields out of range (R108), and BR, CALL and RET (R112). -/

namespace Sys2Proof.Machine

open Sys2Proof

section Instructions

variable {s : State} {sg : Fin 8} {c : Fin 18} {f : IFields}

/-! ## Illegal forms (R108) -/

/-- An instruction whose form its frame finds illegal raises EX_ILLEGAL. -/
theorem raises_illegal {i : Instr} {op : BitVec 8} {level : Nat} {ill : Bool}
    {body : State → Core → Res} (hx : Executes s sg c f) (he : exec i s = runCore sg c op level f ill body s) (hi : ill = true) :
    Raises i s sg c op 0x1 0 := by
  subst hi
  exact he.trans (runCore_illegal s sg c f op level body hx)

/-- A compare or predicate instruction is a compare of two words, an operation of two predicates, or PSET. -/
theorem predInstrs_shape : ∀ x ∈ predInstrs,
    (∃ t, ∀ sg c f s, exec (x.2 sg c f) s = cmpOp sg c x.1 f t s) ∨
    (∃ t, ∀ sg c f s, exec (x.2 sg c f) s = predOp sg c x.1 f t s) ∨ x = (0x2B, .pset) := by
  simp only [predInstrs, List.forall_mem_cons]
  refine ⟨.inl ?ceq, .inl ?cne, .inl ?clt, .inl ?cltu, .inl ?cge, .inl ?cgeu, .inr (.inl ?pand), .inr (.inl ?por), .inr (.inl ?pxor),
    .inr (.inr trivial), fun _ h => absurd h List.not_mem_nil⟩
  all_goals
    unfold exec
    exact ⟨_, fun _ _ _ _ => rfl⟩

/-- An operation of two predicates raises EX_ILLEGAL when a field that names a predicate is above 7. -/
theorem predOp_raises {i : Instr} {op : BitVec 8} {t : Bool → Bool → Bool}
    (hx : Executes s sg c f) (he : exec i s = predOp sg c op f t s)
    (h : 7 < f.d.toNat ∨ 7 < f.a.toNat ∨ 7 < f.b.toNat) : Raises i s sg c op 0x1 0 :=
  raises_illegal hx he (by simpa [or_assoc] using h)

/-- PSET is the one of the third shape. -/
theorem exec_pset (sg : Fin 8) (c : Fin 18) (f : IFields) (s : State) : exec (.pset sg c f) s = execPset sg c f s := rfl

/-! ## Jumps (R112) -/

theorem modAt_modAt {α : Type} (l : List α) (i : Nat) (u v : α → α) : modAt (modAt l i u) i v = modAt l i fun x => v (u x) := by
  induction l generalizing i with
  | nil => rfl
  | cons x r ih => cases i with
    | zero => rfl
    | succ n => simp [modAt, ih]

theorem modAt_id {α : Type} (l : List α) (i : Nat) : modAt l i (fun x => x) = l := by
  induction l generalizing i with
  | nil => rfl
  | cons x r ih => cases i with
    | zero => rfl
    | succ n => simp [modAt, ih]

theorem modCore_modCore (g : Segment) (c : Nat) (u v : Core → Core) :
    (g.modCore c u).modCore c v = g.modCore c fun k => v (u k) := by
  simp [Segment.modCore, modAt_modAt]

theorem modCore_id (s : State) (sg c : Nat) : (s.modCore sg c fun k => k) = s :=
  mod_eq_self s sg _ (by simp [Segment.modCore, modAt_id])

/-- A jump is going on from the place before its target. -/
theorem apply_jump (s : State) (sg c : Nat) (op : BitVec 8) (u : Core → Core) (to_ : BitVec 32) (hn : sg < s.n) :
    (Res.jump (s.modCore sg c u) to_).apply sg c op s =
      (Res.go (s.modCore sg c fun k => { u k with pc := to_ - 8 })).apply sg c op s := by
  simp only [Res.apply, State.modCore, mod_mod _ _ _ _ hn, modCore_modCore, BitVec.sub_add_cancel, time_mod]

/-- An instruction that comes to a jump, its own core changed, is a step of that core alone. -/
theorem jump_steps {i : Instr} {op : BitVec 8} (u : Core → Core) {to_ : BitVec 32} (hx : Executes s sg c f) (hs : Settled s sg c)
    (hy : Yields i s sg c op (.jump (s.modCore sg c u) to_)) (ht : ∀ k, (u k).ticket = k.ticket)
    (hp : ∀ k, (u k).stopPending = k.stopPending) (hq : ∀ k, (u k).startTick = k.startTick) :
    Does i s fun t => CoreStep s t sg c { u ((s.seg sg).core c) with pc := to_ } := by
  refine ⟨_, hy, ?_⟩
  rw [apply_jump _ _ _ _ _ _ hx.1.1]
  simpa only [BitVec.sub_add_cancel] using coreStep_go s sg c f op hx hs (fun k => { u k with pc := to_ - 8 }) ht hp hq

/-- What BR comes to. -/
theorem br_yields (hx : Executes s sg c f) : Yields (.br sg c f) s sg c 0x48
    (let to_ := ((s.seg sg).core c).target f
     if to_.toNat % 8 ≠ 0 then .exc 0x3 (BitVec.ofNat 64 to_.toNat) else .jump s to_) := by
  show execBr sg c f s = _
  rw [execBr, runCore_executes _ _ _ _ _ _ _ _ hx rfl (by omega)]
  simp [BitVec.ofNat_toNat]

/-- What CALL comes to. -/
theorem call_yields (hx : Executes s sg c f) : Yields (.call sg c f) s sg c 0x49
    (let to_ := ((s.seg sg).core c).target f
     if to_.toNat % 8 ≠ 0 then .exc 0x3 (BitVec.ofNat 64 to_.toNat)
     else if 32 ≤ ((s.seg sg).core c).rs.length then .exc 0x7 0
     else .jump (s.modCore sg c fun k => { k with rs := k.rs ++ [k.pc + 8] }) to_) := by
  show execCall sg c f s = _
  rw [execCall, runCore_executes _ _ _ _ _ _ _ _ hx rfl (by omega)]
  simp [BitVec.ofNat_toNat]

/-- RET with an empty stack comes to EX_STACK. -/
theorem ret_yields_nil (hx : Executes s sg c f) (h : ((s.seg sg).core c).rs = []) :
    Yields (.ret sg c f) s sg c 0x4A (.exc 0x7 0) := by
  show execRet sg c f s = _
  rw [execRet, runCore_executes _ _ _ _ _ _ _ _ hx rfl (by omega)]
  simp [h]

/-- RET otherwise comes to a jump to the last entry of the stack, which it pops. -/
theorem ret_yields_concat {l : List (BitVec 32)} {to_ : BitVec 32} (hx : Executes s sg c f)
    (h : ((s.seg sg).core c).rs = l ++ [to_]) :
    Yields (.ret sg c f) s sg c 0x4A (.jump (s.modCore sg c fun k => { k with rs := k.rs.dropLast }) to_) := by
  show execRet sg c f s = _
  rw [execRet, runCore_executes _ _ _ _ _ _ _ _ hx rfl (by omega)]
  simp [h]

/-- IMM cut to 32 bits after its sign extension is its value modulo 2^32. -/
theorem simm_truncate (f : IFields) : f.simm.truncate 32 = BitVec.ofInt 32 f.imm.toInt := by
  have low : f.simm.truncate 32 = f.imm.truncate 32 := by
    refine BitVec.eq_of_getLsbD_eq fun i hi => ?_
    simp [IFields.simm, BitVec.getElem_signExtend, hi, show i < 64 by omega, show i < 37 by omega]
  rw [low]
  exact (BitVec.signExtend_eq_setWidth_of_le f.imm (by omega)).symm

/-- The target of BR and CALL is the sum of R112 modulo 2^32. -/
theorem target_eq (k : Core) (f : IFields) :
    k.target f = BitVec.ofInt 32 ((if f.a = 0 then (k.pc.toNat : Int) else ((k.r f.a).toNat : Int)) + f.imm.toInt * 8) := by
  rw [Core.target, simm_truncate, BitVec.ofInt_add, BitVec.ofInt_mul]
  by_cases ha : f.a = 0
  · simp [ha]
  · rw [if_neg ha, if_neg (by simpa using ha)]
    simp

/-! ## ALU instructions (R107) -/

@[simp] theorem st_setR (k : Core) (i : BitVec 5) (v : Word) : (k.setR i v).st = k.st := by unfold Core.setR; split <;> rfl
@[simp] theorem handler_setR (k : Core) (i : BitVec 5) (v : Word) : (k.setR i v).handler = k.handler := by
  unfold Core.setR; split <;> rfl

/-- A register written reads as written where the core has it; g0, and one that the core's registers do not reach, read 0. -/
theorem r_setR_same (k : Core) (i : BitVec 5) (v : Word) :
    (k.setR i v).r i = if i ≠ 0 ∧ i.toNat < k.g.length then v else 0 := by
  by_cases h0 : i = 0
  · subst h0; rfl
  · have written : (k.setR i v).r i = (k.g.set i.toNat v).getD i.toNat 0 := by
      rw [Core.setR, Core.r, if_neg (by simpa using h0), if_neg (by simpa using h0)]
    rw [written]
    by_cases hl : i.toNat < k.g.length
    · rw [if_pos ⟨h0, hl⟩]; simp [hl]
    · rw [if_neg (fun h => hl h.2)]; simp [hl]

/-- Every ALU instruction has the one shape: it writes g[d] from the core's registers. -/
theorem aluInstrs_shape : ∀ x ∈ aluInstrs, ∀ sg c f s, ∃ v, exec (x.2 sg c f) s = aluOp sg c x.1 f v s := by
  simp only [aluInstrs, List.forall_mem_cons]
  and_intros
  on_goal 25 => exact fun _ h => absurd h List.not_mem_nil
  all_goals
    unfold exec
    exact fun _ _ _ _ => ⟨_, rfl⟩

/-- An ALU instruction leaves the core running at the next PC, and nothing in it, or in the segment's registers and fault state,
tells of an exception. -/
theorem alu_raises_nothing {x : BitVec 8 × (Fin 8 → Fin 18 → IFields → Instr)} (hmem : x ∈ aluInstrs) (hx : Executes s sg c f)
    (hs : Settled s sg c) :
    Does (x.2 sg c f) s fun t =>
      ((t.seg sg).core c).st = .running ∧ ((t.seg sg).core c).pc = ((s.seg sg).core c).pc + 8 ∧
      ((t.seg sg).core c).p = ((s.seg sg).core c).p ∧ ((t.seg sg).core c).handler = ((s.seg sg).core c).handler ∧
      (t.seg sg).flt = (s.seg sg).flt ∧
      ∀ off, off ≠ (F.CUR_COUNT_RETIRED.core c).off → (t.seg sg).reg off = (s.seg sg).reg off := by
  obtain ⟨v, he⟩ := aluInstrs_shape x hmem sg c f s
  obtain ⟨t, ht, -, hcore, -, hseg⟩ := aluOp_steps s sg c f x.1 v hx hs
  have running : ((s.seg sg).core c).st = .running := hx.2.1
  refine ⟨t, he.trans ht, ?_, ?_, ?_, ?_, ?_, fun off ho => ?_⟩
  · rw [hcore]; simpa using running
  · rw [hcore]; simp
  · rw [hcore]; simp
  · rw [hcore]; simp
  · exact (congrArg Segment.flt hseg :)
  · exact (congrArg (fun g => g.reg off) hseg).trans (reg_bump_ne _ _ _ ho)

/-- What g[d] holds after an instruction of the ALU's shape. -/
theorem aluOp_result {i : Instr} {op : BitVec 8} (v : Core → Word) (hx : Executes s sg c f) (hs : Settled s sg c)
    (he : exec i s = aluOp sg c op f v s) :
    Does i s fun t => ((t.seg sg).core c).r f.d =
      if f.d ≠ 0 ∧ f.d.toNat < ((s.seg sg).core c).g.length then v ((s.seg sg).core c) else 0 := by
  obtain ⟨t, ht, -, hcore, -⟩ := aluOp_steps s sg c f op v hx hs
  refine ⟨t, he.trans ht, ?_⟩
  rw [← r_setR_same]
  exact congrArg (fun k => k.r f.d) hcore

/-- A register that the core has then holds the value. -/
theorem aluOp_writes {i : Instr} {op : BitVec 8} (v : Core → Word) (hx : Executes s sg c f) (hs : Settled s sg c)
    (he : exec i s = aluOp sg c op f v s) (hd : f.d ≠ 0) (hl : f.d.toNat < ((s.seg sg).core c).g.length) :
    Does i s fun t => ((t.seg sg).core c).r f.d = v ((s.seg sg).core c) := by
  simpa only [if_pos (And.intro hd hl)] using aluOp_result v hx hs he

/-- What follows from an outcome is one. -/
theorem does_mono {i : Instr} {P Q : State → Prop} (h : Does i s P) (himp : ∀ t, P t → Q t) : Does i s Q :=
  h.imp fun t ht => ⟨ht.1, himp t ht.2⟩

/-- A signed quotient that does not overflow is rounded toward zero. -/
theorem toInt_divS (a b : Word) (hb : b ≠ 0) (h : ¬ (a = BitVec.ofInt 64 (-2 ^ 63) ∧ b = BitVec.ofInt 64 (-1))) :
    (divS a b).toInt = a.toInt.tdiv b.toInt := by
  rw [divS, if_neg (by simpa using hb)]
  exact BitVec.toInt_sdiv_of_ne_or_ne a b (not_and_or.mp h)

/-- A signed remainder goes with the quotient rounded toward zero. -/
theorem toInt_remS (a b : Word) (hb : b ≠ 0) : (remS a b).toInt = a.toInt.tmod b.toInt := by
  rw [remS, if_neg (by simpa using hb), BitVec.toInt_srem]

/-- R107 on a core whose registers reach g[d]: what the four divisions leave there. -/
theorem division_of_register (hx : Executes s sg c f) (hs : Settled s sg c) (hd : f.d ≠ 0)
    (hl : f.d.toNat < ((s.seg sg).core c).g.length) :
    (((s.seg sg).core c).b' f = 0 →
       Does (.div sg c f) s (fun t => ((t.seg sg).core c).r f.d = BitVec.allOnes 64) ∧
       Does (.divu sg c f) s (fun t => ((t.seg sg).core c).r f.d = BitVec.allOnes 64) ∧
       Does (.rem sg c f) s (fun t => ((t.seg sg).core c).r f.d = ((s.seg sg).core c).r f.a) ∧
       Does (.remu sg c f) s fun t => ((t.seg sg).core c).r f.d = ((s.seg sg).core c).r f.a) ∧
     (((s.seg sg).core c).r f.a = BitVec.ofInt 64 (-2 ^ 63) → ((s.seg sg).core c).b' f = BitVec.ofInt 64 (-1) →
       Does (.div sg c f) s (fun t => ((t.seg sg).core c).r f.d = BitVec.ofInt 64 (-2 ^ 63)) ∧
       Does (.rem sg c f) s fun t => ((t.seg sg).core c).r f.d = 0) ∧
     (((s.seg sg).core c).b' f ≠ 0 → ¬(((s.seg sg).core c).r f.a = BitVec.ofInt 64 (-2 ^ 63) ∧ ((s.seg sg).core c).b' f = BitVec.ofInt 64 (-1)) →
       Does (.div sg c f) s (fun t =>
         (((t.seg sg).core c).r f.d).toInt = (((s.seg sg).core c).r f.a).toInt.tdiv (((s.seg sg).core c).b' f).toInt) ∧
       Does (.rem sg c f) s fun t =>
         (((t.seg sg).core c).r f.d).toInt = (((s.seg sg).core c).r f.a).toInt.tmod (((s.seg sg).core c).b' f).toInt) := by
  have div := aluOp_writes (i := .div sg c f) (fun k => divS (k.r f.a) (k.b' f)) hx hs rfl hd hl
  have divu := aluOp_writes (i := .divu sg c f) (fun k => divU (k.r f.a) (k.b' f)) hx hs rfl hd hl
  have rem := aluOp_writes (i := .rem sg c f) (fun k => remS (k.r f.a) (k.b' f)) hx hs rfl hd hl
  have remu := aluOp_writes (i := .remu sg c f) (fun k => remU (k.r f.a) (k.b' f)) hx hs rfl hd hl
  refine ⟨fun zero => ?_, fun least minusOne => ?_, fun nonzero fits => ?_⟩
  · rw [zero] at div divu rem remu
    exact ⟨div, divu, rem, remu⟩
  · rw [least, minusOne] at div rem
    exact ⟨div, rem⟩
  · exact ⟨does_mono div fun t h => h ▸ toInt_divS _ _ nonzero fits, does_mono rem fun t h => h ▸ toInt_remS _ _ nonzero⟩

/-- A command has one outcome. -/
theorem does_unique {i : Instr} {P Q : State → Prop} (hP : Does i s P) (hQ : Does i s Q) : ∃ t, P t ∧ Q t := by
  obtain ⟨t, ht, hp⟩ := hP
  obtain ⟨u, hu, hq⟩ := hQ
  obtain rfl : t = u := Host.Outcome.next.inj (ht.symm.trans hu)
  exact ⟨t, hp, hq⟩

end Instructions

/-! ## The statements -/

/-- Settles O19: in each of the three shapes the frame's test for an illegal form looks at the field. -/
theorem predicateRangeIsIllegal : Obligations.PredicateRangeIsIllegal := by
  refine ⟨fun x hmem s sg c f hx hd => ?_, fun s sg c f hx h => ?_⟩
  · obtain ⟨t, he⟩ | ⟨t, he⟩ | rfl := predInstrs_shape x hmem
    · exact raises_illegal hx (he sg c f s) (by simpa using hd)
    · exact predOp_raises hx (he sg c f s) (.inl hd)
    · exact raises_illegal hx (exec_pset sg c f s) (by simpa using hd)
  · exact ⟨predOp_raises hx rfl (.inr h), predOp_raises hx rfl (.inr h), predOp_raises hx rfl (.inr h)⟩

/-- The reset package with its clock running and courier 0 of segment 0 running, the list of whose general registers is empty. -/
def bareCourier : State :=
  State.reset.mod 0 fun g => ({ g with boot := { g.boot with pllAt := some 0 } } : Segment).modCore 0 fun k =>
    { k with st := .running, pc := 0x10000, codeLimit := 0x20000, g := [] }

/-- The fields of an instruction on g1, from g0 and IMM 0. -/
def toG1 : IFields := { d := 1, a := 0, b := 0, pred := 0, inv := false, imm := 0 }

theorem bareCourier_executes : Executes bareCourier 0 0 toG1 ∧ Settled bareCourier 0 0 := by decide +kernel

/-- Refutes O17: no hypothesis says that the core has its 32 registers. On a courier whose list of registers is empty DIV by zero
discards its result, and g1 reads 0. Only this fails: a core that has the register behaves as `division_of_register` says, and
every core as `alu_raises_nothing`. -/
theorem not_divisionAndNoAluTrap : ¬ Obligations.DivisionAndNoAluTrap := by
  intro ⟨_, division⟩
  obtain ⟨hx, hs⟩ := bareCourier_executes
  have byZero : ((bareCourier.seg (0 : Fin 8)).core (0 : Fin 18)).b' toG1 = 0 := by decide +kernel
  have ones := (division bareCourier 0 0 toG1 hx hs (by decide)).1 byZero |>.1
  have zero := aluOp_result (i := .div 0 0 toG1) (fun k => divS (k.r toG1.a) (k.b' toG1)) hx hs rfl
  obtain ⟨t, isOnes, isZero⟩ := does_unique ones zero
  have noRegister : ¬ (toG1.d ≠ 0 ∧ toG1.d.toNat < ((bareCourier.seg (0 : Fin 8)).core (0 : Fin 18)).g.length) := by decide +kernel
  rw [if_neg noRegister] at isZero
  exact absurd (isOnes.symm.trans isZero) (by decide)

/-- Settles O23: what each of the three comes to is a jump, which is a step of the core alone, or the exception. -/
theorem branchTargets : Obligations.BranchTargets := by
  refine ⟨fun s sg c f to_ hx ht => ?_, fun s sg c f hx => ⟨ret_yields_nil hx, fun l to_ hl hs => ?_⟩⟩
  · rw [← target_eq] at ht
    subst ht
    have br := br_yields hx
    have call := call_yields hx
    refine ⟨fun misaligned => ?_, fun aligned => ⟨fun hs => ?_, fun full => ?_, fun room hs => ?_⟩⟩
    · simp only [misaligned, ne_eq, not_false_eq_true, if_true] at br call
      exact ⟨br, call⟩
    · simp only [aligned, ne_eq, not_true_eq_false, if_false] at br
      exact jump_steps (fun k => k) hx hs (by rwa [modCore_id]) (fun _ => rfl) (fun _ => rfl) (fun _ => rfl)
    · simp only [aligned, full, ne_eq, not_true_eq_false, if_false, if_true] at call
      exact call
    · simp only [aligned, Nat.not_le.mpr room, ne_eq, not_true_eq_false, if_false] at call
      exact jump_steps (fun k => { k with rs := k.rs ++ [k.pc + 8] }) hx hs call (fun _ => rfl) (fun _ => rfl) (fun _ => rfl)
  · simpa [hl] using jump_steps (fun k => { k with rs := k.rs.dropLast }) hx hs (ret_yields_concat hx hl) (fun _ => rfl)
      (fun _ => rfl) (fun _ => rfl)

end Sys2Proof.Machine
end

section
/-! Signed zeros in the formats (R275, R280), and the blocks of non-finite lanes and of negative zeros (R257, R277). -/

namespace Sys2Proof.Machine

open Sys2Proof

/-! ## The two zeros of a format -/

/-- Every rounding of a zero has its sign. -/
@[simp] theorem FFmt.encode_zero (f : FFmt) (neg : Bool) (e : Int) (mode : Round) : f.encode (.fin neg 0 e) mode = f.pack neg 0 := by
  simp [FFmt.encode, FFmt.roundCode]

/-- A zero is read with its sign, at the exponent of the subnormal numbers. -/
@[simp] theorem FFmt.decode_pack_zero (f : FFmt) (neg : Bool) : f.decode (f.pack neg 0) = .fin neg 0 (1 - (f.bias : Int) - f.mb) := by
  have pos : 0 < 2 ^ (f.eb + f.mb) := Nat.two_pow_pos _
  cases neg <;> simp [FFmt.decode, FFmt.pack, Nat.div_self pos]

theorem FFmt.pack_zero_eq_zero_iff (f : FFmt) (neg : Bool) : f.pack neg 0 = 0 ↔ neg = false := by
  cases neg <;> simp [FFmt.pack]

/-- The maximum of two zeros is negative only where both are. -/
@[simp] theorem FFmt.max_zeros (f : FFmt) (s t : Bool) : f.max (f.pack s 0) (f.pack t 0) = f.pack (s && t) 0 := by
  cases s <;> cases t <;> simp [FFmt.max, FVal.max, FVal.isNan, FVal.lt]

/-- The sum of two zeros is negative only where both are. -/
@[simp] theorem FFmt.add_zeros (f : FFmt) (s t : Bool) : f.add (f.pack s 0) (f.pack t 0) = f.pack (s && t) 0 := by
  simp [FFmt.add, FVal.add]

/-- A step of MAX over zeros, from the sign of each: a zero of the carry format, negative only where every operand is. -/
theorem stepLane_max_zeros (d : CDesc) (rank e : Nat) (neg : Bool) (signs : List Bool) (hmax : d.redop = 2)
    (hcarry : d.carryF = 1 ∨ d.carryF = 3) :
    d.stepLane rank e ((neg :: signs).map (d.cf.pack · 0)) = d.cf.pack (signs.foldl (· && ·) neg) 0 := by
  have fold : signs.foldl (fun acc s => FFmt.b32.max acc (FFmt.b32.pack s 0)) (FFmt.b32.pack neg 0) =
      FFmt.b32.pack (signs.foldl (· && ·) neg) 0 :=
    List.foldl_hom (FFmt.b32.pack · 0) fun s t => FFmt.max_zeros _ s t
  rcases hcarry with h | h
  · have cf : d.cf = .b32 := by simp [CDesc.cf, h, fmtOf]
    simp [CDesc.stepLane, CDesc.isInt, h, hmax, floatOp, cf, List.foldl_map, fold]
  · simp [CDesc.stepLane, CDesc.isInt, h, hmax, floatOp, List.foldl_map, fold]

/-- Numbers that are each a zero of the format are the zeros of some signs. -/
theorem exists_signs_of_zeros (f : FFmt) (vals : List Nat) (h : ∀ v ∈ vals, v = 0 ∨ v = 2 ^ (f.eb + f.mb)) :
    ∃ signs : List Bool, signs.map (f.pack · 0) = vals := by
  have inRange : ∀ v ∈ vals, v ∈ Set.range (f.pack · 0) := fun v hv => (h v hv).elim (fun e => ⟨false, e.symm⟩) fun e => ⟨true, e.symm⟩
  rwa [← Set.mem_range, Set.range_list_map]

/-- A fold of conjunctions is false where one of its members is. -/
theorem foldl_and_of_false_mem (neg : Bool) (signs : List Bool) (h : false ∈ neg :: signs) : signs.foldl (· && ·) neg = false := by
  induction signs generalizing neg with
  | nil => simpa using h
  | cons t signs ih =>
    have h' : false ∈ (neg && t) :: signs := by simpa [-Bool.and_eq_false_imp, Bool.and_eq_false_iff, or_assoc] using h
    exact ih _ h'

/-! ## Rides -/

/-- A ride adds the low halves of its words in binary32. -/
theorem rideOp_fadd (a b : Word) :
    rideOp 8 a b = BitVec.ofNat 64 (FFmt.b32.add (a &&& 0xFFFFFFFF).toNat (b &&& 0xFFFFFFFF).toNat) := by
  have low (w : Word) : (w &&& 0xFFFFFFFF).toNat = w.toNat % 2 ^ 32 := by
    rw [BitVec.toNat_and]; exact Nat.and_two_pow_sub_one_eq_mod _ 32
  rw [low, low]; rfl

/-- R280: a ride of FADD over words whose low halves are −0. -/
theorem rideAll_fadd_negZeros (v : Word) (vs : List Word) (h : ∀ w ∈ v :: vs, w &&& 0xFFFFFFFF = 0x80000000) :
    rideAll 8 (v :: vs) = 0x80000000 := by
  have sum : FFmt.b32.add 0x80000000 0x80000000 = 0x80000000 := FFmt.b32.add_zeros true true
  have keeps : ∀ acc : Word, acc = 0x80000000 → ∀ w ∈ vs, rideOp 8 acc w = 0x80000000 := by
    rintro _ rfl w hw
    rw [rideOp_fadd, h w (List.mem_cons_of_mem _ hw)]
    exact congrArg (BitVec.ofNat 64) sum
  exact List.foldlRecOn vs (motive := (· = 0x80000000)) (rideOp 8) (h v List.mem_cons_self) keeps

theorem rideSpoiled_fadd_negZero : rideSpoiled 8 0x80000000 = false := by
  have zero : FFmt.b32.decode 0x80000000 = _ := FFmt.b32.decode_pack_zero true
  simp [rideSpoiled, zero, FVal.isFinite]

/-! ## Blocks of zero elements -/

@[simp] theorem packBits_zeros (w n : Nat) : packBits w (List.replicate n 0) = 0 := by
  induction n with
  | zero => rfl
  | succ n ih =>
    rw [packBits] at ih ⊢
    simp [List.replicate_succ, ih]

@[simp] theorem natBytes_zero (k : Nat) : natBytes 0 k = List.replicate k 0 := by
  induction k with
  | zero => rfl
  | succ k ih => simp [natBytes, ih, List.replicate_succ]

@[simp] theorem bytesNat_zeros (n : Nat) : bytesNat (List.replicate n 0#8) = 0 := by
  induction n with
  | zero => rfl
  | succ n ih =>
    rw [bytesNat] at ih ⊢
    simp [List.replicate_succ, ih]

/-- R257: with a lane that is not finite among the first 32, the scale is 0xFF and the elements are zeros. -/
theorem encodeBlock_of_nonfinite (code : Nat) (lanes : List (Option FVal)) (mode : Nat → Round) (v : FVal) (hv : some v ∈ lanes)
    (bad : v.isFinite = false) (hl : lanes.length ≤ 32) :
    (encodeBlock code lanes mode).bytes = 0xFF :: List.replicate (4 * blockElemBits code) 0 := by
  have here : some v ∈ (lanes ++ List.replicate 32 none).take 32 := by
    rw [List.take_append, List.take_of_length_le hl]
    exact List.mem_append_left _ hv
  rw [encodeBlock, if_pos (List.any_eq_true.mpr ⟨some v, here, by simp [bad]⟩)]
  simp only [packBits_zeros, natBytes_zero]

/-- R256, R277: where every present lane is a zero, the scale is 0 and the elements are zeros. -/
theorem encodeBlock_of_zeros (code : Nat) (lanes : List (Option FVal)) (mode : Nat → Round)
    (zeros : ∀ v, some v ∈ lanes → ∃ neg e, v = .fin neg 0 e) :
    (encodeBlock code lanes mode).bytes = 0 :: List.replicate (4 * blockElemBits code) 0 := by
  have padded : ∀ l ∈ (lanes ++ List.replicate 32 none).take 32, l = none ∨ ∃ neg e, l = some (.fin neg 0 e) := by
    intro l hl
    rcases List.mem_append.mp (List.mem_of_mem_take hl) with h | h
    · cases l with
      | none => exact .inl rfl
      | some v => obtain ⟨neg, e, rfl⟩ := zeros v h; exact .inr ⟨neg, e, rfl⟩
    · exact .inl (List.eq_of_mem_replicate h)
  have noScale : blockScale code ((lanes ++ List.replicate 32 none).take 32) = none := by
    rw [blockScale, List.filterMap_eq_nil_iff.mpr fun l hl => ?_]
    obtain rfl | ⟨neg, e, rfl⟩ := padded l hl <;> simp [FVal.isZero]
  rw [encodeBlock, if_neg, noScale]
  · simp only [packBits_zeros, natBytes_zero]
  · rw [Bool.not_eq_true, List.any_eq_false]
    intro l hl
    obtain rfl | ⟨neg, e, rfl⟩ := padded l hl <;> simp [FVal.isFinite]

/-- R258: the scale 0xFF makes a NaN of every element. -/
theorem decodeBlock_nanScale (code : Nat) (bs : List Byte) : decodeBlock code (0xFF :: bs) = List.replicate 32 .nan := by
  simp [decodeBlock, List.map_const']

/-- The element of zero bits is +0 in every block-scaled code. -/
theorem decodeElem_zero (code : Nat) : ∃ e, decodeElem code 0 = .fin false 0 e := by
  cases h : blockElem code with
  | none => exact ⟨-6, by simp [decodeElem, h]⟩
  | some f => exact ⟨_, by simpa [decodeElem, h, FFmt.pack] using f.decode_pack_zero false⟩

/-- The elements of a block of zero bytes are positive zeros. -/
theorem decodeBlock_zeros (code n : Nat) : ∃ e, decodeBlock code (0 :: List.replicate n 0) = List.replicate 32 (.fin false 0 e) := by
  obtain ⟨e, he⟩ := decodeElem_zero code
  refine ⟨e - 127, ?_⟩
  have element : (decodeElem code 0).scale 127 = .fin false 0 (e - 127) := by rw [he]; rfl
  simp [decodeBlock, element]

/-! ## The statements -/

/-- Settles O54: the elements of both blocks are zero bits, which the scale 0xFF makes NaNs and the scale 0 leaves +0. -/
theorem blocksOfSpecialLanes : Obligations.BlocksOfSpecialLanes := by
  intro code lanes mode cf r _ hl _
  refine ⟨fun ⟨v, hv, bad⟩ => ?_, fun negZeros => ?_⟩
  · have bytes := encodeBlock_of_nonfinite code lanes mode v hv bad hl
    refine ⟨bytes, ?_⟩
    rw [bytes, decodeBlock_nanScale, List.map_replicate]
    rfl
  · have bytes := encodeBlock_of_zeros code lanes mode fun v hv => ⟨true, negZeros v hv⟩
    obtain ⟨e, decoded⟩ := decodeBlock_zeros code (4 * blockElemBits code)
    refine ⟨bytes, ?_⟩
    rw [bytes, decoded, List.map_replicate, cf.encode_zero]
    rfl

/-- Settles O55: the maximum and the sum of zeros have the conjunction of their signs. -/
theorem zerosKeepTheirSigns : Obligations.ZerosKeepTheirSigns := by
  refine ⟨fun d rank e vals hmax hcarry hzeros hmem => ?_, fun vals hne hlow => ?_⟩
  · obtain ⟨signs, rfl⟩ := exists_signs_of_zeros d.cf vals hzeros
    obtain ⟨neg, hneg, hz⟩ := List.mem_map.mp hmem
    obtain rfl := (d.cf.pack_zero_eq_zero_iff neg).mp hz
    cases signs with
    | nil => exact absurd hneg List.not_mem_nil
    | cons s signs =>
      rw [stepLane_max_zeros d rank e s signs hmax hcarry, foldl_and_of_false_mem s signs hneg]
      rfl
  · cases vals with
    | nil => exact absurd rfl hne
    | cons v vs =>
      rw [rideAll_fadd_negZeros v vs hlow]
      exact ⟨rfl, rideSpoiled_fadd_negZero⟩

end Sys2Proof.Machine
end

section
/-! The throttle's update after a recent cut (R341, R356). -/

namespace Sys2Proof.Machine

open Sys2Proof

/-- The deflected and the assigned flits of each period that the throttle's update looks at, the one that ends first (R341). -/
def Segment.periods (g : Segment) : List (Nat × Nat) := ((g.rte.defl, g.rte.asgn) :: g.rte.hist).take 10

/-- The largest occupancy that a landing buffer has now (R341). -/
def Segment.occNow (g : Segment) : Nat := g.ports.foldl (fun n p => max n p.land.length) 0

/-- The throttle is hot: a landing buffer was fuller than its limit, or too many of the assigned flits were deflected (R341). -/
def Segment.ThrottleHot (g : Segment) : Prop :=
  max 1 (g.fld F.RTE_THROTTLE_CTRL_OCC_LIMIT) < max g.rte.occMax g.occNow ∨
  0 < g.periods.foldl (fun n x => n + x.2) 0 ∧
    g.fld F.RTE_THROTTLE_CTRL_DEFL_LIMIT * g.periods.foldl (fun n x => n + x.2) 0 < g.periods.foldl (fun n x => n + x.1) 0 * 256

/-- The segment whose throttle begins a period at a tick with RATE as it was: the period that ends joins those before it, and the
counts of the new one start. -/
def Segment.nextPeriod (g : Segment) (tick : Nat) : Segment :=
  { g with rte := { g.rte with hist := g.periods, defl := 0, asgn := 0, occMax := g.occNow, updateAt := tick / 50 * 50 } }

@[simp] theorem fld_nextPeriod (g : Segment) (tick : Nat) (x : Fld) : (g.nextPeriod tick).fld x = g.fld x := fld_with_rte _ _ _

@[simp] theorem fld_rollBudget (g : Segment) (cycle : Nat) (x : Fld) : (g.rollBudget cycle).fld x = g.fld x := fld_with_rte _ _ _

/-- A due update of a hot throttle, with a cut in the last 500 ticks, begins a period and does nothing else: a throttle that is not
enabled has no change of RATE to make, and one that is may neither cut nor raise it. -/
theorem execThrottleUpdate_hot_after_cut (s : State) (sg : Fin 8) (g : Segment) (cut : Nat) (takes : Takes s sg)
    (hg : g = (s.seg sg).rollBudget s.time) (due : g.rte.updateAt + 50 ≤ s.tick) (hot : g.ThrottleHot)
    (hcut : g.rte.lastCut = some cut) (recent : s.tick - cut < 500) :
    execThrottleUpdate sg s = .next (s.setSeg sg (g.nextPeriod s.tick)) := by
  subst hg
  rw [execThrottleUpdate, onSeg_takes _ _ _ takes]
  dsimp only
  rw [if_neg (Nat.not_lt.mpr due)]
  split
  next disabled => rfl
  next enabled =>
    rw [if_pos (by simp only [Bool.or_eq_true, Bool.and_eq_true, decide_eq_true_eq]; exact hot),
      if_neg (by simpa [hcut] using recent)]
    rfl

/-- Settles O53: the update begins a period of the throttle, which leaves every field of every register. -/
theorem throttleHoldsRate : Obligations.ThrottleHoldsRate := by
  rintro s sg g _ _ cut takes hg due rfl rfl hot hcut recent
  refine ⟨_, execThrottleUpdate_hot_after_cut s sg g cut takes hg due hot hcut recent, ?_⟩
  simp [seg_setSeg_same _ _ _ takes.1, hg]

end Sys2Proof.Machine
end

section
/-! The wake timers of the keeper and the steward (R14, R442). -/

namespace Sys2Proof.Machine

open Sys2Proof

/-- The core's domain wakes, and the timer is cleared (R442). -/
theorem timer_of_reached {g : Segment} {tick : Nat} {f : Fld} (d : Nat) (unwritten : g.swWrote f.off = none) (running : g.fld f ≠ 0)
    (reached : g.fld f ≤ tick) : g.timer tick f d = (g.setFld f 0).wakeDom tick d := by
  simp [Segment.timer, unwritten, running, reached]

/-- A timer that is off, or whose tick is still to come, does nothing. -/
theorem timer_of_idle {g : Segment} {tick : Nat} {f : Fld} (d : Nat) (unwritten : g.swWrote f.off = none)
    (idle : g.fld f = 0 ∨ tick < g.fld f) : g.timer tick f d = g := by
  simp only [Segment.timer, unwritten]
  refine if_neg ?_
  simp only [Bool.and_eq_true, bne_iff_ne, decide_eq_true_eq]
  omega

/-- In a cycle in which software writes the timer, the value before the write wakes the domain, and the
timer is not cleared (R14). -/
theorem timer_of_written {g : Segment} {tick : Nat} {f : Fld} {w : SwWrite} (d : Nat) (written : g.swWrote f.off = some w)
    (running : w.old ≠ 0) (reached : w.old.toNat ≤ tick) : g.timer tick f d = g.wakeDom tick d := by
  simp only [Segment.timer, written]
  exact if_pos (by simpa using ⟨running, reached⟩)

/-- KEEPER_TIMER is the timer of PWR_TIMER_K on the keeper's domain. -/
theorem actsOn_keeperTimer {s : State} {sg : Fin 8} {u : Segment → Segment} (takes : Takes s sg)
    (h : (s.seg sg).timer s.tick F.PWR_TIMER_K_TICK domKeeper = u (s.seg sg)) : ActsOn (.keeperTimer sg) s sg u := by
  rw [ActsOn, ← h]
  exact (onSeg_takes sg s _ takes : execKeeperTimer sg s = _)

/-- STEWARD_TIMER is the timer of PWR_TIMER_S on the steward's domain. -/
theorem actsOn_stewardTimer {s : State} {sg : Fin 8} {u : Segment → Segment} (takes : Takes s sg)
    (h : (s.seg sg).timer s.tick F.PWR_TIMER_S_TICK domSteward = u (s.seg sg)) : ActsOn (.stewardTimer sg) s sg u := by
  rw [ActsOn, ← h]
  exact (onSeg_takes sg s _ takes : execStewardTimer sg s = _)

/-- Settles O52: for each of the two timers, the cases of a timer that is reached, one that is idle and one that is written. -/
theorem wakeTimersFire : Obligations.WakeTimersFire := by
  intro s sg takes
  refine ⟨fun unwritten => ⟨fun running reached => ?_, fun idle => ?_⟩,
    fun unwritten => ⟨fun running reached => ?_, fun idle => ?_⟩,
    fun w written running reached => ?_, fun w written running reached => ?_⟩
  · exact actsOn_keeperTimer takes (timer_of_reached domKeeper unwritten running reached)
  · exact actsOn_keeperTimer takes (timer_of_idle domKeeper unwritten idle)
  · exact actsOn_stewardTimer takes (timer_of_reached domSteward unwritten running reached)
  · exact actsOn_stewardTimer takes (timer_of_idle domSteward unwritten idle)
  · exact actsOn_keeperTimer takes (timer_of_written domKeeper written running reached)
  · exact actsOn_stewardTimer takes (timer_of_written domSteward written running reached)

end Sys2Proof.Machine
end

section
/-! What `exec` runs for a command: the equation of each arm. -/

namespace Sys2Proof.Machine

open Sys2Proof

theorem exec_pllLock : ∀ sg s, exec (.pllLock sg) s = execPllLock sg s := fun _ _ => rfl
theorem exec_pllLossOfLock : ∀ sg s, exec (.pllLossOfLock sg) s = execPllLossOfLock sg s := fun _ _ => rfl
theorem exec_selfTestDone : ∀ sg rows badCheckers voterBad s, exec (.selfTestDone sg rows badCheckers voterBad) s = execSelfTestDone sg rows badCheckers voterBad s := fun _ _ _ _ _ => rfl
theorem exec_memoryClearDone : ∀ sg s, exec (.memoryClearDone sg) s = execMemoryClearDone sg s := fun _ _ => rfl
theorem exec_bootGo : ∀ sg ag s, exec (.bootGo sg ag) s = execBootGo sg ag s := fun _ _ _ => rfl
theorem exec_imageWrite : ∀ off data s, exec (.imageWrite off data) s = execImageWrite off data s := fun _ _ _ => rfl
theorem exec_imageGo : ∀ s, exec .imageGo s = execImageGo s := fun _ => rfl
theorem exec_imageLoad : ∀ sg off data last s, exec (.imageLoad sg off data last) s = execImageLoad sg off data last s := fun _ _ _ _ _ => rfl
theorem exec_stewardReady : ∀ sg ag s, exec (.stewardReady sg ag) s = execStewardReady sg ag s := fun _ _ _ => rfl
theorem exec_stewardReadyTimeout : ∀ sg s, exec (.stewardReadyTimeout sg) s = execStewardReadyTimeout sg s := fun _ _ => rfl
theorem exec_segBootAreaWrite : ∀ sg ag sz v s, exec (.segBootAreaWrite sg ag sz v) s = execSegBootAreaWrite sg ag sz v s := fun _ _ _ _ _ => rfl
theorem exec_warmResetRequest : ∀ sg s, exec (.warmResetRequest sg) s = execWarmResetRequest sg s := fun _ _ => rfl
theorem exec_scrubLimitExpiry : ∀ sg s, exec (.scrubLimitExpiry sg) s = execScrubLimitExpiry sg s := fun _ _ => rfl
theorem exec_segResetWarm : ∀ sg ag s, exec (.segResetWarm sg ag) s = execSegResetWarm sg ag s := fun _ _ _ => rfl
theorem exec_partialReset : ∀ sg ag domain s, exec (.partialReset sg ag domain) s = execPartialReset sg ag domain s := fun _ _ _ _ => rfl
theorem exec_stewardUpdate : ∀ sg ch s, exec (.stewardUpdate sg ch) s = execStewardUpdate sg ch s := fun _ _ _ => rfl
theorem exec_prepare : ∀ sg s, exec (.prepare sg) s = execPrepare sg s := fun _ _ => rfl
theorem exec_dispatchResumeLimit : ∀ sg s, exec (.dispatchResumeLimit sg) s = execDispatchResumeLimit sg s := fun _ _ => rfl
theorem exec_keeperUpdate : ∀ sg ch s, exec (.keeperUpdate sg ch) s = execKeeperUpdate sg ch s := fun _ _ _ => rfl
theorem exec_segNodeidWrite : ∀ sg ag sz v s, exec (.segNodeidWrite sg ag sz v) s = execSegNodeidWrite sg ag sz v s := fun _ _ _ _ _ => rfl
theorem exec_bridgeFlitLand : ∀ sg x s, exec (.bridgeFlitLand sg x) s = execBridgeFlitLand sg x s := fun _ _ _ => rfl
theorem exec_bridgeCredit : ∀ sg b s, exec (.bridgeCredit sg b) s = execBridgeCredit sg b s := fun _ _ _ => rfl
theorem exec_bridgeParityError : ∀ sg b lane s, exec (.bridgeParityError sg b lane) s = execBridgeParityError sg b lane s := fun _ _ _ _ => rfl
theorem exec_bridgeResetMessage : ∀ sg b s, exec (.bridgeResetMessage sg b) s = execBridgeResetMessage sg b s := fun _ _ _ => rfl
theorem exec_bridgeLinkUp : ∀ sg x s, exec (.bridgeLinkUp sg x) s = execBridgeLinkUp sg x s := fun _ _ _ => rfl
theorem exec_bridgeRetry : ∀ sg b ag s, exec (.bridgeRetry sg b ag) s = execBridgeRetry sg b ag s := fun _ _ _ _ => rfl
theorem exec_dptWrite : ∀ sg req s, exec (.dptWrite sg req) s = execDptWrite sg req s := fun _ _ _ => rfl
theorem exec_dptRead : ∀ sg req s, exec (.dptRead sg req) s = execDptRead sg req s := fun _ _ _ => rfl
theorem exec_dptControlAccess : ∀ sg write req s, exec (.dptControlAccess sg write req) s = execDptControlAccess sg write req s := fun _ _ _ _ => rfl
theorem exec_dpmResponse : ∀ sg ch id status s, exec (.dpmResponse sg ch id status) s = execDpmResponse sg ch id status s := fun _ _ _ _ _ => rfl
theorem exec_dpmTimeout : ∀ sg ch id s, exec (.dpmTimeout sg ch id) s = execDpmTimeout sg ch id s := fun _ _ _ _ => rfl
theorem exec_requestIssue : ∀ sg req s, exec (.requestIssue sg req) s = execRequestIssue sg req s := fun _ _ _ => rfl
theorem exec_homeExecute : ∀ sg idx s, exec (.homeExecute sg idx) s = execHomeExecute sg idx s := fun _ _ _ => rfl
theorem exec_guardFill : ∀ sg region st s, exec (.guardFill sg region st) s = execGuardFill sg region st s := fun _ _ _ _ => rfl
theorem exec_atomicExecute : ∀ sg idx bad s, exec (.atomicExecute sg idx bad) s = execAtomicExecute sg idx bad s := fun _ _ _ _ => rfl
theorem exec_controlAtomAccess : ∀ sg idx s, exec (.controlAtomAccess sg idx) s = execControlAtomAccess sg idx s := fun _ _ _ => rfl
theorem exec_cpyExecute : ∀ sg idx bad s, exec (.cpyExecute sg idx bad) s = execCpyExecute sg idx bad s := fun _ _ _ _ => rfl
theorem exec_fwdWrExecute : ∀ sg idx s, exec (.fwdWrExecute sg idx) s = execFwdWrExecute sg idx s := fun _ _ _ => rfl
theorem exec_replyLand : ∀ sg bad s, exec (.replyLand sg bad) s = execReplyLand sg bad s := fun _ _ _ => rfl
theorem exec_tagTimeout : ∀ sg tag s, exec (.tagTimeout sg tag) s = execTagTimeout sg tag s := fun _ _ _ => rfl
theorem exec_tagQuarantineEnd : ∀ sg tag s, exec (.tagQuarantineEnd sg tag) s = execTagQuarantineEnd sg tag s := fun _ _ _ => rfl
theorem exec_busyRetry : ∀ sg req s, exec (.busyRetry sg req) s = execBusyRetry sg req s := fun _ _ _ => rfl
theorem exec_mergeFlushAge : ∀ sg idx bad s, exec (.mergeFlushAge sg idx bad) s = execMergeFlushAge sg idx bad s := fun _ _ _ _ => rfl
theorem exec_mergeFlushCmd : ∀ sg ag s, exec (.mergeFlushCmd sg ag) s = execMergeFlushCmd sg ag s := fun _ _ _ => rfl
theorem exec_segFenceRead : ∀ sg ch id ctx s, exec (.segFenceRead sg ch id ctx) s = execSegFenceRead sg ch id ctx s := fun _ _ _ _ _ => rfl
theorem exec_add : ∀ sg c f s, exec (.add sg c f) s = execAdd sg c f s := fun _ _ _ _ => rfl
theorem exec_sub : ∀ sg c f s, exec (.sub sg c f) s = execSub sg c f s := fun _ _ _ _ => rfl
theorem exec_and : ∀ sg c f s, exec (.and sg c f) s = execAnd sg c f s := fun _ _ _ _ => rfl
theorem exec_or : ∀ sg c f s, exec (.or sg c f) s = execOr sg c f s := fun _ _ _ _ => rfl
theorem exec_xor : ∀ sg c f s, exec (.xor sg c f) s = execXor sg c f s := fun _ _ _ _ => rfl
theorem exec_shl : ∀ sg c f s, exec (.shl sg c f) s = execShl sg c f s := fun _ _ _ _ => rfl
theorem exec_shr : ∀ sg c f s, exec (.shr sg c f) s = execShr sg c f s := fun _ _ _ _ => rfl
theorem exec_sra : ∀ sg c f s, exec (.sra sg c f) s = execSra sg c f s := fun _ _ _ _ => rfl
theorem exec_mul : ∀ sg c f s, exec (.mul sg c f) s = execMul sg c f s := fun _ _ _ _ => rfl
theorem exec_mulh : ∀ sg c f s, exec (.mulh sg c f) s = execMulh sg c f s := fun _ _ _ _ => rfl
theorem exec_mulhu : ∀ sg c f s, exec (.mulhu sg c f) s = execMulhu sg c f s := fun _ _ _ _ => rfl
theorem exec_div : ∀ sg c f s, exec (.div sg c f) s = execDiv sg c f s := fun _ _ _ _ => rfl
theorem exec_divu : ∀ sg c f s, exec (.divu sg c f) s = execDivu sg c f s := fun _ _ _ _ => rfl
theorem exec_rem : ∀ sg c f s, exec (.rem sg c f) s = execRem sg c f s := fun _ _ _ _ => rfl
theorem exec_remu : ∀ sg c f s, exec (.remu sg c f) s = execRemu sg c f s := fun _ _ _ _ => rfl
theorem exec_min : ∀ sg c f s, exec (.min sg c f) s = execMin sg c f s := fun _ _ _ _ => rfl
theorem exec_max : ∀ sg c f s, exec (.max sg c f) s = execMax sg c f s := fun _ _ _ _ => rfl
theorem exec_minu : ∀ sg c f s, exec (.minu sg c f) s = execMinu sg c f s := fun _ _ _ _ => rfl
theorem exec_maxu : ∀ sg c f s, exec (.maxu sg c f) s = execMaxu sg c f s := fun _ _ _ _ => rfl
theorem exec_movh : ∀ sg c f s, exec (.movh sg c f) s = execMovh sg c f s := fun _ _ _ _ => rfl
theorem exec_popc : ∀ sg c f s, exec (.popc sg c f) s = execPopc sg c f s := fun _ _ _ _ => rfl
theorem exec_clz : ∀ sg c f s, exec (.clz sg c f) s = execClz sg c f s := fun _ _ _ _ => rfl
theorem exec_ctz : ∀ sg c f s, exec (.ctz sg c f) s = execCtz sg c f s := fun _ _ _ _ => rfl
theorem exec_extu : ∀ sg c f s, exec (.extu sg c f) s = execExtu sg c f s := fun _ _ _ _ => rfl
theorem exec_ceq : ∀ sg c f s, exec (.ceq sg c f) s = execCeq sg c f s := fun _ _ _ _ => rfl
theorem exec_cne : ∀ sg c f s, exec (.cne sg c f) s = execCne sg c f s := fun _ _ _ _ => rfl
theorem exec_clt : ∀ sg c f s, exec (.clt sg c f) s = execClt sg c f s := fun _ _ _ _ => rfl
theorem exec_cltu : ∀ sg c f s, exec (.cltu sg c f) s = execCltu sg c f s := fun _ _ _ _ => rfl
theorem exec_cge : ∀ sg c f s, exec (.cge sg c f) s = execCge sg c f s := fun _ _ _ _ => rfl
theorem exec_cgeu : ∀ sg c f s, exec (.cgeu sg c f) s = execCgeu sg c f s := fun _ _ _ _ => rfl
theorem exec_pand : ∀ sg c f s, exec (.pand sg c f) s = execPand sg c f s := fun _ _ _ _ => rfl
theorem exec_por : ∀ sg c f s, exec (.por sg c f) s = execPor sg c f s := fun _ _ _ _ => rfl
theorem exec_pxor : ∀ sg c f s, exec (.pxor sg c f) s = execPxor sg c f s := fun _ _ _ _ => rfl
theorem exec_ld8 : ∀ sg c f s, exec (.ld8 sg c f) s = execLd8 sg c f s := fun _ _ _ _ => rfl
theorem exec_ld16 : ∀ sg c f s, exec (.ld16 sg c f) s = execLd16 sg c f s := fun _ _ _ _ => rfl
theorem exec_ld32 : ∀ sg c f s, exec (.ld32 sg c f) s = execLd32 sg c f s := fun _ _ _ _ => rfl
theorem exec_ld64 : ∀ sg c f s, exec (.ld64 sg c f) s = execLd64 sg c f s := fun _ _ _ _ => rfl
theorem exec_lds8 : ∀ sg c f s, exec (.lds8 sg c f) s = execLds8 sg c f s := fun _ _ _ _ => rfl
theorem exec_lds16 : ∀ sg c f s, exec (.lds16 sg c f) s = execLds16 sg c f s := fun _ _ _ _ => rfl
theorem exec_lds32 : ∀ sg c f s, exec (.lds32 sg c f) s = execLds32 sg c f s := fun _ _ _ _ => rfl
theorem exec_st8 : ∀ sg c f s, exec (.st8 sg c f) s = execSt8 sg c f s := fun _ _ _ _ => rfl
theorem exec_st16 : ∀ sg c f s, exec (.st16 sg c f) s = execSt16 sg c f s := fun _ _ _ _ => rfl
theorem exec_st32 : ∀ sg c f s, exec (.st32 sg c f) s = execSt32 sg c f s := fun _ _ _ _ => rfl
theorem exec_st64 : ∀ sg c f s, exec (.st64 sg c f) s = execSt64 sg c f s := fun _ _ _ _ => rfl
theorem exec_movs : ∀ sg c f s, exec (.movs sg c f) s = execMovs sg c f s := fun _ _ _ _ => rfl
theorem exec_sets : ∀ sg c f s, exec (.sets sg c f) s = execSets sg c f s := fun _ _ _ _ => rfl
theorem exec_cld : ∀ sg c f s, exec (.cld sg c f) s = execCld sg c f s := fun _ _ _ _ => rfl
theorem exec_cst : ∀ sg c f s, exec (.cst sg c f) s = execCst sg c f s := fun _ _ _ _ => rfl
theorem exec_yield : ∀ sg c f s, exec (.yield sg c f) s = execYield sg c f s := fun _ _ _ _ => rfl
theorem exec_halt : ∀ sg c f s, exec (.halt sg c f) s = execHalt sg c f s := fun _ _ _ _ => rfl
theorem exec_eret : ∀ sg c f s, exec (.eret sg c f) s = execEret sg c f s := fun _ _ _ _ => rfl
theorem exec_get : ∀ sg c f s, exec (.get sg c f) s = execGet sg c f s := fun _ _ _ _ => rfl
theorem exec_put : ∀ sg c f s, exec (.put sg c f) s = execPut sg c f s := fun _ _ _ _ => rfl
theorem exec_copy : ∀ sg c f s, exec (.copy sg c f) s = execCopy sg c f s := fun _ _ _ _ => rfl
theorem exec_movt : ∀ sg c f s, exec (.movt sg c f) s = execMovt sg c f s := fun _ _ _ _ => rfl
theorem exec_atom : ∀ sg c f s, exec (.atom sg c f) s = execAtom sg c f s := fun _ _ _ _ => rfl
theorem exec_atomf : ∀ sg c f s, exec (.atomf sg c f) s = execAtomf sg c f s := fun _ _ _ _ => rfl
theorem exec_cjoin : ∀ sg c f s, exec (.cjoin sg c f) s = execCjoin sg c f s := fun _ _ _ _ => rfl
theorem exec_chunk : ∀ sg c f s, exec (.chunk sg c f) s = execChunk sg c f s := fun _ _ _ _ => rfl
theorem exec_camp : ∀ sg c f s, exec (.camp sg c f) s = execCamp sg c f s := fun _ _ _ _ => rfl
theorem exec_vote : ∀ sg c f s, exec (.vote sg c f) s = execVote sg c f s := fun _ _ _ _ => rfl
theorem exec_ride : ∀ sg c f s, exec (.ride sg c f) s = execRide sg c f s := fun _ _ _ _ => rfl
theorem exec_sig : ∀ sg c f s, exec (.sig sg c f) s = execSig sg c f s := fun _ _ _ _ => rfl
theorem exec_waits : ∀ sg c f st s, exec (.waits sg c f st) s = execWaits sg c f st s := fun _ _ _ _ _ => rfl
theorem exec_waite : ∀ sg c f s, exec (.waite sg c f) s = execWaite sg c f s := fun _ _ _ _ => rfl
theorem exec_fence : ∀ sg c f s, exec (.fence sg c f) s = execFence sg c f s := fun _ _ _ _ => rfl
theorem exec_rdt : ∀ sg c f s, exec (.rdt sg c f) s = execRdt sg c f s := fun _ _ _ _ => rfl
theorem exec_tkt : ∀ sg c f s, exec (.tkt sg c f) s = execTkt sg c f s := fun _ _ _ _ => rfl
theorem exec_recall : ∀ sg c f s, exec (.recall sg c f) s = execRecall sg c f s := fun _ _ _ _ => rfl
theorem exec_exWatchdog : ∀ sg c s, exec (.exWatchdog sg c) s = execExWatchdog sg c s := fun _ _ _ => rfl
theorem exec_waitsPoll : ∀ sg c st s, exec (.waitsPoll sg c st) s = execWaitsPoll sg c st s := fun _ _ _ _ => rfl
theorem exec_waitsTimeout : ∀ sg c s, exec (.waitsTimeout sg c) s = execWaitsTimeout sg c s := fun _ _ _ => rfl
theorem exec_waiteTimeout : ∀ sg c s, exec (.waiteTimeout sg c) s = execWaiteTimeout sg c s := fun _ _ _ => rfl
theorem exec_lineIssue : ∀ sg desc s, exec (.lineIssue sg desc) s = execLineIssue sg desc s := fun _ _ _ => rfl
theorem exec_instructionFetchMiss : ∀ sg c st s, exec (.instructionFetchMiss sg c st) s = execInstructionFetchMiss sg c st s := fun _ _ _ _ => rfl
theorem exec_ticketResume : ∀ sg n s, exec (.ticketResume sg n) s = execTicketResume sg n s := fun _ _ _ => rfl
theorem exec_curLbDataAccess : ∀ sg c ag v s, exec (.curLbDataAccess sg c ag v) s = execCurLbDataAccess sg c ag v s := fun _ _ _ _ _ => rfl
theorem exec_icinv : ∀ sg c ag s, exec (.icinv sg c ag) s = execIcinv sg c ag s := fun _ _ _ _ => rfl
theorem exec_curCodeWrite : ∀ sg c ag sz v s, exec (.curCodeWrite sg c ag sz v) s = execCurCodeWrite sg c ag sz v s := fun _ _ _ _ _ _ => rfl
theorem exec_coreStop : ∀ sg c s, exec (.coreStop sg c) s = execCoreStop sg c s := fun _ _ _ => rfl
theorem exec_trailSubmit : ∀ sg ag v s, exec (.trailSubmit sg ag v) s = execTrailSubmit sg ag v s := fun _ _ _ _ => rfl
theorem exec_trailAdmit : ∀ sg st s, exec (.trailAdmit sg st) s = execTrailAdmit sg st s := fun _ _ _ => rfl
theorem exec_ticketAdmit : ∀ sg slot st gateSt s, exec (.ticketAdmit sg slot st gateSt) s = execTicketAdmit sg slot st gateSt s := fun _ _ _ _ _ => rfl
theorem exec_gatePoll : ∀ sg n st s, exec (.gatePoll sg n st) s = execGatePoll sg n st s := fun _ _ _ _ => rfl
theorem exec_ticketDispatch : ∀ sg st s, exec (.ticketDispatch sg st) s = execTicketDispatch sg st s := fun _ _ _ => rfl
theorem exec_ticketComplete : ∀ sg n s, exec (.ticketComplete sg n) s = execTicketComplete sg n s := fun _ _ _ => rfl
theorem exec_cqHeadPoll : ∀ sg ring s, exec (.cqHeadPoll sg ring) s = execCqHeadPoll sg ring s := fun _ _ _ => rfl
theorem exec_cqFullTimeout : ∀ sg ring s, exec (.cqFullTimeout sg ring) s = execCqFullTimeout sg ring s := fun _ _ _ => rfl
theorem exec_trlCancelTicket : ∀ sg ag n s, exec (.trlCancelTicket sg ag n) s = execTrlCancelTicket sg ag n s := fun _ _ _ _ => rfl
theorem exec_trlCancelTrail : ∀ sg ag slot s, exec (.trlCancelTrail sg ag slot) s = execTrlCancelTrail sg ag slot s := fun _ _ _ _ => rfl
theorem exec_trlCancelContext : ∀ sg ag ctx s, exec (.trlCancelContext sg ag ctx) s = execTrlCancelContext sg ag ctx s := fun _ _ _ _ => rfl
theorem exec_trlSaveBaseWrite : ∀ sg ag sz v s, exec (.trlSaveBaseWrite sg ag sz v) s = execTrlSaveBaseWrite sg ag sz v s := fun _ _ _ _ _ => rfl
theorem exec_movtTileStart : ∀ sg desc s, exec (.movtTileStart sg desc) s = execMovtTileStart sg desc s := fun _ _ _ => rfl
theorem exec_clvHcBaseWrite : ∀ sg ag sz v s, exec (.clvHcBaseWrite sg ag sz v) s = execClvHcBaseWrite sg ag sz v s := fun _ _ _ _ _ => rfl
theorem exec_groupOpen : ∀ sg ag grp st stList stCtx s, exec (.groupOpen sg ag grp st stList stCtx) s = execGroupOpen sg ag grp st stList stCtx s := fun _ _ _ _ _ _ _ => rfl
theorem exec_groupOpenDone : ∀ sg grp s, exec (.groupOpenDone sg grp) s = execGroupOpenDone sg grp s := fun _ _ _ => rfl
theorem exec_groupClose : ∀ sg ag grp s, exec (.groupClose sg ag grp) s = execGroupClose sg ag grp s := fun _ _ _ _ => rfl
theorem exec_groupCloseDone : ∀ sg grp s, exec (.groupCloseDone sg grp) s = execGroupCloseDone sg grp s := fun _ _ _ => rfl
theorem exec_groupAbortCommand : ∀ sg ag grp s, exec (.groupAbortCommand sg ag grp) s = execGroupAbortCommand sg ag grp s := fun _ _ _ _ => rfl
theorem exec_operationStart : ∀ sg grp s, exec (.operationStart sg grp) s = execOperationStart sg grp s := fun _ _ _ => rfl
theorem exec_chunkStart : ∀ sg grp tree s, exec (.chunkStart sg grp tree) s = execChunkStart sg grp tree s := fun _ _ _ _ => rfl
theorem exec_chunkUp : ∀ sg s, exec (.chunkUp sg) s = execChunkUp sg s := fun _ _ => rfl
theorem exec_chunkDown : ∀ sg s, exec (.chunkDown sg) s = execChunkDown sg s := fun _ _ => rfl
theorem exec_chunkRel : ∀ sg s, exec (.chunkRel sg) s = execChunkRel sg s := fun _ _ => rfl
theorem exec_chunkNak : ∀ sg s, exec (.chunkNak sg) s = execChunkNak sg s := fun _ _ => rfl
theorem exec_notReadyRepeat : ∀ sg grp s, exec (.notReadyRepeat sg grp) s = execNotReadyRepeat sg grp s := fun _ _ _ => rfl
theorem exec_collectiveRepeat : ∀ sg grp tree s, exec (.collectiveRepeat sg grp tree) s = execCollectiveRepeat sg grp tree s := fun _ _ _ _ => rfl
theorem exec_reductionStep : ∀ sg grp serial bad s, exec (.reductionStep sg grp serial bad) s = execReductionStep sg grp serial bad s := fun _ _ _ _ _ => rfl
theorem exec_reductionStepDone : ∀ sg grp x s, exec (.reductionStepDone sg grp x) s = execReductionStepDone sg grp x s := fun _ _ _ _ => rfl
theorem exec_chunkResultWrite : ∀ sg grp serial st bad s, exec (.chunkResultWrite sg grp serial st bad) s = execChunkResultWrite sg grp serial st bad s := fun _ _ _ _ _ _ => rfl
theorem exec_groupCqFullTimeout : ∀ sg grp s, exec (.groupCqFullTimeout sg grp) s = execGroupCqFullTimeout sg grp s := fun _ _ _ => rfl
theorem exec_closingPartSend : ∀ sg grp s, exec (.closingPartSend sg grp) s = execClosingPartSend sg grp s := fun _ _ _ => rfl
theorem exec_stragglerEvent : ∀ sg grp s, exec (.stragglerEvent sg grp) s = execStragglerEvent sg grp s := fun _ _ _ => rfl
theorem exec_hardTimeout : ∀ sg grp s, exec (.hardTimeout sg grp) s = execHardTimeout sg grp s := fun _ _ _ => rfl
theorem exec_groupAbort : ∀ sg s, exec (.groupAbort sg) s = execGroupAbort sg s := fun _ _ => rfl
theorem exec_abortDecisionTimeout : ∀ sg grp s, exec (.abortDecisionTimeout sg grp) s = execAbortDecisionTimeout sg grp s := fun _ _ _ => rfl
theorem exec_campFlit : ∀ sg s, exec (.campFlit sg) s = execCampFlit sg s := fun _ _ => rfl
theorem exec_voteFlit : ∀ sg s, exec (.voteFlit sg) s = execVoteFlit sg s := fun _ _ => rfl
theorem exec_stileRelease : ∀ sg grp s, exec (.stileRelease sg grp) s = execStileRelease sg grp s := fun _ _ _ => rfl
theorem exec_ctxBaseWrite : ∀ sg ag sz v st s, exec (.ctxBaseWrite sg ag sz v st) s = execCtxBaseWrite sg ag sz v st s := fun _ _ _ _ _ _ => rfl
theorem exec_contextLoad : ∀ sg ag ctx st s, exec (.contextLoad sg ag ctx st) s = execContextLoad sg ag ctx st s := fun _ _ _ _ _ => rfl
theorem exec_contextEvict : ∀ sg ag ctx s, exec (.contextEvict sg ag ctx) s = execContextEvict sg ag ctx s := fun _ _ _ _ => rfl
theorem exec_contextEvictDone : ∀ sg s, exec (.contextEvictDone sg) s = execContextEvictDone sg s := fun _ _ => rfl
theorem exec_contextTeardown : ∀ sg ag ctx s, exec (.contextTeardown sg ag ctx) s = execContextTeardown sg ag ctx s := fun _ _ _ _ => rfl
theorem exec_rangeMissFill : ∀ sg c st s, exec (.rangeMissFill sg c st) s = execRangeMissFill sg c st s := fun _ _ _ _ => rfl
theorem exec_guardBaseWrite : ∀ sg ag sz v s, exec (.guardBaseWrite sg ag sz v) s = execGuardBaseWrite sg ag sz v s := fun _ _ _ _ _ => rfl
theorem exec_guardSizeWrite : ∀ sg ag sz v s, exec (.guardSizeWrite sg ag sz v) s = execGuardSizeWrite sg ag sz v s := fun _ _ _ _ _ => rfl
theorem exec_guardInval : ∀ sg ag idx s, exec (.guardInval sg ag idx) s = execGuardInval sg ag idx s := fun _ _ _ _ => rfl
theorem exec_recallSubmit : ∀ sg ag v s, exec (.recallSubmit sg ag v) s = execRecallSubmit sg ag v s := fun _ _ _ _ => rfl
theorem exec_recallAck : ∀ sg s, exec (.recallAck sg) s = execRecallAck sg s := fun _ _ => rfl
theorem exec_hotDecay : ∀ sg s, exec (.hotDecay sg) s = execHotDecay sg s := fun _ _ => rfl
theorem exec_migrateDone : ∀ sg ag v s, exec (.migrateDone sg ag v) s = execMigrateDone sg ag v s := fun _ _ _ _ => rfl
theorem exec_migrateTimeout : ∀ sg req s, exec (.migrateTimeout sg req) s = execMigrateTimeout sg req s := fun _ _ _ => rfl
theorem exec_loadPublish : ∀ sg s, exec (.loadPublish sg) s = execLoadPublish sg s := fun _ _ => rfl
theorem exec_replicaInstall : ∀ sg s, exec (.replicaInstall sg) s = execReplicaInstall sg s := fun _ _ => rfl
theorem exec_replicaFrameReturn : ∀ sg s, exec (.replicaFrameReturn sg) s = execReplicaFrameReturn sg s := fun _ _ => rfl
theorem exec_plcReplicateOff : ∀ sg ag s, exec (.plcReplicateOff sg ag) s = execPlcReplicateOff sg ag s := fun _ _ _ => rfl
theorem exec_fhWindowWrite : ∀ sg ag sz v s, exec (.fhWindowWrite sg ag sz v) s = execFhWindowWrite sg ag sz v s := fun _ _ _ _ _ => rfl
theorem exec_fhDeclare : ∀ sg ag v s, exec (.fhDeclare sg ag v) s = execFhDeclare sg ag v s := fun _ _ _ _ => rfl
theorem exec_fhRelease : ∀ sg ag v s, exec (.fhRelease sg ag v) s = execFhRelease sg ag v s := fun _ _ _ _ => rfl
theorem exec_movePeriod : ∀ sg s, exec (.movePeriod sg) s = execMovePeriod sg s := fun _ _ => rfl
theorem exec_movePassDone : ∀ sg s, exec (.movePassDone sg) s = execMovePassDone sg s := fun _ _ => rfl
theorem exec_moveFlipDone : ∀ sg s, exec (.moveFlipDone sg) s = execMoveFlipDone sg s := fun _ _ => rfl
theorem exec_flitLand : ∀ sg port s, exec (.flitLand sg port) s = execFlitLand sg port s := fun _ _ _ => rfl
theorem exec_flitInject : ∀ sg isX idx s, exec (.flitInject sg isX idx) s = execFlitInject sg isX idx s := fun _ _ _ _ => rfl
theorem exec_ageClockAlign : ∀ sg s, exec (.ageClockAlign sg) s = execAgeClockAlign sg s := fun _ _ => rfl
theorem exec_throttleUpdate : ∀ sg s, exec (.throttleUpdate sg) s = execThrottleUpdate sg s := fun _ _ => rfl
theorem exec_signpostWrite : ∀ sg ag table idx sz v s, exec (.signpostWrite sg ag table idx sz v) s = execSignpostWrite sg ag table idx sz v s := fun _ _ _ _ _ _ _ => rfl
theorem exec_signpostSeal : ∀ sg ag table s, exec (.signpostSeal sg ag table) s = execSignpostSeal sg ag table s := fun _ _ _ _ => rfl
theorem exec_signpostOpen : ∀ sg ag table s, exec (.signpostOpen sg ag table) s = execSignpostOpen sg ag table s := fun _ _ _ _ => rfl
theorem exec_epochFlip : ∀ sg ag s, exec (.epochFlip sg ag) s = execEpochFlip sg ag s := fun _ _ _ => rfl
theorem exec_tableRetired : ∀ sg s, exec (.tableRetired sg) s = execTableRetired sg s := fun _ _ => rfl
theorem exec_replayTimerExpiry : ∀ sg p s, exec (.replayTimerExpiry sg p) s = execReplayTimerExpiry sg p s := fun _ _ _ => rfl
theorem exec_nakRepeatExpiry : ∀ sg p s, exec (.nakRepeatExpiry sg p) s = execNakRepeatExpiry sg p s := fun _ _ _ => rfl
theorem exec_errorWindowEnd : ∀ sg p s, exec (.errorWindowEnd sg p) s = execErrorWindowEnd sg p s := fun _ _ _ => rfl
theorem exec_requestRepeatLimit : ∀ sg p s, exec (.requestRepeatLimit sg p) s = execRequestRepeatLimit sg p s := fun _ _ _ => rfl
theorem exec_retrainLimitExpiry : ∀ sg p s, exec (.retrainLimitExpiry sg p) s = execRetrainLimitExpiry sg p s := fun _ _ _ => rfl
theorem exec_retrainWaitEnd : ∀ sg p s, exec (.retrainWaitEnd sg p) s = execRetrainWaitEnd sg p s := fun _ _ _ => rfl
theorem exec_widthLimitExpiry : ∀ sg p s, exec (.widthLimitExpiry sg p) s = execWidthLimitExpiry sg p s := fun _ _ _ => rfl
theorem exec_trailerDue : ∀ sg p s, exec (.trailerDue sg p) s = execTrailerDue sg p s := fun _ _ _ => rfl
theorem exec_linkEnable : ∀ sg p ag s, exec (.linkEnable sg p ag) s = execLinkEnable sg p ag s := fun _ _ _ _ => rfl
theorem exec_linkDisable : ∀ sg p ag s, exec (.linkDisable sg p ag) s = execLinkDisable sg p ag s := fun _ _ _ _ => rfl
theorem exec_linkRetry : ∀ sg p ag s, exec (.linkRetry sg p ag) s = execLinkRetry sg p ag s := fun _ _ _ _ => rfl
theorem exec_linkRetrain : ∀ sg p ag s, exec (.linkRetrain sg p ag) s = execLinkRetrain sg p ag s := fun _ _ _ _ => rfl
theorem exec_linkRelease : ∀ sg p ag s, exec (.linkRelease sg p ag) s = execLinkRelease sg p ag s := fun _ _ _ _ => rfl
theorem exec_linkWidthRequest : ∀ sg p ag width s, exec (.linkWidthRequest sg p ag width) s = execLinkWidthRequest sg p ag width s := fun _ _ _ _ _ => rfl
theorem exec_sealSlotArm : ∀ sg p ag slot ctx s, exec (.sealSlotArm sg p ag slot ctx) s = execSealSlotArm sg p ag slot ctx s := fun _ _ _ _ _ _ => rfl
theorem exec_sealSlotDisarm : ∀ sg p ag slot s, exec (.sealSlotDisarm sg p ag slot) s = execSealSlotDisarm sg p ag slot s := fun _ _ _ _ _ => rfl
theorem exec_trainingPhaseEnd : ∀ sg p obs s, exec (.trainingPhaseEnd sg p obs) s = execTrainingPhaseEnd sg p obs s := fun _ _ _ _ => rfl
theorem exec_trainingPhaseLimit : ∀ sg p s, exec (.trainingPhaseLimit sg p) s = execTrainingPhaseLimit sg p s := fun _ _ _ => rfl
theorem exec_blockLockLoss : ∀ sg p x s, exec (.blockLockLoss sg p x) s = execBlockLockLoss sg p x s := fun _ _ _ _ => rfl
theorem exec_shadow : ∀ sg p l s, exec (.shadow sg p l) s = execShadow sg p l s := fun _ _ _ _ => rfl
theorem exec_swapped : ∀ sg p l s, exec (.swapped sg p l) s = execSwapped sg p l s := fun _ _ _ _ => rfl
theorem exec_calDone : ∀ sg p s, exec (.calDone sg p) s = execCalDone sg p s := fun _ _ _ => rfl
theorem exec_calFail : ∀ sg p s, exec (.calFail sg p) s = execCalFail sg p s := fun _ _ _ => rfl
theorem exec_flaskReq : ∀ sg p s, exec (.flaskReq sg p) s = execFlaskReq sg p s := fun _ _ _ => rfl
theorem exec_flaskAck : ∀ sg p s, exec (.flaskAck sg p) s = execFlaskAck sg p s := fun _ _ _ => rfl
theorem exec_flaskNak : ∀ sg p s, exec (.flaskNak sg p) s = execFlaskNak sg p s := fun _ _ _ => rfl
theorem exec_handoverStart : ∀ sg p s, exec (.handoverStart sg p) s = execHandoverStart sg p s := fun _ _ _ => rfl
theorem exec_handoverSwap : ∀ sg p s, exec (.handoverSwap sg p) s = execHandoverSwap sg p s := fun _ _ _ => rfl
theorem exec_calibrationCountEnd : ∀ sg p errs s, exec (.calibrationCountEnd sg p errs) s = execCalibrationCountEnd sg p errs s := fun _ _ _ _ => rfl
theorem exec_calLimitExpiry : ∀ sg p s, exec (.calLimitExpiry sg p) s = execCalLimitExpiry sg p s := fun _ _ _ => rfl
theorem exec_syncErrorHandover : ∀ sg p lane s, exec (.syncErrorHandover sg p lane) s = execSyncErrorHandover sg p lane s := fun _ _ _ _ => rfl
theorem exec_kettleEntry : ∀ sg p s, exec (.kettleEntry sg p) s = execKettleEntry sg p s := fun _ _ _ => rfl
theorem exec_dozeRequest : ∀ sg p ag s, exec (.dozeRequest sg p ag) s = execDozeRequest sg p ag s := fun _ _ _ _ => rfl
theorem exec_dozeWake : ∀ sg p s, exec (.dozeWake sg p) s = execDozeWake sg p s := fun _ _ _ => rfl
theorem exec_laneWake : ∀ sg p ag s, exec (.laneWake sg p ag) s = execLaneWake sg p ag s := fun _ _ _ _ => rfl
theorem exec_flaskRequest : ∀ sg p ag s, exec (.flaskRequest sg p ag) s = execFlaskRequest sg p ag s := fun _ _ _ _ => rfl
theorem exec_flaskEntry : ∀ sg p s, exec (.flaskEntry sg p) s = execFlaskEntry sg p s := fun _ _ _ => rfl
theorem exec_signalDetect : ∀ sg p s, exec (.signalDetect sg p) s = execSignalDetect sg p s := fun _ _ _ => rfl
theorem exec_relockDone : ∀ sg p seeds s, exec (.relockDone sg p seeds) s = execRelockDone sg p seeds s := fun _ _ _ _ => rfl
theorem exec_relockTimeout : ∀ sg p s, exec (.relockTimeout sg p) s = execRelockTimeout sg p s := fun _ _ _ => rfl
theorem exec_laneRateWrite : ∀ sg p ag sz v s, exec (.laneRateWrite sg p ag sz v) s = execLaneRateWrite sg p ag sz v s := fun _ _ _ _ _ _ => rfl
theorem exec_domainWake : ∀ sg d s, exec (.domainWake sg d) s = execDomainWake sg d s := fun _ _ _ => rfl
theorem exec_pwrAckRise : ∀ sg d s, exec (.pwrAckRise sg d) s = execPwrAckRise sg d s := fun _ _ _ => rfl
theorem exec_pwrAckFall : ∀ sg d s, exec (.pwrAckFall sg d) s = execPwrAckFall sg d s := fun _ _ _ => rfl
theorem exec_pwrAckTimeout : ∀ sg d s, exec (.pwrAckTimeout sg d) s = execPwrAckTimeout sg d s := fun _ _ _ => rfl
theorem exec_domainLost : ∀ sg d s, exec (.domainLost sg d) s = execDomainLost sg d s := fun _ _ _ => rfl
theorem exec_domainSleep : ∀ sg d s, exec (.domainSleep sg d) s = execDomainSleep sg d s := fun _ _ _ => rfl
theorem exec_pwrHoldWrite : ∀ sg ag sz v s, exec (.pwrHoldWrite sg ag sz v) s = execPwrHoldWrite sg ag sz v s := fun _ _ _ _ _ => rfl
theorem exec_powerWindowEnd : ∀ sg s, exec (.powerWindowEnd sg) s = execPowerWindowEnd sg s := fun _ _ => rfl
theorem exec_rampClassWrite : ∀ sg ag sz v s, exec (.rampClassWrite sg ag sz v) s = execRampClassWrite sg ag sz v s := fun _ _ _ _ _ => rfl
theorem exec_kettleHoldExpiry : ∀ sg p s, exec (.kettleHoldExpiry sg p) s = execKettleHoldExpiry sg p s := fun _ _ _ => rfl
theorem exec_flaskAfterExpiry : ∀ sg p s, exec (.flaskAfterExpiry sg p) s = execFlaskAfterExpiry sg p s := fun _ _ _ => rfl
theorem exec_stilePortWake : ∀ sg grp s, exec (.stilePortWake sg grp) s = execStilePortWake sg grp s := fun _ _ _ => rfl
theorem exec_coarseningEnd : ∀ sg s, exec (.coarseningEnd sg) s = execCoarseningEnd sg s := fun _ _ => rfl
theorem exec_suspectExpiry : ∀ sg bank row s, exec (.suspectExpiry sg bank row) s = execSuspectExpiry sg bank row s := fun _ _ _ _ => rfl
theorem exec_bankFence : ∀ sg ag bank s, exec (.bankFence sg ag bank) s = execBankFence sg ag bank s := fun _ _ _ _ => rfl
theorem exec_bankFenceDrainDone : ∀ sg bank s, exec (.bankFenceDrainDone sg bank) s = execBankFenceDrainDone sg bank s := fun _ _ _ => rfl
theorem exec_bankUnfence : ∀ sg ag bank s, exec (.bankUnfence sg ag bank) s = execBankUnfence sg ag bank s := fun _ _ _ _ => rfl
theorem exec_unfenceTestDone : ∀ sg bank rows s, exec (.unfenceTestDone sg bank rows) s = execUnfenceTestDone sg bank rows s := fun _ _ _ _ => rfl
theorem exec_critLatchReload : ∀ sg word odd latchBad s, exec (.critLatchReload sg word odd latchBad) s = execCritLatchReload sg word odd latchBad s := fun _ _ _ _ _ => rfl
theorem exec_hmpInval : ∀ sg ag v s, exec (.hmpInval sg ag v) s = execHmpInval sg ag v s := fun _ _ _ _ => rfl
theorem exec_fltHeadWrite : ∀ sg ag v s, exec (.fltHeadWrite sg ag v) s = execFltHeadWrite sg ag v s := fun _ _ _ _ => rfl
theorem exec_fltPost : ∀ sg ag v s, exec (.fltPost sg ag v) s = execFltPost sg ag v s := fun _ _ _ _ => rfl
theorem exec_ovfClear : ∀ sg ag v s, exec (.ovfClear sg ag v) s = execOvfClear sg ag v s := fun _ _ _ _ => rfl
theorem exec_suppClear : ∀ sg ag s, exec (.suppClear sg ag) s = execSuppClear sg ag s := fun _ _ _ => rfl
theorem exec_kdAdd : ∀ sg ag node s, exec (.kdAdd sg ag node) s = execKdAdd sg ag node s := fun _ _ _ _ => rfl
theorem exec_kdRemove : ∀ sg ag node s, exec (.kdRemove sg ag node) s = execKdRemove sg ag node s := fun _ _ _ _ => rfl
theorem exec_kdClear : ∀ sg ag s, exec (.kdClear sg ag) s = execKdClear sg ag s := fun _ _ _ => rfl
theorem exec_quote : ∀ sg ch s, exec (.quote sg ch) s = execQuote sg ch s := fun _ _ _ => rfl
theorem exec_sealLoad : ∀ sg ch s, exec (.sealLoad sg ch) s = execSealLoad sg ch s := fun _ _ _ => rfl
theorem exec_sealTeardown : ∀ sg ch s, exec (.sealTeardown sg ch) s = execSealTeardown sg ch s := fun _ _ _ => rfl
theorem exec_guardSet : ∀ sg ch s, exec (.guardSet sg ch) s = execGuardSet sg ch s := fun _ _ _ => rfl
theorem exec_sealArmLinks : ∀ sg ch s, exec (.sealArmLinks sg ch) s = execSealArmLinks sg ch s := fun _ _ _ => rfl
theorem exec_hostSpdm : ∀ sg ch s, exec (.hostSpdm sg ch) s = execHostSpdm sg ch s := fun _ _ _ => rfl
theorem exec_hostCopy : ∀ sg ch data tags s, exec (.hostCopy sg ch data tags) s = execHostCopy sg ch data tags s := fun _ _ _ _ _ => rfl
theorem exec_fenceLane : ∀ sg ch s, exec (.fenceLane sg ch) s = execFenceLane sg ch s := fun _ _ _ => rfl
theorem exec_getVersion : ∀ ses s, exec (.getVersion ses) s = execGetVersion ses s := fun _ _ => rfl
theorem exec_getCapabilities : ∀ ses s, exec (.getCapabilities ses) s = execGetCapabilities ses s := fun _ _ => rfl
theorem exec_negotiateAlgorithms : ∀ ses asym hash s, exec (.negotiateAlgorithms ses asym hash) s = execNegotiateAlgorithms ses asym hash s := fun _ _ _ _ => rfl
theorem exec_getDigests : ∀ ses s, exec (.getDigests ses) s = execGetDigests ses s := fun _ _ => rfl
theorem exec_getCertificate : ∀ ses slot off len s, exec (.getCertificate ses slot off len) s = execGetCertificate ses slot off len s := fun _ _ _ _ _ => rfl
theorem exec_challenge : ∀ ses slot nonce s, exec (.challenge ses slot nonce) s = execChallenge ses slot nonce s := fun _ _ _ _ => rfl
theorem exec_getMeasurements : ∀ ses idx nonce s, exec (.getMeasurements ses idx nonce) s = execGetMeasurements ses idx nonce s := fun _ _ _ _ => rfl
theorem exec_keyExchange : ∀ ses slot pub s, exec (.keyExchange ses slot pub) s = execKeyExchange ses slot pub s := fun _ _ _ _ => rfl
theorem exec_finish : ∀ ses mac s, exec (.finish ses mac) s = execFinish ses mac s := fun _ _ _ => rfl
theorem exec_unsupportedRequest : ∀ ses code s, exec (.unsupportedRequest ses code) s = execUnsupportedRequest ses code s := fun _ _ _ => rfl
theorem exec_spdmSessionTimeout : ∀ ses s, exec (.spdmSessionTimeout ses) s = execSpdmSessionTimeout ses s := fun _ _ => rfl
theorem exec_status : ∀ ses s, exec (.status ses) s = execStatus ses s := fun _ _ => rfl
theorem exec_operatorAuth : ∀ ses pub sig s, exec (.operatorAuth ses pub sig) s = execOperatorAuth ses pub sig s := fun _ _ _ _ => rfl
theorem exec_operatorKeyAdd : ∀ ses digest s, exec (.operatorKeyAdd ses digest) s = execOperatorKeyAdd ses digest s := fun _ _ _ => rfl
theorem exec_operatorKeyRemove : ∀ ses digest s, exec (.operatorKeyRemove ses digest) s = execOperatorKeyRemove ses digest s := fun _ _ _ => rfl
theorem exec_powerSet : ∀ ses cls stile salt kettle gap s, exec (.powerSet ses cls stile salt kettle gap) s = execPowerSet ses cls stile salt kettle gap s := fun _ _ _ _ _ _ _ => rfl
theorem exec_debugUnlock : ∀ ses s, exec (.debugUnlock ses) s = execDebugUnlock ses s := fun _ _ => rfl
theorem exec_debugLock : ∀ ses s, exec (.debugLock ses) s = execDebugLock ses s := fun _ _ => rfl
theorem exec_teardown : ∀ ses ctx s, exec (.teardown ses ctx) s = execTeardown ses ctx s := fun _ _ _ => rfl
theorem exec_setEndpointId : ∀ op eid s, exec (.setEndpointId op eid) s = execSetEndpointId op eid s := fun _ _ _ => rfl
theorem exec_getMctpVersionSupport : ∀ typ s, exec (.getMctpVersionSupport typ) s = execGetMctpVersionSupport typ s := fun _ _ => rfl
theorem exec_mbxPtrWrite : ∀ sg ch ag v s, exec (.mbxPtrWrite sg ch ag v) s = execMbxPtrWrite sg ch ag v s := fun _ _ _ _ _ => rfl
theorem exec_mbxSend : ∀ sg ch ag notice s, exec (.mbxSend sg ch ag notice) s = execMbxSend sg ch ag notice s := fun _ _ _ _ _ => rfl
theorem exec_mbxRecv : ∀ sg ch ag s, exec (.mbxRecv sg ch ag) s = execMbxRecv sg ch ag s := fun _ _ _ _ => rfl
theorem exec_mbxAck : ∀ sg ch ag code s, exec (.mbxAck sg ch ag code) s = execMbxAck sg ch ag code s := fun _ _ _ _ _ => rfl
theorem exec_mailboxTimeout : ∀ sg ch s, exec (.mailboxTimeout sg ch) s = execMailboxTimeout sg ch s := fun _ _ _ => rfl
theorem exec_mbxCfgWrite : ∀ sg ch ag sz v s, exec (.mbxCfgWrite sg ch ag sz v) s = execMbxCfgWrite sg ch ag sz v s := fun _ _ _ _ _ _ => rfl
theorem exec_extest : ∀ sg scan s, exec (.extest sg scan) s = execExtest sg scan s := fun _ _ _ => rfl
theorem exec_samplePreload : ∀ sg pins scan s, exec (.samplePreload sg pins scan) s = execSamplePreload sg pins scan s := fun _ _ _ _ => rfl
theorem exec_idcode : ∀ sg s, exec (.idcode sg) s = execIdcode sg s := fun _ _ => rfl
theorem exec_bypass : ∀ sg code tdi s, exec (.bypass sg code tdi) s = execBypass sg code tdi s := fun _ _ _ _ => rfl
theorem exec_ctrlAccessPoll : ∀ sg scan s, exec (.ctrlAccessPoll sg scan) s = execCtrlAccessPoll sg scan s := fun _ _ _ => rfl
theorem exec_ctrlAccessAddress : ∀ sg scan s, exec (.ctrlAccessAddress sg scan) s = execCtrlAccessAddress sg scan s := fun _ _ _ => rfl
theorem exec_ctrlAccessRead : ∀ sg scan s, exec (.ctrlAccessRead sg scan) s = execCtrlAccessRead sg scan s := fun _ _ _ => rfl
theorem exec_ctrlAccessWrite : ∀ sg scan s, exec (.ctrlAccessWrite sg scan) s = execCtrlAccessWrite sg scan s := fun _ _ _ => rfl
theorem exec_ctrlAccessDone : ∀ sg s, exec (.ctrlAccessDone sg) s = execCtrlAccessDone sg s := fun _ _ => rfl
theorem exec_trst : ∀ sg s, exec (.trst sg) s = execTrst sg s := fun _ _ => rfl
theorem exec_telSnap : ∀ sg ag s, exec (.telSnap sg ag) s = execTelSnap sg ag s := fun _ _ _ => rfl
theorem exec_telPeriodicSnap : ∀ sg s, exec (.telPeriodicSnap sg) s = execTelPeriodicSnap sg s := fun _ _ => rfl
theorem exec_registerWrite : ∀ sg ag off sz v s, exec (.registerWrite sg ag off sz v) s = execRegisterWrite sg ag off sz v s := fun _ _ _ _ _ _ => rfl
theorem exec_registerRead : ∀ sg ag off sz s, exec (.registerRead sg ag off sz) s = execRegisterRead sg ag off sz s := fun _ _ _ _ _ => rfl
theorem exec_preambleDetect : ∀ sg p s, exec (.preambleDetect sg p) s = execPreambleDetect sg p s := fun _ _ _ => rfl
theorem exec_quietPattern : ∀ sg p s, exec (.quietPattern sg p) s = execQuietPattern sg p s := fun _ _ _ => rfl
theorem exec_bankClearDone : ∀ sg bank s, exec (.bankClearDone sg bank) s = execBankClearDone sg bank s := fun _ _ _ => rfl
theorem exec_dynamicAddressAssignment : ∀ addr s, exec (.dynamicAddressAssignment addr) s = execDynamicAddressAssignment addr s := fun _ _ => rfl

end Sys2Proof.Machine
end

section
/-! What every command answers (log 6), a package held in reset (R545), and the front of the queue (log 2). -/

namespace Sys2Proof.Machine

open Sys2Proof

/-- An outcome that an effect on a segment has. -/
def EffectOn (sg : Fin 8) (s : State) (o : Out) : Prop := ∃ f, o = onSeg sg s f

section Frames

variable (sg : Fin 8) (c : Fin 18) (op : BitVec 8) (f : IFields) (s : State)

theorem effectOn_onSeg (u : State → State) : EffectOn sg s (onSeg sg s u) := ⟨u, rfl⟩

theorem effectOn_onCtl (ag : Agent) (u : State → State) : EffectOn sg s (onCtl sg ag s u) := ⟨_, rfl⟩

theorem effectOn_onDoms (ag : Agent) (ds : List Nat) (u : State → State) : EffectOn sg s (onDoms sg ag ds s u) := effectOn_onCtl ..

theorem effectOn_runCore (level : Nat) (ill : Bool) (body : State → Core → Res) :
    EffectOn sg s (runCore sg c op level f ill body s) := ⟨_, rfl⟩

theorem effectOn_aluOp (v : Core → Word) : EffectOn sg s (aluOp sg c op f v s) := effectOn_runCore ..

theorem effectOn_cmpOp (t : Word → Word → Bool) : EffectOn sg s (cmpOp sg c op f t s) := effectOn_runCore ..

theorem effectOn_predOp (t : Bool → Bool → Bool) : EffectOn sg s (predOp sg c op f t s) := effectOn_runCore ..

theorem effectOn_issueOp (ill : Bool) : EffectOn sg s (issueOp sg c op f ill s) := effectOn_runCore ..

theorem effectOn_loadOp (n : Nat) (isSigned : Bool) : EffectOn sg s (loadOp sg c op f n isSigned s) := effectOn_runCore ..

theorem effectOn_storeOp (n : Nat) : EffectOn sg s (storeOp sg c op f n s) := effectOn_runCore ..

theorem effectOn_ctrlScan (n : Nat) (v : BitVec 72) (act : Jtag → Jtag) : EffectOn sg s (ctrlScan sg n v s act) := ⟨_, rfl⟩

end Frames

/-- Every command that names a segment is an effect on that segment: its frame is one of those above, or `onSeg` itself. -/
theorem exec_effectOn (c : Instr) (s : State) (sg : Fin 8) (h : c.target = some sg) : EffectOn sg s (exec c s) := by
  cases c
  case coldReset | coldResetAssert => exact absurd h nofun
  all_goals
    obtain rfl := Option.some.inj h
    unfold exec
  case bootGo | stewardReady | segBootAreaWrite | segResetWarm | partialReset | segNodeidWrite | bridgeRetry | mergeFlushCmd |
    signpostWrite | epochFlip | linkEnable | linkDisable | linkRetry | linkWidthRequest | sealSlotArm | sealSlotDisarm | laneRateWrite |
    pwrHoldWrite | rampClassWrite | bankFence | bankUnfence | hmpInval | fltHeadWrite | fltPost | ovfClear | suppClear | kdAdd | kdRemove
    | kdClear | mbxPtrWrite | mbxSend | mbxRecv | mbxAck | mbxCfgWrite | telSnap =>
    exact effectOn_onCtl ..
  case curLbDataAccess | icinv | curCodeWrite | trailSubmit | trlCancelTicket | trlCancelTrail | trlCancelContext | trlSaveBaseWrite |
    clvHcBaseWrite | groupOpen | groupClose | groupAbortCommand | ctxBaseWrite | contextLoad | contextEvict | contextTeardown |
    guardBaseWrite | guardSizeWrite | guardInval | recallSubmit | migrateDone | plcReplicateOff | fhWindowWrite | fhDeclare | fhRelease |
    signpostSeal | signpostOpen | linkRetrain | linkRelease | dozeRequest | laneWake | flaskRequest =>
    exact effectOn_onDoms ..
  case pset | movs | sets | cld | cst | br | call | ret | yield | halt | eret | chunk | sig | waits | waite | fence | rdt | tkt =>
    exact effectOn_runCore ..
  case add | sub | and | or | xor | shl | shr | sra | mul | mulh | mulhu | div | divu | rem | remu | min | max | minu | maxu | movh | popc
    | clz | ctz | extu =>
    exact effectOn_aluOp ..
  case ceq | cne | clt | cltu | cge | cgeu =>
    exact effectOn_cmpOp ..
  case pand | por | pxor =>
    exact effectOn_predOp ..
  case get | put | copy | movt | atom | atomf | cjoin | camp | vote | ride =>
    exact effectOn_issueOp ..
  case ld8 | ld16 | ld32 | ld64 | lds8 | lds16 | lds32 =>
    exact effectOn_loadOp ..
  case st8 | st16 | st32 | st64 =>
    exact effectOn_storeOp ..
  case ctrlAccessPoll | ctrlAccessAddress | ctrlAccessRead | ctrlAccessWrite =>
    exact effectOn_ctrlScan ..
  any_goals exact effectOn_onSeg ..
  -- RECALL is left, whose name is a word of Lean's own
  exact effectOn_issueOp ..

/-- The commands that name no segment are the two of RST_N_COLD. -/
theorem target_eq_none {c : Instr} (h : c.target = none) : (∃ l, c = .coldReset l) ∨ c = .coldResetAssert := by
  cases c
  case coldReset l => exact .inl ⟨l, rfl⟩
  case coldResetAssert => exact .inr rfl
  all_goals exact absurd h nofun

theorem exec_coldResetAssert (s : State) : exec .coldResetAssert s = .next { s with inColdReset := true } := rfl

theorem exec_coldReset (l : List Straps) (s : State) : exec (.coldReset l) s = execColdReset l s := rfl

/-- A cold reset answers a next state whatever straps it samples. -/
theorem exec_coldReset_next (l : List Straps) (s : State) : ∃ t, exec (.coldReset l) s = .next t := by
  rw [exec_coldReset, execColdReset]
  split
  · exact ⟨_, rfl⟩
  · exact ⟨_, rfl⟩

/-- Settles O3: a command that names a segment is an effect on it, and the two that name none always answer. -/
theorem everyCommandCompletes : Obligations.EveryCommandCompletes := by
  intro c s
  cases ht : c.target with
  | none =>
    refine .inl ⟨?_, nofun⟩
    obtain ⟨l, rfl⟩ | rfl := target_eq_none ht
    · exact exec_coldReset_next l s
    · exact ⟨_, exec_coldResetAssert s⟩
  | some sg =>
    obtain ⟨f, hf⟩ := exec_effectOn c s sg ht
    obtain ⟨hn, he⟩ | ⟨hn, he⟩ := onSeg_cases sg s f
    · exact .inr ⟨sg, rfl, hn, hf.trans he⟩
    · refine .inl ⟨⟨_, hf.trans he⟩, ?_⟩
      rintro _ ⟨⟩
      exact hn

/-- While RST_N_COLD is low, a command that names a segment answers the state as it stands, if it answers one. -/
theorem exec_inColdReset {c : Instr} {s t : State} {sg : Fin 8} (h : c.target = some sg) (hc : s.inColdReset = true)
    (he : exec c s = .next t) : t = s := by
  obtain ⟨f, hf⟩ := exec_effectOn c s sg h
  obtain ⟨-, hx⟩ | ⟨-, hx⟩ := onSeg_cases sg s f
  · exact absurd (he.symm.trans (hf.trans hx)) nofun
  · simpa [hc] using he.symm.trans (hf.trans hx)

/-- While RST_N_COLD is low, every command but the release leaves the segments, the time and the count of free values. -/
theorem exec_held {c : Instr} {s t : State} {segs : List Segment} (hs : s.heldWith segs) (hc : ∀ l, c ≠ .coldReset l)
    (he : exec c s = .next t) : t.heldWith segs ∧ t.time = s.time ∧ t.freeCtr = s.freeCtr := by
  obtain ⟨hr, hg⟩ := hs
  cases ht : c.target with
  | some sg =>
    obtain rfl := exec_inColdReset ht hr he
    exact ⟨⟨hr, hg⟩, rfl, rfl⟩
  | none =>
    obtain ⟨l, rfl⟩ | rfl := target_eq_none ht
    · exact absurd rfl (hc l)
    · rw [exec_coldResetAssert] at he
      cases he
      exact ⟨⟨rfl, hg⟩, rfl, rfl⟩

theorem step_nil {s : State} (h : s.pending = []) : step s = .next s.idle := by rw [step, h]

theorem step_cons {s : State} {c : Instr} {rest : List Instr} (h : s.pending = c :: rest) :
    step s = exec c { s with pending := rest } := by rw [step, h]

/-- While RST_N_COLD is low, no time passes. -/
theorem idle_inColdReset {s : State} (h : s.inColdReset = true) : s.idle = s := by rw [State.idle, if_pos h]

/-- Settles O4: the front command finds the package held, and with none waiting no cycle passes. -/
theorem nothingHappensInColdReset : Obligations.NothingHappensInColdReset := by
  refine ⟨fun s t segs hs hq ht => ?_, exec_coldResetAssert⟩
  cases hp : s.pending with
  | nil =>
    rw [step_nil hp, idle_inColdReset hs.1] at ht
    cases ht
    exact ⟨hs, rfl, rfl⟩
  | cons c rest =>
    rw [step_cons hp] at ht
    refine exec_held (s := { s with pending := rest }) hs (fun l hl => hq l ?_) ht
    rw [hp, hl]
    rfl

/-- Settles O1: the queue's front is the command that runs. -/
theorem stepRunsFront : Obligations.StepRunsFront := fun _ _ _ => step_cons rfl

/-- Settles O58: the memories of the reset state list no byte. -/
theorem resetMemoriesAreCanonical : Obligations.ResetMemoriesAreCanonical := by
  unfold Obligations.ResetMemoriesAreCanonical
  rfl

end Sys2Proof.Machine
end

section
/-! The words of a core's instructions (Tables 3.4 and 3.5). -/

namespace Sys2Proof.Machine

open Sys2Proof

/-! ## The fields of a word -/

/-- Which field a bit of a word lies in (Table 3.4). -/
theorem getLsbD_courierWord (op : BitVec 8) (f : IFields) (i : Nat) :
    (courierWord op f).getLsbD i =
      if i < 37 then f.imm.getLsbD i
      else if i < 38 then (f.inv && decide (i = 37))
      else if i < 41 then f.pred.getLsbD (i - 38)
      else if i < 46 then f.b.getLsbD (i - 41)
      else if i < 51 then f.a.getLsbD (i - 46)
      else if i < 56 then f.d.getLsbD (i - 51)
      else op.getLsbD (i - 56) := by
  have inv : ∀ j, (bit f.inv).getLsbD j = (f.inv && decide (j = 0)) := by
    intro j
    cases f.inv <;> simp [bit, BitVec.getLsbD_one]
  have field : i < 37 ∨ i = 37 ∨ (38 ≤ i ∧ i < 41) ∨ (41 ≤ i ∧ i < 46) ∨ (46 ≤ i ∧ i < 51) ∨ (51 ≤ i ∧ i < 56) ∨ 56 ≤ i := by omega
  simp only [courierWord, BitVec.getLsbD_append, inv, Nat.sub_sub]
  rcases field with h | rfl | h | h | h | h | h
  all_goals simp (disch := omega) only [if_pos, if_neg]

/-- The fields laid out in a word are read back from it. -/
theorem courierFields_courierWord (op : BitVec 8) (f : IFields) : courierFields (courierWord op f) = (op, f) := by
  have field (lo n : Nat) (x : BitVec n) (h : ∀ i, i < n → (courierWord op f).getLsbD (lo + i) = x.getLsbD i) :
      (courierWord op f).extractLsb' lo n = x :=
    BitVec.eq_of_getLsbD_eq fun i hi => by rw [BitVec.getLsbD_extractLsb', h i hi]; simp [hi]
  have inv : (courierWord op f).getLsbD 37 = f.inv := (getLsbD_courierWord op f 37).trans (by simp)
  rw [courierFields, inv, field 56 8 op, field 51 5 f.d, field 46 5 f.a, field 41 5 f.b, field 38 3 f.pred, field 0 37 f.imm]
  all_goals
    intro i hi
    simp (disch := omega) only [getLsbD_courierWord, if_neg, if_pos, Nat.add_sub_cancel_left, Nat.zero_add]

/-- The word of the fields read from a word is that word. -/
theorem courierWord_courierFields (w : Word) : courierWord (courierFields w).1 (courierFields w).2 = w := by
  refine BitVec.eq_of_getLsbD_eq fun i hi => ?_
  rw [getLsbD_courierWord]
  simp only [courierFields, BitVec.getLsbD_extractLsb']
  split_ifs with imm inv pred b a d
  · simp [imm]
  · obtain rfl : i = 37 := by omega
    simp
  all_goals simp (disch := omega) only [decide_eq_true, Bool.true_and, Nat.add_sub_cancel']

/-! ## Opcodes -/

/-- The opcode of an instruction gives the instruction back. -/
theorem ofOpcode_of_opcode {i : Instr} {op : BitVec 8} {x : Fetched} (h : i.opcode = some (op, x)) : ofOpcode op.toNat x = some i := by
  unfold Instr.opcode at h
  split at h
  all_goals cases h
  all_goals rfl

/-- The instruction of an opcode has that opcode and the fields it was given. -/
theorem opcode_of_ofOpcode {i : Instr} {n : Nat} {x : Fetched} (h : ofOpcode n x = some i) :
    i.opcode.map (fun y => (y.1.toNat, y.2.f)) = some (n, x.f) := by
  unfold ofOpcode at h
  split at h
  all_goals cases h
  all_goals rfl

/-- Settles O57: the fields of a word and the opcodes each go both ways. -/
theorem courierWordsRoundTrip : Obligations.CourierWordsRoundTrip := by
  refine ⟨fun i w op x ho hw => ?_, fun i w sg c st hd => ?_⟩
  · obtain rfl : courierWord op x.f = w := by simpa [encodeCourier, ho] using hw
    rw [decodeCourier, courierFields_courierWord]
    exact ofOpcode_of_opcode ho
  · have h := opcode_of_ofOpcode hd
    obtain ⟨⟨op, y⟩, ho, he⟩ := Option.map_eq_some_iff.mp h
    obtain ⟨hop, hf⟩ := Prod.mk.inj he
    rw [encodeCourier, ho, Option.map_some, BitVec.eq_of_toNat_eq hop, hf, courierWord_courierFields]

end Sys2Proof.Machine
end

section
/-! A cold reset (R543, R544, R547, R553), the frame of a core's instruction (R104, R140), and a word stored and loaded again (R96). -/

namespace Sys2Proof.Machine

open Sys2Proof

/-! ## Cold reset -/

theorem seg_reset {i : Nat} (h : i < 2) : State.reset.seg i = Segment.reset i := by
  interval_cases i <;> rfl

/-- The straps of segments 0 and 1 in order are sorted, and the segments of the reset state are what a cold reset with them leaves. -/
theorem exec_coldReset_reset : exec (.coldReset [resetStraps 0, resetStraps 1]) State.reset = .next State.reset := rfl

/-- Settles O5: a cold reset with the straps of the reset state, evaluated. -/
theorem resetIsColdReset : Obligations.ResetIsColdReset := by
  refine ⟨exec_coldReset_reset, rfl, rfl, rfl, rfl, fun i hi => ?_⟩
  rw [seg_reset hi]
  exact ⟨rfl, rfl, rfl, rfl, rfl⟩

/-- The straps in the order of their segments are as many as the dies. -/
@[simp] theorem length_sortStraps (l : List Straps) : (sortStraps l).length = l.length := by
  rw [sortStraps, List.length_filterMap_eq_countP, List.countP_eq_length.mpr, List.length_range]
  intro k hk
  split
  · rfl
  · simpa using hk

/-- A port that a reset leaves is down, or disabled where its strap is 0 (Table 9.4). -/
theorem port_cold (g : Segment) (st own : Straps) (err : Bool) {p : Nat} (h : p < 6) :
    ((g.cold st own err).port p).st = if st.portMask.getLsbD p then .down else .disabled := by
  simp [Segment.cold, Segment.port, portsReset, h]

/-- BOOT is the only strap that SEG_BOOT shows: the stage is 0 whatever the straps. -/
theorem stage_cold (g : Segment) (st own : Straps) (err : Bool) : (g.cold st own err).stage = 0 := by
  have stage : ∀ b : BitVec 2, bitsOf (BitVec.ofNat 64 (b.toNat * 65536)) F.SEG_BOOT_STAGE.hi F.SEG_BOOT_STAGE.lo = 0 := by decide
  have word : (g.cold st own err).reg F.SEG_BOOT_STAGE.off = 0#64 ||| BitVec.ofNat 64 (st.boot.toNat * 65536) := rfl
  rw [Segment.stage, Segment.fld, word, BitVec.zero_or, stage]

/-- What a die is before a cold reset: the segment that was there, or a new one with the package's memory sizes. -/
def State.dieBefore (s : State) (k : Nat) : Segment :=
  if k < s.n then s.seg k else { hbmSize := s.first.hbmSize, spSize := s.first.spSize }

/-- The segments that a cold reset leaves, one for each of the sorted straps (R544). -/
def State.dies (s : State) (l : List Straps) : List Segment :=
  (List.range l.length).map fun k =>
    (s.dieBefore k).cold (inForce (l.headD s.first.straps) (l.getD k (l.headD s.first.straps))) (l.getD k (l.headD s.first.straps)) (strapError l)

theorem exec_coldReset_dies {l : List Straps} (s : State) (h1 : 1 ≤ l.length) (h8 : l.length ≤ 8) :
    exec (.coldReset l) s = .next { s with segs := s.dies (sortStraps l), time := 0, inColdReset := false } := by
  rw [exec_coldReset, execColdReset, if_neg]
  · rfl
  · simpa using ⟨List.ne_nil_of_length_pos h1, h8⟩

/-- The die of a sorted strap. -/
theorem dies_getElem? {s : State} {first own : Straps} {l : List Straps} {i : Nat} (hf : l.head? = some first) (ho : l[i]? = some own) :
    (s.dies l)[i]? = some ((s.dieBefore i).cold (inForce first own) own (strapError l)) := by
  obtain ⟨hi, -⟩ := List.getElem?_eq_some_iff.mp ho
  rw [State.dies, List.getElem?_map, List.getElem?_range hi, Option.map_some, List.headD_eq_head?_getD, hf,
    List.getD_eq_getElem?_getD, ho]
  rfl

/-- Settles O6: each fact about a segment holds of whatever `Segment.cold` leaves. -/
theorem coldResetTakesStraps : Obligations.ColdResetTakesStraps := by
  intro l s h1 h8 _
  have hn : (s.dies (sortStraps l)).length = l.length := by simp [State.dies]
  refine ⟨_, exec_coldReset_dies s h1 h8, hn, rfl, rfl, rfl, fun i hi => ?_⟩
  have hlen : i < (sortStraps l).length := by rw [length_sortStraps, ← hn]; exact hi
  have hown := List.getElem?_eq_getElem hlen
  have hfirst := List.head?_eq_some_head (List.ne_nil_of_length_pos (Nat.zero_lt_of_lt hlen))
  rw [State.seg, List.getD_eq_getElem?_getD, dies_getElem? hfirst hown, Option.getD_some]
  refine ⟨⟨_, _, hfirst, hown, rfl, rfl⟩, fun _ => rfl, stage_cold .., rfl, rfl, rfl, rfl, rfl, rfl,
    fun p hp => port_cold _ _ _ _ hp, rfl, rfl, rfl, fun h => ?_⟩
  rw [State.dieBefore, if_pos h]
  exact ⟨rfl, rfl⟩

/-! ## The frame of an instruction -/

/-- An outcome of the frame of a core's instruction with an opcode. -/
def CoreRuns (sg : Fin 8) (c : Fin 18) (op : BitVec 8) (f : IFields) (s : State) (o : Out) : Prop :=
  ∃ level ill body, o = runCore sg c op level f ill body s

section Frames

variable (sg : Fin 8) (c : Fin 18) (op : BitVec 8) (f : IFields) (s : State)

theorem coreRuns_runCore (level : Nat) (ill : Bool) (body : State → Core → Res) :
    CoreRuns sg c op f s (runCore sg c op level f ill body s) := ⟨level, ill, body, rfl⟩

theorem coreRuns_aluOp (v : Core → Word) : CoreRuns sg c op f s (aluOp sg c op f v s) := coreRuns_runCore ..

theorem coreRuns_cmpOp (t : Word → Word → Bool) : CoreRuns sg c op f s (cmpOp sg c op f t s) := coreRuns_runCore ..

theorem coreRuns_predOp (t : Bool → Bool → Bool) : CoreRuns sg c op f s (predOp sg c op f t s) := coreRuns_runCore ..

theorem coreRuns_issueOp (ill : Bool) : CoreRuns sg c op f s (issueOp sg c op f ill s) := coreRuns_runCore ..

theorem coreRuns_loadOp (n : Nat) (isSigned : Bool) : CoreRuns sg c op f s (loadOp sg c op f n isSigned s) := coreRuns_runCore ..

theorem coreRuns_storeOp (n : Nat) : CoreRuns sg c op f s (storeOp sg c op f n s) := coreRuns_runCore ..

end Frames

/-- Every instruction of a core runs in that frame, with the opcode and the fields of its word. -/
theorem exec_coreRuns {i : Instr} {op : BitVec 8} {x : Fetched} (s : State) (h : i.opcode = some (op, x)) :
    CoreRuns x.sg x.c op x.f s (exec i s) := by
  cases i
  case add | sub | and | or | xor | shl | shr | sra | mul | mulh | mulhu | div | divu | rem | remu | min | max | minu | maxu | movh | popc
    | clz | ctz | extu =>
    cases h
    unfold exec
    exact coreRuns_aluOp ..
  case ceq | cne | clt | cltu | cge | cgeu =>
    cases h
    unfold exec
    exact coreRuns_cmpOp ..
  case pand | por | pxor =>
    cases h
    unfold exec
    exact coreRuns_predOp ..
  case pset | movs | sets | cld | cst | br | call | ret | yield | halt | eret | chunk | sig | waits | waite | fence | rdt | tkt =>
    cases h
    unfold exec
    exact coreRuns_runCore ..
  case ld8 | ld16 | ld32 | ld64 | lds8 | lds16 | lds32 =>
    cases h
    unfold exec
    exact coreRuns_loadOp ..
  case st8 | st16 | st32 | st64 =>
    cases h
    unfold exec
    exact coreRuns_storeOp ..
  case get | put | copy | movt | atom | atomf | cjoin | camp | vote | ride =>
    cases h
    unfold exec
    exact coreRuns_issueOp ..
  -- RECALL is left, whose name is a word of Lean's own; the other commands have no opcode
  all_goals cases h
  unfold exec
  exact coreRuns_issueOp ..

/-- An instruction whose fetch fails raises that exception, whatever its guard says. -/
theorem runCore_fetchExc {s : State} {sg : Fin 8} {c : Fin 18} {f : IFields} {op : BitVec 8} {level : Nat} {ill : Bool}
    {body : State → Core → Res} {code : BitVec 4} {info : Word} (ht : Takes s sg) (hr : ((s.seg sg).core c).st = .running)
    (hk : (s.seg sg).clocked = true) (hs : (s.seg sg).stopHeld c = false)
    (hu : 16 ≤ c.val → (s.seg sg).usable s.tick (c.val - 15) = true) (hf : ((s.seg sg).core c).fetchExc c = some (code, info)) :
    runCore sg c op level f ill body s = .next (s.setSeg sg ((s.seg sg).raiseExc s.time c op code info)) := by
  rw [runCore, onSeg_takes _ _ _ ht]
  have awake : (16 ≤ c.val && !(s.seg sg).usable s.tick (c.val - 15)) = false := by simpa using hu
  simp only [hr, hk, hs, awake, hf]
  rfl

/-- An instruction that is guarded off moves the PC on and does nothing else. -/
theorem runCore_guardedOff {s : State} {sg : Fin 8} {c : Fin 18} {f : IFields} {op : BitVec 8} {level : Nat} {ill : Bool}
    {body : State → Core → Res} (ht : Takes s sg) (hr : ((s.seg sg).core c).st = .running)
    (hk : (s.seg sg).clocked = true) (hs : (s.seg sg).stopHeld c = false)
    (hu : 16 ≤ c.val → (s.seg sg).usable s.tick (c.val - 15) = true) (hf : ((s.seg sg).core c).fetchExc c = none)
    (hg : ((s.seg sg).core c).guarded f = false) :
    runCore sg c op level f ill body s = .next (s.modCore sg c fun k => { k with pc := k.pc + 8 }) := by
  rw [runCore, onSeg_takes _ _ _ ht]
  have awake : (16 ≤ c.val && !(s.seg sg).usable s.tick (c.val - 15)) = false := by simpa using hu
  simp only [hr, hk, hs, awake, hf, hg]
  rfl

/-- A legal instruction below its level raises EX_PRIV. -/
theorem runCore_underLevel {s : State} {sg : Fin 8} {c : Fin 18} {f : IFields} {op : BitVec 8} {level : Nat}
    {body : State → Core → Res} (hx : Executes s sg c f) (hl : levelOf c < level) :
    runCore sg c op level f false body s = .next (s.setSeg sg ((s.seg sg).raiseExc s.time c op 0x2 0)) := by
  obtain ⟨ht, hr, hs, hu, hf, hg, hk⟩ := hx
  rw [runCore, onSeg_takes _ _ _ ht]
  have awake : (16 ≤ c.val && !(s.seg sg).usable s.tick (c.val - 15)) = false := by simpa using hu
  simp only [hr, hk, hs, awake, hf, hg, hl]
  rfl

/-- The instructions of Table 3.5 that have a level run in the frame with that level, and have no illegal form. -/
theorem exec_level : ∀ y ∈ ([(0x41, 2, .sets), (0x42, 1, .cld), (0x43, 1, .cst), (0x4D, 1, .eret)] :
    List (BitVec 8 × Nat × (Fin 8 → Fin 18 → IFields → Instr))), ∀ (s : State) (sg : Fin 8) (c : Fin 18) (f : IFields),
    ∃ body, exec (y.2.2 sg c f) s = runCore sg c y.1 y.2.1 f false body s := by
  simp only [List.forall_mem_cons]
  refine ⟨?sets, ?cld, ?cst, ?eret, nofun⟩
  all_goals
    intro s sg c f
    unfold exec
    exact ⟨_, rfl⟩

/-- Settles O28: the three ways in which the frame does not come to the instruction's body. -/
theorem guardedOffAndFetch : Obligations.GuardedOffAndFetch := by
  refine ⟨fun i op x s ho ht hr hk hs hu => ?_, fun y hy s sg c f hx hl => ?_⟩
  · obtain ⟨level, ill, body, he⟩ := exec_coreRuns s ho
    exact ⟨fun code info hf => he.trans (runCore_fetchExc ht hr hk hs hu hf),
      fun hf hg => he.trans (runCore_guardedOff ht hr hk hs hu hf hg)⟩
  · obtain ⟨body, he⟩ := exec_level y hy s sg c f
    exact he.trans (runCore_underLevel hx (by simpa [levelOf] using hl))

end Sys2Proof.Machine
end

section
/-! ALU instructions (R107), compares and predicates (R108), and loads and stores of the lunchbox (R96, R109). -/

namespace Sys2Proof.Machine

open Sys2Proof

section Instructions

variable {s : State} {sg : Fin 8} {c : Fin 18} {f : IFields}

/-- What an outcome equal to a command's does. -/
theorem does_of_eq {i : Instr} {o : Out} {P : State → Prop} (he : exec i s = o) (h : ∃ t, o = .next t ∧ P t) : Does i s P := by
  subst he; exact h

/-! ## ALU -/

/-- An instruction of the ALU's shape computes the value it names. -/
theorem computes_of_aluOp {mk : Fin 8 → Fin 18 → IFields → Instr} {op : BitVec 8} {v w : Core → IFields → Word}
    (he : ∀ sg c f s, exec (mk sg c f) s = aluOp sg c op f (fun k => w k f) s) (hv : ∀ k f, w k f = v k f) : Computes mk v := by
  obtain rfl : w = v := funext fun k => funext (hv k)
  intro s sg c f hx hs
  obtain ⟨t, ht, hstep⟩ := aluOp_steps s sg c f op (fun k => w k f) hx hs
  exact ⟨t, (he sg c f s).trans ht, hstep⟩

/-- Settles O16: each instruction is of the ALU's shape with its value; the four divisions test the divisor as a Boolean. -/
theorem aluResults : Obligations.AluResults := by
  refine ⟨?add, ?sub, ?and, ?or, ?xor, ?shl, ?shr, ?sra, ?mul, ?mulh, ?mulhu, ?div, ?divu, ?rem, ?remu, ?min, ?max,
    ?minu, ?maxu, ?movh, ?popc, ?clz, ?ctz, ?extu⟩
  case add => exact computes_of_aluOp exec_add fun _ _ => rfl
  case sub => exact computes_of_aluOp exec_sub fun _ _ => rfl
  case and => exact computes_of_aluOp exec_and fun _ _ => rfl
  case or => exact computes_of_aluOp exec_or fun _ _ => rfl
  case xor => exact computes_of_aluOp exec_xor fun _ _ => rfl
  case shl => exact computes_of_aluOp exec_shl fun _ _ => rfl
  case shr => exact computes_of_aluOp exec_shr fun _ _ => rfl
  case sra => exact computes_of_aluOp exec_sra fun _ _ => rfl
  case mul => exact computes_of_aluOp exec_mul fun _ _ => rfl
  case mulh => exact computes_of_aluOp exec_mulh fun _ _ => rfl
  case mulhu => exact computes_of_aluOp exec_mulhu fun _ _ => rfl
  case div => exact computes_of_aluOp exec_div fun k f => by simp [divS]
  case divu => exact computes_of_aluOp exec_divu fun k f => by simp [divU]
  case rem => exact computes_of_aluOp exec_rem fun k f => by simp [remS]
  case remu => exact computes_of_aluOp exec_remu fun k f => by simp [remU]
  case min => exact computes_of_aluOp exec_min fun k f => by simp [BitVec.slt]
  case max => exact computes_of_aluOp exec_max fun k f => by simp [BitVec.slt]
  case minu => exact computes_of_aluOp exec_minu fun k f => by simp [BitVec.ult]
  case maxu => exact computes_of_aluOp exec_maxu fun k f => by simp [BitVec.ult]
  case movh => exact computes_of_aluOp exec_movh fun _ _ => rfl
  case popc => exact computes_of_aluOp exec_popc fun _ _ => rfl
  case clz => exact computes_of_aluOp exec_clz fun _ _ => rfl
  case ctz => exact computes_of_aluOp exec_ctz fun _ _ => rfl
  case extu => exact computes_of_aluOp exec_extu fun _ _ => rfl

/-! ## Compares and predicates -/

/-- Settles O18: the three shapes, each with its test. -/
theorem compareAndPredicateResults : Obligations.CompareAndPredicateResults := by
  refine ⟨?ceq, ?cne, ?clt, ?cltu, ?cge, ?cgeu, ?pand, ?por, ?pxor, ?pset⟩
  case ceq => exact fun s sg c f hx hs hd => does_of_eq (exec_ceq sg c f s) (cmpOp_steps s sg c f _ _ hx hs hd)
  case cne => exact fun s sg c f hx hs hd => does_of_eq (exec_cne sg c f s) (cmpOp_steps s sg c f _ _ hx hs hd)
  case clt => exact fun s sg c f hx hs hd => does_of_eq (exec_clt sg c f s) (cmpOp_steps s sg c f _ _ hx hs hd)
  case cltu => exact fun s sg c f hx hs hd => does_of_eq (exec_cltu sg c f s) (cmpOp_steps s sg c f _ _ hx hs hd)
  case cge => exact fun s sg c f hx hs hd => does_of_eq (exec_cge sg c f s) (cmpOp_steps s sg c f _ _ hx hs hd)
  case cgeu => exact fun s sg c f hx hs hd => does_of_eq (exec_cgeu sg c f s) (cmpOp_steps s sg c f _ _ hx hs hd)
  case pand => exact fun s sg c f hx hs hd ha hb => does_of_eq (exec_pand sg c f s) (predOp_steps s sg c f _ _ hx hs hd ha hb)
  case por => exact fun s sg c f hx hs hd ha hb => does_of_eq (exec_por sg c f s) (predOp_steps s sg c f _ _ hx hs hd ha hb)
  case pxor => exact fun s sg c f hx hs hd ha hb => does_of_eq (exec_pxor sg c f s) (predOp_steps s sg c f _ _ hx hs hd ha hb)
  case pset =>
    exact fun s sg c f hx hs hd => does_of_eq (exec_pset sg c f s) (go_steps s sg c f 0x2B 0 (f.d.toNat > 7) _
      (fun k => k.setP f.d.toNat (f.imm.getLsbD 0)) hx hs (by simpa using hd) (by omega) rfl (by simp) (by simp))

/-! ## Loads and stores -/

/-- An aligned access whose bytes lie in the lunchbox and whose word passes its check, where it is read, raises nothing. -/
theorem lbExc_eq_none {k : Core} {a : Word} {n : Nat} {reads : Bool} (ha : a.toNat % n = 0) (hb : a.toNat + n ≤ 0x10000)
    (hp : reads = true → k.lbBad.contains (a.toNat / 8) = false) : lbExc k a n reads = none := by
  rw [lbExc, if_neg (by simpa using ha), if_neg (by omega), if_neg]
  cases reads with
  | false => simp
  | true => simpa using hp rfl

theorem loads_of_loadOp {mk : Fin 8 → Fin 18 → IFields → Instr} {op : BitVec 8} {n : Nat} {isSigned : Bool} {v : Nat → Word}
    (he : ∀ sg c f s, exec (mk sg c f) s = loadOp sg c op f n isSigned s)
    (hv : ∀ x, v x = if isSigned then signed n x else BitVec.ofNat 64 x) : Loads mk n v := by
  intro s sg c f hx hs ha hb hp
  obtain ⟨t, ht, hstep⟩ := loadOp_steps s sg c f op n isSigned _ hx hs (lbExc_eq_none ha hb fun _ => hp) (hv _)
  exact ⟨t, (he sg c f s).trans ht, hstep⟩

/-- Settles O20: each load is of the one shape, with its bytes and its extension. -/
theorem loadResults : Obligations.LoadResults := by
  refine ⟨?ld8, ?ld16, ?ld32, ?ld64, ?lds8, ?lds16, ?lds32⟩
  case ld8 => exact loads_of_loadOp exec_ld8 fun _ => rfl
  case ld16 => exact loads_of_loadOp exec_ld16 fun _ => rfl
  case ld32 => exact loads_of_loadOp exec_ld32 fun _ => rfl
  case ld64 => exact loads_of_loadOp exec_ld64 fun _ => rfl
  case lds8 => exact loads_of_loadOp exec_lds8 fun _ => rfl
  case lds16 => exact loads_of_loadOp exec_lds16 fun _ => rfl
  case lds32 => exact loads_of_loadOp exec_lds32 fun _ => rfl

theorem stores_of_storeOp {mk : Fin 8 → Fin 18 → IFields → Instr} {op : BitVec 8} {n : Nat} (hn : n ≤ 8)
    (he : ∀ sg c f s, exec (mk sg c f) s = storeOp sg c op f n s) : Stores mk n := by
  intro s sg c f hx hs ha hb hp
  obtain ⟨t, ht, hstep⟩ := storeOp_steps s sg c f op n hx hs (lbExc_eq_none ha hb fun h => hp (by rw [bne_iff_ne] at h; omega))
  exact ⟨t, (he sg c f s).trans ht, hstep⟩

@[simp] theorem length_natBytes (v n : Nat) : (natBytes v n).length = n := by
  induction n generalizing v with
  | zero => rfl
  | succ n ih => simp [natBytes, ih]

/-- Byte `i` of a number, counted from the lowest. -/
theorem getElem_natBytes (v n i : Nat) (h : i < (natBytes v n).length) : (natBytes v n)[i] = BitVec.ofNat 8 (v / 2 ^ (8 * i)) := by
  induction n generalizing v i with
  | zero => simp at h
  | succ n ih =>
    cases i with
    | zero => simp [natBytes]
    | succ i =>
      simp only [natBytes, List.getElem_cons_succ, ih]
      rw [Nat.mul_succ, Nat.pow_add, Nat.mul_comm (2 ^ (8 * i)), Nat.div_div_eq_div_mul]

/-- A byte of the lunchbox after a store. -/
theorem memRead_store (k : Core) (a n i : Nat) (v : Word) (h : memWf k.lb = true) :
    memRead (k.store a n v).lb i = if a ≤ i ∧ i < a + n then BitVec.ofNat 8 (v.toNat % 2 ^ (8 * n) / 2 ^ (8 * (i - a))) else memRead k.lb i := by
  split
  case isTrue hi =>
    obtain ⟨j, rfl⟩ := Nat.exists_eq_add_of_le hi.1
    have hj : j < (natBytes (v.toNat % 2 ^ (8 * n)) n).length := by rw [length_natBytes]; omega
    rw [Core.store, memRead_memPut_in a j _ h hj, getElem_natBytes, Nat.add_sub_cancel_left]
  case isFalse hi => exact memRead_memPut_out a i _ h (by rw [length_natBytes]; omega)

/-- Settles O21: each store is of the one shape, and a byte of the lunchbox is then one of the number's or as it was. -/
theorem storeResults : Obligations.StoreResults := by
  refine ⟨?st8, ?st16, ?st32, ?st64, memRead_store⟩
  case st8 => exact stores_of_storeOp (by decide) exec_st8
  case st16 => exact stores_of_storeOp (by decide) exec_st16
  case st32 => exact stores_of_storeOp (by decide) exec_st32
  case st64 => exact stores_of_storeOp (by decide) exec_st64

/-! ## Loads and stores that trap -/

/-- A load or store is of one of two shapes, of its bytes; every load reads the word, and every store but that of a whole word. -/
theorem lunchInstrs_shape : ∀ x ∈ lunchInstrs,
    (x.2.2.1 = true ∧ ∃ isSigned, ∀ sg c f s, exec (x.2.2.2 sg c f) s = loadOp sg c x.1 f x.2.1 isSigned s) ∨
    (x.2.2.1 = (x.2.1 != 8) ∧ ∀ sg c f s, exec (x.2.2.2 sg c f) s = storeOp sg c x.1 f x.2.1 s) := by
  simp only [lunchInstrs, List.forall_mem_cons]
  exact ⟨.inl ⟨trivial, _, exec_ld8⟩, .inl ⟨trivial, _, exec_ld16⟩, .inl ⟨trivial, _, exec_ld32⟩, .inl ⟨trivial, _, exec_ld64⟩, .inl ⟨trivial, _, exec_lds8⟩,
    .inl ⟨trivial, _, exec_lds16⟩, .inl ⟨trivial, _, exec_lds32⟩, .inr ⟨rfl, exec_st8⟩, .inr ⟨rfl, exec_st16⟩, .inr ⟨rfl, exec_st32⟩,
    .inr ⟨rfl, exec_st64⟩, nofun⟩

/-- An executing load or store whose access traps raises the exception. -/
theorem lunch_raises {x : BitVec 8 × Nat × Bool × (Fin 8 → Fin 18 → IFields → Instr)} (hmem : x ∈ lunchInstrs) (hx : Executes s sg c f)
    {code : BitVec 4} {info : Word}
    (he : lbExc ((s.seg sg).core c) (((s.seg sg).core c).ea f) x.2.1 x.2.2.1 = some (code, info)) :
    Raises (x.2.2.2 sg c f) s sg c x.1 code info := by
  obtain ⟨reads, isSigned, hload⟩ | ⟨reads, hstore⟩ := lunchInstrs_shape x hmem
  · rw [reads] at he
    rw [Raises, hload, loadOp, runCore_executes _ _ _ _ _ _ _ _ hx rfl (by omega)]
    simp only [he]
    rfl
  · rw [reads] at he
    rw [Raises, hstore, storeOp, runCore_executes _ _ _ _ _ _ _ _ hx rfl (by omega)]
    simp only [he]
    rfl

/-- Settles O22: the access's exceptions in their order. -/
theorem lunchboxTraps : Obligations.LunchboxTraps := by
  intro x hmem s sg c f hx
  refine ⟨fun misaligned => ?_, fun aligned beyond => ?_, fun aligned within reads bad => ?_⟩
  · exact lunch_raises hmem hx (by simp [lbExc, misaligned])
  · exact lunch_raises hmem hx (by simp [lbExc, aligned, beyond])
  · exact lunch_raises hmem hx (by simp [lbExc, aligned, Nat.not_lt.mpr within, reads]; simpa using bad)

/-! ## A word stored and loaded again -/

theorem bytesNat_cons (b : Byte) (bs : List Byte) : bytesNat (b :: bs) = bytesNat bs * 256 + b.toNat := rfl

/-- The bytes of a number read back as the number, cut to their width. -/
theorem bytesNat_natBytes (v n : Nat) : bytesNat (natBytes v n) = v % 2 ^ (8 * n) := by
  induction n generalizing v with
  | zero => rw [Nat.mul_zero, Nat.pow_zero, Nat.mod_one]; rfl
  | succ n ih =>
    rw [natBytes, bytesNat_cons, ih, BitVec.toNat_ofNat, show 2 ^ (8 * (n + 1)) = 256 * 2 ^ (8 * n) by rw [Nat.mul_succ, Nat.pow_add]; omega,
      Nat.mod_mul]
    omega

/-- A word stored is the number at its address. -/
theorem memNat_store_word (k : Core) (a : Nat) (v : Word) (h : memWf k.lb = true) : BitVec.ofNat 64 (memNat (k.store a 8 v).lb a 8) = v := by
  have bytes := memBytes_memPut a (natBytes (v.toNat % 2 ^ (8 * 8)) 8) h
  rw [length_natBytes] at bytes
  rw [memNat, Core.store, bytes, bytesNat_natBytes, Nat.mod_mod, Nat.mod_eq_of_lt v.isLt, BitVec.ofNat_toNat, BitVec.setWidth_eq]

/-- A word stored passes its check. -/
theorem lbBad_store_word (k : Core) (a : Nat) (v : Word) : (k.store a 8 v).lbBad.contains (a / 8) = false := by
  simp [Core.store]

/-- Settles O56: the store leaves the word and its check good, and the load finds both. -/
theorem storeThenLoad : Obligations.StoreThenLoad := by
  intro s sg c f hx hs hwf ha hb
  obtain ⟨t, ht, hstep⟩ := storeResults.2.2.2.1 s sg c f hx hs ha hb (fun h => absurd h (by decide))
  refine ⟨t, ht, fun f' hx' hs' hea => ?_⟩
  obtain ⟨-, hcore, -⟩ := hstep
  have loads := loadResults.2.2.2.1 t sg c f' hx' hs'
  rw [hea] at loads
  have bad : ((t.seg sg).core c).lbBad.contains ((((s.seg sg).core c).ea f).toNat / 8) = false := by
    rw [hcore]
    exact lbBad_store_word _ _ (((s.seg sg).core c).r f.b)
  have word : BitVec.ofNat 64 (memNat ((t.seg sg).core c).lb (((s.seg sg).core c).ea f).toNat 8) = ((s.seg sg).core c).r f.b := by
    rw [hcore]; exact memNat_store_word _ _ _ hwf
  rw [← word]
  exact loads ha hb bad

end Instructions

end Sys2Proof.Machine
end

section
/-! The boot of a segment (R553 to R557) and the start of its steward. -/

namespace Sys2Proof.Machine

open Sys2Proof

/-! ## What a command on a segment that takes commands becomes -/

section Frames

variable {i : Instr} {s t : State} {sg : Fin 8} {ag : Agent}

theorem becomes_onSeg {u : State → State} (he : exec i s = onSeg sg s u) (ht : Takes s sg) (hu : u s = t) : Becomes i s t :=
  he.trans ((onSeg_takes sg s u ht).trans (congrArg _ hu))

theorem actsOn_onSeg {u : State → State} {f : Segment → Segment} (he : exec i s = onSeg sg s u) (ht : Takes s sg)
    (hu : u s = s.setSeg sg (f (s.seg sg))) : ActsOn i s sg f := becomes_onSeg he ht hu

theorem becomes_onCtl {u : State → State} (he : exec i s = onCtl sg ag s u) (ht : Takes s sg) (hu : u (s.accessed ag) = t) :
    Becomes i s t := he.trans ((onCtl_takes sg ag s u ht).trans (congrArg _ hu))

theorem becomes_onDoms {ds : List Nat} {u : State → State} (he : exec i s = onDoms sg ag ds s u) (ht : Takes s sg)
    (hc : (s.seg sg).clocked = true) (hu : u (s.reached sg ag ds) = t) : Becomes i s t :=
  he.trans ((onDoms_takes sg ag ds s u ht hc).trans (congrArg _ hu))

end Frames

theorem mod_setSeg (s : State) (i : Nat) (g : Segment) (f : Segment → Segment) (h : i < s.n) :
    (s.setSeg i g).mod i f = s.setSeg i (f g) := by
  rw [State.mod, seg_setSeg_same _ _ _ h, setSeg_setSeg]

/-! ## The stages (R553 to R556) -/

/-- An image written within the boot area and the present memory while its source is awaited (R556). -/
theorem imageBytes_lands {s : State} {sg source : Nat} {off : BitVec 32} {data : List Byte} (stage : (s.seg sg).stage = 4)
    (boot : (s.seg sg).bootSource = source) (fits : off.toNat + data.length ≤ bootAreaSize)
    (present : (s.seg sg).present 0 ((s.seg sg).bootBase + off.toNat) data.length = true) :
    s.imageBytes sg source off data = s.mod sg fun g => g.put 0 (g.bootBase + off.toNat) data := by
  simp [State.imageBytes, State.mod, stage, boot, fits, present]

/-- Settles O7: in each event's frame, the conditions named for it choose its effect. -/
theorem bootStagesAdvance : Obligations.BootStagesAdvance := by
  refine ⟨?lock, ?test, ?clear, ?write, ?load, ?bootGo, ?imageGo⟩
  case lock =>
    intro s sg ht unlocked stage untested
    refine actsOn_onSeg (exec_pllLock sg s) ht ?_
    simp [unlocked, stage, untested]
  case test =>
    intro s sg rows bad voter ht other stage locked noStrapErr secure
    refine actsOn_onSeg (exec_selfTestDone sg rows bad voter s) ht ?_
    simp [stage, locked, noStrapErr, secure, other, mod_setSeg _ _ _ _ ht.1]
  case clear =>
    intro s sg ht stage
    refine becomes_onSeg (exec_memoryClearDone sg s) ht ?_
    simp [stage]
  case write =>
    intro s off data ht wf stage source fits present
    refine actsOn_onSeg (exec_imageWrite off data s) ht ?_
    have length : 1 ≤ data.length ∧ data.length ≤ 56 := by simpa [Instr.wf] using wf
    simp only [length, decide_true, Bool.and_self, if_true]
    exact imageBytes_lands stage source fits present
  case load =>
    intro s sg off data ht stage source fits present
    refine ⟨actsOn_onSeg (exec_imageLoad sg off data false s) ht ?_, becomes_onSeg (exec_imageLoad sg off data true s) ht ?_⟩
    · exact imageBytes_lands stage source fits present
    · simp [stage, source, imageBytes_lands stage source fits present]
  case bootGo =>
    intro s sg ag ht host stage source
    refine becomes_onCtl (exec_bootGo sg ag s) ht ?_
    simp [State.goWrite, host, stage, source]
  case imageGo =>
    intro s ht stage source
    refine becomes_onSeg (exec_imageGo s) ht ?_
    simp [stage, source]

end Sys2Proof.Machine
end

section
/-! The steward's start, resets and live update (R24, R548 to R551, R557 to R561). -/

namespace Sys2Proof.Machine

open Sys2Proof

theorem mod_eq_of_seg {s : State} {i : Nat} {f u : Segment → Segment} (h : f (s.seg i) = u (s.seg i)) : s.mod i f = s.mod i u := by
  rw [State.mod, State.mod, h]

theorem stage_with_boot (g : Segment) (x : Boot) : ({ g with boot := x } : Segment).stage = g.stage := rfl

/-- STEWARD_READY written by the steward while its start is awaited in STEWARD_LOAD and no update runs (R557). -/
theorem readyWrite_awaited {g : Segment} {tick : Nat} {ag : Agent} (steward : ag.cls = .steward) (started : g.boot.stewardStart ≠ none)
    (update : g.boot.update = none) (stage : (g.setFld F.SEG_BOOT_STEWARD_READY 1).stage = 6) :
    g.readyWrite tick ag =
      ({ g.setFld F.SEG_BOOT_STEWARD_READY 1 with boot := { g.boot with stewardStart := none } } : Segment).setStage 7 := by
  have awaited : (g.setFld F.SEG_BOOT_STEWARD_READY 1).boot.stewardStart.isNone = false :=
    Option.isNone_eq_false_iff.mpr (Option.isSome_iff_ne_none.mpr started)
  unfold Segment.readyWrite
  rw [if_neg (by simp [steward])]
  dsimp only
  rw [awaited, if_neg Bool.false_ne_true, stage_with_boot, stage]
  split
  next u hu => exact absurd (hu.symm.trans update) nofun
  next => rfl

/-- Settles O8: the conditions of each write and of the timeout choose its effect. -/
theorem stewardStarts : Obligations.StewardStarts := by
  refine ⟨?ready, ?timeout, ?area, ?nodeid⟩
  case ready =>
    intro s sg ag ht steward started update stage
    refine becomes_onCtl (exec_stewardReady sg ag s) ht (mod_eq_of_seg ?_)
    rw [readyWrite_awaited steward started update stage]
  case timeout =>
    intro s sg t ht start due update
    refine actsOn_onSeg (exec_stewardReadyTimeout sg s) ht ?_
    simp [start, update, Nat.not_lt.mpr due]
  case area =>
    intro s sg ag sz v ht stage
    refine becomes_onCtl (exec_segBootAreaWrite sg ag sz v s) ht (mod_eq_of_seg ?_)
    simp [Segment.areaWrite, stage]
  case nodeid =>
    intro s ag v ht idle
    refine becomes_onCtl (exec_segNodeidWrite 0 ag .w64 v s) ht ?_
    simp [State.nodeidWrite, idle, Sz.covers]

/-- Settles O9: the conditions of each reset choose its effect. -/
theorem resetsAct : Obligations.ResetsAct := by
  refine ⟨?request, ?warm, ?scrub, ?part, ?loss, ?prepare, ?resume⟩
  case request =>
    intro s sg ht ok
    refine becomes_onSeg (exec_warmResetRequest sg s) ht ?_
    simp [ok]
  case warm =>
    intro s sg ag ht keeper ok
    refine becomes_onCtl (exec_segResetWarm sg ag s) ht ?_
    simp [State.warmWrite, keeper, ok]
  case scrub =>
    intro s sg t ht scrub due
    refine actsOn_onSeg (exec_scrubLimitExpiry sg s) ht ?_
    simp [scrub, Nat.not_lt.mpr due]
  case part =>
    intro s sg ag d ht cls ok
    refine becomes_onCtl (exec_partialReset sg ag d s) ht ?_
    rcases cls with cls | cls <;> simp [State.partialWrite, cls, ok]
  case loss =>
    intro s sg ht locked
    refine becomes_onSeg (exec_pllLossOfLock sg s) ht ?_
    simp [locked]
  case prepare =>
    intro s sg ht
    exact actsOn_onSeg (exec_prepare sg s) ht rfl
  case resume =>
    intro s sg t ht until_ due
    refine actsOn_onSeg (exec_dispatchResumeLimit sg s) ht ?_
    simp [State.mod, until_, due]

/-- Settles O10: a request that nothing refuses comes to the check of its image. -/
theorem firmwareUpdates : Obligations.FirmwareUpdates := by
  refine ⟨?steward, ?keeper⟩
  case steward =>
    intro s sg ch ag ptr pc ht req ctx present reserved image inactive chan
    refine becomes_onSeg (exec_stewardUpdate sg ch s) ht ?_
    have named : ¬(field ((s.seg sg).hbmBytes ptr 8) 0 1 ≠ 1 ∧ field ((s.seg sg).hbmBytes ptr 8) 0 1 ≠ 2) := by omega
    by_cases accepted : (s.seg sg).imgCheck 2 ((s.seg sg).stewardAt (field ((s.seg sg).hbmBytes ptr 8) 0 1)) = .accepted
    · simp only [State.mod, accepted, if_true]
      simp [req, ctx, present, reserved, named, inactive, chan, accepted]
      rfl
    · simp [State.mod, req, ctx, present, reserved, named, inactive, accepted]
  case keeper =>
    intro s sg ch ag ptr ht req ctx present reserved
    refine becomes_onSeg (exec_keeperUpdate sg ch s) ht ?_
    by_cases accepted : (s.seg sg).imgCheck 1 (s.seg sg).incomingAt = .accepted <;>
      simp [State.mod, req, ctx, present, reserved, accepted]

end Sys2Proof.Machine
end

section
/-! The die bridge (R26 to R39) and the die port (R71, R82 to R89). -/

namespace Sys2Proof.Machine

open Sys2Proof

/-- A flit none of whose bits went bad is received as it was sent (R27). -/
theorem bridgeHit_clean (g : Segment) (cycle b : Nat) : g.bridgeHit cycle b [] = some g := by
  unfold Segment.bridgeHit
  split <;> simp

/-- Settles O11: each event of the die bridge where its conditions hold. -/
theorem bridgeLinksAct : Obligations.BridgeLinksAct := by
  refine ⟨?land, ?flips, ?credit, ?parity, ?message, ?up, ?retry⟩
  case land =>
    intro s sg b ht
    refine becomes_onSeg (exec_bridgeFlitLand sg ⟨b, []⟩ s) ht ?_
    rw [bridgeHit_clean]
    rfl
  case flips =>
    intro s sg b flips x ht hx port bad
    refine ⟨fun fails => becomes_onSeg (exec_bridgeFlitLand sg ⟨b, flips⟩ s) ht ?_, fun f passes =>
      becomes_onSeg (exec_bridgeFlitLand sg ⟨b, flips⟩ s) ht ?_⟩
    · simp [Segment.bridgeHit, hx, port, bad, fails]
    · simp [Segment.bridgeHit, hx, port, bad, passes]
      rfl
  case credit =>
    intro s sg b t rest ht due now up
    refine actsOn_onSeg (exec_bridgeCredit sg b s) ht ?_
    simp [due, up, Nat.not_lt.mpr now]
    rfl
  case parity =>
    intro s sg b lane ht up
    refine becomes_onSeg (exec_bridgeParityError sg b lane s) ht ?_
    simp [up]
  case message =>
    intro s sg b t landed ht partner now contained
    refine actsOn_onSeg (exec_bridgeResetMessage sg b s) ht ?_
    simp [partner, Nat.not_lt.mpr now, contained]
    rfl
  case up =>
    intro s sg b sg' b' ht partner locked locked' ready ready'
    refine ⟨fun stays stays' => becomes_onSeg (exec_bridgeLinkUp sg ⟨b, true⟩ s) ht ?_, fun repaired down =>
      becomes_onSeg (exec_bridgeLinkUp sg ⟨b, repaired⟩ s) ht ?_⟩
    · simp [partner, locked, locked', ready, ready', stays, stays']
    · rcases down with down | down | down <;> simp [partner, locked, locked', ready, ready', down]
  case retry =>
    intro s sg b ag ht clocked down
    refine becomes_onCtl (exec_bridgeRetry sg b ag s) ht ?_
    simp [State.bridgeRetry, clocked, down]

/-- Settles O12: the router awake and the identifier free, each access is taken as the refusal's test says. -/
theorem diePortServes : Obligations.DiePortServes := by
  refine ⟨?access, ?control, ?fence, ?master⟩
  case access =>
    intro s sg r ht awake takes space
    refine ⟨fun none => ⟨actsOn_onSeg (exec_dptWrite sg r s) ht ?_, actsOn_onSeg (exec_dptRead sg r s) ht ?_⟩, fun st refused =>
      ⟨actsOn_onSeg (exec_dptWrite sg r s) ht ?_, actsOn_onSeg (exec_dptRead sg r s) ht ?_⟩⟩
    · simp [State.onDpt, awake, takes, space, none]
    · simp [State.onDpt, awake, takes, space, none]
    · simp [State.onDpt, awake, takes, space, refused]
    · simp [State.onDpt, awake, takes, space, refused]
  case control =>
    intro s sg r w ht awake takes space none away
    refine actsOn_onSeg (exec_dptControlAccess sg w r s) ht ?_
    simp [State.onDpt, awake, takes, space, none, away]
  case fence =>
    intro s sg ch id ctx ht awake takes resident
    refine actsOn_onSeg (exec_segFenceRead sg ch id ctx s) ht ?_
    simp [State.onDpt, awake, takes, resident]
  case master =>
    intro s sg ch id d ht hd
    refine ⟨fun status => becomes_onSeg (exec_dpmResponse sg ch id status s) ht ?_, fun due =>
      becomes_onSeg (exec_dpmTimeout sg ch id s) ht ?_⟩
    · simp [State.mod, hd]
    · simp [State.mod, hd, Nat.not_lt.mpr due]
      rfl

end Sys2Proof.Machine
end

section
/-! A requester's requests, replies, tags and merge entries (R48 to R75), and the requests that a home executes (R61 to R83). -/

namespace Sys2Proof.Machine

open Sys2Proof

/-- Settles O13: each event of the requester where its conditions hold. -/
theorem requesterActs : Obligations.RequesterActs := by
  refine ⟨?issue, ?reply, ?synthetic, ?timeout, ?quarantine, ?retry, ?age, ?flush⟩
  case issue =>
    intro s sg req r ht hr
    refine ⟨fun unguarded => actsOn_onSeg (exec_requestIssue sg req s) ht ?_, fun guarded fits may first =>
      actsOn_onSeg (exec_requestIssue sg req s) ht ?_⟩
    · simp [hr, unguarded]
    · rcases first with first | first <;> simp [hr, guarded, fits, may, first]
  case reply =>
    intro s sg bad f rest ht hf home
    refine ⟨fun away => actsOn_onSeg (exec_replyLand sg bad s) ht ?_, fun t ts x here good names req =>
      actsOn_onSeg (exec_replyLand sg bad s) ht ?_⟩
    · have elsewhere : (f.dstSeg == (s.seg sg).segId) = false := by simpa using away
      simp [hf, home, elsewhere]
    · simp [hf, home, here, good, names, req]
  case synthetic =>
    intro s sg f rest t ts x ht hf synth sure notBusy notLink notNode kind here names req
    refine actsOn_onSeg (exec_replyLand sg none s) ht ?_
    simp [hf, synth, sure, notBusy, notLink, notNode, show f.kind ≠ 8#5 from kind, here, names, req]
  case timeout =>
    intro s sg tag id idx ctx doubted again r sent ht held req first due
    refine actsOn_onSeg (exec_tagTimeout sg tag s) ht ?_
    simp [Segment.tagReq, held, req, first, due]
  case quarantine =>
    intro s sg tag u ht quarantined due
    refine actsOn_onSeg (exec_tagQuarantineEnd sg tag s) ht ?_
    simp [quarantined, due]
  case retry =>
    intro s sg req r at_ base ht hr waits tags due
    refine actsOn_onSeg (exec_busyRetry sg req s) ht ?_
    by_cases down : (s.seg sg).knownDown r.line = true <;> simp [hr, waits, tags, Nat.not_lt.mpr due, down]
  case age =>
    intro s sg idx e ht entry due
    refine actsOn_onSeg (exec_mergeFlushAge sg idx none s) ht ?_
    simp [entry, Nat.not_lt.mpr due]
  case flush =>
    intro s sg ag ht
    exact becomes_onCtl (exec_mergeFlushCmd sg ag s) ht rfl

theorem txn_touchGuardAt (g : Segment) (sp off : Nat) : (g.touchGuardAt sp off).txn = g.txn := by
  unfold Segment.touchGuardAt
  split <;> rfl

theorem txn_serving (g : Segment) (f : Flit) : (g.serving f).txn = g.txn := by
  unfold Segment.serving Segment.touchGuard
  split
  · exact txn_touchGuardAt _ _ _
  · rfl

theorem atomAt_serving (g : Segment) (f : Flit) (p : Nat × Nat) : (g.serving f).atomAt p = g.atomAt p := by
  unfold Segment.atomAt
  rw [txn_serving]

/-- Settles O15: a served request comes to what its kind does, and a guard word to those who wait for it. -/
theorem homeServesRequests : Obligations.HomeServesRequests := by
  refine ⟨?execute, ?forward, ?atomic, ?copy, ?control, ?guard⟩
  case execute =>
    intro s sg idx f hs
    refine actsOn_onSeg (exec_homeExecute sg idx s) hs.1 ?_
    simp [homeRun_serves s sg idx _ f _ hs, mod_setSeg _ _ _ _ hs.1.1]
  case forward =>
    intro s sg idx f hs
    refine actsOn_onSeg (exec_fwdWrExecute sg idx s) hs.1 ?_
    simp [homeRun_serves s sg idx _ f _ hs, mod_setSeg _ _ _ _ hs.1.1]
  case atomic =>
    intro s sg idx f bad hs
    refine ⟨fun fresh room => actsOn_onSeg (exec_atomicExecute sg idx bad s) hs.1 ?_, fun x line cached data once =>
      actsOn_onSeg (exec_atomicExecute sg idx none s) hs.1 ?_⟩
    · simp [homeRun_serves s sg idx _ f _ hs, seg_serving _ _ _ hs.1.1, atomAt_serving, fresh, txn_serving, Nat.not_le.mpr room]
    · simp [homeRun_serves s sg idx _ f _ hs, seg_serving _ _ _ hs.1.1, atomAt_serving, cached, data, once]
  case copy =>
    intro s sg idx f hs
    refine becomes_onSeg (exec_cpyExecute sg idx [] s) hs.1 ?_
    simp [homeRun_serves s sg idx _ f _ hs, seg_serving _ _ _ hs.1.1]
  case control =>
    intro s sg idx q ht hq kind space turn dies form granted
    refine becomes_onSeg (exec_controlAtomAccess sg idx s) ht ?_
    simp [hq, kind, space, turn, Nat.not_lt.mpr dies, form, granted]
  case guard =>
    intro s sg region ht
    refine ⟨fun waits present => actsOn_onSeg (exec_guardFill sg region (some 0) s) ht ?_, fun st q failed first =>
      actsOn_onSeg (exec_guardFill sg region (some st) s) ht ?_, fun st r rest failed noneQueued first =>
      actsOn_onSeg (exec_guardFill sg region (some st) s) ht ?_⟩
    · rcases waits with waits | waits <;> simp [waits, present]
    · simp [first, show st ≠ 0#4 from failed, Segment.guardFailed]
      rfl
    · simp [noneQueued, first, show st ≠ 0#4 from failed, Segment.guardFailed]
      rfl

end Sys2Proof.Machine
end

section
/-! MOVS, SETS, CLD, CST, YIELD, HALT and ERET (R110 to R118). -/

namespace Sys2Proof.Machine

open Sys2Proof

section Instructions

variable {i : Instr} {s : State} {sg : Fin 8} {c : Fin 18} {f : IFields} {op : BitVec 8}

/-- An instruction that executes, is legal and is within the core's level yields what its body comes to. -/
theorem yields_runCore {level : Nat} {ill : Bool} {body : State → Core → Res} {r : Res} (he : exec i s = runCore sg c op level f ill body s)
    (hx : Executes s sg c f) (hi : ill = false) (hl : level ≤ levelOf c) (hb : body s ((s.seg sg).core c) = r) :
    Yields i s sg c op r := by
  subst hb
  exact he.trans (runCore_executes s sg c f op level ill body hx hi (by omega))

/-- The firmware cores have level 1 or more (Table 3.1). -/
theorem one_le_levelOf (h : 16 ≤ c.val) : 1 ≤ levelOf c := by
  obtain h | h : c.val = 16 ∨ c.val = 17 := by omega
  · simp [levelOf, h]
  · simp [levelOf, h]

section Results

variable {level : Nat} {ill : Bool} {body : State → Core → Res}

/-- A body that comes to an exception raises it. -/
theorem raises_runCore {code : BitVec 4} {info : Word} (he : exec i s = runCore sg c op level f ill body s) (hx : Executes s sg c f)
    (hi : ill = false) (hl : level ≤ levelOf c) (hb : body s ((s.seg sg).core c) = .exc code info) : Raises i s sg c op code info :=
  yields_runCore he hx hi hl hb

/-- A body that leaves the core to its new state leaves that state. -/
theorem becomes_of_wait {t : State} (he : exec i s = runCore sg c op level f ill body s) (hx : Executes s sg c f)
    (hi : ill = false) (hl : level ≤ levelOf c) (hb : body s ((s.seg sg).core c) = .wait t) : Becomes i s t :=
  yields_runCore he hx hi hl hb

/-- A body that takes the core off the instruction, its segment changed so, leaves that segment with the instruction counted. -/
theorem becomes_of_off {u : Segment → Segment} (he : exec i s = runCore sg c op level f ill body s) (hx : Executes s sg c f)
    (hi : ill = false) (hl : level ≤ levelOf c) (hb : body s ((s.seg sg).core c) = .off (s.mod sg u)) :
    Becomes i s (s.mod sg fun g => (u g).bump (F.CUR_COUNT_RETIRED.core c)) := by
  have h := yields_runCore he hx hi hl hb
  rwa [Yields, Res.apply, mod_mod _ _ _ _ hx.1.1] at h

/-- A body that changes its own core and goes on is a step of that core. -/
theorem coreDoes_of_go (u : Core → Core) (he : exec i s = runCore sg c op level f ill body s) (hx : Executes s sg c f) (hs : Settled s sg c)
    (hi : ill = false) (hl : level ≤ levelOf c) (hb : body s ((s.seg sg).core c) = .go (s.modCore sg c u))
    (ht : ∀ k, (u k).ticket = k.ticket) (hp : ∀ k, (u k).stopPending = k.stopPending) (hq : ∀ k, (u k).startTick = k.startTick) :
    CoreDoes i s sg c (u ((s.seg sg).core c)) :=
  ⟨_, yields_runCore he hx hi hl hb, coreStep_go s sg c f op hx hs u ht hp hq⟩

end Results

/-- Settles O24: what each body comes to. -/
theorem specialAndControlInstructions : Obligations.SpecialAndControlInstructions := by
  refine ⟨?movs, ?sets, ?misaligned, ?control, ?yield, ?halt, ?eret⟩
  case movs =>
    intro s sg c f hx
    refine ⟨fun hi hs => ?_, fun hi => raises_illegal hx (exec_movs sg c f s) (by simpa using hi)⟩
    exact coreDoes_of_go (fun k => k.setR f.d _) (exec_movs sg c f s) hx hs (by simpa using hi) (Nat.zero_le _) (by simp) (by simp) (by simp)
      (by simp)
  case sets =>
    intro s sg f hx hs
    exact coreDoes_of_go (fun k => { k with ctx := (((s.seg sg).core 16).r f.a).truncate 12 }) (exec_sets sg 16 f s) hx hs rfl
      (Nat.le_refl _) rfl (fun _ => rfl) (fun _ => rfl) (fun _ => rfl)
  case misaligned =>
    intro s sg c f hx hc ha
    exact ⟨raises_runCore (exec_cld sg c f s) hx rfl (one_le_levelOf hc) (by simp [ha]),
      raises_runCore (exec_cst sg c f s) hx rfl (one_le_levelOf hc) (by simp [ha])⟩
  case control =>
    intro s sg c f hx hc ha
    refine ⟨fun own => ⟨?read, ?write⟩, fun away => ⟨?request, ?send⟩⟩
    case read =>
      intro t
      split
      next ok => exact yields_runCore (exec_cld sg c f s) hx rfl (one_le_levelOf hc) (by simp [ha, own, ok, t])
      next bad => exact becomes_of_wait (exec_cld sg c f s) hx rfl (one_le_levelOf hc) (by simp [ha, own, bad, t])
    case write =>
      intro t
      split
      next ok =>
        refine becomes_of_wait (exec_cst sg c f s) hx rfl (one_le_levelOf hc) ?_
        dsimp only
        rw [if_neg (by simp [ha]), if_pos own, if_pos (beq_iff_eq.mpr ok)]
      next bad =>
        refine becomes_of_wait (exec_cst sg c f s) hx rfl (one_le_levelOf hc) ?_
        dsimp only
        rw [if_neg (by simp [ha]), if_pos own, if_neg fun h => bad (beq_iff_eq.mp h)]
        rfl
    case request => exact becomes_of_wait (exec_cld sg c f s) hx rfl (one_le_levelOf hc) (by simp [ha, away, State.waitIn])
    case send => exact becomes_of_wait (exec_cst sg c f s) hx rfl (one_le_levelOf hc) (by simp [ha, away, State.waitIn])
  case yield =>
    intro s sg c f n hx ticket room
    exact becomes_of_off (exec_yield sg c f s) hx rfl (Nat.zero_le _) (by simp [ticket, firstExc, show descExc _ 0#64 4096 = none from room])
  case halt =>
    intro s sg c f hx
    refine ⟨fun firmware => ?_, fun n courier status ticket => ?_, fun courier status => ?_⟩
    · exact becomes_of_off (exec_halt sg c f s) hx rfl (Nat.zero_le _) (by simp [firmware])
    · exact becomes_of_off (exec_halt sg c f s) hx rfl (Nat.zero_le _) (by
        simp [Nat.not_le.mpr courier, ticket, BitVec.le_def, Nat.not_le.mpr status])
    · exact raises_runCore (exec_halt sg c f s) hx rfl (Nat.zero_le _) (by
        simp [Nat.not_le.mpr courier, BitVec.le_def, status])
  case eret =>
    intro s sg c f hx hc hs
    exact jump_steps (fun k => { k with handler := false }) hx hs
      (yields_runCore (exec_eret sg c f s) hx rfl (one_le_levelOf hc) rfl) (fun _ => rfl) (fun _ => rfl) (fun _ => rfl)

end Instructions

end Sys2Proof.Machine
end

section
/-! WAITS, WAITE, FENCE, RDT, TKT, RECALL and CHUNK (R129 to R136, R158, R159). -/

namespace Sys2Proof.Machine

open Sys2Proof

section Instructions

variable {i : Instr} {s : State} {sg : Fin 8} {c : Fin 18} {f : IFields} {op : BitVec 8}

/-- An issuing instruction of a legal form yields what its issue comes to. -/
theorem yields_issueOp {ill : Bool} {r : Iss} (he : exec i s = issueOp sg c op f ill s) (hx : Executes s sg c f)
    (hb : badSlot f = false) (hi : ill = false) (hr : s.issue sg c op f [] none = r) : Yields i s sg c op (r.res sg c op f s) :=
  yields_runCore he hx (by rw [hb, hi]; rfl) (Nat.zero_le _) (by rw [hr])

/-- A read of the die port that answers is not late. -/
@[simp] theorem dpmLate_some (g : Segment) (tick : Nat) (st : BitVec 4) : g.dpmLate tick (some st) = g := rfl

theorem gaBytes_touch (g : Segment) (used : List RangeEntry) (ga n : Nat) : (g.touch used).gaBytes ga n = g.gaBytes ga n := rfl

@[simp] theorem dpmStatus_ok : dpmStatus (some 0#4) = 0#4 := rfl

theorem dpmStatus_failed {e : BitVec 4} (h : e ≠ 0) : dpmStatus (some e) = csPoison := by simp [dpmStatus, show e ≠ 0#4 from h]

/-- Settles O25: what each body comes to. -/
theorem waitAndTicketInstructions : Obligations.WaitAndTicketInstructions := by
  refine ⟨?forms, ?waits, ?waite, ?fence, ?tkt, ?recalls, ?chunk⟩
  case forms =>
    intro s sg c f st hx
    refine ⟨fun hd => ⟨raises_illegal hx (exec_waits sg c f st s) (by simpa using hd), raises_illegal hx (exec_waite sg c f s) (by simpa using hd)⟩,
      fun hd ha => ?_, fun hd ha => ⟨fun st' bad => ?_, fun va miss => ?_, fun ps used ok away => ?_⟩⟩
    · exact raises_runCore (exec_waits sg c f st s) hx (by simpa using hd) (Nat.zero_le _) (by simp [ha])
    · exact raises_runCore (exec_waits sg c f st s) hx (by simpa using hd) (Nat.zero_le _) (by
        dsimp only
        rw [bad]
        simp [ha])
    · exact becomes_of_wait (exec_waits sg c f st s) hx (by simpa using hd) (Nat.zero_le _) (by
        dsimp only
        rw [miss]
        simp [ha, State.waitIn])
    · exact raises_runCore (exec_waits sg c f st s) hx (by simpa using hd) (Nat.zero_le _) (by
        dsimp only
        rw [ok]
        simp [ha, away])
  case waits =>
    intro s sg c f ps used hx hd ha ok here ga t
    rw [gaBytes_touch]
    refine ⟨fun enough => ?_, fun less => ?_, fun e failed => ?_⟩
    · refine yields_runCore (exec_waits sg c f (some 0) s) hx (by simpa using hd) (Nat.zero_le _) ?_
      dsimp only
      rw [ok]
      simp [ha, here, t, ga, enough]
    · refine becomes_of_wait (exec_waits sg c f (some 0) s) hx (by simpa using hd) (Nat.zero_le _) ?_
      dsimp only
      rw [ok]
      simp [ha, here, t, ga, Nat.not_le.mpr less, State.waitIn]
    · refine raises_runCore (exec_waits sg c f (some e) s) hx (by simpa using hd) (Nat.zero_le _) ?_
      dsimp only
      rw [ok]
      simp [ha, here, dpmStatus_failed failed, show csPoison ≠ 0#4 by decide]
  case waite =>
    intro s sg c f hx hd
    refine ⟨fun met => ?_, fun unmet => ?_⟩
    · exact yields_runCore (exec_waite sg c f s) hx (by simpa using hd) (Nat.zero_le _) (if_pos met)
    · exact becomes_of_wait (exec_waite sg c f s) hx (by simpa using hd) (Nat.zero_le _) (by
        dsimp only
        rw [if_neg (Bool.eq_false_iff.mp unmet)]
        simp [State.waitIn])
  case fence =>
    intro s sg c f hx
    refine ⟨fun legal => ⟨fun none => ?_, fun some => ?_⟩, fun reserved => ?_, fun legal hs => ?_, fun reserved => ?_⟩
    · exact yields_runCore (exec_fence sg c f s) hx (by simpa using legal) (Nat.zero_le _) (by simp [none])
    · exact becomes_of_wait (exec_fence sg c f s) hx (by simpa using legal) (Nat.zero_le _) (by simp [some, State.waitIn])
    · exact raises_illegal hx (exec_fence sg c f s) (by simpa using reserved)
    · exact coreDoes_of_go (fun k => k.setR f.d _) (exec_rdt sg c f s) hx hs (by simpa using legal) (Nat.zero_le _) rfl (by simp) (by simp)
        (by simp)
    · exact raises_illegal hx (exec_rdt sg c f s) (by simpa using reserved)
  case tkt =>
    intro s sg c f hx
    refine ⟨fun code info bad => ?_, fun good => ⟨fun none => ?_, fun m t n x ticket ht free trail room => ?_⟩⟩
    · exact raises_runCore (exec_tkt sg c f s) hx rfl (Nat.zero_le _) (by simp [bad])
    · refine yields_runCore (exec_tkt sg c f s) hx rfl (Nat.zero_le _) ?_
      dsimp only
      rw [good]
      dsimp only
      split
      next t n ht hn =>
        have full : (s.seg sg).ticketQuota ≤ ((s.seg sg).ticketsOf ((s.seg sg).core c).ctx).length := by
          rcases none with h | h | h
          · simp [h] at ht
          · simp [h] at hn
          · exact h
        rw [if_pos full]
      next => rfl
    · refine yields_runCore (exec_tkt sg c f s) hx rfl (Nat.zero_le _) ?_
      simp [good, ticket, ht, free, trail, Nat.not_le.mpr room]
      rfl
  case recalls =>
    intro s sg c f b hx slot hb
    refine ⟨fun courier user => ?_, fun allowed room free good store => ⟨fun i hi => ?_, fun hi => ?_⟩⟩
    · refine yields_issueOp (exec_recall sg c f s) hx slot rfl (r := .exc 0x2 0) ?_
      simp [State.issue, State.issueRecall, courier, user]
    all_goals
      have level : (decide (c.val < 16) && !(s.seg sg).privileged ((s.seg sg).core c).ctx) = false := by
        rcases allowed with firmware | ⟨privileged, -⟩
        · simp [Nat.not_lt.mpr firmware]
        · simp [privileged]
      have own : (badRecall b || (decide (c.val < 16) && field b 16 2 != ((s.seg sg).core c).ctx.toNat)) = false := by
        rcases allowed with firmware | ⟨-, own⟩
        · simp [good, Nat.not_lt.mpr firmware]
        · simp [good, own]
      subst hb
      rw [hi] at free
    · refine yields_issueOp (exec_recall sg c f s) hx slot rfl (r := .ok _) ?_
      simp [State.issue, State.issueRecall, level, own, room, free, store, hi, firstExc]
    · refine yields_issueOp (exec_recall sg c f s) hx slot rfl (r := .ok _) ?_
      simp [State.issue, State.issueRecall, level, own, room, free, store, hi, firstExc]
  case chunk =>
    intro s sg c f hx
    refine ⟨fun hd => raises_illegal hx (exec_chunk sg c f s) (by simpa using hd), fun hd => ⟨fun n o busy kind => ?_, fun other => ?_⟩⟩
    · exact yields_runCore (exec_chunk sg c f s) hx (by simpa using hd) (Nat.zero_le _) (by simp [busy, kind])
    · refine raises_runCore (exec_chunk sg c f s) hx (by simpa using hd) (Nat.zero_le _) ?_
      dsimp only
      split
      next n o busy kind => exact absurd kind (other.resolve_left (not_not.mpr busy) n o)
      next => rfl

end Instructions

end Sys2Proof.Machine
end

section
/-! GET, PUT, COPY, MOVT, ATOM, ATOMF, SIG, CJOIN, CAMP, VOTE and RIDE (R119 to R128, R198 to R206). -/

namespace Sys2Proof.Machine

open Sys2Proof

@[simp] theorem firstExc_none (l : List (Option (BitVec 4 × Word))) : firstExc (none :: l) = firstExc l := rfl

@[simp] theorem firstExc_nil : firstExc [] = none := rfl

section Instructions

variable {i : Instr} {s : State} {sg : Fin 8} {c : Fin 18} {f : IFields} {op : BitVec 8}

/-- Settles O26: what each issue comes to. -/
theorem movesAndAtomicsIssue : Obligations.MovesAndAtomicsIssue := by
  refine ⟨?move, ?shape, ?atom, ?sig⟩
  case move =>
    intro x hmem s sg c f k b n fl sides used hx hk hb slot store desc hbytes reserved hfl flags put get_ planned hn pos within src dst sides_ok
      getOwn putOwn
    subst hk
    have issue : s.issueMove sg c x.1.toNat f [] none = .ok (s.mod sg fun g => g.newDesc s.time c (slotOf f)
       (.move x.1.toNat (if fl % 2 == 1 then .lunchbox (field b 0 8) else .span (field b 0 8) (sides.getD 0 []))
         (if fl / 2 % 2 == 1 then .lunchbox (field b 8 8) else .span (field b 8 8) (sides.getD 1 [])) n
         (x.1.toNat == 0x52 && (field b 8 8 % 128 != 0 || field b 0 8 % 128 != 0))) n 32 used) := by
      have hn' : n = if f.b == 0 then field b 16 8 else (((s.seg sg).core c).r f.b).toNat := by simpa using hn
      have srcIn : ((fl % 2 == 1) && decide (0 < n) && decide (n ≤ field b 16 8) && decide (field b 0 8 + n > 0x10000)) = false := by
        rw [Bool.and_eq_false_iff, decide_eq_false_iff_not, Bool.and_eq_false_iff, Bool.and_eq_false_iff]
        by_cases lb : fl % 2 = 1
        · exact .inr (Nat.not_lt.mpr (src lb))
        · exact .inl (.inl (.inl (beq_false_of_ne lb)))
      have dstIn : ((fl / 2 % 2 == 1) && decide (0 < n) && decide (n ≤ field b 16 8) && decide (field b 8 8 + n > 0x10000)) = false := by
        rw [Bool.and_eq_false_iff, decide_eq_false_iff_not, Bool.and_eq_false_iff, Bool.and_eq_false_iff]
        by_cases lb : fl / 2 % 2 = 1
        · exact .inr (Nat.not_lt.mpr (dst lb))
        · exact .inl (.inl (.inl (beq_false_of_ne lb)))
      have legal : (!zeros b 25 7 || decide (fl ≥ 4) || ((fl % 2 == 1) && (x.1.toNat != 0x51)) || ((fl / 2 % 2 == 1) && (x.1.toNat != 0x50)) ||
          decide (field b 16 8 > 2 ^ 44)) = false := by
        have put' : fl % 2 = 1 → x.1.toNat = 0x51 := fun h => congrArg BitVec.toNat (put h)
        have get' : fl / 2 % 2 = 1 → x.1.toNat = 0x50 := fun h => congrArg BitVec.toNat (get_ h)
        simp only [reserved, Bool.or_eq_false_iff, Bool.and_eq_false_imp, decide_eq_false_iff_not, bne_eq_false_iff_eq, beq_iff_eq]
        exact ⟨⟨⟨⟨rfl, Nat.not_le.mpr flags⟩, put'⟩, get'⟩, Nat.not_lt.mpr planned⟩
      have own : ((x.1.toNat == 0x50) && !(sides.getD 1 []).all (fun p => (s.seg sg).owns p.ga) ||
          (x.1.toNat == 0x51) && !(sides.getD 0 []).all (fun p => (s.seg sg).owns p.ga)) = false := by
        simp only [Bool.or_eq_false_iff, Bool.and_eq_false_imp, beq_iff_eq, Bool.not_eq_false']
        exact ⟨fun h => getOwn (BitVec.eq_of_toNat_eq h), fun h => putOwn (BitVec.eq_of_toNat_eq h)⟩
      simp only [State.issueMove, desc, ← hbytes, ← hfl, ← hn', legal, own, slot, store, sides_ok, srcIn, dstIn, beq_false_of_ne pos.ne',
        Nat.not_lt.mpr within, Bool.false_eq_true, if_false, firstExc_none, firstExc_nil]
    simp only [List.mem_cons, List.not_mem_nil, or_false] at hmem
    rcases hmem with rfl | rfl | rfl
    · exact yields_issueOp (exec_get sg c f s) hx hb rfl issue
    · exact yields_issueOp (exec_put sg c f s) hx hb rfl issue
    · exact yields_issueOp (exec_copy sg c f s) hx hb rfl issue
  case shape =>
    intro s sg c f k b size sh g cs sides used hx hk hb slot store desc hsize desc' hbytes parsed counts wide pos sides_ok
    subst hk
    have ready : cs.any (fun x => x == 0) = false := by simpa using pos
    have issue : s.issueShape sg c f [] none = .ok ((s.setSeg sg g).mod sg fun g => g.newDesc s.time c (slotOf f)
        (.shape { sh with counts := cs } (sides.getD 0 []) (sides.getD 1 []) (sides.getD 2 [])) ({ sh with counts := cs } : Shape).tiles size
          used) := by
      simp only [State.issueShape, desc, ← hsize, desc', ← hbytes, parsed, slot, store, counts, wide, ready, firstExc_none, firstExc_nil]
      rw [sides_ok]
      rfl
    exact yields_issueOp (exec_movt sg c f s) hx hb rfl issue
  case atom =>
    intro x hmem s sg c f k b role ga sides used hx hk hb slot store desc hbytes reserved hrole sides_ok hga
    subst hk
    have issue : s.issueAtom sg c x.2.1 f [] none = .ok (s.mod sg fun g => g.newDesc s.time c (slotOf f)
        (.atom (if x.2.1 then 4 else 3) (sides.getD 0 []) (padTo 128 ((b.drop 8).take 4 ++ natBytes (ga % 128) 2 ++ List.replicate 10 0 ++
            (if x.2.1 && field b 10 1 / 2 % 2 == 1 then (b.drop 16).take 64 else (b.drop 16).take 16 ++ (b.drop 80).take 16)))
          (some ((((s.seg sg).core c).descAt f).toNat + 96)) role) 1 112 used) := by
      simp only [State.issueAtom, ← hbytes, desc, slot, reserved, store, ← hrole, sides_ok, ← hga, firstExc_none, firstExc_nil, if_true]
      rfl
    simp only [List.mem_cons, List.not_mem_nil, or_false] at hmem
    rcases hmem with rfl | rfl
    · exact yields_issueOp (exec_atom sg c f s) hx hb rfl issue
    · exact yields_issueOp (exec_atomf sg c f s) hx hb rfl issue
  case sig =>
    intro s sg c f k sides used hx hk hb slot store aligned sides_ok
    subst hk
    have issue : s.issue sg c 0x60 f [] none = .ok (s.mod sg fun g => g.newDesc s.time c (slotOf f)
        (.atom 3 (sides.getD 0 []) (padTo 128 (addPayload ((((sides.getD 0 []).head?).map Piece.ga).getD 0)
          (((s.seg sg).core c).r f.b + BitVec.ofNat 64 f.off))) none 2) 1 0 used) := by
      have word : ((((s.seg sg).core c).r f.a).toNat % 8 != 0) = false := by rw [aligned]; rfl
      change s.issueSig sg c f [] none = _
      simp only [State.issueSig, word, slot, store, sides_ok]
      rfl
    refine ⟨fun free => ?_, fun release waits => ?_⟩
    · refine yields_runCore (exec_sig sg c f s) hx hb (Nat.zero_le _) ?_
      dsimp only
      rw [issue]
      rcases free with h | h
      · rw [h]
        rfl
      · simp [h, Iss.res]
    · refine becomes_of_wait (exec_sig sg c f s) hx hb (Nat.zero_le _) ?_
      rw [release]
      simp [aligned, waits]

/-- Settles O27: what each entry into a queue comes to. -/
theorem collectivesIssue : Obligations.CollectivesIssue := by
  refine ⟨?rounds, ?join⟩
  case rounds =>
    intro x hmem s sg c f k n hx hk hb ride slot hn
    subst hk
    have instr : ∀ v : Nat × Word, v = (if x.1 = 0x5C then f.flags % 16 else 0, if x.1 = 0x5A then 0 else ((s.seg sg).core c).r f.b) →
        ∀ t, s.issueRound sg c x.2.1 f v.1 v.2 = .ok t → Yields (x.2.2 sg c f) s sg c x.1 (.go t) := by
      intro v hv t issue
      subst hv
      simp only [List.mem_cons, List.not_mem_nil, or_false] at hmem
      rcases hmem with rfl | rfl | rfl
      · exact yields_issueOp (exec_camp sg c f s) hx hb rfl issue
      · exact yields_issueOp (exec_vote sg c f s) hx hb rfl issue
      · exact yields_issueOp (exec_ride sg c f s) hx hb (decide_eq_false (Nat.not_lt.mpr (ride rfl))) issue
    refine ⟨fun st refuses => instr _ rfl _ ?_, fun y refuses group store held => instr _ rfl _ ?_⟩
    · simp only [State.issueRound, ← hn, slot, refuses]
      rfl
    · simp only [State.issueRound, ← hn, slot, refuses, group, store, held]
      rfl
  case join =>
    intro s sg c f k b shb off size n x sh g counts op sides used hx hk hb slot desc hbytes hoff hsize desc' hn hshb hsh refuses group bad
      store held hcounts hop sides_ok
    subst hk
    have now : (s.setSeg sg g).time = s.time := rfl
    have issue : s.issueJoin sg c f [] none = .ok ((s.setSeg sg g).mod sg fun g' => (g'.touch used).joinQueue n
       (op.enter g s.time ((s.seg sg).core c).ctx (sides.getD 0 []) (sides.getD 1 [])) (.cjoin op.gated n x.nextOp)) := by
      simp only [State.issueJoin, ← hbytes, ← hoff, ← hsize, ← hn, ← hshb, ← hsh, desc, desc', slot, refuses, group, bad, store, held, hcounts, now,
        ← hop, sides_ok, firstExc_none, firstExc_nil, State.mod, seg_setSeg_same s sg g hx.1.1]
      rw [hop]
      rfl
    exact yields_issueOp (exec_cjoin sg c f s) hx hb rfl issue

end Instructions

end Sys2Proof.Machine
end

section
/-! Exceptions (R140 to R142) and the events of the cores outside their instructions (R92, R94, R129, R130, R140, R150). -/

namespace Sys2Proof.Machine

open Sys2Proof

/-- The reset package with the clock of segment 0 running and its domains awake. -/
def clockedReset : State :=
  State.reset.mod 0 fun g => (({ g with boot := { g.boot with pllAt := some 0 } } : Segment).setFld F.PWR_DOMAIN_REQ_REQ (2 ^ 35 - 1)).setFld
    F.PWR_DOMAIN_STATE_AWAKE (2 ^ 35 - 1)

/-- The fields of a WAITS whose result would be p8. -/
def toP8 : IFields := { d := 8, a := 0, b := 0, pred := 0, inv := false, imm := 0 }

theorem clockedReset_executes : Executes clockedReset 0 16 toP8 := by decide +kernel

/-- Refutes O29: the statement lets an exception of the keeper or the steward change nothing in the segment but its cores. The model
also marks the code's bits of CUR_EXC as set by the hardware in this cycle (`fwExc_clear`), which keeps a write of ones of the same
cycle from clearing them (R14); of a courier the statement itself says so. Here the keeper raises EX_ILLEGAL by a WAITS to p8. -/
theorem not_exceptionEntry : ¬ Obligations.ExceptionEntry := by
  intro ⟨firmware, _⟩
  have illegal : Raises (.waits 0 16 toP8 none) clockedReset 0 16 0x61 0x1 0 :=
    raises_illegal clockedReset_executes (exec_waits 0 16 toP8 none clockedReset) rfl
  obtain ⟨t, next, -, rest, -⟩ := firmware _ clockedReset 0 16 0x61 0x1 0 (by decide +kernel) (by decide) (by decide +kernel) (by decide +kernel)
    illegal
  have same := Host.Outcome.next.inj (illegal.symm.trans next)
  rw [← same] at rest
  have marks := congrArg (fun g => (Segment.hwSet g).length) rest
  exact absurd marks (by decide +kernel)

@[simp] theorem reg_answer (g : Segment) (st : BitVec 4) (w : Word) (off : Nat) : (g.answer st w).reg off = g.reg off := rfl

/-- A watchdog whose limit the core's ticket has reached reads the ticks it has run. -/
theorem watchdog_reached {g : Segment} {tick n limit : Nat} {c : Fin 18} (courier : c.val < 16) (ticket : (g.core c).ticket = some n)
    (hl : limit = g.fld (F.CUR_CTRL_RUN_LIMIT.core c) * 65536) (pos : 0 < limit) (reached : limit ≤ tick - (g.core c).startTick) :
    g.watchdog tick c = some (tick - (g.core c).startTick) := by
  subst hl
  simp [Segment.watchdog, courier, ticket, reached, Nat.ne_of_gt (Nat.pos_of_mul_pos_right pos)]

/-- Settles O30: in each event's frame, the conditions named for it choose its effect. -/
theorem coreEventsAct : Obligations.CoreEventsAct := by
  refine ⟨?watchdog, ?poll, ?timeouts, ?line, ?fetch, ?stop, ?lunchbox, ?code⟩
  case watchdog =>
    intro s sg c n limit ht courier ticket stopped stops hl pos reached running waiting
    refine actsOn_onSeg (exec_exWatchdog sg c s) ht ?_
    simp only [watchdog_reached courier ticket hl pos reached, stops, ← hl]
    by_cases run : ((s.seg sg).core c).st = .running
    · simp [run, Nat.not_le.mpr (running run)]
    · simp [run, stopped, waiting run]
  case poll =>
    intro s sg c va addr val pd dl due ht wait now
    refine ⟨fun enough => ?_, fun less => ?_, fun st bad => ?_⟩
    · refine actsOn_onSeg (exec_waitsPoll sg c (some 0) s) ht ?_
      simp [wait, Nat.not_lt.mpr now, enough]
    · refine actsOn_onSeg (exec_waitsPoll sg c (some 0) s) ht ?_
      simp [wait, Nat.not_lt.mpr now, Nat.not_le.mpr less]
    · refine actsOn_onSeg (exec_waitsPoll sg c (some st) s) ht ?_
      simp [wait, Nat.not_lt.mpr now, dpmStatus_failed bad, show csPoison ≠ 0#4 by decide]
  case timeouts =>
    intro s sg c pd dl ht lapsed
    refine ⟨fun va addr val due wait => ?_, fun mask any wait => ?_⟩
    · refine actsOn_onSeg (exec_waitsTimeout sg c s) ht ?_
      simp [wait, lapsed, State.mod]
    · refine actsOn_onSeg (exec_waiteTimeout sg c s) ht ?_
      simp [wait, lapsed, State.mod]
  case line =>
    intro s sg desc d g' ht found next first
    refine actsOn_onSeg (exec_lineIssue sg desc s) ht ?_
    simp only [found, next]
    exact if_neg (by simpa using first)
  case fetch =>
    intro s sg c ht running held code missing
    refine actsOn_onSeg (exec_instructionFetchMiss sg c (some 0) s) ht ?_
    dsimp only
    rw [missing]
    simp [running, held, code]
  case stop =>
    intro s sg c ht
    refine ⟨fun st held => ?_, fun st held => ?_⟩
    · refine actsOn_onSeg (exec_coreStop sg c s) ht ?_
      rcases st with st | ⟨st, courier⟩
      · simp [st, held, State.mod]
      · simp [st, courier, held, State.mod]
    · refine actsOn_onSeg (exec_coreStop sg c s) ht ?_
      simp [st, held, State.mod]
  case lunchbox =>
    intro s sg c ag g w ht hg hw keeper shut
    subst hg hw
    have allowed : (c.val == 16 && !ag.isKeeper) = false := by simpa using keeper
    refine ⟨fun good clk => becomes_onDoms (exec_curLbDataAccess sg c ag none s) ht clk ?_,
      fun v clk => becomes_onDoms (exec_curLbDataAccess sg c ag (some v) s) ht clk ?_⟩
    · dsimp only
      rw [allowed, shut, good]
      rfl
    · dsimp only
      rw [allowed, shut]
      rfl
  case code =>
    intro s sg c ag sz v ht keeper
    have allowed : (c.val == 16 && !ag.isKeeper) = false := by simpa using keeper
    refine ⟨fun clk => becomes_onDoms (exec_icinv sg c ag s) ht clk ?_, fun clk => becomes_onDoms (exec_curCodeWrite sg c ag sz v s) ht clk ?_⟩
    · dsimp only
      rw [allowed]
      simp [State.mod]
    · dsimp only
      rw [allowed]
      simp [State.mod]

end Sys2Proof.Machine
end

section
/-! Trails and tickets (R151 to R173), cancels and completion rings (R164 to R174). -/

namespace Sys2Proof.Machine

open Sys2Proof

@[simp] theorem trl_answer (g : Segment) (st : BitVec 4) (w : Word) : (g.answer st w).trl = g.trl := rfl

@[simp] theorem ticket?_answer (g : Segment) (st : BitVec 4) (w : Word) (n : Nat) : (g.answer st w).ticket? n = g.ticket? n := rfl

@[simp] theorem trail?_answer (g : Segment) (st : BitVec 4) (w : Word) (n : Nat) : (g.answer st w).trail? n = g.trail? n := rfl

@[simp] theorem time_reached (s : State) (sg : Nat) (ag : Agent) (ds : List Nat) : (s.reached sg ag ds).time = s.time := rfl

@[simp] theorem tick_reached (s : State) (sg : Nat) (ag : Agent) (ds : List Nat) : (s.reached sg ag ds).tick = s.tick := rfl

theorem present_with_trl (g : Segment) (x : Trl) (space off n : Nat) :
    ({ g with trl := x } : Segment).present space off n = g.present space off n := rfl

theorem hbmBytes_with_trl (g : Segment) (x : Trl) (off n : Nat) : ({ g with trl := x } : Segment).hbmBytes off n = g.hbmBytes off n := rfl

/-- Settles O31: the conditions of each event choose its effect. -/
theorem trailsAndTickets : Obligations.TrailsAndTickets := by
  refine ⟨?submit, ?admitTrail, ?ticket, ?gate, ?dispatch, ?ends, ?tile⟩
  case submit =>
    intro s sg ag v ht
    refine ⟨fun room clk => becomes_onDoms (exec_trailSubmit sg ag v s) ht clk ?_, fun full clk => becomes_onDoms (exec_trailSubmit sg ag v s) ht clk ?_⟩
    · exact if_neg (Nat.not_le.mpr room)
    · exact if_pos full
  case admitTrail =>
    intro s sg off ag rest slot b ctx g1 g2 r ps ht fifo free present hb good hctx ring array allowed
    subst hctx hb
    refine actsOn_onSeg (exec_trailAdmit sg (some 0) s) ht ?_
    have sender : (ag.admin || ag.ctx == BitVec.ofNat 12 (field ((s.seg sg).hbmBytes off 64) 12 2)) = true := by simpa using allowed
    simp only [fifo, free, present_with_trl, hbmBytes_with_trl, present, dpmLate_some, ring, array, good, sender]
    rfl
  case ticket =>
    intro s sg slot st gateSt x n ht next hslot free once
    refine actsOn_onSeg (exec_ticketAdmit sg slot st gateSt s) ht ?_
    simp [next, free, hslot, once]
  case gate =>
    intro s sg n t a ht found gate waiting closed now
    refine actsOn_onSeg (exec_gatePoll sg n (some 0) s) ht ?_
    by_cases enough : t.rec_.gateValue ≤ bytesNat ((s.seg sg).gaBytes a 8)
    · simp [found, gate, waiting, closed, Nat.not_lt.mpr now, enough]
    · simp [found, gate, waiting, closed, Nat.not_lt.mpr now, enough]
  case dispatch =>
    intro s sg st t c ht stop once next courier budget
    refine becomes_onSeg (exec_ticketDispatch sg st s) ht ?_
    simp [stop, once, next, courier, budget]
  case ends =>
    intro s sg n t ht found
    refine ⟨fun mask any saved some_ met => ?_, fun st reason exc ending spent => ?_⟩
    · refine actsOn_onSeg (exec_ticketResume sg n s) ht ?_
      dsimp only
      rw [found]
      dsimp only
      rw [saved]
      exact if_pos (by rw [met, Bool.and_true]; exact bne_iff_ne.mpr some_)
    · refine actsOn_onSeg (exec_ticketComplete sg n s) ht ?_
      simp [found, ending, spent]
  case tile =>
    intro s sg desc d sh src dst sig ht found body landed left
    refine actsOn_onSeg (exec_movtTileStart sg desc s) ht ?_
    have none_ : ((s.seg sg).tileJobs d.idx).any (fun j => !j.waits.isEmpty) = false := by simpa [List.any_eq_false] using landed
    simp only [found, body, none_, Bool.false_or]
    refine if_neg ?_
    rcases left with tiles | lines
    · simp [tiles]
    · simp [Nat.not_le.mpr lines]

/-- Settles O32: the conditions of each write and of each event choose its effect. -/
theorem cancelsAndRings : Obligations.CancelsAndRings := by
  refine ⟨?cancel, ?base, ?poll, ?full⟩
  case cancel =>
    intro s sg ag g ht hg
    subst hg
    refine ⟨fun n t found live => ⟨fun mine clk => ?_, fun other clk => ?_⟩, fun slot x found live => ⟨fun mine clk => ?_, fun other clk => ?_⟩,
      fun ctx live => ⟨fun mine clk => ?_, fun other clk => ?_⟩⟩
    · refine becomes_onDoms (exec_trlCancelTicket sg ag n s) ht clk ?_
      simp [State.mod, found, live, mine]
    · refine becomes_onDoms (exec_trlCancelTicket sg ag n s) ht clk ?_
      simp [State.mod, found, live, other]
    · refine becomes_onDoms (exec_trlCancelTrail sg ag slot s) ht clk ?_
      simp [State.mod, found, live, mine]
    · refine becomes_onDoms (exec_trlCancelTrail sg ag slot s) ht clk ?_
      simp [State.mod, found, live, other]
    · refine becomes_onDoms (exec_trlCancelContext sg ag ctx s) ht clk ?_
      dsimp only
      rw [trl_answer, live, mine]
      rfl
    · refine becomes_onDoms (exec_trlCancelContext sg ag ctx s) ht clk ?_
      dsimp only
      rw [trl_answer, live, other]
      rfl
  case base =>
    intro s sg ag sz v ht none_ clk
    exact becomes_onDoms (exec_trlSaveBaseWrite sg ag sz v s) ht clk (if_neg (Bool.eq_false_iff.mp none_))
  case poll =>
    intro s sg ring ht
    refine ⟨fun trail => ?_, fun low group => ?_, fun r mig found => ?_⟩
    · exact actsOn_onSeg (exec_cqHeadPoll sg ring s) ht (by simp [State.mod, trail])
    · exact actsOn_onSeg (exec_cqHeadPoll sg ring s) ht (by simp [State.mod, Nat.not_lt.mpr low, group])
    · refine actsOn_onSeg (exec_cqHeadPoll sg ring s) ht ?_
      simp only [State.mod, if_neg (show ¬ ring < 32 by omega), if_neg (show ¬ ring < 4128 by omega), found]
  case full =>
    intro s sg ring t0 ht
    refine ⟨fun x trail found since once due => ?_, fun r mig found since once due => ?_⟩
    · refine actsOn_onSeg (exec_cqFullTimeout sg ring s) ht ?_
      simp [State.mod, trail, found, Ring.overdue, since, once, due]
    · refine actsOn_onSeg (exec_cqFullTimeout sg ring s) ht ?_
      simp only [State.mod, if_neg (show ¬ ring < 32 by omega), found]
      simp [mig, Ring.overdue, since, once, due]

end Sys2Proof.Machine
end

section
/-! Groups of collectives: opening, closing, operations, timeouts and the stile (R189 to R197, R222 to R247). -/

namespace Sys2Proof.Machine

open Sys2Proof

/-- A group that is ready or active and has no operation in progress starts its head. -/
theorem mayStart_of {x : Grp} (idle : x.head = none) (ready : x.st = .ready ∨ x.st = .active) :
    (x.head.isSome || !(x.st == .ready || x.st == .active)) = false := by
  rcases ready with h | h <;> simp [idle, h]

/-- Settles O33: the conditions of each access and of each event choose its effect. -/
theorem groupsOpenAndClose : Obligations.GroupsOpenAndClose := by
  refine ⟨?base, ?open_, ?opened, ?commands, ?closed, ?start, ?aborted, ?timers, ?limits, ?release⟩
  case base =>
    intro s sg ag sz v ht empty clk
    refine becomes_onDoms (exec_clvHcBaseWrite sg ag sz v s) ht clk ?_
    simp [empty, State.mod]
  case open_ =>
    intro s r sg ag grp st stList stCtx x reason status ht admin hr free checks clk
    subst hr
    refine becomes_onDoms (exec_groupOpen sg ag grp st stList stCtx s) ht clk ?_
    dsimp only
    rw [checks, admin, free]
    rfl
  case opened =>
    intro s sg grp x ht found opening
    refine actsOn_onSeg (exec_groupOpenDone sg grp s) ht ?_
    by_cases passed : x.reason = 0
    · simp [found, opening, passed]
    · simp [found, opening, passed]
  case commands =>
    intro s r sg ag grp x ht clk admin hr found
    subst hr
    refine ⟨fun opening closing => becomes_onDoms (exec_groupClose sg ag grp s) ht clk ?_,
      fun live => becomes_onDoms (exec_groupAbortCommand sg ag grp s) ht clk ?_⟩
    · simp [admin, found, opening, closing, State.mod]
    · simp [admin, found, live, State.mod]
  case closed =>
    intro s sg grp x ht found closing
    refine actsOn_onSeg (exec_groupCloseDone sg grp s) ht ?_
    simp only [found, closing]
    rfl
  case start =>
    intro s sg grp x op rest ht found queue idle ready unasked
    refine becomes_onSeg (exec_operationStart sg grp s) ht ?_
    simp only [found, queue, mayStart_of idle ready, unasked]
    by_cases join : op.code = 0x58
    · by_cases large : (x.newHead op s.time).large
      · simp [join, large]
      · by_cases launch : op.launch = 0
        · simp [join, large, launch]
        · simp [join, large, show op.launch ≠ 0#4 from launch]
    · simp [join]
  case aborted =>
    intro s sg grp x op rest f ht found queue idle ready asked
    refine becomes_onSeg (exec_operationStart sg grp s) ht ?_
    simp only [found, queue, mayStart_of idle ready, asked]
    rfl
  case timers =>
    intro s sg grp x h ht found head
    refine ⟨fun suspended once limit lapsed => actsOn_onSeg (exec_stragglerEvent sg grp s) ht ?_,
      fun active lapsed => becomes_onSeg (exec_hardTimeout sg grp s) ht ?_⟩
    · simp [found, head, suspended, once, Nat.ne_of_gt limit, lapsed]
    · simp [found, head, active, lapsed]
  case limits =>
    intro s sg grp x t ht found
    refine ⟨fun aborting st due => becomes_onSeg (exec_abortDecisionTimeout sg grp s) ht ?_,
      fun full once due => actsOn_onSeg (exec_groupCqFullTimeout sg grp s) ht ?_⟩
    · simp [found, aborting, st, due]
    · simp [found, Ring.overdue, full, once, due]
  case release =>
    intro s sg grp i f ht first found entry due
    refine actsOn_onSeg (exec_stileRelease sg grp s) ht ?_
    simp only [first, found, entry, Bool.not_true, Bool.false_or, decide_eq_true_eq, if_neg (Nat.not_lt.mpr due)] <;> rfl

end Sys2Proof.Machine
end

section
/-! The chunks of collectives on the wire, their sums and the closing rounds (R207 to R221, R276 to R283). -/

namespace Sys2Proof.Machine

open Sys2Proof

/-- A chunk whose slot is free and which the ready cursor allows may start (R213, R215). -/
theorem mayStart_slotFree {x : Grp} {h : Head} {c : Nat} (within : c < h.chunks)
    (free : c < x.k * x.depth ∨ h.doneList.contains (c - x.k * x.depth) = true)
    (ready : h.op.gated = true → h.op.ready ≤ c → x.contributes h c = false) : x.mayStart h c = true := by
  simp only [Grp.mayStart, within, decide_true, Bool.true_and, Bool.and_eq_true, Bool.not_eq_true', Bool.or_eq_true, decide_eq_true_eq, free]
  simpa using ready

/-- Settles O34: the conditions of each event choose its effect. -/
theorem chunksMove : Obligations.ChunksMove := by
  refine ⟨?start, ?flits, ?answers, ?repeats, ?steps, ?closing, ?abort⟩
  case start =>
    intro s sg grp tree x h ht found head active join launch
    refine ⟨fun c large next within free ready lower => becomes_onSeg (exec_chunkStart sg grp tree s) ht ?_,
      fun small single none_ ready => becomes_onSeg (exec_chunkStart sg grp tree s) ht ?_⟩
    · simp [found, head, active, join, launch, large, next, mayStart_slotFree within free ready, lower]
    · have go : (h.op.gated && h.op.ready == 0 && x.contributes h 0) = false := by
        rw [Bool.and_eq_false_imp]
        simpa using ready
      simp [found, head, active, join, launch, small, single, none_, go]
  case flits =>
    intro s sg f g ht
    refine ⟨fun taken => becomes_onSeg (exec_chunkUp sg s) ht ?_, fun i e first taken => ⟨fun live => becomes_onSeg (exec_chunkDown sg s) ht ?_,
      fun decided => actsOn_onSeg (exec_chunkDown sg s) ht ?_⟩, fun taken => becomes_onSeg (exec_campFlit sg s) ht ?_,
      fun taken => becomes_onSeg (exec_voteFlit sg s) ht ?_⟩
    · rw [taken]
    · rw [first]
      dsimp only
      rw [taken]
      simp [live]
    · rw [first]
      dsimp only
      rw [taken]
      simp [decided]
    · rw [taken]
    · rw [taken]
  case answers =>
    intro s sg f g x d ser t c ht found answer
    refine ⟨fun taken => ⟨fun held => actsOn_onSeg (exec_chunkRel sg s) ht ?_, fun free => actsOn_onSeg (exec_chunkRel sg s) ht ?_⟩,
      fun q taken first => ⟨fun crc naks => becomes_onSeg (exec_chunkNak sg s) ht ?_, fun crc naks => becomes_onSeg (exec_chunkNak sg s) ht ?_,
        fun busy held current => actsOn_onSeg (exec_chunkNak sg s) ht ?_, fun busy free => actsOn_onSeg (exec_chunkNak sg s) ht ?_⟩⟩
    · simp only [taken, found, answer, held]
      rfl
    · simp only [taken, found, answer, free]
      rfl
    · simp only [taken, found, answer, first]
      simp [crc, naks]
    · simp only [taken, found, answer, first]
      simp [crc, Nat.not_le.mpr naks]
    · simp only [taken, found, answer, first]
      simp [busy, Option.isSome_iff_ne_none.mpr held, current, mod_setSeg _ _ _ _ ht.1]
    · simp only [taken, found, answer, first]
      simp [busy, mod_setSeg _ _ _ _ ht.1]
      rcases free with h | h <;> simp [h]
  case repeats =>
    intro s sg grp tree x ht found
    refine ⟨becomes_onSeg (exec_notReadyRepeat sg grp s) ht ?_, becomes_onSeg (exec_collectiveRepeat sg grp tree s) ht ?_⟩
    · simp only [found] <;> rfl
    · simp [found, and_assoc]
  case steps =>
    intro s sg grp serial x h k ht found head
    refine ⟨fun rs first rx active red sweep turn awake budget => ?_, fun t first end_ due => ⟨?_, fun l => ?_⟩, fun st first active go => ?_⟩
    · refine actsOn_onSeg (exec_reductionStep sg grp serial [] s) ht ?_
      simp only [found, head, first, rx]
      simp [active, red, turn, awake, budget]
      exact fun large bad => absurd (sweep large) bad
    · refine becomes_onSeg (exec_reductionStepDone sg grp ⟨serial, none⟩ s) ht ?_
      simp only [found, head, first]
      simp [end_, Nat.not_lt.mpr due]
    · refine becomes_onSeg (exec_reductionStepDone sg grp ⟨serial, some l⟩ s) ht ?_
      simp only [found, head, first]
      simp [end_, Nat.not_lt.mpr due]
    · refine becomes_onSeg (exec_chunkResultWrite sg grp serial st none s) ht ?_
      simp only [found, head, first]
      simp [active]
      exact fun large stopped => nomatch (go large).symm.trans stopped
  case closing =>
    intro s sg grp x h hs ht found head large go once active done rx
    refine becomes_onSeg (exec_closingPartSend sg grp s) ht ?_
    simp only [found, head, rx]
    simp [large, go, once, active, Nat.not_lt.mpr done]
  case abort =>
    intro s sg f g x serial st ht taken found hser hst root current
    subst hser hst
    refine ⟨fun free => becomes_onSeg (exec_groupAbort sg s) ht ?_, fun held => actsOn_onSeg (exec_groupAbort sg s) ht ?_⟩
    · simp only [taken, found, current, free]
      exact if_neg (by simpa using root)
    · simp only [taken, found, current]
      simp [held]

end Sys2Proof.Machine
end

section
/-! Contexts, ranges, guards, recalls and migrations (R285 to R309), replicas and fabric-homed regions (R310 to R324). -/

namespace Sys2Proof.Machine

open Sys2Proof

/-- Settles O35: the conditions of each access and of each event choose its effect. -/
theorem contextsAndRanges : Obligations.ContextsAndRanges := by
  refine ⟨?base, ?commands, ?evicted, ?miss, ?guards, ?recalls, ?acks, ?decay, ?done, ?timeout⟩
  case base =>
    intro s sg ag sz v ht empty clk
    refine becomes_onDoms (exec_ctxBaseWrite sg ag sz v (some 0) s) ht clk ?_
    have none_ : (((s.reached sg ag [domRange]).seg sg).answer csOk 0).xlt.resident.isEmpty = true := List.isEmpty_iff.mpr empty
    dsimp only
    rw [none_]
    rfl
  case commands =>
    intro s r sg ag ctx ht clk hr
    subst hr
    refine ⟨fun st taken good => becomes_onDoms (exec_contextLoad sg ag ctx st s) ht clk ?_,
      fun taken _ => becomes_onDoms (exec_contextEvict sg ag ctx s) ht clk ?_,
      fun taken => becomes_onDoms (exec_contextTeardown sg ag ctx s) ht clk ?_⟩
    · simp only [tick_reached, taken, good]
      rfl
    · simp only [tick_reached, taken]
      rfl
    · simp only [tick_reached, taken]
      rfl
  case evicted =>
    intro s t sg c ht ended
    refine ⟨fun free => becomes_onSeg (exec_contextEvictDone sg s) ht ?_, fun tearing settled => becomes_onSeg (exec_contextEvictDone sg s) ht ?_⟩
    · simp only [ended, free]
      rfl
    · simp only [ended, tearing, settled]
      rfl
  case miss =>
    intro s sg c x va ht wait asks miss
    refine ⟨fun r found => becomes_onSeg (exec_rangeMissFill sg c (some 0) s) ht ?_,
      fun found root => becomes_onSeg (exec_rangeMissFill sg c (some 0) s) ht ?_, fun e bad => becomes_onSeg (exec_rangeMissFill sg c (some e) s) ht ?_⟩
    · simp only [wait, asks, miss, dpmLate_some, found]
      rfl
    · rw [root] at found
      simp only [wait, asks, miss, dpmLate_some, root, found, show dpmStatus (some 0) = 0 from rfl, bne_self_eq_false, Bool.false_eq_true, if_false]
      refine if_neg ?_
      split <;> simp
    · simp only [wait, asks, miss, dpmLate_some, dpmStatus_failed bad]
      rfl
  case guards =>
    intro s r sg ag sz v idx ht clk keeper hr
    subst hr
    refine ⟨becomes_onDoms (exec_guardBaseWrite sg ag sz v s) ht clk rfl, becomes_onDoms (exec_guardSizeWrite sg ag sz v s) ht clk rfl,
      becomes_onDoms (exec_guardInval sg ag idx s) ht clk ?_⟩
    dsimp only
    rw [keeper]
    rfl
  case recalls =>
    intro s r sg ag v off ht clk admin hr hoff
    subst hr hoff
    refine ⟨fun present good => becomes_onDoms (exec_recallSubmit sg ag v s) ht clk ?_,
      fun bad _ => becomes_onDoms (exec_recallSubmit sg ag v s) ht clk ?_⟩
    · simp only [admin, Bool.not_true, Bool.false_eq_true, if_false]
      exact if_neg (show ¬(!((s.reached sg ag [domRange]).seg sg).present 0 (bitsOf v 43 5 * 32) 32 ||
        badRecall (((s.reached sg ag [domRange]).seg sg).hbmBytes (bitsOf v 43 5 * 32) 32)) = true by simp [present, good])
    · simp only [admin, Bool.not_true, Bool.false_eq_true, if_false]
      exact if_pos (show (!((s.reached sg ag [domRange]).seg sg).present 0 (bitsOf v 43 5 * 32) 32 ||
        badRecall (((s.reached sg ag [domRange]).seg sg).hbmBytes (bitsOf v 43 5 * 32) 32)) = true by rcases bad with h | h <;> simp [h])
  case acks =>
    intro s sg r ht oldest
    refine actsOn_onSeg (exec_recallAck sg s) ht ?_
    simp only [oldest] <;> rfl
  case decay =>
    intro s sg ht pos due
    refine actsOn_onSeg (exec_hotDecay sg s) ht ?_
    simp [Nat.ne_of_gt pos, Nat.not_lt.mpr due]
  case done =>
    intro s sg ag v m ht clk found
    refine becomes_onDoms (exec_migrateDone sg ag v s) ht clk ?_
    simp only [found]
    rfl
  case timeout =>
    intro s sg req m ht found due
    refine becomes_onSeg (exec_migrateTimeout sg req s) ht ?_
    simp only [found, if_neg (Nat.not_lt.mpr due)]

theorem time_copyBlocks (s : State) (sg : Nat) (m : Move) (frame : Nat) : (s.copyBlocks sg m frame).time = s.time := rfl

/-- Settles O36: the conditions of each access and of each event choose its effect. -/
theorem replicasAndFabricHoming : Obligations.ReplicasAndFabricHoming := by
  refine ⟨?publish, ?install, ?frame, ?off, ?window, ?regions, ?period, ?moves⟩
  case publish =>
    intro s sg ht tick
    refine becomes_onSeg (exec_loadPublish sg s) ht ?_
    simp [tick]
  case install =>
    intro s sg c ht found
    refine actsOn_onSeg (exec_replicaInstall sg s) ht ?_
    simp only [found]
  case frame =>
    intro s sg r ht found
    refine actsOn_onSeg (exec_replicaFrameReturn sg s) ht ?_
    simp only [found]
  case off =>
    intro s sg ag ht admin clk
    refine becomes_onDoms (exec_plcReplicateOff sg ag s) ht clk ?_
    dsimp only
    rw [admin]
    rfl
  case window =>
    intro s r sg ag sz v w ht admin hr hw guard within few none_ clk
    subst hr hw
    refine becomes_onDoms (exec_fhWindowWrite sg ag sz v s) ht clk ?_
    exact if_neg (show ¬(!ag.admin || decide (bitsOf (mergeSize (((s.reached sg ag [domRange]).seg sg).reg 0x150020) sz v) 54 32 <
      ((s.reached sg ag [domRange]).seg sg).fld F.XLT_GUARD_SIZE_HBM_REGIONS) || decide (bitsOf (mergeSize (((s.reached sg ag [domRange]).seg sg).reg
      0x150020) sz v) 54 32 + bitsOf (mergeSize (((s.reached sg ag [domRange]).seg sg).reg 0x150020) sz v) 12 0 > 2 ^ 23) ||
      decide (bitsOf (mergeSize (((s.reached sg ag [domRange]).seg sg).reg 0x150020) sz v) 12 0 > 4096) ||
      !(((s.reached sg ag [domRange]).seg sg).declared sg).isEmpty) = true by
        rw [admin, none_, decide_eq_false (Nat.not_lt.mpr guard), decide_eq_false (Nat.not_lt.mpr within), decide_eq_false (Nat.not_lt.mpr few)]
        simp)
  case regions =>
    intro s r sg ag v ht clk hr
    have inPackage : sg.val < (s.reached sg ag [domRange]).n := by simpa [State.reached] using ht.1
    have answered : ((s.reached sg ag [domRange]).seg sg).answer csOk 0 = r.seg sg := by rw [hr, seg_mod_same _ _ _ inPackage]
    have state : (s.reached sg ag [domRange]).setSeg sg (r.seg sg) = r := by rw [← answered, hr]; rfl
    refine ⟨fun takes => ⟨fun t all => becomes_onDoms (exec_fhDeclare sg ag v s) ht clk ?_, fun none_ => becomes_onDoms (exec_fhDeclare sg ag v s) ht clk ?_⟩,
      fun takes => becomes_onDoms (exec_fhRelease sg ag v s) ht clk ?_⟩
    · simp only [answered, takes, state, all]
      rfl
    · simp only [answered, takes, state, none_]
      rfl
    · simp only [answered, takes, state]
      rfl
  case period =>
    intro s sg ht due
    exact becomes_onSeg (exec_movePeriod sg s) ht ((if_neg (Nat.not_lt.mpr due)).trans (if_congr (by simp) rfl rfl))
  case moves =>
    intro s sg m rest key h ht moves found joined
    refine ⟨fun pass due writes => becomes_onSeg (exec_movePassDone sg s) ht ?_, fun flip => becomes_onSeg (exec_moveFlipDone sg s) ht ?_⟩
    · simp only [moves, List.head?_cons, found, Option.map_some, pass, joined, time_copyBlocks]
      have free : (false || decide (s.time < m.start + 32 * m.copying.length) || m.hold && (s.seg sg).txn.dpm.any fun d =>
          d.space == 0 && d.write.isSome && decide ((s.seg sg).frameOff h.frame ≤ d.addr) &&
            decide (d.addr < (s.seg sg).frameOff h.frame + regionSize)) = false := by
        rw [decide_eq_false (Nat.not_lt.mpr due), Bool.false_or, Bool.false_or, Bool.and_eq_false_imp]
        exact writes
      rw [free]
      rfl
    · simp only [moves, List.head?_cons, found, Option.map_some, flip, joined]
      rfl

end Sys2Proof.Machine
end

section
/-! The router's slots, clocks, throttle and signposts (R325 to R349). -/

namespace Sys2Proof.Machine

open Sys2Proof

/-- The flip of a table that was current makes it retiring (R347). -/
theorem flipTable_current {g : Segment} {cycle cur other : Nat} (hc : cur = g.epoch.toNat) (ho : other = 1 - cur) (current : g.tableState cur = 2) :
    g.flipTable cycle =
      let g := ((g.setTableState other 2).setTableState cur 3).setFld F.RTE_EPOCH_STATUS_CURRENT other
      { g with rte := { g.rte with retireAt := tickOf cycle + 5000, flipAt := some (cycle, BitVec.ofNat 1 cur), flipWait := none } } := by
  subst hc ho
  rw [BitVec.ofNat_toNat, BitVec.setWidth_eq]
  simp only [Segment.flipTable, current]
  rfl

/-- The flip of a table that was not current only changes which one is. -/
theorem flipTable_other {g : Segment} {cycle cur other : Nat} (hc : cur = g.epoch.toNat) (ho : other = 1 - cur) (free : g.tableState cur ≠ 2) :
    g.flipTable cycle =
      let g := (g.setTableState other 2).setFld F.RTE_EPOCH_STATUS_CURRENT other
      { g with rte := { g.rte with flipAt := some (cycle, BitVec.ofNat 1 cur), flipWait := none } } := by
  subst hc ho
  rw [BitVec.ofNat_toNat, BitVec.setWidth_eq]
  simp only [Segment.flipTable, beq_false_of_ne free]
  rfl

/-- Settles O37: the conditions of each access and of each event choose its effect. -/
theorem routerActs : Obligations.RouterActs := by
  refine ⟨?land, ?inject, ?align, ?throttle, ?signposts, ?flip, ?retired⟩
  case land =>
    intro s sg port g x ht hg next hport
    subst hg
    refine ⟨fun fabric => becomes_onSeg (exec_flitLand sg port s) ht ?_, fun sg' b' bridge partner => becomes_onSeg (exec_flitLand sg port s) ht ?_⟩
    · simp [State.landFrom, next, hport, hport ▸ fabric]
    · simp [State.landFrom, next, hport, hport ▸ Nat.not_lt.mpr bridge, hport ▸ partner]
  case inject =>
    intro s t sg isX idx bf o eg q ht hs hq hbf landing epoch dest ready xs rivals
    have seg : ((s.seg sg).newCycle s.time).rollBudget s.time = t.seg sg := by rw [hs, seg_mod_same _ _ _ ht.1]
    have state : s.setSeg sg (t.seg sg) = t := by rw [← seg, hs]; rfl
    refine becomes_onSeg (exec_flitInject sg isX idx s) ht ?_
    have now : t.time = s.time := by rw [hs, time_mod]
    simp only [seg, state, ← hq, hbf, now, landing, epoch]
    have none_ : ((q.zipIdx.filter fun x => (t.injTo sg x.1).slot == (t.injTo sg bf).slot && t.injReady sg x.1).any fun x =>
        injBefore x (bf, idx)) = false := by
      simp only [List.any_eq_false, List.mem_filter, Bool.and_eq_true, beq_iff_eq]
      exact fun x hx => Bool.eq_false_iff.mp (rivals x hx.1 hx.2.1 hx.2.2)
    have noX : (!isX && (t.injTo sg bf).slot != some 8 && (t.seg sg).rte.injX.any fun x =>
        (t.injTo sg x).slot == (t.injTo sg bf).slot && t.injReady sg x) = false := by
      cases lane : isX with
      | true => rfl
      | false =>
        simp only [Bool.and_eq_false_imp, List.any_eq_false, Bool.and_eq_true, beq_iff_eq, not_and, Bool.not_eq_true]
        exact fun slot x hx same => xs lane (by simpa using slot) x hx same
    rcases dest with out | eject
    · rw [out] at none_ noX ⊢
      simp [none_, noX, ready, setSeg_seg]
    · rw [eject] at none_ noX ⊢
      simp [none_, noX, ready, setSeg_seg]
  case align =>
    intro s sg ht due
    refine actsOn_onSeg (exec_ageClockAlign sg s) ht ?_
    simp [Nat.not_lt.mpr due]
  case throttle =>
    intro s sg g hist occNow isHot ht hg due hhist hocc hhot
    subst hg hhist hocc hhot
    refine ⟨fun on cool => actsOn_onSeg (exec_throttleUpdate sg s) ht ?_, fun on hot cut => actsOn_onSeg (exec_throttleUpdate sg s) ht ?_⟩
    · dsimp only
      rw [if_neg (Nat.not_lt.mpr due), if_neg (by simpa using on), if_neg (by simpa using cool)]
      rfl
    · dsimp only
      rw [if_neg (Nat.not_lt.mpr due), if_neg (by simpa using on), if_pos (by simpa using hot)]
      rw [if_pos]
      · rfl
      · split
        next t ht' => simpa using cut t ht'
        next => rfl
  case signposts =>
    intro s sg ag table idx sz v ht admin
    refine ⟨fun within empty stored => becomes_onCtl (exec_signpostWrite sg ag table idx sz v s) ht ?_,
      fun empty clk => becomes_onDoms (exec_signpostSeal sg ag table s) ht clk ?_, fun sealed_ clk => becomes_onDoms (exec_signpostOpen sg ag table s) ht clk ?_⟩
    · dsimp only
      rw [if_neg (Nat.not_le.mpr within), admin, empty, stored]
      rfl
    · dsimp only
      rw [admin, empty]
      rfl
    · dsimp only
      rw [admin, sealed_]
      rfl
  case flip =>
    intro s sg ag cur other ht keeper hcur hother sealed_
    refine ⟨fun current => becomes_onCtl (exec_epochFlip sg ag s) ht ?_, fun free => becomes_onCtl (exec_epochFlip sg ag s) ht ?_⟩
    · simp only [← hcur, ← hother, keeper, sealed_, flipTable_current hcur hother current]
      rfl
    · simp only [← hcur, ← hother, keeper, sealed_, flipTable_other hcur hother free]
      rfl
  case retired =>
    intro s sg e ht retiring due dead
    refine actsOn_onSeg (exec_tableRetired sg s) ht ?_
    simp [retiring, due, dead]

end Sys2Proof.Machine
end

section
/-! The link's timers and commands (R361 to R399). -/

namespace Sys2Proof.Machine

open Sys2Proof

/-- A window past its end closes with its counts, unless its boundary tick has closed it (R391). -/
theorem closeWindow_past {q : Port} {tick : Nat} (past : q.windowEnd ≤ tick) :
    (q.closeWindow tick).windowEnd = q.windowEnd ∧ (q.closeWindow tick).hotRun = q.hotRun ∧
      (q.closeWindow tick).closed.getD (0, 0) = q.closed.getD (q.sent, q.replays) := by
  unfold Port.closeWindow
  cases h : q.closed <;> simp [h, past]

/-- Settles O39: the conditions of each timer and of each command choose its effect. -/
theorem linkTimersAndCommands : Obligations.LinkTimersAndCommands := by
  refine ⟨?active, ?window, ?limits, ?commands, ?seals⟩
  case active =>
    intro s sg p q ht hq active
    subst hq
    refine ⟨fun kept due => actsOn_onSeg (exec_replayTimerExpiry sg p s) ht ?_, fun gap sent => actsOn_onSeg (exec_nakRepeatExpiry sg p s) ht ?_⟩
    · simp [active, kept, due]
    · simp [active, gap, Option.isSome_iff_ne_none.mpr sent]
  case window =>
    intro s sg p q ppb sent replays run ht hq past hppb counts hrun
    subst hq hppb
    have runs : (if (decide (replays > 0) && decide (replays * 1000000000 > (s.seg sg).fld (F.LNK_ERR_CTRL_REPLAY_PPB.port p) * sent)) = true
        then ((s.seg sg).port p).hotRun + 1 else 0) = run := by simpa using hrun.symm
    obtain ⟨end_, hot, closed⟩ := closeWindow_past past
    have seen : ((s.seg sg).port p).closed.getD (((s.seg sg).port p).sent, ((s.seg sg).port p).replays) = (sent, replays) := by
      rw [counts]
      cases ((s.seg sg).port p).closed <;> rfl
    refine ⟨fun limit many => actsOn_onSeg (exec_errorWindowEnd sg p s) ht ?_, fun few => actsOn_onSeg (exec_errorWindowEnd sg p s) ht ?_⟩
    · have fires : ((s.seg sg).fld (F.LNK_ERR_CTRL_REPLAY_PPB.port p) != 0 &&
          decide (run ≥ max 1 ((s.seg sg).fld (F.LNK_ERR_CTRL_HOT_WINDOWS.port p)))) = true := by simp [limit, many]
      simp only [end_, hot, closed, seen, runs, fires, if_neg (Nat.not_lt.mpr past), if_true]
    · have quiet : ((s.seg sg).fld (F.LNK_ERR_CTRL_REPLAY_PPB.port p) != 0 &&
          decide (run ≥ max 1 ((s.seg sg).fld (F.LNK_ERR_CTRL_HOT_WINDOWS.port p)))) = false := by
        rcases few with h | h
        · simp [h]
        · simp [Nat.not_le.mpr h]
      simp only [end_, hot, closed, seen, runs, quiet, if_neg (Nat.not_lt.mpr past), Bool.false_eq_true, if_false]
  case limits =>
    intro s sg p q ht hq
    subst hq
    refine ⟨fun cause t retrain req due => actsOn_onSeg (exec_requestRepeatLimit sg p s) ht ?_,
      fun due => ⟨fun training => becomes_onSeg (exec_retrainLimitExpiry sg p s) ht ?_,
        fun retrain idle => becomes_onSeg (exec_retrainLimitExpiry sg p s) ht ?_⟩,
      fun t retrain wait due => actsOn_onSeg (exec_retrainWaitEnd sg p s) ht ?_, fun expired => actsOn_onSeg (exec_widthLimitExpiry sg p s) ht ?_,
      fun r rest runs due => actsOn_onSeg (exec_trailerDue sg p s) ht ?_⟩
    · simp [retrain, req, due]
    · simp [Nat.not_lt.mpr due, training, State.mod]
    · simp [Nat.not_lt.mpr due, retrain, idle, State.mod]
    · simp [retrain, wait, due]
    · rcases expired with ⟨width, due⟩ | ⟨active, w, t, req, due⟩
      · simp [width, due]
      · simp [active, req, due]
    · simp [runs, due]
  case commands =>
    intro s sg p ag w ht admin
    have allowed : ¬(!ag.admin) = true := by simp [admin]
    exact ⟨becomes_onCtl (exec_linkEnable sg p ag s) ht (if_neg allowed), becomes_onCtl (exec_linkDisable sg p ag s) ht (if_neg allowed),
      becomes_onCtl (exec_linkRetry sg p ag s) ht (if_neg allowed), fun clk => becomes_onDoms (exec_linkRetrain sg p ag s) ht clk (if_neg allowed),
      fun clk => becomes_onDoms (exec_linkRelease sg p ag s) ht clk (if_neg allowed),
      becomes_onCtl (exec_linkWidthRequest sg p ag w s) ht (if_neg allowed)⟩
  case seals =>
    intro s sg p ag slot ctx ht keeper
    have allowed : ¬(!ag.isKeeper) = true := by simp [keeper]
    exact ⟨becomes_onCtl (exec_sealSlotArm sg p ag slot ctx s) ht (if_neg allowed),
      becomes_onCtl (exec_sealSlotDisarm sg p ag slot s) ht (if_neg allowed)⟩

end Sys2Proof.Machine
end

section
/-! Lanes: training, the rotating spare and the power states (R400 to R429). -/

namespace Sys2Proof.Machine

open Sys2Proof

/-! ## Training and the rotating spare -/

/-- Settles O40: the conditions of each event choose its effect. -/
theorem lanesTrainAndHandOver : Obligations.LanesTrainAndHandOver := by
  refine ⟨?phases, ?active, ?limit, ?rate, ?preamble, ?blocks, ?levels, ?train⟩
  case phases =>
    intro s sg p obs ht training
    refine ⟨fun g ended => actsOn_onSeg (exec_trainingPhaseEnd sg p obs s) ht ?_,
      fun g ended retrain => becomes_onSeg (exec_trainingPhaseEnd sg p obs s) ht ?_,
      fun due => ⟨fun taps => actsOn_onSeg (exec_trainingPhaseLimit sg p s) ht ?_,
        fun taps prbs => actsOn_onSeg (exec_trainingPhaseLimit sg p s) ht ?_⟩⟩
    · simp [training, ended]
    · simp [training, ended, retrain]
    · simp [training, taps, taps ▸ Nat.not_lt.mpr due]
    · simp [training, taps, prbs, Nat.not_lt.mpr due]
  case active =>
    intro s sg p q ht hq active
    subst hq
    refine ⟨fun lane heads flask lost mapped => actsOn_onSeg (exec_blockLockLoss sg p ⟨lane, heads⟩ s) ht ?_,
      fun lane heads flask lost unmapped spare => actsOn_onSeg (exec_blockLockLoss sg p ⟨lane, heads⟩ s) ht ?_,
      fun l spare mapped => actsOn_onSeg (exec_shadow sg p l s) ht ?_, fun l step lane => actsOn_onSeg (exec_swapped sg p l s) ht ?_,
      fun step => actsOn_onSeg (exec_calDone sg p s) ht ?_, fun lane => actsOn_onSeg (exec_calFail sg p s) ht ?_,
      fun k may due next => actsOn_onSeg (exec_handoverStart sg p s) ht ?_,
      fun step spare service => actsOn_onSeg (exec_handoverSwap sg p s) ht ?_,
      fun errs step cal due => actsOn_onSeg (exec_calibrationCountEnd sg p errs s) ht ?_,
      fun lane mapped => actsOn_onSeg (exec_syncErrorHandover sg p lane s) ht ?_⟩
    · dsimp only
      rw [mapped, lost]
      simp [active, flask]
    · dsimp only
      rw [unmapped, lost]
      rcases spare with h | h <;> simp [active, flask, h]
    · exact if_pos (by simpa [active, spare] using mapped)
    · simp [active, step, lane]
    · simp [active, step]
    · rcases lane with h | h <;> simp [active, h]
    · simp [may, Nat.not_lt.mpr due, next]
    · simp [active, step, spare, service]
    · dsimp only
      rw [if_neg (by simp [active, step, cal, due])]
      exact (apply_ite (s.setSeg sg) _ _ _).symm
    · dsimp only
      rw [active, mapped, if_neg (by decide)]
      by_cases spare : ((s.seg sg).port p).spareTx = 15
      · simp [spare]
      · rw [if_neg (by simpa using spare), if_neg spare]
        exact (apply_ite (s.setSeg sg) _ _ _).symm
  case limit =>
    intro s sg p lim ht hl
    subst hl
    refine ⟨fun step due => actsOn_onSeg (exec_calLimitExpiry sg p s) ht ?_, fun step due => actsOn_onSeg (exec_calLimitExpiry sg p s) ht ?_⟩
    · simp [step, due]
    · simp [step, due]
  case rate =>
    intro s sg p ag sz v ht admin stopped
    refine becomes_onCtl (exec_laneRateWrite sg p ag sz v s) ht ?_
    have off : ((((s.accessed ag).seg sg).port p).st == .disabled || (((s.accessed ag).seg sg).port p).st == .down) = true := by
      rcases stopped with h | h <;> simp [h]
    simp only [admin, off]
    rfl
  case preamble =>
    intro s sg p ht
    refine actsOn_onSeg (exec_preambleDetect sg p s) ht ?_
    simp [State.mod, Option.isSome_iff_ne_none]
  case blocks => exact fun payload gen => ⟨congrArg (fun r => some (false, r)) (scramble_scramble payload gen), congrArg (fun r => some (true, r)) (scramble_scramble payload gen)⟩
  case levels => decide
  case train => exact readTrain_payload

/-! ## Power states -/

/-- Settles O41: the conditions of each event and of each command choose its effect. -/
theorem lanePowerStates : Obligations.LanePowerStates := by
  refine ⟨?active, ?events, ?commands⟩
  case active =>
    intro s sg p q ht hq active
    subst hq
    refine ⟨fun tx stage replay runs due => actsOn_onSeg (exec_kettleEntry sg p s) ht ?_, fun rx => actsOn_onSeg (exec_quietPattern sg p s) ht ?_,
      fun asked => ⟨actsOn_onSeg (exec_flaskReq sg p s) ht ?_, actsOn_onSeg (exec_flaskAck sg p s) ht ?_⟩,
      fun free ok still => actsOn_onSeg (exec_flaskReq sg p s) ht ?_, fun unasked refused => actsOn_onSeg (exec_flaskReq sg p s) ht ?_,
      fun committed => actsOn_onSeg (exec_flaskEntry sg p s) ht ?_, fun t relock due => actsOn_onSeg (exec_relockTimeout sg p s) ht ?_⟩
    · simp [active, tx, stage, replay, runs, due]
    · rcases rx with h | h <;> simp [active, h]
    · simp [active, asked]
    · simp [active, asked]
    · simp [active, free, ok, still]
    · simp [active, unasked, refused]
    · simp [active, committed]
    · simp [active, relock, due]
  case events =>
    intro s sg p q own seeds ht hq
    subst hq
    refine ⟨fun asked => actsOn_onSeg (exec_flaskNak sg p s) ht ?_, fun doze event => actsOn_onSeg (exec_dozeWake sg p s) ht ?_,
      actsOn_onSeg (exec_signalDetect sg p s) ht ?_, actsOn_onSeg (exec_relockDone sg p ⟨own, seeds⟩ s) ht ?_⟩
    · simp [asked]
    · rcases event with h | h | h | h | h <;> simp [doze, h]
    · simp [State.mod]
    · simp [State.mod, Port.seed, and_assoc, Option.isSome_iff_ne_none]
  case commands =>
    intro s sg p ag ht admin
    have allowed : ¬(!ag.admin) = true := by simp [admin]
    refine ⟨fun clk => becomes_onDoms (exec_dozeRequest sg p ag s) ht clk (if_neg allowed),
      fun clk => becomes_onDoms (exec_flaskRequest sg p ag s) ht clk (if_neg allowed), fun clk => becomes_onDoms (exec_laneWake sg p ag s) ht clk ?_⟩
    simp [admin, State.mod]

end Sys2Proof.Machine
end

section
/-! Power domains, the ramp governor, the Hamper and the fault unit (R430 to R461, R470 to R500). -/

namespace Sys2Proof.Machine

open Sys2Proof

@[simp] theorem tick_accessed (s : State) (ag : Agent) : (s.accessed ag).tick = s.tick := rfl

/-! ## Power -/

theorem pwrReq_setBitOf_awake (g : Segment) (d e : Nat) (b : Bool) : (g.setBitOf F.PWR_DOMAIN_STATE_AWAKE d b).pwrReq e = g.pwrReq e :=
  congrArg (fun w => (bitsOf w 34 0).testBit e) (reg_setReg_ne g _ _ _ (by decide))

/-- Settles O42: the conditions of each event choose its effect. -/
theorem powerDomainsAct : Obligations.PowerDomainsAct := by
  refine ⟨?events, ?cores, ?others, ?hold⟩
  case events =>
    intro s sg d ht
    refine ⟨actsOn_onSeg (exec_domainWake sg d s) ht rfl, fun down asked router => actsOn_onSeg (exec_pwrAckRise sg d s) ht ?_,
      fun up real idle => actsOn_onSeg (exec_pwrAckFall sg d s) ht ?_,
      fun up real asked => ⟨becomes_onSeg (exec_pwrAckFall sg d s) ht ?_, fun awake => becomes_onSeg (exec_domainLost sg d s) ht ?_⟩,
      fun t waits down asked once due => actsOn_onSeg (exec_pwrAckTimeout sg d s) ht ?_⟩
    · simp only [down, pwrReq_setBitOf_awake, asked, beq_false_of_ne router, Bool.not_true, Bool.false_eq_true, if_false]
    · simp [up, real, idle]
    · simp [up, real, asked]
    · simp [awake, real]
    · simp only [waits, down, asked, once, decide_eq_false (Nat.not_lt.mpr due)]
      rfl
  case cores =>
    intro s sg d ht woken core awake cond held restart
    refine becomes_onSeg (exec_domainSleep sg d s) ht ?_
    dsimp only
    rw [woken, awake, cond, held, restart]
    rcases core with h | h <;> simp [h]
  case others =>
    intro s sg d t ht woken keeper steward due allowed
    refine becomes_onSeg (exec_domainSleep sg d s) ht ?_
    have allowed' : s.dropOk sg (dropKey t 0 d) (64 * (if (decide (9 ≤ d.val) && decide (d.val ≤ 20)) = true then 131 else (s.seg sg).domMw d)) =
        true := by simpa only [Bool.and_eq_true, decide_eq_true_eq] using allowed
    simp only [woken, due, beq_false_of_ne keeper, beq_false_of_ne steward]
    exact if_pos allowed'
  case hold => exact fun s sg ag sz v ht _ => becomes_onCtl (exec_pwrHoldWrite sg ag sz v s) ht rfl

/-- Settles O43: the conditions of each event choose its effect. -/
theorem rampAndPortsAct : Obligations.RampAndPortsAct := by
  refine ⟨?window, ?ramp, ?idle, ?stile, ?coarse⟩
  case window =>
    intro s sg w ht hw due
    subst hw
    exact actsOn_onSeg (exec_powerWindowEnd sg s) ht (if_neg (Nat.not_lt.mpr due))
  case ramp =>
    intro s sg ag sz v ht keeper covers
    refine becomes_onCtl (exec_rampClassWrite sg ag sz v s) ht (mod_eq_of_seg ?_)
    simp [Segment.rampWrite, keeper, covers]
  case idle =>
    intro s sg p t ht
    refine ⟨fun due allowed => actsOn_onSeg (exec_kettleHoldExpiry sg p s) ht ?_, fun due allowed => actsOn_onSeg (exec_flaskAfterExpiry sg p s) ht ?_⟩
    · simp [due, allowed]
    · simp [due, allowed]
  case stile =>
    intro s sg grp p ht soon spaced port
    refine actsOn_onSeg (exec_stilePortWake sg grp s) ht ?_
    simp only [soon, port]
    split
    next t at_ => simp [spaced t at_]
    next => simp
  case coarse =>
    intro s sg t ht coarse due none_
    refine actsOn_onSeg (exec_coarseningEnd sg s) ht ?_
    simp [State.mod, coarse, due, none_]

/-! ## The Hamper -/

theorem bankState_answer (g : Segment) (st : BitVec 4) (w : Word) (b : Nat) : (g.answer st w).bankState b = g.bankState b := rfl

/-- Settles O44: the conditions of each event choose its effect. -/
theorem hamperActs : Obligations.HamperActs := by
  refine ⟨fun s sg bank row ht => actsOn_onSeg (exec_suspectExpiry sg bank row s) ht rfl, ?fence, ?drained, ?tested, ?crit, ?inval⟩
  case fence =>
    intro s sg ag bank ht admin within
    refine ⟨fun inUse others => becomes_onCtl (exec_bankFence sg ag bank s) ht ?_, fun fenced => becomes_onCtl (exec_bankUnfence sg ag bank s) ht ?_⟩
    · simp only [admin, inUse, Bool.not_true, Bool.false_eq_true, if_false]
      exact if_neg (by simp; omega)
    · simp only [admin, Bool.not_true, Bool.false_eq_true, if_false]
      exact if_neg (by rw [bankState_answer, fenced]; simp [within])
  case drained =>
    intro s sg bank ht
    refine ⟨fun draining empty fits => actsOn_onSeg (exec_bankFenceDrainDone sg bank s) ht ?_, fun free => actsOn_onSeg (exec_bankClearDone sg bank s) ht ?_⟩
    · simp [draining, empty, fits]
    · have unwritten : ((s.seg sg).swSet.any fun x => x.off == 0x130010 && x.v.getLsbD bank) = false := by
        simp only [List.any_eq_false, Bool.and_eq_true, beq_iff_eq, not_and, Bool.not_eq_true]
        exact free
      simp only [State.mod, unwritten]
      rfl
  case tested =>
    intro s sg bank rows rs ht testing hrs
    subst hrs
    refine ⟨fun few => actsOn_onSeg (exec_unfenceTestDone sg bank rows s) ht ?_, fun many => actsOn_onSeg (exec_unfenceTestDone sg bank rows s) ht ?_⟩
    · simp only [testing, if_pos few]
      rfl
    · simp only [testing, if_neg (Nat.not_le.mpr many)]
      rfl
  case crit =>
    intro s sg word copy ht critical
    refine ⟨actsOn_onSeg (exec_critLatchReload sg word none false s) ht ?_, actsOn_onSeg (exec_critLatchReload sg word (some copy) false s) ht ?_,
      fun latch => actsOn_onSeg (exec_critLatchReload sg word none true s) ht ?_⟩
    · dsimp only
      rw [critical]
      rfl
    · dsimp only
      rw [critical]
      rfl
    · dsimp only
      rw [critical]
      simp [latch]
  case inval =>
    intro s sg ag v ht admin free
    refine becomes_onCtl (exec_hmpInval sg ag v s) ht ?_
    have allFree : ∀ b ∈ (List.range 12).filter fun b => v.getLsbD b, (((s.accessed ag).seg sg).bankState b == 3 ||
        ((s.accessed ag).seg sg).bankState b == 2 || ((s.accessed ag).seg sg).hmp.usedIn b == 0) = true := by
      intro b hb
      obtain ⟨within, named⟩ := List.mem_filter.mp hb
      rcases free b (List.mem_range.mp within) named with h | h | h <;> simp [h]
    dsimp only
    rw [admin, List.filter_eq_self.mpr allFree, if_pos (List.all_eq_true.mpr allFree)]
    rfl

/-! ## The fault unit -/

/-- Settles O45: the conditions of each write choose its effect. -/
theorem faultUnitActs : Obligations.FaultUnitActs := by
  refine ⟨?unit_, ?known⟩
  case unit_ =>
    intro s sg ag v ht
    refine ⟨fun within => becomes_onCtl (exec_fltHeadWrite sg ag v s) ht (mod_eq_of_seg ?_),
      fun beyond => becomes_onCtl (exec_fltHeadWrite sg ag v s) ht (mod_eq_of_seg ?_),
      fun firmware => becomes_onCtl (exec_fltPost sg ag v s) ht (mod_eq_of_seg ?_), becomes_onCtl (exec_ovfClear sg ag v s) ht rfl,
      fun admin => becomes_onCtl (exec_suppClear sg ag s) ht (mod_eq_of_seg ?_)⟩
    · exact congrArg (fun g => Segment.answer g csOk 0) (if_pos within)
    · exact congrArg (fun g => Segment.answer g csOk 0) (if_neg (Nat.not_le.mpr beyond))
    · rcases firmware with h | h <;> simp [Segment.fltPost, h]
    · simp [Segment.suppClear, admin]
  case known =>
    intro s sg ag node ht admin
    refine ⟨becomes_onCtl (exec_kdAdd sg ag node s) ht ?_, becomes_onCtl (exec_kdRemove sg ag node s) ht ?_, becomes_onCtl (exec_kdClear sg ag s) ht ?_⟩
    · simp [State.kdCmd, admin]
    · simp [State.kdCmd, admin]
    · simp [State.kdCmd, admin]

end Sys2Proof.Machine
end

section
/-! Mailboxes (R562 to R569) and the keeper's requests (R513 to R546). -/

namespace Sys2Proof.Machine

open Sys2Proof

/-! ## Mailboxes -/

theorem boot_faultFull (g : Segment) (cls sev tick : Nat) : (g.faultFull cls sev tick).boot = g.boot := by
  simp only [Segment.faultFull, Segment.faultIrq, apply_ite Segment.boot]
  split <;> split <;> rfl

/-- A fault record leaves the boot as it was. -/
theorem boot_raise (g : Segment) (tick : Nat) (a : FaultArgs) : (g.raise tick a).boot = g.boot := by
  simp only [Segment.raise, apply_ite Segment.boot, boot_faultFull]
  simp only [Segment.faultCount, Segment.hwMark, ite_self]

theorem boot_mbxIrq (g : Segment) (ch : Nat) : (g.mbxIrq ch).boot = g.boot := by
  unfold Segment.mbxIrq
  split <;> rfl

theorem boot_mailTimeout (g : Segment) (tick ch : Nat) : (g.mailTimeout tick ch).boot = g.boot := by
  simp only [Segment.mailTimeout, apply_ite Segment.boot, boot_mbxIrq, boot_raise]
  simp only [Segment.modChan, ite_self]

theorem chan_setReg (g : Segment) (o : Nat) (w : Word) (ch : Nat) : (g.setReg o w).chan ch = g.chan ch := rfl

/-- A channel with a sender is one of the segment's channels. -/
theorem chan_modChan_of_sender {g : Segment} {ch : Nat} {a : Agent} (h : (g.chan ch).sender = some a) (m : Mbx) :
    (g.modChan ch fun _ => m).chan ch = m := by
  have within : ch < g.mbx.length := by
    by_contra outside
    simp [Segment.chan, List.getElem?_eq_none (Nat.le_of_not_lt outside)] at h
  exact getD_modAt_same g.mbx ch _ _ within

/-- Settles O46: the conditions of each access and of the timeout choose its effect. -/
theorem mailboxesAct : Obligations.MailboxesAct := by
  refine ⟨?channel, ?timeout, ?config⟩
  case channel =>
    intro s sg ch ag v notice code ht
    refine ⟨becomes_onCtl (exec_mbxPtrWrite sg ch ag v s) ht rfl, fun ok => becomes_onCtl (exec_mbxSend sg ch ag notice s) ht (mod_eq_of_seg ?_),
      fun no never => becomes_onCtl (exec_mbxSend sg ch ag notice s) ht (mod_eq_of_seg ?_),
      fun m a was sender before no first => becomes_onCtl (exec_mbxSend sg ch ag notice s) ht (mod_eq_of_seg ?_),
      fun takes unpaced => becomes_onCtl (exec_mbxRecv sg ch ag s) ht (mod_eq_of_seg ?_),
      fun taken cls => becomes_onCtl (exec_mbxAck sg ch ag code s) ht (mod_eq_of_seg ?_)⟩
    · simp [Segment.send, ok]
    · simp [Segment.send, no, never]
    · have taken : ((s.accessed ag).seg sg).sendFirst ch ag = { (((s.accessed ag).seg sg).modChan ch fun _ => m) with
        mbxWas := eraseKey ch.val ((s.accessed ag).seg sg).mbxWas } := by
        simp [Segment.sendFirst, was, sender, before]
      simp only [Segment.send, taken, no, Bool.false_eq_true, if_false]
      refine (congrArg (fun g => Segment.answer g csOk 0) (if_pos first)).trans ?_
      exact congrArg (fun m => Segment.answer (Segment.post _ s.tick ch ag (Mbx.ptr m) notice) csOk 0) (chan_modChan_of_sender sender m)
    · simp [Segment.recvHint, unpaced]
    · simp [Segment.acknowledge, taken, cls]
  case timeout =>
    intro s sg ch m a lim ht hm hl full limit due sender update
    subst hm hl
    refine ⟨fun user => actsOn_onSeg (exec_mailboxTimeout sg ch s) ht ?_, fun host => actsOn_onSeg (exec_mailboxTimeout sg ch s) ht ?_⟩
    · simp only [State.mod, boot_mailTimeout, update]
      simp [Segment.mailTimeout, full, limit, due, sender, user]
    · simp only [State.mod, boot_mailTimeout, update]
      simp [Segment.mailTimeout, full, limit, due, sender, host]
  case config =>
    intro s sg ch ag v ht keeper empty
    refine becomes_onCtl (exec_mbxCfgWrite sg ch ag .w64 v s) ht ?_
    simp only [keeper, chan_setReg, empty, bne_self_eq_false, Bool.and_false, Bool.not_true, Bool.false_eq_true, if_false]
    rfl

/-! ## The keeper's requests -/

section Requests

variable {i : Instr} {s : State} {sg : Fin 8} {ch : Fin 64} {ag : Agent} {notice ptr : Nat} {f : State → Agent → Nat → State × Nat}

/-- A request that the keeper has taken is served, and acknowledged with the code of its service. -/
theorem becomes_serve13 {t : State} {code : Nat} (he : exec i s = onSeg sg s fun s => s.serve13 sg ch notice f)
    (taken : KeeperTakes s sg ch notice ag ptr) (hf : f s ag ptr = (t, code)) : Acknowledges i s sg ch code t := by
  refine becomes_onSeg he taken.1 ?_
  simp only [State.serve13, taken.2, hf]

end Requests

/-- The teardown of a context that is sealed or being loaded, and that is not being torn down, begins (R539). -/
theorem askTeardown_of_sealed {s : State} {ctx : BitVec 12} (sg : Nat) (ch : Option Nat)
    (sealed_ : (∃ g ∈ s.segs, g.sealedCtx ctx = true) ∨ s.loading ctx ≠ []) (free : ∀ g ∈ s.segs, g.kpr.tearing.contains ctx = false) :
    s.askTeardown sg ctx ch =
      some (((s.stopLoads ctx).mod sg (modKpr fun k => { k with awaiting := k.awaiting ++ [(ctx, ch)] })).sealTeardown ctx) := by
  have here : (!(s.segs.any fun g => g.sealedCtx ctx) && (s.loading ctx).isEmpty) = false := by
    rcases sealed_ with h | h
    · simp [List.any_eq_true.mpr h]
    · simp [h]
  have none_ : (s.segs.any fun g => g.kpr.tearing.contains ctx) = false :=
    List.any_eq_false.mpr fun g hg => Bool.eq_false_iff.mp (free g hg)
  simp only [State.askTeardown, here, none_]
  rfl

/-- Entries that may all be set give no code (R541). -/
theorem firstCode_of_zero {g : Segment} {ag : Agent} {es : List Nat} (ok : ∀ e ∈ es, g.guardEntry ag e = 0) :
    es.foldl (fun c e => if (c != 0) = true then c else g.guardEntry ag e) 0 = 0 := by
  induction es with
  | nil => rfl
  | cons e es ih =>
    rw [List.foldl_cons, if_neg (by decide), ok e (List.mem_cons_self ..)]
    exact ih fun x hx => ok x (List.mem_cons_of_mem _ hx)

/-- Settles O47: the checks of each request that pass choose its service. -/
theorem keeperRequestsAct : Obligations.KeeperRequestsAct := by
  refine ⟨?quote, ?load, ?teardown, ?guards, ?arm, ?spdm, ?copy, ?lane⟩
  case quote =>
    intro s sg ch ag ptr a taken nonce signed room
    refine becomes_serve13 (exec_quote sg ch s) taken ?_
    simp [nonce, signed, room]
  case load =>
    intro s ch ag ptr r taken mine req idle secure closed
    have own : (ag.ctx == 0 || ag.ctx == BitVec.ofNat 12 (memNat (s.seg 0).hbm (ptr + 16) 2)) = true := by simpa using mine
    have locked : s.segs.any Segment.debugOn = false := by simpa [List.any_eq_false] using closed
    refine ⟨fun e failed => becomes_serve13 (exec_sealLoad 0 ch s) taken ?_, fun key read => ?_⟩
    · simp only [Fin.val_zero, own, req, idle, secure, locked, failed]
      by_cases fault : e = rcNotRecipient ∨ e = rcAuthFail
      · simp [fault]
      · simp [fault]
    · have service : ∀ (t : State) (code : Nat), (if (!s.segs.all fun g => g.policyOk r) = true then
          (s.mod 0 fun g => g.keeperFault s.tick 1 (some r.ctx), rcPolicy)
          else match s.sealSteps r key with
            | .error (e, info) => (if (BitVec.ofNat 32 info == 0) = true then s
                else s.mod 0 fun g => g.keeperFault s.tick (BitVec.ofNat 32 info) (some r.ctx), e)
            | .ok t => (t.mod 0 fun g => g.bump F.KPR_COUNT_LOADS, rcOk)) = (t, code) → Acknowledges (.sealLoad 0 ch) s 0 ch code t := by
        intro t code served
        refine becomes_serve13 (exec_sealLoad 0 ch s) taken ?_
        simp only [Fin.val_zero, own, req, idle, secure, locked, read]
        exact served
      by_cases policy : (s.segs.all fun g => g.policyOk r) = true
      · rw [if_pos policy]
        cases steps : s.sealSteps r key with
        | ok t => exact service _ _ (by simp only [policy, steps]; rfl)
        | error x => exact service _ _ (by simp only [policy, steps]; simp)
      · rw [if_neg policy]
        exact service _ _ (by simp only [policy]; rfl)
  case teardown =>
    intro s sg ch ag ptr n taken hn present within mine sealed_ free
    subst hn
    refine becomes_onSeg (exec_sealTeardown sg ch s) taken.1 ?_
    have own : (ag.ctx == 0 || ag.ctx == BitVec.ofNat 12 (memNat (s.seg sg).hbm ptr 2)) = true := by simpa using mine
    simp only [taken.2, present, own, if_neg (Nat.not_le.mpr within), askTeardown_of_sealed sg (some ch.val) sealed_ free]
    rfl
  case guards =>
    intro s sg ch ag ptr n es taken hn present hes ok
    subst hn
    refine becomes_serve13 (exec_guardSet sg ch s) taken ?_
    simp only [present, ← hes, firstCode_of_zero ok]
    rfl
  case arm =>
    intro s t sg ch ag ptr b k taken present hb ctx slot slots reserved masks mine found kept serial ht
    subst hb
    refine becomes_serve13 (exec_sealArmLinks sg ch s) taken ?_
    have own : (ag.ctx == 0 || ag.ctx == BitVec.ofNat 12 (field ((s.seg sg).hbmBytes ptr 24) 0 2)) = true := by simpa using mine
    simp only [present, own, reserved, masks, found, kept, decide_eq_false (Nat.not_le.mpr ctx), beq_false_of_ne slot,
      decide_eq_false (Nat.not_lt.mpr slots), if_neg (Nat.not_le.mpr serial), tick_modAll, n_modAll]
    exact ht.symm
  case spdm =>
    intro s s' ch ag ptr len r a taken host decoded present answer room
    refine becomes_serve13 (exec_hostSpdm 0 ch s) taken ?_
    simp [host, decoded, present, answer, room]
  case copy =>
    intro s sg ch ag ptr addr len b material k taken host present hb va seq haddr page own hlen pages short dir reserved key hk ctxKey there owned
    subst hb haddr hlen hk
    refine becomes_serve13 (exec_hostCopy sg ch [] [] s) taken ?_
    simp only [host, present, va, seq, page, own, pages, decide_eq_false (Nat.not_lt.mpr short), dir, reserved, key, there, owned,
      Option.isNone_eq_false_iff.mpr ctxKey]
    rfl
  case lane =>
    intro s sg ch ag ptr w taken root present hw low high sealed_
    subst hw
    refine becomes_serve13 (exec_fenceLane sg ch s) taken ?_
    simp only [root, present, low, high, sealed_]
    rfl

end Sys2Proof.Machine
end

section
/-! The keeper's responder and the management port (R524, R528, R545, R546). -/

namespace Sys2Proof.Machine

open Sys2Proof

/-! ## What a message that the keeper hears does -/

/-- The keeper's answer to a request of the responder leaves in the state the request makes of what was heard. -/
theorem becomes_spdmPort {c : Instr} {s t : State} {ses : Session} {r : SpdmReq} {a : MgmtAns} {b : SpdmAns}
    (c_eq : exec c s = onSeg 0 s fun s => s.spdmPort ses r) (hears : KeeperHears s ses)
    (spdm : (s.mod 0 fun g => g.wakeDom s.tick domKeeper).spdm false ses r = (t, b)) (answer : a = .spdm b) : Answers c s t a := by
  obtain ⟨ht, refused, serves, opened⟩ := hears
  refine becomes_onSeg c_eq ht ?_
  simp [State.spdmPort, refused, serves, opened, spdm, answer]

/-- An operator's message is obeyed in the state that the keeper heard it in. -/
theorem becomes_lototum {c : Instr} {s t : State} {ses : Session} {x : SpdmSes} {needs : Bool} {f : State → SpdmSes → State}
    (c_eq : exec c s = onSeg 0 s fun s => s.lototum ses needs f) (hears : KeeperHears s ses) (found : s.session false ses = some x)
    (opened : x.opened = true) (secured : x.secured = true)
    (operator : needs = true → ((s.heard ses).seg 0).straps.secure = true → x.operator = true)
    (obeyed : f (s.heard ses) { x with last := (s.heard ses).tick } = t) : Becomes c s t := by
  obtain ⟨ht, refused, serves, -⟩ := hears
  refine becomes_onSeg c_eq ht ?_
  have passes : (needs && ((s.heard ses).seg 0).straps.secure && !x.operator) = false := by
    cases needs with
    | false => rfl
    | true =>
      cases secure : ((s.heard ses).seg 0).straps.secure with
      | false => rfl
      | true => simp [operator rfl secure]
  rw [State.heard] at passes obeyed
  simp only [opened, secured] at obeyed
  simp only [State.lototum, refused, serves, found, opened, secured, passes, Bool.not_true, Bool.or_self, Bool.false_eq_true, if_false]
  exact obeyed

theorem becomes_lototum_of_obeys {c : Instr} {s t : State} {ses : Session} {x : SpdmSes} {needs : Bool} {f : State → SpdmSes → State}
    (c_eq : exec c s = onSeg 0 s fun s => s.lototum ses needs f) (obeys : Obeys s ses x)
    (obeyed : f (s.heard ses) { x with last := (s.heard ses).tick } = t) : Becomes c s t := by
  obtain ⟨hears, found, opened, secured, operator⟩ := obeys
  exact becomes_lototum c_eq hears found opened secured (fun _ => operator) obeyed

/-- A point that is on the curve opens the session whose turn it is; another is refused (R546). -/
theorem spdmKeyExchange_eq {t : State} {pub k : List Byte} {i : Fin 4} (key : (t.seg 0).keyMat 0 1 = some k)
    (next : (t.seg 0).kpr.nextSession = i.val) (free : (t.session false (some i)).map SpdmSes.opened = some false)
    (chain : ((t.seg 0).chain 0).isEmpty = false) :
    t.spdmKeyExchange false 0 pub none =
      match Config.ecdh (Config.random t.freeCtr 48) pub with
      | some z => (({ t with freeCtr := t.freeCtr + 3 } : State).setSession false (some i)
          { opened := true, last := t.tick, id := Config.random (t.freeCtr + 1) 4, random := Config.random (t.freeCtr + 2) 32, secret := z, ctx := none },
          .keyExchange (Config.random (t.freeCtr + 1) 4) (Config.random (t.freeCtr + 2) 32) (Config.ecPublic (Config.random t.freeCtr 48))
            (Config.ecdsaSign (k.take 48) (Config.spdmTranscript "key exchange"
              (pub ++ Config.random (t.freeCtr + 1) 4 ++ Config.random (t.freeCtr + 2) 32) [])))
      | none => ({ t with freeCtr := t.freeCtr + 3 }, spdmInvalid) := by
  obtain ⟨x, found, closed⟩ := Option.map_eq_some_iff.mp free
  have kept : ({ t with freeCtr := t.freeCtr + 3 } : State).session false (some i) = some x := found
  simp only [State.spdmKeyExchange, chain, key, next, i.isLt, dif_pos]
  cases Config.ecdh (Config.random t.freeCtr 48) pub with
  | none => rfl
  | some z => simp [kept, closed]; rfl

theorem execGetEndpointId_eq (s : State) :
    exec .getEndpointId s = onSeg 0 s fun s => s.reply (.endpoint true (s.seg 0).kpr.eid) := rfl

theorem execGetMessageTypeSupport_eq (s : State) :
    exec .getMessageTypeSupport s = onSeg 0 s fun s => s.reply (.types mctpTypes) := rfl

/-- Settles O48: the stage of the negotiation and the operands choose each answer of the responder. -/
theorem spdmAnswers : Obligations.SpdmAnswers := by
  refine ⟨?version, ?negotiation, ?answered, ?exchange, ?finished, ?timeout⟩
  case version =>
    intro s ses code hears
    exact ⟨becomes_spdmPort (exec_getVersion ses s) hears rfl rfl, becomes_spdmPort (exec_unsupportedRequest ses code s) hears rfl rfl⟩
  case negotiation =>
    intro s ses hears
    refine ⟨fun begun => becomes_spdmPort (exec_getCapabilities ses s) hears ?_ rfl,
      fun asym hash stage sign digest => becomes_spdmPort (exec_negotiateAlgorithms ses asym hash s) hears ?_ rfl⟩
    · exact if_neg (by simpa [State.heard] using begun)
    · rw [State.heard] at stage
      simp [State.spdm, Nat.not_lt.mpr stage, sign, digest]
      rfl
  case answered =>
    intro s t ses slot off len c nonce hears ht stage hc
    subst ht hc
    rw [State.heard] at stage
    have asked := Nat.not_lt.mpr stage
    refine ⟨becomes_spdmPort (exec_getDigests ses s) hears (if_neg asked) rfl,
      becomes_spdmPort (exec_getCertificate ses slot off len s) hears (t := s.heard ses) ?_ rfl,
      fun k key => becomes_spdmPort (exec_challenge ses 0 nonce s) hears (t := s.heard ses) ?_ rfl,
      fun idx b blocks => ⟨becomes_spdmPort (exec_getMeasurements ses idx none s) hears (t := s.heard ses) ?_ rfl,
        fun a signed => becomes_spdmPort (exec_getMeasurements ses idx (some nonce) s) hears ?_ rfl⟩⟩
    · refine (if_neg asked).trans ?_
      by_cases held : slot.toNat < 2 ∧ off.toNat < (((s.heard ses).seg 0).chain slot.toNat).length
      · rw [if_pos held]
        obtain ⟨within, before⟩ := held
        exact if_neg (by simpa [State.heard] using And.intro within before)
      · rw [if_neg held]
        simp only [State.heard, not_and_or, not_lt] at held
        exact if_pos (by simpa using held)
    · refine (if_neg asked).trans ?_
      by_cases chain : (((s.heard ses).seg 0).chain 0).isEmpty = true
      · rw [if_pos chain]
        exact if_pos (by simpa [State.heard] using chain)
      · rw [if_neg chain]
        refine (if_neg (by simpa [State.heard] using chain)).trans ?_
        rw [State.heard] at key
        simp only [key]
        rfl
    · refine (if_neg asked).trans ?_
      rw [State.heard] at blocks
      simp only [blocks]
      rfl
    · refine (if_neg asked).trans ?_
      rw [State.heard] at blocks signed
      simp only [blocks, signed]
      rfl
  case exchange =>
    intro s t ses pub k i n hears ht stage key hn next free
    subst ht hn
    have asked : ((s.mod 0 fun g => g.wakeDom s.tick domKeeper).spdm false ses (.keyExchange 0 pub none)) =
        (s.heard ses).spdmKeyExchange false 0 pub none := if_neg (by rw [State.heard] at stage; exact Nat.not_lt.mpr stage)
    cases chain : (((s.heard ses).seg 0).chain 0).isEmpty with
    | true =>
      refine becomes_spdmPort (exec_keyExchange ses 0 pub s) hears (asked.trans ?_) rfl
      exact if_pos (by simp [chain])
    | false =>
      have opened := spdmKeyExchange_eq (pub := pub) key next free chain
      simp only [Bool.false_eq_true, if_false]
      cases point : Config.ecdh (Config.random (s.heard ses).freeCtr 48) pub with
      | none =>
        rw [point] at opened
        exact becomes_spdmPort (exec_keyExchange ses 0 pub s) hears (asked.trans opened) rfl
      | some z =>
        rw [point] at opened
        exact becomes_spdmPort (exec_keyExchange ses 0 pub s) hears (asked.trans opened) rfl
  case finished =>
    intro s t ses mac x hears ht found opened unsecured verified
    subst ht
    refine becomes_spdmPort (exec_finish ses mac s) hears (?_ : (s.heard ses).spdmFinish false ses mac = _) rfl
    simp [State.spdmFinish, found, opened, unsecured, verified]
  case timeout =>
    intro s ses x ht found opened due
    refine becomes_onSeg (exec_spdmSessionTimeout ses s) ht ?_
    simp [found, opened, due]

/-- Settles O49: a message in a session that the keeper hears is obeyed, and the endpoint answers its own at once. -/
theorem managementAnswers : Obligations.ManagementAnswers := by
  refine ⟨?status, ?auth, ?operators, ?endpoint⟩
  case status =>
    intro s ses ht open_
    exact becomes_onSeg (exec_status ses s) ht (by simp [open_])
  case auth =>
    intro s t ses x pub sig hears ht found opened secured
    subst ht
    exact becomes_lototum (exec_operatorAuth ses pub sig s) hears found opened secured (fun no => absurd no (by decide)) rfl
  case operators =>
    intro s t ses x digest obeys ht
    subst ht
    refine ⟨fun n free => becomes_lototum_of_obeys (exec_operatorKeyAdd ses digest s) obeys ?_,
      fun hit hHit some => becomes_lototum_of_obeys (exec_operatorKeyRemove ses digest s) obeys ?_,
      fun cls stile salt kettle gap => becomes_lototum_of_obeys (exec_powerSet ses cls stile salt kettle gap s) obeys rfl,
      fun none => becomes_lototum_of_obeys (exec_debugUnlock ses s) obeys ?_,
      becomes_lototum_of_obeys (exec_debugLock ses s) obeys rfl,
      fun ctx u asked => becomes_lototum_of_obeys (exec_teardown ses ctx s) obeys ?_⟩
    · simp only [free]
    · subst hHit
      exact if_neg (by simpa using some)
    · simp [none]
    · simp [asked]
  case endpoint =>
    intro s op eid typ addr ht
    refine ⟨fun sets nonzero broadcast => becomes_onSeg (exec_setEndpointId op eid s) ht ?_,
      becomes_onSeg (execGetEndpointId_eq s) ht rfl, becomes_onSeg (exec_getMctpVersionSupport typ s) ht rfl,
      becomes_onSeg (execGetMessageTypeSupport_eq s) ht rfl, becomes_onSeg (exec_dynamicAddressAssignment addr s) ht rfl⟩
    simp [sets, show eid ≠ 0#8 from nonzero, show eid ≠ 255#8 from broadcast]

end Sys2Proof.Machine

end

section
/-! The test access port, control space and the telemetry (R569 to R572, R14). -/

namespace Sys2Proof.Machine

open Sys2Proof

/-! ## Two changes of one segment -/

/-- Two changes of a segment are one, whether or not the package has the segment. -/
theorem mod_comp (s : State) (i : Nat) (f u : Segment → Segment) : (s.mod i f).mod i u = s.mod i fun g => u (f g) := by
  rcases Nat.lt_or_ge i s.n with within | beyond
  · exact mod_mod s i f u within
  · have unchanged : ∀ g, s.setSeg i g = s := fun g => by
      have same : s.segs.set i g = s.segs := List.set_eq_of_length_le beyond
      rw [State.setSeg, same]
    simp only [State.mod, unchanged]

/-! ## The test access port -/

/-- A scan of CTRL_ACCESS acts when its operation is the command's and it is well formed. -/
theorem ctrlScan_ok {s : State} {sg : Fin 8} {op : Nat} {v : BitVec 72} {act : Jtag → Jtag} (ctrl : (s.seg sg).ctrlOk = true)
    (form : scanOk v = true) (this : v.toNat / 64 % 4 = op) (ready : op ≠ 0 → (s.seg sg).jtag.busy = none) :
    ctrlScan sg op v s act = onSeg sg s fun s => s.mod sg fun g => g.modJtag fun _ =>
      act { (s.seg sg).jtag with ir := 0x10, driving := false, tdo := scanBits 72 (s.seg sg).jtag.captured, error := false } := by
  have well : (!scanOk v || (op != 0 && (s.seg sg).jtag.busy.isSome)) = false := by
    rcases Nat.eq_zero_or_pos op with zero | pos
    · simp [form, zero]
    · simp [form, ready (Nat.ne_of_gt pos)]
  have acts : (s.mod sg fun g => g.modJtag fun j =>
      let bad := !scanOk v || (op != 0 && j.busy.isSome)
      let k := { j with ir := 0x10, driving := false, tdo := scanBits 72 j.captured, error := bad }
      if bad then k else act k) = s.mod sg fun g => g.modJtag fun _ =>
        act { (s.seg sg).jtag with ir := 0x10, driving := false, tdo := scanBits 72 (s.seg sg).jtag.captured, error := false } :=
    mod_eq_of_seg (by simp only [Segment.modJtag, well]; rfl)
  unfold ctrlScan onSeg
  simp only [this, ctrl, acts, bne_self_eq_false, Bool.not_true, Bool.false_eq_true, if_false]

/-- Settles O50: a scan whose instruction is available acts on the port; the access in progress is performed by its own event. -/
theorem testPortActs : Obligations.TestPortActs := by
  refine ⟨?scans, ?ctrl, ?access⟩
  case scans =>
    intro s sg scan pins ht
    refine ⟨fun halted => becomes_onSeg (exec_extest sg scan s) ht ?_, actsOn_onSeg (exec_samplePreload sg pins scan s) ht rfl,
      actsOn_onSeg (exec_idcode sg s) ht rfl, fun code tdi bypass => actsOn_onSeg (exec_bypass sg code tdi s) ht ?_,
      actsOn_onSeg (exec_trst sg s) ht rfl⟩
    · have stopped : (s.seg sg).extestOk = true := by simpa [Segment.extestOk] using halted
      simp [stopped]
    · exact if_pos bypass
  case ctrl =>
    intro s sg v j ht ctrl form hj
    subst hj
    refine ⟨fun poll => ?_, fun idle op => ?_, fun idle op => ?_, fun idle op => ?_⟩
    · exact actsOn_onSeg ((exec_ctrlAccessPoll sg v s).trans (ctrlScan_ok ctrl form poll fun no => absurd rfl no)) ht rfl
    · exact actsOn_onSeg ((exec_ctrlAccessAddress sg v s).trans (ctrlScan_ok ctrl form op fun _ => idle)) ht rfl
    · exact actsOn_onSeg ((exec_ctrlAccessRead sg v s).trans (ctrlScan_ok ctrl form op fun _ => idle)) ht rfl
    · exact actsOn_onSeg ((exec_ctrlAccessWrite sg v s).trans (ctrlScan_ok ctrl form op fun _ => idle)) ht rfl
  case access =>
    intro s t sg write wide inc v a ag sz ht busy ha hag hsz access clock
    subst ha hag hsz access
    refine becomes_onSeg (exec_ctrlAccessDone sg s) ht ?_
    simp only [busy, beq_iff_eq, clock]
    rfl

/-! ## Control space -/

/-- A register's offset is not beyond the access's. -/
theorem regOf_le {off o : Nat} {sz : Sz} (h : regOf off sz = some o) : o ≤ off := by
  cases sz <;> simp only [regOf, Option.ite_none_right_eq_some, Option.some.injEq] at h <;> omega

theorem regOf_within {off : BitVec 21} {o : Nat} {sz : Sz} (h : regOf off.toNat sz = some o) : o < 0x200000 :=
  Nat.lt_of_le_of_lt (regOf_le h) off.isLt

/-- Settles O51: the register at the offset, its access sizes and its clock choose what an access does. -/
theorem registersAndSnapshots : Obligations.RegistersAndSnapshots := by
  refine ⟨?registers, ?nothing, ?snap, ?period⟩
  case registers =>
    intro s sg ag off sz v o r ht at_ row
    have mapped := Nat.not_le.mpr (regOf_within at_)
    refine ⟨fun size clock => becomes_onSeg (exec_registerWrite sg ag off sz v s) ht ?_,
      fun size sealed port clock mail lunch => becomes_onSeg (exec_registerRead sg ag off sz s) ht ?_,
      fun size clock => becomes_onSeg (exec_registerWrite sg ag off sz v s) ht ?_⟩
    · have fits : (r.size != .any && sz != .w64) = false := by rcases size with h | h <;> simp [h]
      rw [State.accessed] at *
      simp only [State.ctlWrite, at_, mapped, row, fits, clock, Bool.false_eq_true, if_false]
      exact mod_comp _ _ _ _
    · have fits : (r.size == .a64 && sz != .w64) = false := by
        rw [Bool.and_eq_false_imp]
        simpa using size
      have notPort : (ag.cls == .jtag && o / 0x10000 == 4) = false := by simpa using port
      have notMail : (decide (0x30000 ≤ o) && decide (o < 0x31000) && o % 64 == 0x18) = false := by simpa [and_assoc] using mail
      have notLunch : (decide (0x180000 ≤ o) && decide (o < 0x192000) && o % 0x1000 == 0x40) = false := by
        simpa [and_assoc] using lunch
      rw [State.accessed] at *
      simp only [State.ctlRead, at_, mapped, row, fits, beq_eq_false_iff_ne.mpr sealed, notPort, clock, notMail, notLunch,
        Bool.false_eq_true, if_false, Option.bind_some]
      rfl
    · have fits : (r.size != .any && sz != .w64) = false := by rcases size with h | h <;> simp [h]
      rw [State.accessed] at *
      simp only [State.ctlWrite, at_, mapped, row, fits, clock, Bool.false_eq_true, if_false, if_true]
  case nothing =>
    intro s sg ag off sz v ht
    refine ⟨fun none_ => ⟨becomes_onSeg (exec_registerWrite sg ag off sz v s) ht ?_, becomes_onSeg (exec_registerRead sg ag off sz s) ht ?_⟩,
      fun o at_ row mapped => ⟨becomes_onSeg (exec_registerWrite sg ag off sz v s) ht ?_,
        becomes_onSeg (exec_registerRead sg ag off sz s) ht ?_⟩⟩
    · simp only [State.ctlWrite, none_]; rfl
    · simp only [State.ctlRead, none_]; rfl
    · simp only [State.ctlWrite, at_, Nat.not_le.mpr mapped, row]; rfl
    · simp only [State.ctlRead, at_, Nat.not_le.mpr mapped, row]; rfl
  case snap =>
    intro s sg ag ht admin_
    refine becomes_onCtl (exec_telSnap sg ag s) ht ?_
    simp only [State.snapWrite, State.allow, admin_, if_true]
    exact mod_comp _ _ _ _
  case period =>
    intro s sg n ht hn nonzero tick once
    subst hn
    refine actsOn_onSeg (exec_telPeriodicSnap sg s) ht ?_
    simp only [State.mod, beq_iff_eq, nonzero, tick, once, Bool.or_eq_true, bne_iff_ne, ne_eq, not_true, or_self, if_false]

end Sys2Proof.Machine

end

section
/-! One cycle with no command waiting (00_scope.md, Clocks and time). -/

namespace Sys2Proof.Machine

open Sys2Proof

/-! ## What a cycle does to the time -/

/-- The state that an issue leaves, if it leaves one, has a property. -/
def Iss.Leaves (p : State → Prop) : Iss → Prop
  | .ok s => p s
  | _ => True

/-- A walk over a list leaves the time as each step does. -/
theorem time_foldl {α : Type} {f : State → α → State} (kept : ∀ s a, (f s a).time = s.time) (l : List α) (s : State) :
    (l.foldl f s).time = s.time := by
  induction l generalizing s with
  | nil => rfl
  | cons a l ih => rw [List.foldl_cons, ih, kept]

@[simp] theorem time_resumed (s : State) (sg c : Nat) : (s.resumed sg c).time = s.time := rfl

@[simp] theorem time_guardPut (s : State) (sg i : Nat) (w : BitVec 32) : (s.guardPut sg i w).time = s.time := by
  simp only [State.guardPut, State.guardDrop]
  split <;> rfl

@[simp] theorem time_bridgeAsleep (s : State) (sg : Nat) : (s.bridgeAsleep sg).time = s.time := by
  simp [State.bridgeAsleep]

/-! ### Loads broken by a sleep -/

theorem time_installCtx {s t : State} {ctx : BitVec 12} {key : List Byte} (h : s.installCtx ctx key = some t) : t.time = s.time := by
  unfold State.installCtx at h
  split at h
  · cases h
    rfl
  · cases h

theorem time_claimAll {s t : State} {ctx : BitVec 12} {l : List (Nat × Option Nat)} (h : s.claimAll ctx l = .ok t) : t.time = s.time := by
  induction l generalizing s with
  | nil =>
    cases h
    rfl
  | cons x rest ih =>
    obtain ⟨sg, idx⟩ := x
    cases idx with
    | none => cases h
    | some i =>
      simp only [State.claimAll] at h
      split at h
      · cases h
      · split at h
        · cases h
        · exact (ih h).trans (time_guardPut s sg i _)

theorem time_sealChunk {s t : State} {r : SealReq} {key : List Byte} {i : Nat} (h : s.sealChunk r key i = .ok t) : t.time = s.time := by
  simp only [State.sealChunk] at h
  split at h
  · cases h
  · cases h
    rfl

theorem time_sealChunks {s t : State} {r : SealReq} {key : List Byte} {l : List Nat} (h : s.sealChunks r key l = .ok t) :
    t.time = s.time := by
  induction l generalizing s with
  | nil =>
    cases h
    rfl
  | cons i rest ih =>
    simp only [State.sealChunks] at h
    split at h
    next u chunk => exact (ih h).trans (time_sealChunk chunk)
    · cases h

theorem time_sealPart {s t : State} {r : SealReq} {key : List Byte} {regions : List (Nat × Option Nat)} {chunks : Nat}
    (h : s.sealPart r key regions chunks = .ok t) : t.time = s.time := by
  simp only [State.sealPart] at h
  split at h
  · cases h
  next s₁ installed =>
    split at h
    · cases h
    next s₂ claimed =>
      split at h
      · cases h
      next s₃ sealed =>
        cases h
        exact (time_sealChunks sealed).trans ((time_claimAll claimed).trans (time_installCtx installed))

@[simp] theorem time_breakLoad (s : State) (ch : Nat) : (s.breakLoad ch).time = s.time := by
  simp only [State.breakLoad]
  split
  · rfl
  · split
    · rfl
    · split
      · rfl
      · split
        · rfl
        next u part => exact (time_sealPart part :)

@[simp] theorem time_breakLoads (s : State) : s.breakLoads.time = s.time := by
  unfold State.breakLoads
  split
  · rfl
  · exact (time_mod _ _ _).trans (time_foldl time_breakLoad _ _)

/-! ### Sleeps, fabric-homed regions and moves -/

@[simp] theorem time_sleepLoss (s : State) (sg d : Nat) : (s.sleepLoss sg d).time = s.time := by
  simp only [State.sleepLoss]
  split
  · exact (time_foldl (by intros; rfl) _ _).trans rfl
  · split
    · exact time_bridgeAsleep _ _
    · rfl

@[simp] theorem time_sleepsEnd (s : State) (sg : Nat) : (s.sleepsEnd sg).time = s.time :=
  (time_mod _ _ _).trans (time_foldl (fun s _ => time_sleepLoss s sg _) _ _)

@[simp] theorem time_fhCycle (s : State) (sg : Nat) : (s.fhCycle sg).time = s.time := by
  simp only [State.fhCycle]
  split
  · rfl
  · exact (time_mod _ _ _).trans (time_foldl (by intros; rfl) _ _)

@[simp] theorem time_moveWatch (s : State) (sg : Nat) : (s.moveWatch sg).time = s.time := by
  unfold State.moveWatch
  split <;> rfl

/-! ### Issues tried again -/

@[simp] theorem leaves_ok (p : State → Prop) (s : State) : (Iss.ok s).Leaves p ↔ p s := Iff.rfl
@[simp] theorem leaves_exc (p : State → Prop) (e : BitVec 4) (i : Word) : (Iss.exc e i).Leaves p := trivial
@[simp] theorem leaves_hold (p : State → Prop) : Iss.hold.Leaves p := trivial
@[simp] theorem leaves_miss (p : State → Prop) (va : Nat) : (Iss.miss va).Leaves p := trivial
@[simp] theorem leaves_settled (p : State → Prop) (s : State) (sg c : Nat) (slot : Option Nat) (st : BitVec 4) :
    (s.settled sg c slot st).Leaves p ↔ p (s.mod sg fun g => g.settleIssue s.tick c slot st) := Iff.rfl

@[simp] theorem time_startRecall (s : State) (sg : Nat) (b : List Byte) (submitted : Bool) (owner : Option (Owner × Option Nat)) :
    (s.startRecall sg b submitted owner).time = s.time := by
  simp only [State.startRecall]
  split
  · rfl
  · exact (time_foldl (by intros; rfl) _ _).trans rfl

theorem time_issueMove (s : State) (sg c op : Nat) (f : IFields) (unc : List Nat) (force : Option (BitVec 4)) :
    (s.issueMove sg c op f unc force).Leaves fun t => t.time = s.time := by
  simp only [State.issueMove]
  repeat' split
  all_goals simp

theorem time_issueShape (s : State) (sg c : Nat) (f : IFields) (unc : List Nat) (force : Option (BitVec 4)) :
    (s.issueShape sg c f unc force).Leaves fun t => t.time = s.time := by
  simp only [State.issueShape]
  repeat' split
  all_goals simp

theorem time_issueAtom (s : State) (sg c : Nat) (isF : Bool) (f : IFields) (unc : List Nat) (force : Option (BitVec 4)) :
    (s.issueAtom sg c isF f unc force).Leaves fun t => t.time = s.time := by
  simp only [State.issueAtom]
  repeat' split
  all_goals simp

theorem time_issueJoin (s : State) (sg c : Nat) (f : IFields) (unc : List Nat) (force : Option (BitVec 4)) :
    (s.issueJoin sg c f unc force).Leaves fun t => t.time = s.time := by
  simp only [State.issueJoin]
  repeat' split
  all_goals simp

theorem time_issueRound (s : State) (sg c code : Nat) (f : IFields) (rideOp : Nat) (value : Word) :
    (s.issueRound sg c code f rideOp value).Leaves fun t => t.time = s.time := by
  simp only [State.issueRound]
  repeat' split
  all_goals simp

theorem time_issueRecall (s : State) (sg c : Nat) (f : IFields) : (s.issueRecall sg c f).Leaves fun t => t.time = s.time := by
  simp only [State.issueRecall]
  repeat' split
  all_goals simp

theorem time_issueSig (s : State) (sg c : Nat) (f : IFields) (unc : List Nat) (force : Option (BitVec 4)) :
    (s.issueSig sg c f unc force).Leaves fun t => t.time = s.time := by
  simp only [State.issueSig]
  repeat' split
  all_goals simp

theorem time_issue (s : State) (sg c : Nat) (op : BitVec 8) (f : IFields) (unc : List Nat) (force : Option (BitVec 4)) :
    (s.issue sg c op f unc force).Leaves fun t => t.time = s.time := by
  simp only [State.issue]
  repeat' split
  all_goals simp [time_issueMove, time_issueShape, time_issueAtom, time_issueJoin, time_issueRound, time_issueRecall, time_issueSig]

@[simp] theorem time_reissue (s : State) (sg c : Nat) (x : Stall) : (s.reissue sg c x).time = s.time := by
  unfold State.reissue
  have leaves := time_issue s sg c x.op x.f x.unc x.force
  split
  next t issued =>
    rw [issued] at leaves
    exact (time_resumed t sg c).trans leaves
  all_goals rfl

@[simp] theorem time_goAgain (s : State) (sg c : Nat) (x : Stall) : (s.goAgain sg c x).time = s.time := by
  unfold State.goAgain State.rewaits
  split
  · dsimp only
    split
    · rfl
    · rfl
    · split <;> rfl
  · exact time_reissue s sg c x

@[simp] theorem time_retryStalls (s : State) (sg : Nat) : (s.retryStalls sg).time = s.time := by
  unfold State.retryStalls
  refine time_foldl (fun t a => ?_) _ _
  split
  · split
    · rfl
    · exact time_goAgain t sg a.2 _
  · rfl

/-! ### The cycle -/

@[simp] theorem time_segCycle (s : State) (sg : Nat) : (s.segCycle sg).time = s.time := by
  simp only [State.segCycle]
  split <;> simp

@[simp] theorem time_errorCopy (s : State) (sg : Nat) (r : FaultRec) : (s.errorCopy sg r).time = s.time := by
  simp only [State.errorCopy]
  split
  · rfl
  · split <;> rfl

@[simp] theorem time_faultTick (s : State) (sg : Nat) : (s.faultTick sg).time = s.time := by
  simp only [State.faultTick, time_mod]
  exact (time_foldl (fun t r => time_errorCopy t sg r) _ _).trans rfl

@[simp] theorem time_trackIdle (s : State) : s.trackIdle.time = s.time := time_foldl (by intros; rfl) _ _

@[simp] theorem time_shot (s : State) : s.shot.time = s.time := time_foldl (by intros; rfl) _ _

@[simp] theorem time_tickStep (s : State) : s.tickStep.time = s.time := by
  have recorded := time_foldl time_faultTick (List.range s.n) (s.modAll fun g => g.closeWindows s.tick)
  simp only [State.tickStep, n_modAll, apply_ite State.time, time_shot, time_trackIdle, recorded, ite_self, time_modAll]

/-- Every segment's cycle, after the loads that the last cycle broke. -/
def State.cycled (s : State) : State := (List.range s.breakLoads.n).foldl State.segCycle s.breakLoads

@[simp] theorem time_cycled (s : State) : s.cycled.time = s.time := (time_foldl time_segCycle _ _).trans (time_breakLoads s)

/-- A cycle of a running package: every segment's cycle, then the tick where one begins. -/
theorem idle_of_running {s : State} (running : s.inColdReset = false) :
    s.idle = if (s.time + 1) % 21 == 0 then ({ s with time := s.time + 1 } : State).cycled.tickStep
      else ({ s with time := s.time + 1 } : State).cycled := by
  refine (if_neg (by simp [running])).trans ?_
  have tick : ∀ t : State, t.time = s.time + 1 →
      (if t.time % 21 == 0 then t.tickStep else t) = if (s.time + 1) % 21 == 0 then t.tickStep else t := fun t time => by rw [time]
  exact tick _ (time_cycled { s with time := s.time + 1 })

theorem time_idle {s : State} (running : s.inColdReset = false) : s.idle.time = s.time + 1 := by
  simp only [idle_of_running running, apply_ite State.time, time_tickStep, time_cycled, ite_self]

/-! ## A cycle in which nothing is left to do -/

/-- A segment whose fast clock is off, with no sleep and no wake of the last cycle to settle, does nothing in a cycle. -/
theorem segCycle_eq_self {s : State} {k : Nat} (clock : (s.seg k).clocked = false) (slept : (s.seg k).pwr.slept = [])
    (woke : (s.seg k).pwr.woke = []) : s.segCycle k = s := by
  have settled : s.sleepsEnd k = s := by
    unfold State.sleepsEnd
    rw [slept]
    refine mod_eq_self s k _ ?_
    conv_rhs => rw [← show ({ s.seg k with pwr := { (s.seg k).pwr with slept := (s.seg k).pwr.slept, woke := (s.seg k).pwr.woke } } : Segment) = s.seg k from rfl, slept, woke]
  have off : (s.seg k).boot.pllAt.isNone = true := by simpa [Segment.clocked] using clock
  simp only [State.segCycle, settled, off, if_true]

theorem foldl_eq_self {α : Type} {f : State → α → State} {s : State} {l : List α} (h : ∀ a ∈ l, f s a = s) : l.foldl f s = s := by
  induction l with
  | nil => rfl
  | cons a l ih =>
    rw [List.foldl_cons, h a List.mem_cons_self]
    exact ih fun b hb => h b (List.mem_cons_of_mem _ hb)

/-- Settles O2: what a cycle does of itself leaves the time, and does nothing where nothing is due. -/
theorem idleStepIsOneCycle : Obligations.IdleStepIsOneCycle := by
  intro s waiting
  have idle : step s = .next s.idle := by
    unfold step
    rw [waiting]
  refine ⟨s.idle, idle, fun held => if_pos held, fun running => ⟨time_idle running, fun tick broken quiet => ?_⟩⟩
  have unbroken : ({ s with time := s.time + 1 } : State).breakLoads = { s with time := s.time + 1 } :=
    if_pos (List.isEmpty_iff.mpr broken)
  rw [idle_of_running running, if_neg (by simpa using tick), State.cycled, unbroken]
  refine foldl_eq_self fun k hk => ?_
  obtain ⟨clock, slept, woke⟩ := quiet k (List.mem_range.mp hk)
  exact segCycle_eq_self clock slept woke

end Sys2Proof.Machine

end

section
/-! The commands of 76 kinds complete, each with its own effect. Most clauses are cases of what their families do. -/

namespace Sys2Proof.Machine

open Sys2Proof

/-- The segment as an access to it that wakes its domains leaves it, answered. -/
theorem seg_reached_answered {s : State} {sg : Fin 8} (ht : Takes s sg) (ag : Agent) (ds : List Nat) :
    ((s.reached sg ag ds).mod sg fun g => g.answer csOk 0).seg sg = ((s.reached sg ag ds).seg sg).answer csOk 0 :=
  seg_mod_same _ _ _ (by simpa [State.reached] using ht.1)

theorem mod_reached {s : State} {sg : Fin 8} (ht : Takes s sg) (ag : Agent) (ds : List Nat) (f u : Segment → Segment) :
    ((s.reached sg ag ds).mod sg f).mod sg u = (s.reached sg ag ds).mod sg fun g => u (f g) :=
  mod_mod _ _ _ _ (by simpa [State.reached] using ht.1)

theorem admin_of_isKeeper {ag : Agent} (h : ag.isKeeper = true) : ag.admin = true := by
  have keeper : (ag.cls == .keeper) = true := h
  simp [Agent.admin, keeper]

/-- An administrator's command on a context other than 0 that its state allows is taken. -/
theorem ctxCmd_none {g : Segment} {tick cmd : Nat} {ag : Agent} {ctx : BitVec 12} {bad : Bool} (admin_ : ag.admin = true) (user : ctx ≠ 0)
    (good : bad = false) : g.ctxCmd tick ag cmd ctx bad = none := by
  simp [Segment.ctxCmd, admin_, good, show ctx ≠ 0#12 from user]

theorem reg_setFld_ne (g : Segment) (f : Fld) (n : Nat) {o : Nat} (h : o ≠ f.off) : (g.setFld f n).reg o = g.reg o :=
  reg_setReg_ne g f.off o _ h

theorem reg_setBitOf_ne (g : Segment) (f : Fld) (b : Nat) (v : Bool) {o : Nat} (h : o ≠ f.off) : (g.setBitOf f b v).reg o = g.reg o :=
  reg_setReg_ne g f.off o _ h

/-- The result of a context's command stands in registers of its own. -/
theorem reg_ctxResult (g : Segment) (ctx : BitVec 12) (reason : Nat) {o : Nat} (h : o ≠ F.XLT_CTX_RESULT_VALID.off) :
    (g.ctxResult ctx reason).reg o = g.reg o := by
  rw [Segment.ctxResult, reg_setFld_ne _ F.XLT_CTX_RESULT_STATUS _ h, reg_setFld_ne _ F.XLT_CTX_RESULT_REASON _ h,
    reg_setFld_ne _ F.XLT_CTX_RESULT_CTX _ h, reg_setFld_ne _ F.XLT_CTX_RESULT_VALID _ h]

/-- The write of a critical word changes no register but hamper's. -/
theorem reg_critWrite (g : Segment) {w o : Nat} (system : w < 8) (disagree : o ≠ F.HMP_CRIT_WORD_DISAGREE.off)
    (lost : o ≠ F.HMP_CRIT_WORD_LOST.off) (any : o ≠ F.HMP_CRIT_LOST.off) : (g.critWrite w).reg o = g.reg o := by
  simp only [Segment.critWrite, Nat.not_le.mpr system, if_false, apply_ite (Segment.reg · o), reg_setFld_ne _ F.HMP_CRIT_LOST _ any,
    reg_setBitOf_ne _ F.HMP_CRIT_WORD_LOST _ _ lost, reg_setBitOf_ne _ F.HMP_CRIT_WORD_DISAGREE _ _ disagree, ite_self]
  rfl

/-! ### What is published to the holders of fabric-homed regions leaves every register -/

theorem fld_seg_mod (s : State) (i j : Nat) {u : Segment → Segment} (f : Fld) (kept : ∀ g, (u g).fld f = g.fld f) :
    ((s.mod i u).seg j).fld f = (s.seg j).fld f := by
  rcases ne_or_eq j i with other | rfl
  · rw [seg_mod_ne s i j u other]
  · rcases Nat.lt_or_ge j s.n with within | beyond
    · rw [seg_mod_same s j u within, kept]
    · have same : s.segs.set j (u (s.seg j)) = s.segs := List.set_eq_of_length_le beyond
      rw [State.mod, State.setSeg, same]

theorem n_fld_publishCounts (s : State) (sg : Nat) (f : Fld) :
    (s.publishCounts sg).n = s.n ∧ ((s.publishCounts sg).seg sg).fld f = (s.seg sg).fld f := by
  have published : ∀ (t : State) (u : Segment → Segment), (∀ g, (u g).fld f = g.fld f) → ∀ i,
      t.n = s.n ∧ (t.seg sg).fld f = (s.seg sg).fld f → (t.mod i u).n = s.n ∧ ((t.mod i u).seg sg).fld f = (s.seg sg).fld f :=
    fun t u kept i same => ⟨(n_mod t i u).trans same.1, (fld_seg_mod t i sg f kept).trans same.2⟩
  unfold State.publishCounts
  refine published _ _ (fun g => fld_with_plc g _ f) _ ?_
  refine List.foldlRecOn (motive := fun t : State => t.n = s.n ∧ (t.seg sg).fld f = (s.seg sg).fld f) _ _ ⟨rfl, rfl⟩ fun t same x _ => ?_
  dsimp only
  split
  · exact same
  next h _ => exact published t _ (fun g => fld_with_plc g _ f) h.holder same

theorem n_publishCounts (s : State) (sg : Nat) : (s.publishCounts sg).n = s.n := (n_fld_publishCounts s sg F.PLC_CTRL_HOMING_MOVE).1

theorem fld_publishCounts (s : State) (sg : Nat) (f : Fld) : ((s.publishCounts sg).seg sg).fld f = (s.seg sg).fld f :=
  (n_fld_publishCounts s sg f).2

theorem port_modPort_same {g : Segment} {p : Nat} (f : Port → Port) (within : p < g.ports.length) :
    (g.modPort p f).port p = f (g.port p) := getD_modAt_same g.ports p f _ within

@[simp] theorem resident?_answer (g : Segment) (st : BitVec 4) (w : Word) (c : BitVec 12) : (g.answer st w).resident? c = g.resident? c := rfl

@[simp] theorem isResident_answer (g : Segment) (st : BitVec 4) (w : Word) (c : BitVec 12) : (g.answer st w).isResident c = g.isResident c := rfl

/-- Settles O60: each clause from what its family does. -/
theorem completionOfEach : Obligations.CompletionOfEach := by
  refine ⟨?reset, ?instructions, ?group, ?flits, ?contexts, ?guards, ?memory, ?timers, ?commands, ?lanes⟩
  case reset =>
    intro l s h1 h8
    exact ⟨_, exec_coldReset_dies s h1 h8, by simp [State.n, State.dies, length_sortStraps], rfl, rfl⟩
  case instructions =>
    intro s sg c f g k hx hg hk
    subst hg hk
    obtain ⟨-, waits, waite, fence, tkt, recalled, chunk⟩ := waitAndTicketInstructions
    refine ⟨fun p used small aligned found here enough => ?_, fun small met => (waite s sg c f hx small).1 met,
      fun legal none => ((fence s sg c f hx).1 legal).1 none, fun legal => ?_, fun m t n x good ticket live free trail running room => ?_,
      fun b hb firmware good slot desc form room => ?_, fun n o legal busy join => ((chunk s sg c f hx).2 legal).1 n o busy join⟩
    · exact (waits s sg c f [p] used hx small aligned found (by simpa using here)).1 enough
    · exact yields_runCore (exec_rdt sg c f s) hx (by simpa using legal) (Nat.zero_le _) rfl
    · have taken := ((tkt s sg c f hx).2 good).2 m t n x ticket live free trail room
      simpa only [running, Bool.false_eq_true, if_false] using taken
    · exact ((recalled s sg c f b hx good hb).2 (.inl firmware) desc (by rw [slot]; rfl) form room).2 slot
  case group =>
    intro s sg grp serial x h ht found head active
    obtain ⟨starts, -, -, repeats, sums, closes, -⟩ := chunksMove
    refine ⟨fun join launch small single ungated => ?_, fun k rs chk children red large first awake budget => ?_,
      fun k t chk ends due => ?_, fun k chk go => ?_, fun hs large go idle done parts root => ?_, fun q sent unanswered due within => ?_,
      fun q t sent refused due => ?_⟩
    · exact (starts s sg grp (Fin.ofNat 64 singleTree) x h ht found head active join launch).2 small rfl single fun gated =>
        absurd gated (by simp [ungated])
    · exact (sums s sg grp serial x h k ht found head).1 rs chk children active red (fun small => absurd large (by simp [small])) first awake
        budget
    · exact ((sums s sg grp serial x h k ht found head).2.1 t chk ends due).1
    · exact (sums s sg grp serial x h k ht found head).2.2 (some 0) chk active fun _ => go
    · simpa [root] using closes s sg grp x h hs ht found head large go idle active done parts
    · simpa [sent, Nat.mod_eq_of_lt within, unanswered, due] using (repeats s sg grp (Fin.ofNat 64 q.tree) x ht found).2
    · simpa [sent, refused, due] using (repeats s sg grp 0 x ht found).1
  case flits =>
    intro s sg f g ht
    obtain ⟨-, lands, answers, -, -, -, aborts⟩ := chunksMove
    obtain ⟨up, down, camp, vote⟩ := lands s sg f g ht
    refine ⟨up, fun e queued kind hg undecided => ?_, camp, vote, fun x d ser t c found answer => ⟨fun taken this => ?_, fun q taken first crc naks => ?_⟩,
      fun x taken found coming current free => ?_⟩
    · refine (down 0 e ?_ ?_).1 undecided
      · simp [queued, kind]
      · simp [Segment.takeAt, queued, hg]
    · exact ((answers s sg f g x d ser t c ht found answer).1 taken).1 this
    · exact ((answers s sg f g x d ser t c ht found answer).2 q taken first).2.1 crc naks
    · exact (aborts s sg f g x _ _ ht taken found rfl rfl (fun going => absurd coming (by simp [going])) current).1 free
  case contexts =>
    intro s r sg ag ctx v ht clk admin_ hr user
    obtain ⟨base, loads, -, -, -, recalls, -, -, migrations, -⟩ := contextsAndRanges
    obtain ⟨-, -, -, off, window, regions, -⟩ := replicasAndFabricHoming
    have answered : r.seg sg = ((s.reached sg ag [domRange]).seg sg).answer csOk 0 := hr ▸ seg_reached_answered ht ag _
    obtain ⟨load, evict, teardown⟩ := loads s _ sg ag ctx ht clk rfl
    refine ⟨fun empty => ?_, fun absent reason => ?_, fun resident => ⟨?_, ?_⟩, fun present form => ?_, fun m found => ?_, ?_,
      fun takes t declared => ?_, fun takes => ?_, fun w hw low high size none => ?_⟩
    · rw [answered] at empty
      refine ⟨_, base s sg ag .w64 v ht empty clk, ?_⟩
      dsimp only
      rw [seg_mod_same _ _ _ (by simpa [State.reached] using ht.1), reg_ctxResult _ _ _ (by decide)]
      exact (reg_critWrite _ (by decide) (by decide) (by decide) (by decide)).trans (reg_setReg_same _ _ _)
    · rw [answered] at absent
      have takes := ctxCmd_none (g := (s.reached sg ag [domRange]).seg sg) (tick := s.tick) (cmd := 1) admin_ user
        (bad := (((s.reached sg ag [domRange]).seg sg).resident? ctx).isSome) (by simpa using absent)
      simpa [hr, mod_reached ht] using load (some 0) takes reason
    · rw [answered] at resident
      have takes := ctxCmd_none (g := (s.reached sg ag [domRange]).seg sg) (tick := s.tick) (cmd := 2) admin_ user
        (bad := !((s.reached sg ag [domRange]).seg sg).isResident ctx) (by simpa using resident)
      simpa [hr, mod_reached ht] using evict takes clk
    · rw [answered] at resident
      have takes := ctxCmd_none (g := (s.reached sg ag [domRange]).seg sg) (tick := s.tick) (cmd := 3) admin_ user
        (bad := !((s.reached sg ag [domRange]).seg sg).isResident ctx) (by simpa using resident)
      simpa [hr] using teardown takes
    · exact (recalls s _ sg ag v _ ht clk admin_ rfl rfl).1 present form
    · rw [answered] at found
      simpa [hr] using migrations s sg ag v m ht clk found
    · simpa [hr, mod_reached ht] using off s sg ag ht admin_ clk
    · exact ((regions s r sg ag v ht clk hr).1 takes).1 t declared
    · exact (regions s r sg ag v ht clk hr).2 takes
    · rw [answered] at hw low none
      simpa [hr, mod_reached ht] using window s _ sg ag .w64 v w ht admin_ rfl hw low high size none clk
  case guards =>
    intro s r sg ag v idx ht clk keeper hr
    obtain ⟨-, -, -, -, guards, -⟩ := contextsAndRanges
    exact guards s r sg ag .w64 v idx ht clk keeper hr
  case memory =>
    intro s sg ht
    obtain ⟨-, -, evicted, misses, -, -, acks, decay, -, lapsed⟩ := contextsAndRanges
    obtain ⟨publish, install, back, -, -, -, period, moves⟩ := replicasAndFabricHoming
    refine ⟨fun t c done kept => (evicted s t sg c ht done).1 kept, fun c x va r wait asks miss found => (misses s sg c x va ht wait asks miss).1 r found,
      fun r next submitted unowned => ?_, decay s sg ht, fun req m found due => lapsed s sg req m ht found due, publish s sg ht,
      fun c copies due => ?_, fun r only withdrawn idle => ?_, fun due still => ?_, fun m key h only home joined => ⟨fun going passed moving few => ?_, fun flipping => ?_⟩⟩
    · simpa [submitted, unowned] using acks s sg r ht next
    · exact (install s sg c ht (by simp [copies, due])).trans (congrArg (fun g => Host.Outcome.next (s.setSeg sg g)) (by simp [copies]))
    · exact (back s sg r ht (by simp [only, withdrawn, idle])).trans (congrArg (fun g => Host.Outcome.next (s.setSeg sg g)) (by simp [only]))
    · refine ⟨_, period s sg ht due, ?_⟩
      have within : sg.val < (s.publishCounts sg).n := (n_publishCounts s sg).symm ▸ ht.1
      have off : (((s.publishCounts sg).mod sg fun g => { g with plc := { g.plc with moveAt := s.tick } }).seg sg).fld F.PLC_CTRL_HOMING_MOVE = 0 := by
        rw [seg_mod_same _ _ _ within, fld_with_plc, fld_publishCounts, still]
      dsimp only
      rw [if_pos (.inr off)]
      exact ⟨(n_mod _ _ _).trans (n_publishCounts s sg), by rw [seg_mod_same _ _ _ within]⟩
    · have passes := (moves s sg m [] key h ht only home joined).1 going passed (fun hold => absurd hold (by simp [moving]))
      simpa [moving, few] using passes
    · exact (moves s sg m [] key h ht only home joined).2 flipping
  case timers =>
    intro s sg p q ht hq
    obtain ⟨active, windows, timers, -, -⟩ := linkTimersAndCommands
    obtain ⟨training, -, -, -, preamble, -⟩ := lanesTrainAndHandOver
    obtain ⟨request, limit, wait, width, trailer⟩ := timers s sg p q ht hq
    refine ⟨fun up => ⟨(active s sg p q ht hq up).1, (active s sg p q ht hq up).2, fun w t req due => width (.inr ⟨up, w, t, req, due⟩)⟩,
      fun over_ unlimited => ?_, request, fun down due => (limit due).1 down, wait, trailer,
      fun trains => ⟨?_, fun taps due => ?_⟩, fun t down waits => preamble s sg p ht⟩
    · have judged := (windows s sg p q _ _ _ _ ht hq over_ rfl rfl rfl).2 (.inl unlimited)
      refine ⟨_, judged, by simp, fun within => ?_⟩
      rw [seg_setSeg_same _ _ _ ht.1, port_modPort_same _ within]
      exact ⟨rfl, rfl⟩
    · subst hq
      exact (training s sg p · ht trains |>.1)
    · subst hq
      exact ((training s sg p default ht trains).2.2 (by rw [taps]; exact due)).1 taps
  case commands =>
    intro s sg p ag w slot ctx v ht clk keeper
    obtain ⟨-, -, -, admins, seals⟩ := linkTimersAndCommands
    obtain ⟨-, -, -, rates, -⟩ := lanesTrainAndHandOver
    obtain ⟨enable, disable, retry, retrain, release, width⟩ := admins s sg p ag w ht (admin_of_isKeeper keeper)
    obtain ⟨arm, disarm⟩ := seals s sg p ag slot ctx ht keeper
    exact ⟨enable, disable, retry, retrain, release, width, arm, disarm,
      fun disabled => rates s sg p ag .w64 v ht (admin_of_isKeeper keeper) (.inl disabled)⟩
  case lanes =>
    intro s sg p q ht hq up
    obtain ⟨-, lanes, limits, -⟩ := lanesTrainAndHandOver
    obtain ⟨lock, -, shadow, swapped, done, failed, start, swap, count, sync⟩ := lanes s sg p q ht hq up
    refine ⟨lock, shadow, swapped, fun calibrating => ⟨done calibrating, fun lane => failed (.inl lane), fun due => ?_⟩, start, swap,
      fun step cal due => ?_, fun lane mapped spare width => ?_⟩
    · subst hq
      exact (limits s sg p _ ht rfl).2 calibrating due
    · simpa using count 0 step cal due
    · simpa [spare, width] using sync lane mapped

end Sys2Proof.Machine

end

section
/-! The canonical form of the memories (O59): the operations on segments and packages. A function that writes no memory leaves
its truth value as it is, which simp shows from the lemmas of what the function calls. -/

namespace Sys2Proof.Machine

open Sys2Proof

/-! ## Memories of a segment -/

/-- An update of the other fields of a segment leaves its memories. -/
@[simp] theorem Segment.memOk_with (g : Segment) (straps hbmSize spSize regs acc captures bridge txn trl xlt plc groups stile leftRings red hmp flt
    kpr rte pwr ports boot mbx tel jtag levels mbxWas hwSet swSet) :
    Segment.memOk ⟨straps, hbmSize, spSize, g.hbm, g.sp, regs, acc, captures, bridge, txn, g.cores, trl, xlt, plc, groups, stile, leftRings,
      red, hmp, flt, kpr, rte, pwr, ports, boot, mbx, tel, jtag, levels, mbxWas, hwSet, swSet⟩ = g.memOk := by
  unfold Segment.memOk
  rfl

@[simp] theorem Segment.memOk_ite (c : Prop) [Decidable c] (g h : Segment) : (if c then g else h).memOk = if c then g.memOk else h.memOk :=
  apply_ite ..

theorem Segment.memOk_iff (g : Segment) : g.memOk = true ↔ memWf g.hbm = true ∧ memWf g.sp = true ∧ ∀ k ∈ g.cores, memWf k.lb = true := by
  simp [Segment.memOk, and_assoc]

/-- Segments whose memories are the same are both in the canonical form, or neither is. -/
theorem Segment.memOk_of_same {g h : Segment} (hbm : h.hbm = g.hbm) (sp : h.sp = g.sp) (lbs : h.cores.map Core.lb = g.cores.map Core.lb) :
    h.memOk = g.memOk := by
  have all : ∀ l : List Core, (l.all fun k => memWf k.lb) = (l.map Core.lb).all memWf := fun l => by simp [List.all_map, Function.comp_def]
  simp only [Segment.memOk, all, hbm, sp, lbs]

theorem map_modAt {α β : Type} (p : α → β) (l : List α) (i : Nat) {f : α → α} (kept : ∀ x, p (f x) = p x) : (modAt l i f).map p = l.map p := by
  induction l generalizing i with
  | nil => rfl
  | cons x l ih => cases i <;> simp [modAt, kept, ih]

theorem map_modAt_const {α β : Type} (p : α → β) (l : List α) (i : Nat) {x d : α} (same : p x = p (l.getD i d)) :
    (modAt l i fun _ => x).map p = l.map p := by
  induction l generalizing i with
  | nil => rfl
  | cons y l ih =>
    cases i with
    | zero => simpa [modAt] using same
    | succ i => simp [modAt, ih i same]

/-- A change of the cores' other fields leaves the memories. -/
theorem Segment.memOk_cores {g : Segment} {l : List Core} (h : l.map Core.lb = g.cores.map Core.lb) :
    ({ g with cores := l } : Segment).memOk = g.memOk :=
  memOk_of_same rfl rfl h

@[simp] theorem Segment.memOk_modCore (g : Segment) (c : Nat) (f : Core → Core) (kept : ∀ k, (f k).lb = k.lb) : (g.modCore c f).memOk = g.memOk :=
  memOk_cores (map_modAt Core.lb g.cores c kept)

@[simp] theorem Segment.memOk_foldl {α : Type} (f : Segment → α → Segment) (l : List α) (g : Segment) (kept : ∀ g a, (f g a).memOk = g.memOk) :
    (l.foldl f g).memOk = g.memOk := by
  induction l generalizing g with
  | nil => rfl
  | cons a l ih => rw [List.foldl_cons, ih, kept]

@[simp] theorem Segment.memOk_default : Segment.memOk {} = true := by decide

/-! ## Memories of the package -/

@[simp] theorem State.memOk_with (s : State) (time cold ctr pending) : State.memOk ⟨s.segs, time, cold, ctr, pending⟩ = s.memOk := by
  unfold State.memOk
  rfl

@[simp] theorem State.memOk_ite (c : Prop) [Decidable c] (s t : State) : (if c then s else t).memOk = if c then s.memOk else t.memOk :=
  apply_ite ..

theorem State.memOk_iff (s : State) : s.memOk = true ↔ ∀ g ∈ s.segs, g.memOk = true := by simp [State.memOk]

theorem all_set {α : Type} (p : α → Bool) (l : List α) (i : Nat) (x d : α) (same : p x = p (l.getD i d)) : (l.set i x).all p = l.all p := by
  induction l generalizing i with
  | nil => rfl
  | cons y l ih =>
    cases i with
    | zero => simpa using congrArg (· && l.all p) same
    | succ i => simp [ih i same]

@[simp] theorem State.memOk_setSeg (s : State) (i : Nat) (g : Segment) (same : g.memOk = (s.seg i).memOk) : (s.setSeg i g).memOk = s.memOk :=
  all_set Segment.memOk s.segs i g {} same

@[simp] theorem State.memOk_mod (s : State) (i : Nat) (f : Segment → Segment) (kept : ∀ g, (f g).memOk = g.memOk) :
    (s.mod i f).memOk = s.memOk :=
  memOk_setSeg s i _ (kept _)

@[simp] theorem State.memOk_modAll (s : State) (f : Segment → Segment) (kept : ∀ g, (f g).memOk = g.memOk) :
    (s.modAll f).memOk = s.memOk := by
  simp [State.memOk, State.modAll, List.all_map, Function.comp_def, kept]

@[simp] theorem State.memOk_foldl {α : Type} (f : State → α → State) (l : List α) (s : State) (kept : ∀ s a, (f s a).memOk = s.memOk) :
    (l.foldl f s).memOk = s.memOk := by
  induction l generalizing s with
  | nil => rfl
  | cons a l ih => rw [List.foldl_cons, ih, kept]

/-- A property that a walk's start has and that each step keeps holds at its end. -/
theorem foldl_keeps {α β : Type} {p : β → Prop} {f : β → α → β} (kept : ∀ s a, p s → p (f s a)) (l : List α) {s : β} (h : p s) : p (l.foldl f s) :=
  List.foldlRecOn l f h fun s hs a _ => kept s a hs

/-! ## Single registers and cores -/

@[simp] theorem Segment.memOk_setReg (g : Segment) (o : Nat) (w : Word) : (g.setReg o w).memOk = g.memOk := by
  simp [Segment.setReg]

@[simp] theorem State.memOk_modCore (s : State) (sg c : Nat) (f : Core → Core) (kept : ∀ k, (f k).lb = k.lb) :
    (s.modCore sg c f).memOk = s.memOk :=
  memOk_mod s sg _ fun g => Segment.memOk_modCore g c f kept

end Sys2Proof.Machine

end

section
/-! The functions and the commands that leave every memory as it is, in the order of the model's files. A command keeps
them in the sense of SameMem. -/

namespace Sys2Proof.Machine

open Sys2Proof

/-! ## Machine/Ops -/

/-- A command leaves the memories of the package as they are, if it leaves a state. -/
def SameMem (s : State) (o : Out) : Prop := ∀ t, o = .next t → t.memOk = s.memOk

@[simp] theorem same_onSeg (sg : Fin 8) (s : State) (f : State → State) (kept : (f s).memOk = s.memOk) : SameMem s (onSeg sg s f) := by
  intro t next
  unfold onSeg at next
  split at next
  · cases next
    split
    · rfl
    · exact kept
  · cases next

@[simp] theorem State.memOk_dropCaptures (s : State) (ag : Agent) : (s.dropCaptures ag).memOk = s.memOk := by
  simp [State.dropCaptures]

@[simp] theorem same_onCtl (sg : Fin 8) (ag : Agent) (s : State) (f : State → State) (kept : ∀ s, (f s).memOk = s.memOk) :
    SameMem s (onCtl sg ag s f) :=
  same_onSeg sg s _ ((kept _).trans (by simp))

@[simp] theorem State.memOk_fresh (s : State) : s.fresh.memOk = s.memOk := by
  simp [State.fresh]

@[simp] theorem Segment.memOk_hwMark (g : Segment) (off : Nat) (w : Word) : (g.hwMark off w).memOk = g.memOk := by
  simp [Segment.hwMark]

@[simp] theorem Segment.memOk_swMark (g : Segment) (off : Nat) (old v : Word) (rank : Nat) (mask : Word) :
    (g.swMark off old v rank mask).memOk = g.memOk := by
  simp [Segment.swMark]

@[simp] theorem Segment.memOk_setFld (g : Segment) (f : Fld) (n : Nat) : (g.setFld f n).memOk = g.memOk := by
  unfold Segment.setFld
  rfl

@[simp] theorem Segment.memOk_bumpBy (g : Segment) (f : Fld) (k : Nat) : (g.bumpBy f k).memOk = g.memOk := by
  simp [Segment.bumpBy]

@[simp] theorem Segment.memOk_bump (g : Segment) (f : Fld) : (g.bump f).memOk = g.memOk := by
  simp [Segment.bump]

@[simp] theorem Segment.memOk_count (g : Segment) (f : Totals → Totals) : (g.count f).memOk = g.memOk := by
  simp [Segment.count]

@[simp] theorem Segment.memOk_irq (g : Segment) (n : Nat) : (g.irq n).memOk = g.memOk := by
  simp [Segment.irq]

@[simp] theorem Segment.memOk_faultIrq (g : Segment) (sev : Nat) : (g.faultIrq sev).memOk = g.memOk := by
  simp [Segment.faultIrq]

@[simp] theorem Segment.memOk_faultCount (g : Segment) (cls tick : Nat) : (g.faultCount cls tick).memOk = g.memOk := by
  simp [Segment.faultCount]

@[simp] theorem Segment.memOk_faultFull (g : Segment) (cls sev tick : Nat) : (g.faultFull cls sev tick).memOk = g.memOk := by
  simp [Segment.faultFull]

@[simp] theorem Segment.memOk_raise (g : Segment) (tick : Nat) (a : FaultArgs) : (g.raise tick a).memOk = g.memOk := by
  simp [Segment.raise]

@[simp] theorem Segment.memOk_dropListed (g : Segment) : g.dropListed.memOk = g.memOk := by
  simp [Segment.dropListed]

@[simp] theorem Segment.memOk_drainOne (g : Segment) (cycle : Nat) : (g.drainOne cycle).1.memOk = g.memOk := by
  simp only [Segment.drainOne]
  repeat' split
  all_goals simp

@[simp] theorem Segment.memOk_drain (g : Segment) (cycle k : Nat) : (g.drain cycle k).1.memOk = g.memOk := by
  induction k generalizing g with
  | zero => rfl
  | succ k ih => simp [Segment.drain, ih]

@[simp] theorem Segment.memOk_dpmLate (g : Segment) (tick : Nat) (st : DpmStatus) : (g.dpmLate tick st).memOk = g.memOk := by
  simp [Segment.dpmLate]

@[simp] theorem Segment.memOk_accessFault (g : Segment) (tick unit off : Nat) (v : Word) :
    (g.accessFault tick unit off v).memOk = g.memOk := by
  simp [Segment.accessFault]

@[simp] theorem Segment.memOk_answer (g : Segment) (status : BitVec 4) (data : Word) : (g.answer status data).memOk = g.memOk := by
  simp [Segment.answer]

/-! ## Machine/Power -/

@[simp] theorem Segment.memOk_setBitOf (g : Segment) (f : Fld) (d : Nat) (v : Bool) : (g.setBitOf f d v).memOk = g.memOk := by
  simp [Segment.setBitOf]

@[simp] theorem Segment.memOk_governedWait (g : Segment) : g.governedWait.memOk = g.memOk := by
  simp [Segment.governedWait]

@[simp] theorem Segment.memOk_raiseReq (g : Segment) (tick d : Nat) : (g.raiseReq tick d).memOk = g.memOk := by
  simp [Segment.raiseReq]

@[simp] theorem Segment.memOk_wakeLater (g : Segment) (d : Nat) : (g.wakeLater d).memOk = g.memOk := by
  simp [Segment.wakeLater]

@[simp] theorem Segment.memOk_unsleep (g : Segment) (d : Nat) : (g.unsleep d).memOk = g.memOk := by
  simp [Segment.unsleep]

@[simp] theorem Segment.memOk_wakeOne (g : Segment) (tick d : Nat) : (g.wakeOne tick d).memOk = g.memOk := by
  have woken : ∀ (g : Segment) (c : Nat),
      ({ g with cores := modAt g.cores c fun k => if k.st == .asleep then { k with st := .running } else k } : Segment).memOk = g.memOk :=
    fun g c => memOk_cores (map_modAt Core.lb g.cores c fun k => by split <;> rfl)
  simp only [Segment.wakeOne, woken, memOk_ite, memOk_unsleep, memOk_wakeLater, memOk_governedWait, memOk_raiseReq, memOk_with, ite_self]

@[simp] theorem Segment.memOk_wakeDom (g : Segment) (tick d : Nat) : (g.wakeDom tick d).memOk = g.memOk := by
  simp [Segment.wakeDom]

@[simp] theorem State.memOk_wakeFor (s : State) (sg : Nat) (ds : List Nat) : (s.wakeFor sg ds).memOk = s.memOk := by
  simp [State.wakeFor]

@[simp] theorem same_onDoms (sg : Fin 8) (ag : Agent) (ds : List Nat) (s : State) (f : State → State) (kept : ∀ s, (f s).memOk = s.memOk) :
    SameMem s (onDoms sg ag ds s f) :=
  same_onCtl sg ag s _ fun s => by simp [kept]

@[simp] theorem Segment.memOk_wakePending (g : Segment) (tick : Nat) : (g.wakePending tick).memOk = g.memOk := by
  simp [Segment.wakePending]

@[simp] theorem Segment.memOk_cycleDom (g : Segment) (tick d : Nat) : (g.cycleDom tick d).memOk = g.memOk := by
  simp [Segment.cycleDom]

@[simp] theorem Segment.memOk_charge (g : Segment) (pj : Nat) : (g.charge pj).memOk = g.memOk := by
  simp [Segment.charge]

@[simp] theorem Segment.memOk_chargeHmp (g : Segment) (pj : Nat) : (g.chargeHmp pj).memOk = g.memOk := by
  simp [Segment.chargeHmp]

@[simp] theorem Segment.memOk_chargeHeld (g : Segment) (pj : Nat) : (g.chargeHeld pj).memOk = g.memOk := by
  simp [Segment.chargeHeld]

/-! ## Machine/Critical -/

@[simp] theorem Segment.memOk_modHmp (g : Segment) (f : Hmp → Hmp) : (g.modHmp f).memOk = g.memOk := by
  simp [Segment.modHmp]

@[simp] theorem Segment.memOk_modKey (g : Segment) (n : Nat) (f : KeySlot → KeySlot) : (g.modKey n f).memOk = g.memOk := by
  simp [Segment.modKey]

@[simp] theorem Segment.memOk_critWrite (g : Segment) (w : Nat) : (g.critWrite w).memOk = g.memOk := by
  simp [Segment.critWrite]

/-! ## Machine/Mailbox -/

@[simp] theorem Segment.memOk_modChan (g : Segment) (ch : Nat) (f : Mbx → Mbx) : (g.modChan ch f).memOk = g.memOk := by
  simp [Segment.modChan]

@[simp] theorem Segment.memOk_mbxIrq (g : Segment) (ch : Nat) : (g.mbxIrq ch).memOk = g.memOk := by
  simp [Segment.mbxIrq]

@[simp] theorem Segment.memOk_post (g : Segment) (tick ch : Nat) (ag : Agent) (ptr : Word) (notice : BitVec 16) :
    (g.post tick ch ag ptr notice).memOk = g.memOk := by
  simp only [Segment.post]
  split <;> simp

@[simp] theorem Segment.memOk_sendFirst (g : Segment) (ch : Nat) (ag : Agent) : (g.sendFirst ch ag).memOk = g.memOk := by
  simp only [Segment.sendFirst]
  split <;> simp

@[simp] theorem Segment.memOk_send (g : Segment) (tick ch : Nat) (ag : Agent) (notice : BitVec 16) :
    (g.send tick ch ag notice).memOk = g.memOk := by
  simp [Segment.send]

@[simp] theorem Segment.memOk_notify (g : Segment) (tick ch : Nat) (ag : Agent) (ptr : Word) (notice : BitVec 16) :
    (g.notify tick ch ag ptr notice).memOk = g.memOk := by
  simp [Segment.notify]

@[simp] theorem same_execMbxPtrWrite (sg : Fin 8) (ch : Fin 64) (ag : Agent) (v : Word) (s : State) :
    SameMem s (execMbxPtrWrite sg ch ag v s) := by
  simp [execMbxPtrWrite]

@[simp] theorem same_execMbxSend (sg : Fin 8) (ch : Fin 64) (ag : Agent) (notice : BitVec 16) (s : State) :
    SameMem s (execMbxSend sg ch ag notice s) := by
  simp [execMbxSend]

@[simp] theorem Segment.memOk_recv (g : Segment) (ch : Nat) (ag : Agent) : (g.recv ch ag).memOk = g.memOk := by
  simp [Segment.recv]

@[simp] theorem Segment.memOk_acknowledge (g : Segment) (ch : Nat) (ag : Agent) (code : BitVec 16) :
    (g.acknowledge ch ag code).memOk = g.memOk := by
  simp [Segment.acknowledge]

@[simp] theorem same_execMbxAck (sg : Fin 8) (ch : Fin 64) (ag : Agent) (code : BitVec 16) (s : State) :
    SameMem s (execMbxAck sg ch ag code s) := by
  simp [execMbxAck]

@[simp] theorem Segment.memOk_mailTimeout (g : Segment) (tick ch : Nat) : (g.mailTimeout tick ch).memOk = g.memOk := by
  simp [Segment.mailTimeout]

@[simp] theorem same_execMbxCfgWrite (sg : Fin 8) (ch : Fin 64) (ag : Agent) (sz : Sz) (v : Word) (s : State) :
    SameMem s (execMbxCfgWrite sg ch ag sz v s) := by
  simp [execMbxCfgWrite]

/-! ## Machine/Ranges -/

@[simp] theorem Segment.memOk_touch (g : Segment) (used : List RangeEntry) : (g.touch used).memOk = g.memOk := by
  simp [Segment.touch]

@[simp] theorem Segment.memOk_fillRange (g : Segment) (r : RangeEntry) : (g.fillRange r).memOk = g.memOk := by
  simp [Segment.fillRange]

/-! ## Machine/Requester -/

@[simp] theorem Segment.memOk_injectL (g : Segment) (cycle : Nat) (f : Flit) (key : Nat) : (g.injectL cycle f key).memOk = g.memOk := by
  simp [Segment.injectL]

@[simp] theorem Segment.memOk_forwardL (g : Segment) (cycle : Nat) (f : Flit) : (g.forwardL cycle f).memOk = g.memOk := by
  simp [Segment.forwardL]

@[simp] theorem Segment.memOk_injectBurstL (g : Segment) (cycle : Nat) (fs : List Flit) : (g.injectBurstL cycle fs).memOk = g.memOk := by
  simp [Segment.injectBurstL]

@[simp] theorem Segment.memOk_injectX (g : Segment) (cycle : Nat) (fs : List Flit) : (g.injectX cycle fs).memOk = g.memOk := by
  simp [Segment.injectX]

@[simp] theorem Segment.memOk_dropFlit (g : Segment) (cycle : Nat) (f : Flit) (status : BitVec 4) (doubt : Bool) :
    (g.dropFlit cycle f status doubt).memOk = g.memOk := by
  simp only [Segment.dropFlit]
  split <;> simp

@[simp] theorem Segment.memOk_dpmIssue (g : Segment) (cycle space addr : Nat) (write : Option (List Bool × List Byte)) (use : DpmUse) :
    (g.dpmIssue cycle space addr write use).memOk = g.memOk := by
  simp [Segment.dpmIssue]

@[simp] theorem Segment.memOk_dpmNext (g : Segment) (cycle : Nat) : (g.dpmNext cycle).memOk = g.memOk := by
  simp only [Segment.dpmNext]
  repeat' split
  all_goals simp

@[simp] theorem Segment.memOk_touchGuardAt (g : Segment) (sp off : Nat) : (g.touchGuardAt sp off).memOk = g.memOk := by
  simp only [Segment.touchGuardAt]
  split <;> simp

@[simp] theorem Segment.memOk_ctxDeny (g : Segment) (tick : Nat) (ctx : BitVec 12) (node : BitVec 15) (addr info : Nat) :
    (g.ctxDeny tick ctx node addr info).memOk = g.memOk := by
  simp [Segment.ctxDeny]

@[simp] theorem Segment.memOk_modTicket (g : Segment) (n : Nat) (f : Ticket → Ticket) : (g.modTicket n f).memOk = g.memOk := by
  simp [Segment.modTicket]

@[simp] theorem Segment.memOk_modSlot (g : Segment) (o : Owner) (i : Nat) (f : Slot → Slot) : (g.modSlot o i f).memOk = g.memOk := by
  simp only [Segment.modSlot]
  split <;> simp

@[simp] theorem Segment.memOk_modDesc (g : Segment) (d : Nat) (f : Desc → Desc) : (g.modDesc d f).memOk = g.memOk := by
  simp [Segment.modDesc]

@[simp] theorem Segment.memOk_modJob (g : Segment) (j : Nat) (f : Job → Job) : (g.modJob j f).memOk = g.memOk := by
  simp [Segment.modJob]

@[simp] theorem Segment.memOk_dropJob (g : Segment) (j : Nat) : (g.dropJob j).memOk = g.memOk := by
  simp [Segment.dropJob]

@[simp] theorem Segment.memOk_untallied (g : Segment) (tick c : Nat) (o : Owner) (ctx : BitVec 12) (k : Nat) (st : BitVec 4) :
    (g.untallied tick c o ctx k st).memOk = g.memOk := by
  simp [Segment.untallied]

@[simp] theorem Segment.memOk_descLine (g : Segment) (cycle : Nat) (d : Desc) (k : Nat) (st : BitVec 4) :
    (g.descLine cycle d k st).memOk = g.memOk := by
  simp only [Segment.descLine]
  split <;> simp

@[simp] theorem Segment.memOk_descCheck (g : Segment) (d : Nat) : (g.descCheck d).memOk = g.memOk := by
  simp only [Segment.descCheck]
  repeat' split
  all_goals simp

@[simp] theorem Core.lb_resetState (k : Core) : k.resetState.lb = k.lb := by
  simp [Core.resetState]

@[simp] theorem Segment.memOk_keeperDown (g : Segment) (tick : Nat) : (g.keeperDown tick).memOk = g.memOk := by
  simp [Segment.keeperDown]

@[simp] theorem Segment.memOk_fwExc (g : Segment) (tick c : Nat) (op : BitVec 8) (code : BitVec 4) (info : Word) :
    (g.fwExc tick c op code info).memOk = g.memOk := by
  have marked : ∀ (o : Nat) (w : Word) (k : Core), k.lb = (g.core c).lb → ((g.hwMark o w).modCore c fun _ => k).memOk = g.memOk :=
    fun o w k lb => (memOk_cores (map_modAt_const Core.lb g.cores c (d := {}) lb)).trans (memOk_hwMark g o w)
  simp only [Segment.fwExc]
  split
  · split <;> simp [marked]
  · simp [marked]

@[simp] theorem Core.lb_goOn (k : Core) (pd : Option (BitVec 5 × Bool)) : (k.goOn pd).lb = k.lb := by
  simp [Core.goOn]

@[simp] theorem Segment.memOk_wakeCore (g : Segment) (c : Nat) : (g.wakeCore c).memOk = g.memOk := by
  simp only [Segment.wakeCore]
  repeat' split
  all_goals simp

@[simp] theorem Segment.memOk_wake (g : Segment) : g.wake.memOk = g.memOk := by
  simp [Segment.wake]

@[simp] theorem Segment.memOk_addReq (g : Segment) (cycle kind : Nat) (ctx : BitVec 12) (ag : ReqAgent) (line len : Nat)
    (payload : List Byte) (mask : List Bool) (uses : List LineUse) :
    (g.addReq cycle kind ctx ag line len payload mask uses).memOk = g.memOk := by
  simp [Segment.addReq]

@[simp] theorem Segment.memOk_addWrite (g : Segment) (cycle : Nat) (ctx : BitVec 12) (ag : ReqAgent) (line : Nat) (mask : List Bool)
    (data : List Byte) (use : LineUse) : (g.addWrite cycle ctx ag line mask data use).1.memOk = g.memOk := by
  simp only [Segment.addWrite]
  repeat' split
  all_goals simp

@[simp] theorem Segment.memOk_newJob (g : Segment) (d : Nat) (kind : JobKind) (waits : List Nat) :
    (g.newJob d kind waits).1.memOk = g.memOk := by
  simp [Segment.newJob]

@[simp] theorem Segment.memOk_tileSignals (g : Segment) (cycle d : Nat) (fuel : Nat) : (g.tileSignals cycle d fuel).memOk = g.memOk := by
  induction fuel generalizing g with
  | zero => rfl
  | succ fuel ih =>
    simp only [Segment.tileSignals]
    repeat' split
    all_goals simp [ih]

@[simp] theorem Segment.memOk_badTile (g : Segment) (d k : Nat) : (g.badTile d k).memOk = g.memOk := by
  simp [Segment.badTile]

@[simp] theorem Segment.memOk_jobEnd (g : Segment) (cycle : Nat) (j : Job) (st : BitVec 4) : (g.jobEnd cycle j st).memOk = g.memOk := by
  simp only [Segment.jobEnd]
  repeat' split
  all_goals simp

@[simp] theorem Segment.memOk_tileWrite (g : Segment) (cycle : Nat) (d : Desc) (j : Job) (s : Shape) (src dst : List Piece) (k : Nat) :
    (g.tileWrite cycle d j s src dst k).memOk = g.memOk := by
  simp [Segment.tileWrite]

@[simp] theorem Segment.memOk_fenceFail (g : Segment) (ctx : BitVec 12) (st : BitVec 4) : (g.fenceFail ctx st).memOk = g.memOk := by
  simp [Segment.fenceFail]

@[simp] theorem Segment.memOk_dptRespond (g : Segment) (ch : Bool) (id : BitVec 12) (status : BitVec 4) (data : List Byte) :
    (g.dptRespond ch id status data).memOk = g.memOk := by
  simp [Segment.dptRespond]

@[simp] theorem Segment.memOk_dptTake (g : Segment) (ch : Bool) : (g.dptTake ch).memOk = g.memOk := by
  simp only [Segment.dptTake]
  repeat' split
  all_goals simp

@[simp] theorem Segment.memOk_fenceCheck (g : Segment) : g.fenceCheck.memOk = g.memOk := by
  simp [Segment.fenceCheck]

@[simp] theorem Segment.memOk_postPart (g : Segment) (st : BitVec 4) (id : Nat) : (g.postPart st id).memOk = g.memOk := by
  simp only [Segment.postPart]
  split <;> simp

@[simp] theorem Segment.memOk_ctlDone (g : Segment) (tick c : Nat) (st : BitVec 4) (data : Word) :
    (g.ctlDone tick c st data).memOk = g.memOk := by
  simp only [Segment.ctlDone]
  repeat' split
  all_goals simp

@[simp] theorem Segment.memOk_descEnd (g : Segment) (d : Nat) : (g.descEnd d).memOk = g.memOk := by
  simp [Segment.descEnd]

@[simp] theorem Segment.memOk_withdrawReq (g : Segment) (r : Req) (state : Option TagState) : (g.withdrawReq r state).memOk = g.memOk := by
  simp only [Segment.withdrawReq]
  split <;> simp

/-! ## Machine/Router -/

@[simp] theorem Segment.memOk_modPort (g : Segment) (p : Nat) (f : Port → Port) : (g.modPort p f).memOk = g.memOk := by
  simp [Segment.modPort]

@[simp] theorem Segment.memOk_modBend (g : Segment) (b : Nat) (f : BridgeEnd → BridgeEnd) : (g.modBend b f).memOk = g.memOk := by
  simp [Segment.modBend]

@[simp] theorem Segment.memOk_newCycle (g : Segment) (cycle : Nat) : (g.newCycle cycle).memOk = g.memOk := by
  simp [Segment.newCycle]

@[simp] theorem Segment.memOk_setTableState (g : Segment) (e v : Nat) : (g.setTableState e v).memOk = g.memOk := by
  simp [Segment.setTableState]

@[simp] theorem Segment.memOk_lookup (g : Segment) (tick : Nat) (f : Flit) : (g.lookup tick f).1.memOk = g.memOk := by
  simp only [Segment.lookup]
  repeat' split
  all_goals simp

@[simp] theorem State.memOk_leave (s : State) (sg : Nat) (bf : BFlit) (o : Nat) : (s.leave sg bf o).memOk = s.memOk := by
  simp [State.leave]

@[simp] theorem Segment.memOk_bridgeLookup (g : Segment) (cycle b : Nat) : (g.bridgeLookup cycle b).memOk = g.memOk := by
  simp only [Segment.bridgeLookup]
  split
  · rw [memOk_modBend]
    refine foldl_keeps (p := fun x : Segment × List BFlit => x.1.memOk = g.memOk) (fun acc x kept => ?_) _ rfl
    split <;> simp [kept]
  · rfl

@[simp] theorem Segment.memOk_ejectReply (g : Segment) (f : Flit) : (g.ejectReply f).memOk = g.memOk := by
  simp [Segment.ejectReply]

@[simp] theorem Segment.memOk_ejectX (g : Segment) (f : Flit) : (g.ejectX f).memOk = g.memOk := by
  simp [Segment.ejectX]

@[simp] theorem Segment.memOk_enqueue (g : Segment) (cycle : Nat) (f : Flit) : (g.enqueue cycle f).memOk = g.memOk := by
  simp [Segment.enqueue]

@[simp] theorem State.memOk_sampleLand (s : State) (sg : Nat) (f : Flit) (first : Bool) : (s.sampleLand sg f first).memOk = s.memOk := by
  simp only [State.sampleLand]
  repeat' split
  all_goals simp

@[simp] theorem Segment.memOk_countAssigned (g : Segment) (wasDeflected : Bool) : (g.countAssigned wasDeflected).memOk = g.memOk := by
  simp [Segment.countAssigned]

@[simp] theorem Segment.memOk_routerDrop (g : Segment) (cycle : Nat) (f : Flit) (cls info : Nat) (status : BitVec 4) (c : Fld) :
    (g.routerDrop cycle f cls info status c).memOk = g.memOk := by
  simp [Segment.routerDrop]

@[simp] theorem Segment.memOk_limitDrop (g : Segment) (cycle : Nat) (f : Flit) : (g.limitDrop cycle f).memOk = g.memOk := by
  simp [Segment.limitDrop]

@[simp] theorem Segment.memOk_askWake (g : Segment) (o : Nat) : (g.askWake o).memOk = g.memOk := by
  simp [Segment.askWake]

@[simp] theorem State.memOk_routeLanded (s : State) (sg : Nat) (bf : BFlit) : (s.routeLanded sg bf).memOk = s.memOk := by
  simp only [State.routeLanded]
  repeat' split
  all_goals simp

@[simp] theorem State.memOk_landReply (s : State) (sg : Nat) (bf : BFlit) : (s.landReply sg bf).memOk = s.memOk := by
  simp [State.landReply]

@[simp] theorem State.memOk_serve (s : State) (sg : Nat) (bf : BFlit) (first : Bool) : (s.serve sg bf first).memOk = s.memOk := by
  simp [State.serve]

@[simp] theorem Segment.memOk_takeLanding (g : Segment) (x : Presented) : (g.takeLanding x).memOk = g.memOk := by
  simp [Segment.takeLanding]

@[simp] theorem State.memOk_landFrom (s : State) (sg port : Nat) : (s.landFrom sg port).memOk = s.memOk := by
  simp only [State.landFrom]
  split <;> simp

@[simp] theorem same_execFlitLand (sg port : Fin 8) (s : State) : SameMem s (execFlitLand sg port s) := by
  simp [execFlitLand]

@[simp] theorem Segment.memOk_rollBudget (g : Segment) (cycle : Nat) : (g.rollBudget cycle).memOk = g.memOk := by
  simp [Segment.rollBudget]

@[simp] theorem Segment.memOk_injDrop (g : Segment) (isX : Bool) (idx : Nat) (bf : BFlit) (eg : Option (Nat × Nat)) :
    (g.injDrop isX idx bf eg).memOk = g.memOk := by
  simp [Segment.injDrop]

@[simp] theorem Segment.memOk_injCount (g : Segment) (isX : Bool) : (g.injCount isX).memOk = g.memOk := by
  simp [Segment.injCount]

@[simp] theorem Segment.memOk_firstSent (g : Segment) (tick : Nat) (f : Flit) : (g.firstSent tick f).memOk = g.memOk := by
  simp [Segment.firstSent]

@[simp] theorem State.memOk_injectTaken (s : State) (sg : Nat) (isX : Bool) (idx : Nat) (bf : BFlit) (dest : InjTo) :
    (s.injectTaken sg isX idx bf dest).memOk = s.memOk := by
  simp only [State.injectTaken]
  split <;> simp

@[simp] theorem same_execFlitInject (sg : Fin 8) (isX : Bool) (idx : Nat) (s : State) : SameMem s (execFlitInject sg isX idx s) := by
  unfold execFlitInject
  refine same_onSeg _ _ _ ?_
  dsimp only
  repeat' split
  all_goals simp

@[simp] theorem same_execAgeClockAlign (sg : Fin 8) (s : State) : SameMem s (execAgeClockAlign sg s) := by
  simp [execAgeClockAlign]

@[simp] theorem same_execThrottleUpdate (sg : Fin 8) (s : State) : SameMem s (execThrottleUpdate sg s) := by
  simp [execThrottleUpdate]

@[simp] theorem Segment.memOk_denied (g : Segment) (tick off : Nat) (v : Word) : (g.denied tick off v).memOk = g.memOk := by
  simp [Segment.denied]

@[simp] theorem same_execSignpostWrite (sg : Fin 8) (ag : Agent) (table : Fin 2) (idx : BitVec 11) (sz : Sz) (v : Word) (s : State) :
    SameMem s (execSignpostWrite sg ag table idx sz v s) := by
  simp [execSignpostWrite]

@[simp] theorem Segment.memOk_flipTable (g : Segment) (cycle : Nat) : (g.flipTable cycle).memOk = g.memOk := by
  simp [Segment.flipTable]

@[simp] theorem Segment.memOk_flipSealed (g : Segment) (cycle : Nat) : (g.flipSealed cycle).memOk = g.memOk := by
  simp [Segment.flipSealed]

@[simp] theorem Segment.memOk_flipLapsed (g : Segment) : g.flipLapsed.memOk = g.memOk := by
  simp only [Segment.flipLapsed]
  repeat' split
  all_goals simp

@[simp] theorem same_execSignpostSeal (sg : Fin 8) (ag : Agent) (table : Fin 2) (s : State) :
    SameMem s (execSignpostSeal sg ag table s) := by
  simp [execSignpostSeal]

@[simp] theorem same_execSignpostOpen (sg : Fin 8) (ag : Agent) (table : Fin 2) (s : State) :
    SameMem s (execSignpostOpen sg ag table s) := by
  simp [execSignpostOpen]

@[simp] theorem same_execEpochFlip (sg : Fin 8) (ag : Agent) (s : State) : SameMem s (execEpochFlip sg ag s) := by
  simp [execEpochFlip]

@[simp] theorem same_execTableRetired (sg : Fin 8) (s : State) : SameMem s (execTableRetired sg s) := by
  unfold execTableRetired
  refine same_onSeg _ _ _ ?_
  dsimp only
  repeat' split
  all_goals simp

/-! ## Machine/Groups -/

@[simp] theorem Segment.memOk_modGrp (g : Segment) (n : BitVec 12) (f : Grp → Grp) : (g.modGrp n f).memOk = g.memOk := by
  simp [Segment.modGrp]

@[simp] theorem Segment.memOk_modHead (g : Segment) (n : BitVec 12) (f : Head → Head) : (g.modHead n f).memOk = g.memOk := by
  simp [Segment.modHead]

@[simp] theorem Segment.memOk_modChk (g : Segment) (n : BitVec 12) (tree c : Nat) (f : Chk → Chk) :
    (g.modChk n tree c f).memOk = g.memOk := by
  simp [Segment.modChk]

@[simp] theorem Segment.memOk_sendRaw (g : Segment) (cycle : Nat) (x : Grp) (h : Held) : (g.sendRaw cycle x h).memOk = g.memOk := by
  simp [Segment.sendRaw]

@[simp] theorem Segment.memOk_sendReply (g : Segment) (cycle : Nat) (x : Grp) (kind dst : Nat) (serial : BitVec 32) (tree c reason : Nat) :
    (g.sendReply cycle x kind dst serial tree c reason).memOk = g.memOk := by
  simp [Segment.sendReply]

@[simp] theorem Segment.memOk_opSlotDone (g : Segment) (tick : Nat) (op : COp) (status : BitVec 4) (result : Word) (norm : BitVec 32)
    (spoil lines : Nat) : (g.opSlotDone tick op status result norm spoil lines).memOk = g.memOk := by
  simp only [Segment.opSlotDone]
  split <;> simp

@[simp] theorem Segment.memOk_opLocal (g : Segment) (tick : Nat) (op : COp) (status : BitVec 4) :
    (g.opLocal tick op status).memOk = g.memOk := by
  simp [Segment.opLocal]

@[simp] theorem Segment.memOk_queueEnd (g : Segment) (n : BitVec 12) (tick : Nat) (status : BitVec 4) :
    (g.queueEnd n tick status).memOk = g.memOk := by
  simp only [Segment.queueEnd]
  split <;> simp

@[simp] theorem Segment.memOk_closeStart (g : Segment) (n : BitVec 12) (tick : Nat) : (g.closeStart n tick).memOk = g.memOk := by
  simp [Segment.closeStart]

@[simp] theorem Segment.memOk_dropChunks (g : Segment) (n : BitVec 12) (serial : BitVec 32) : (g.dropChunks n serial).memOk = g.memOk := by
  simp [Segment.dropChunks]

@[simp] theorem State.memOk_abortForward (s : State) (sg : Nat) (x : Grp) (serial : BitVec 32) (status : BitVec 4) :
    (s.abortForward sg x serial status).memOk = s.memOk := by
  simp [State.abortForward]

/-! ## Machine/Hamper -/

@[simp] theorem Segment.memOk_setMergeLine (g : Segment) (slot : Nat) (l : HmpLine) : (g.setMergeLine slot l).memOk = g.memOk := by
  simp [Segment.setMergeLine]

theorem Segment.memOk_hmpReserve {g h : Segment} {u : HmpUse} {n : Nat} (reserved : g.hmpReserve u n = some h) : h.memOk = g.memOk := by
  unfold Segment.hmpReserve at reserved
  split at reserved <;> cases reserved
  simp

@[simp] theorem Segment.memOk_getD_hmpReserve (g : Segment) (u : HmpUse) (n : Nat) : ((g.hmpReserve u n).getD g).memOk = g.memOk := by
  cases reserved : g.hmpReserve u n with
  | none => rfl
  | some h => exact memOk_hmpReserve reserved

@[simp] theorem Segment.memOk_hmpRelease (g : Segment) (u : HmpUse) : (g.hmpRelease u).memOk = g.memOk := by
  simp [Segment.hmpRelease]

@[simp] theorem Segment.memOk_hmpWarm (g : Segment) : g.hmpWarm.memOk = g.memOk := by
  simp [Segment.hmpWarm]

@[simp] theorem Segment.memOk_critLose (g : Segment) (tick w : Nat) : (g.critLose tick w).memOk = g.memOk := by
  simp [Segment.critLose]

@[simp] theorem Segment.memOk_critVote (g : Segment) (tick w c : Nat) : (g.critVote tick w c).memOk = g.memOk := by
  simp [Segment.critVote]

@[simp] theorem Segment.memOk_setCritBank (g : Segment) (c b : Nat) : (g.setCritBank c b).memOk = g.memOk := by
  simp [Segment.setCritBank]

@[simp] theorem Segment.memOk_critRebuild (g : Segment) (tick b : Nat) : (g.critRebuild tick b).memOk = g.memOk := by
  unfold Segment.critRebuild
  refine memOk_foldl _ _ _ fun g c => ?_
  dsimp only
  repeat' split
  all_goals simp

@[simp] theorem Segment.memOk_shrinkPool (g : Segment) (need : Nat) : (g.shrinkPool need).memOk = g.memOk := by
  simp [Segment.shrinkPool]

@[simp] theorem Segment.memOk_moveBlocks (g : Segment) (b : Nat) : (g.moveBlocks b).memOk = g.memOk := by
  simp [Segment.moveBlocks]

@[simp] theorem same_execSuspectExpiry (sg : Fin 8) (bank : Fin 12) (row : BitVec 15) (s : State) :
    SameMem s (execSuspectExpiry sg bank row s) := by
  simp [execSuspectExpiry]

@[simp] theorem same_execBankFenceDrainDone (sg : Fin 8) (bank : Fin 12) (s : State) : SameMem s (execBankFenceDrainDone sg bank s) := by
  simp [execBankFenceDrainDone]

@[simp] theorem same_execBankUnfence (sg : Fin 8) (ag : Agent) (bank : BitVec 4) (s : State) :
    SameMem s (execBankUnfence sg ag bank s) := by
  simp [execBankUnfence]

@[simp] theorem same_execUnfenceTestDone (sg : Fin 8) (bank : Fin 12) (rows : List (BitVec 15)) (s : State) :
    SameMem s (execUnfenceTestDone sg bank rows s) := by
  simp [execUnfenceTestDone]

@[simp] theorem same_execCritLatchReload (sg : Fin 8) (word : Fin 72) (odd : Option (Fin 3)) (latchBad : Bool) (s : State) :
    SameMem s (execCritLatchReload sg word odd latchBad s) := by
  simp only [execCritLatchReload]
  repeat' split
  all_goals simp

@[simp] theorem same_execHmpInval (sg : Fin 8) (ag : Agent) (v : Word) (s : State) : SameMem s (execHmpInval sg ag v s) := by
  unfold execHmpInval
  refine same_onSeg _ _ _ ?_
  dsimp only
  repeat' split
  all_goals simp

@[simp] theorem Segment.memOk_invalTie (g : Segment) (tick : Nat) : (g.invalTie tick).memOk = g.memOk := by
  simp [Segment.invalTie]

@[simp] theorem same_execBankClearDone (sg : Fin 8) (bank : Fin 12) (s : State) : SameMem s (execBankClearDone sg bank s) := by
  simp [execBankClearDone]

/-! ## Machine/Chunks -/

@[simp] theorem Segment.memOk_grpDenied (g : Segment) (tick cmd : Nat) (n : BitVec 12) : (g.grpDenied tick cmd n).memOk = g.memOk := by
  simp [Segment.grpDenied]

@[simp] theorem same_execGroupOpen (sg : Fin 8) (ag : Agent) (grp : BitVec 12) (st stList stCtx : DpmStatus) (s : State) :
    SameMem s (execGroupOpen sg ag grp st stList stCtx s) := by
  simp [execGroupOpen]

@[simp] theorem same_execGroupOpenDone (sg : Fin 8) (grp : BitVec 12) (s : State) : SameMem s (execGroupOpenDone sg grp s) := by
  unfold execGroupOpenDone
  refine same_onSeg _ _ _ ?_
  dsimp only
  repeat' split
  all_goals simp

@[simp] theorem same_execClvHcBaseWrite (sg : Fin 8) (ag : Agent) (sz : Sz) (v : Word) (s : State) :
    SameMem s (execClvHcBaseWrite sg ag sz v s) := by
  simp [execClvHcBaseWrite]

@[simp] theorem Segment.memOk_progressed (g : Segment) (n : BitVec 12) (tick : Nat) : (g.progressed n tick).memOk = g.memOk := by
  simp [Segment.progressed]

@[simp] theorem Segment.memOk_ensureChk (g : Segment) (n : BitVec 12) (tree c : Nat) : (g.ensureChk n tree c).memOk = g.memOk := by
  simp [Segment.ensureChk]

@[simp] theorem Segment.memOk_releaseTo (g : Segment) (cycle : Nat) (x : Grp) (frm : Option Nat) (tree c : Nat) :
    (g.releaseTo cycle x frm tree c).memOk = g.memOk := by
  simp only [Segment.releaseTo]
  split <;> simp

@[simp] theorem Segment.memOk_countMx (g : Segment) (m : MxCount) : (g.countMx m).memOk = g.memOk := by
  simp [Segment.countMx]

@[simp] theorem Segment.memOk_markReady (g : Segment) (n : BitVec 12) (cycle tree c : Nat) :
    (g.markReady n cycle tree c).memOk = g.memOk := by
  simp only [Segment.markReady]
  repeat' split
  all_goals simp

@[simp] theorem Segment.memOk_summed (g : Segment) (time : Nat) (grp : BitVec 12) (x : Grp) (h : Head) (k : Chk) (rs : List Rx) :
    (g.summed time grp x h k rs).memOk = g.memOk := by
  simp [Segment.summed]

theorem Segment.memOk_takeAt {g h : Segment} {i : Nat} {e : Ejected} (taken : g.takeAt i = some (e, h)) : h.memOk = g.memOk := by
  unfold Segment.takeAt at taken
  split at taken <;> cases taken
  simp

theorem Segment.memOk_takeX {g h : Segment} {kinds : List Nat} {f : Flit} (taken : g.takeX kinds = some (f, h)) : h.memOk = g.memOk := by
  unfold Segment.takeX at taken
  split at taken
  · obtain ⟨⟨e, g'⟩, found, same⟩ := Option.map_eq_some_iff.mp taken
    cases same
    exact memOk_takeAt found
  · cases taken

theorem Segment.memOk_takeAbort {g h : Segment} {f : Flit} (taken : g.takeAbort = some (f, h)) : h.memOk = g.memOk := by
  simp only [Segment.takeAbort] at taken
  split at taken
  · cases taken
  · obtain ⟨⟨e, g'⟩, found, same⟩ := Option.map_eq_some_iff.mp taken
    cases same
    exact memOk_takeAt found

@[simp] theorem Segment.memOk_stale (g : Segment) : g.stale.memOk = g.memOk := by
  simp [Segment.stale]

@[simp] theorem Segment.memOk_relAgain (g : Segment) (cycle : Nat) (x : Grp) (f : Flit) : (g.relAgain cycle x f).memOk = g.memOk := by
  simp only [Segment.relAgain]
  split <;> simp

@[simp] theorem Segment.memOk_futureDecision (g : Segment) (n : BitVec 12) (serial : BitVec 32) (st : BitVec 4) :
    (g.futureDecision n serial st).memOk = g.memOk := by
  simp [Segment.futureDecision]

@[simp] theorem same_execGroupCqFullTimeout (sg : Fin 8) (grp : BitVec 12) (s : State) : SameMem s (execGroupCqFullTimeout sg grp s) := by
  unfold execGroupCqFullTimeout
  refine same_onSeg _ _ _ ?_
  dsimp only
  repeat' split
  all_goals simp

/-! ## Machine/Home -/

@[simp] theorem Segment.memOk_touchGuard (g : Segment) (a : HomeAt) : (g.touchGuard a).memOk = g.memOk := by
  simp only [Segment.touchGuard]
  split <;> simp

@[simp] theorem Segment.memOk_injectPart (g : Segment) (cycle burst : Nat) (f : Flit) (staged : Bool) :
    (g.injectPart cycle burst f staged).memOk = g.memOk := by
  simp [Segment.injectPart]

@[simp] theorem Segment.memOk_newBurst (g : Segment) : g.newBurst.1.memOk = g.memOk := by
  simp [Segment.newBurst]

@[simp] theorem Segment.memOk_dequeue (g : Segment) (idx : Nat) : (g.dequeue idx).memOk = g.memOk := by
  simp [Segment.dequeue]

@[simp] theorem Segment.memOk_fwdFree (g : Segment) (n : Nat) : (g.fwdFree n).memOk = g.memOk := by
  simp [Segment.fwdFree]

@[simp] theorem Segment.memOk_fwdFreeAll (g : Segment) (f : Flit) : (g.fwdFreeAll f).memOk = g.memOk := by
  simp [Segment.fwdFreeAll]

@[simp] theorem Segment.memOk_homeRefuse (g : Segment) (cycle : Nat) (f : Flit) (st : BitVec 4) :
    (g.homeRefuse cycle f st).memOk = g.memOk := by
  simp [Segment.homeRefuse]

@[simp] theorem Segment.memOk_ctxDenied (g : Segment) (tick : Nat) (f : Flit) : (g.ctxDenied tick f).memOk = g.memOk := by
  simp [Segment.ctxDenied]

@[simp] theorem Segment.memOk_markDirty (g : Segment) (cycle : Nat) (f : Flit) : (g.markDirty cycle f).memOk = g.memOk := by
  simp only [Segment.markDirty]
  split <;> simp

@[simp] theorem State.memOk_homeRun (s : State) (sg idx : Nat) (kinds : List Nat) (act : State → Flit → HomeAt → State)
    (kept : ∀ s f at_, (act s f at_).memOk = s.memOk) : (s.homeRun sg idx kinds act).memOk = s.memOk := by
  simp only [State.homeRun]
  repeat' split
  all_goals simp [kept]

@[simp] theorem Segment.memOk_dropAtom (g : Segment) (p : Nat × Nat) : (g.dropAtom p).memOk = g.memOk := by
  simp [Segment.dropAtom]

@[simp] theorem Segment.memOk_modAtom (g : Segment) (p : Nat × Nat) (h : AtomLine → AtomLine) : (g.modAtom p h).memOk = g.memOk := by
  simp [Segment.modAtom]

@[simp] theorem Segment.memOk_homeRd (g : Segment) (cycle : Nat) (f : Flit) (a : HomeAt) : (g.homeRd cycle f a).memOk = g.memOk := by
  simp [Segment.homeRd]

@[simp] theorem Segment.memOk_homeWr (g : Segment) (cycle : Nat) (f : Flit) (a : HomeAt) : (g.homeWr cycle f a).memOk = g.memOk := by
  simp [Segment.homeWr]

@[simp] theorem same_execHomeExecute (sg : Fin 8) (idx : Nat) (s : State) : SameMem s (execHomeExecute sg idx s) := by
  unfold execHomeExecute
  refine same_onSeg _ _ _ ?_
  dsimp only
  simp

@[simp] theorem same_execFwdWrExecute (sg : Fin 8) (idx : Nat) (s : State) : SameMem s (execFwdWrExecute sg idx s) :=
  same_onSeg _ _ _ (State.memOk_homeRun _ _ _ _ _ fun s f a => by simp)

@[simp] theorem Segment.memOk_atomRead (g : Segment) (cycle : Nat) (p : Nat × Nat) : (g.atomRead cycle p).memOk = g.memOk := by
  simp [Segment.atomRead]

@[simp] theorem Segment.memOk_atomApply (g : Segment) (cycle idx : Nat) (f : Flit) (p : Nat × Nat) (line : List Byte) :
    (g.atomApply cycle idx f p line).memOk = g.memOk := by
  simp [Segment.atomApply]

@[simp] theorem Segment.memOk_atomRedo (g : Segment) (p : Nat × Nat) : (g.atomRedo p).memOk = g.memOk := by
  simp [Segment.atomRedo]

@[simp] theorem same_execAtomicExecute (sg : Fin 8) (idx : Nat) (bad : Option BadLine) (s : State) :
    SameMem s (execAtomicExecute sg idx bad s) := by
  refine same_onSeg _ _ _ (State.memOk_homeRun _ _ _ _ _ fun s f a => ?_)
  dsimp only
  repeat' split
  all_goals simp

/-! ## Machine/Transact -/

@[simp] theorem Segment.memOk_modReq (g : Segment) (id : Nat) (f : Req → Req) : (g.modReq id f).memOk = g.memOk := by
  simp [Segment.modReq]

@[simp] theorem Segment.memOk_setTag (g : Segment) (t : Nat) (x : TagState) : (g.setTag t x).memOk = g.memOk := by
  simp [Segment.setTag]

@[simp] theorem Segment.memOk_freeTag (g : Segment) (t : Nat) : (g.freeTag t).memOk = g.memOk := by
  simp [Segment.freeTag]

@[simp] theorem Segment.memOk_splitLine (g : Segment) (t : Nat) (r : Req) (idx : Nat) : (g.splitLine t r idx).1.memOk = g.memOk := by
  simp only [Segment.splitLine]
  split <;> simp

@[simp] theorem Segment.memOk_refetch (g : Segment) (cycle t : Nat) (r : Req) (idx : Nat) : (g.refetch cycle t r idx).memOk = g.memOk := by
  simp only [Segment.refetch]
  repeat' split
  all_goals simp

@[simp] theorem Segment.memOk_takeReply (g : Segment) : g.takeReply.memOk = g.memOk := by
  simp [Segment.takeReply]

@[simp] theorem same_execTagQuarantineEnd (sg : Fin 8) (tag : BitVec 16) (s : State) : SameMem s (execTagQuarantineEnd sg tag s) := by
  unfold execTagQuarantineEnd
  refine same_onSeg _ _ _ ?_
  dsimp only
  repeat' split
  all_goals simp

/-! ## Machine/Dpm -/

@[simp] theorem Segment.memOk_gateTouch (g : Segment) (cycle space addr : Nat) : (g.gateTouch cycle space addr).memOk = g.memOk := by
  refine memOk_of_same rfl rfl ?_
  simp only [Segment.gateTouch, List.map_map]
  refine List.map_congr_left fun k _ => ?_
  simp only [Function.comp]
  split
  · split <;> rfl
  · rfl

@[simp] theorem State.memOk_dpmGo (s : State) (sg : Nat) : (s.dpmGo sg).memOk = s.memOk := by
  simp [State.dpmGo]

/-! ## Machine/Cores -/

@[simp] theorem Segment.memOk_idlePoint (g : Segment) (c : Nat) : (g.idlePoint c).memOk = g.memOk := by
  simp [Segment.idlePoint]

@[simp] theorem Segment.memOk_freeCourier (g : Segment) (c : Nat) : (g.freeCourier c).memOk = g.memOk := by
  simp [Segment.freeCourier]

@[simp] theorem Segment.memOk_modTrail (g : Segment) (slot : Nat) (f : Trail → Trail) : (g.modTrail slot f).memOk = g.memOk := by
  simp [Segment.modTrail]

@[simp] theorem Segment.memOk_dropTicket (g : Segment) (n : Nat) : (g.dropTicket n).memOk = g.memOk := by
  simp [Segment.dropTicket]

@[simp] theorem Segment.memOk_board (g : Segment) (cycle : Nat) : (g.board cycle).memOk = g.memOk := by
  simp [Segment.board]

/-! ## Machine/Bridge -/

@[simp] theorem Segment.memOk_bridgeFault (g : Segment) (tick b : Nat) : (g.bridgeFault tick b).memOk = g.memOk := by
  simp [Segment.bridgeFault]

@[simp] theorem State.memOk_resetMessage (s : State) (sg b : Nat) : (s.resetMessage sg b).memOk = s.memOk := by
  simp [State.resetMessage]

@[simp] theorem Segment.memOk_dropSent (g : Segment) (cycle : Nat) (fs : List BFlit) : (g.dropSent cycle fs).memOk = g.memOk := by
  simp [Segment.dropSent]

@[simp] theorem Segment.memOk_settleSent (g : Segment) (cycle b : Nat) (landed : BitVec 16) :
    (g.settleSent cycle b landed).memOk = g.memOk := by
  simp [Segment.settleSent]

theorem Segment.memOk_bridgeHit {g h : Segment} {cycle b : Nat} {flips : List (Fin 38 × Fin 32)} (hit : g.bridgeHit cycle b flips = some h) :
    h.memOk = g.memOk := by
  unfold Segment.bridgeHit at hit
  split at hit
  · cases hit
    rfl
  · split at hit
    · cases hit
      rfl
    · obtain ⟨f, -, rfl⟩ := Option.map_eq_some_iff.mp hit
      simp

@[simp] theorem same_execBridgeFlitLand (sg : Fin 8) (x : BridgeFlit) (s : State) : SameMem s (execBridgeFlitLand sg x s) := by
  refine same_onSeg _ _ _ ?_
  split
  · rfl
  next g hit => simp [Segment.memOk_bridgeHit hit]

@[simp] theorem same_execBridgeCredit (sg : Fin 8) (b : Fin 2) (s : State) : SameMem s (execBridgeCredit sg b s) := by
  unfold execBridgeCredit
  refine same_onSeg _ _ _ ?_
  dsimp only
  repeat' split
  all_goals simp

@[simp] theorem State.memOk_nodeidWrite (s : State) (sg : Nat) (sz : Sz) (v : Word) : (s.nodeidWrite sg sz v).memOk = s.memOk := by
  unfold State.nodeidWrite
  split
  · split <;> simp
  · simp

@[simp] theorem same_execSegNodeidWrite (sg : Fin 8) (ag : Agent) (sz : Sz) (v : Word) (s : State) :
    SameMem s (execSegNodeidWrite sg ag sz v s) := by
  simp [execSegNodeidWrite]

/-! ## Machine/Scoreboard -/

@[simp] theorem Segment.memOk_lookRange (g : Segment) (c : BitVec 12) (va : Nat) : (g.lookRange c va).1.memOk = g.memOk := by
  simp only [Segment.lookRange]
  repeat' split
  all_goals simp

@[simp] theorem Segment.memOk_lookSpan (c : BitVec 12) (need : BitVec 3) (k : Nat) (g : Segment) (va len : Nat) (acc : List Piece) (ok : Bool) :
    (Segment.lookSpan c need k g va len acc ok).1.memOk = g.memOk := by
  induction k generalizing g va len acc ok with
  | zero => rfl
  | succ k ih =>
    have looked := memOk_lookRange g c va
    simp only [Segment.lookSpan]
    repeat' split
    · rfl
    · rfl
    next found => simpa [found] using looked
    next found => simpa [found, ih] using looked

@[simp] theorem Segment.memOk_localSpan (g : Segment) (c : BitVec 12) (va len : Nat) (need : BitVec 3) :
    (g.localSpan c va len need).1.memOk = g.memOk := by
  have looked := memOk_lookSpan c need 4096 g va len [] true
  unfold Segment.localSpan
  split <;> simp_all

theorem Segment.memOk_of_localSpan {g h : Segment} {c : BitVec 12} {va len : Nat} {need : BitVec 3} {x : List Piece ⊕ BitVec 4}
    (found : g.localSpan c va len need = (h, x)) : h.memOk = g.memOk := by
  have looked := memOk_localSpan g c va len need
  rwa [found] at looked

@[simp] theorem Segment.memOk_trailSettle (g : Segment) (slot : Nat) (endWritten : Bool) :
    (g.trailSettle slot endWritten).memOk = g.memOk := by
  simp only [Segment.trailSettle]
  split <;> simp

@[simp] theorem Segment.memOk_ticketPlaces (g : Segment) (c : BitVec 12) (r : TicketRec) : (g.ticketPlaces c r).1.memOk = g.memOk := by
  have gate : (if r.gateAddr == 0 then (g, some none)
      else
        match g.localSpan c r.gateAddr 8 1 with
        | (g, .inl ps) => (g, (ps.head?).map fun p => some p.ga)
        | (g, .inr _) => (g, none) : Segment × Option (Option Nat)).1.memOk = g.memOk := by
    split
    · rfl
    · split
      all_goals
        next found => exact memOk_of_localSpan found
  simp only [Segment.ticketPlaces]
  split
  · exact gate
  · split
    · exact gate
    · split
      all_goals
        next found => exact (memOk_of_localSpan found).trans gate

/-! ## Machine/Lines -/

@[simp] theorem Segment.memOk_modResident (g : Segment) (c : BitVec 12) (f : Resident → Resident) :
    (g.modResident c f).memOk = g.memOk := by
  simp [Segment.modResident]

@[simp] theorem Segment.memOk_lineJobs (g : Segment) (d : Nat) (waits : Nat × Nat → List Nat) (l : List (Nat × Nat)) :
    (g.lineJobs d waits l).1.memOk = g.memOk := by
  induction l generalizing g with
  | nil => rfl
  | cons x l ih => simp [Segment.lineJobs, ih]

/-! ## Machine/Recall -/

@[simp] theorem Segment.memOk_withdraw (g : Segment) (p : Replica → Bool) : (g.withdraw p).memOk = g.memOk := by
  simp [Segment.withdraw]

@[simp] theorem State.memOk_withdrawOf (s : State) (home : Nat) (p : Nat → Bool) : (s.withdrawOf home p).memOk = s.memOk := by
  simp [State.withdrawOf]

@[simp] theorem same_execRecallAck (sg : Fin 8) (s : State) : SameMem s (execRecallAck sg s) := by
  unfold execRecallAck
  refine same_onSeg _ _ _ ?_
  dsimp only
  repeat' split
  all_goals simp

/-! ## Machine/Issue -/

@[simp] theorem Segment.memOk_settleIssue (g : Segment) (tick c : Nat) (slot : Option Nat) (st : BitVec 4) :
    (g.settleIssue tick c slot st).memOk = g.memOk := by
  simp only [Segment.settleIssue]
  split <;> simp

@[simp] theorem Segment.memOk_shapeCounts (g : Segment) (c : BitVec 12) (b : List Byte) (sh : Shape) :
    (g.shapeCounts c b sh).1.memOk = g.memOk := by
  unfold Segment.shapeCounts
  split
  · rfl
  · split
    all_goals
      next found => exact memOk_of_localSpan found

@[simp] theorem Segment.memOk_joinQueue (g : Segment) (n : BitVec 12) (op : COp) (kind : SlotKind) :
    (g.joinQueue n op kind).memOk = g.memOk := by
  simp only [Segment.joinQueue]
  split <;> simp

theorem State.memOk_issueRound (s : State) (sg c code : Nat) (f : IFields) (rideOp : Nat) (value : Word) :
    (s.issueRound sg c code f rideOp value).Leaves fun t => t.memOk = s.memOk := by
  simp only [State.issueRound]
  repeat' split
  all_goals simp

@[simp] theorem Segment.memOk_joinCounts (g : Segment) (c : Nat) (f : IFields) (x : Grp) (b : List Byte) (sh : Option Shape)
    (shb : List Byte) : (g.joinCounts c f x b sh shb).1.memOk = g.memOk := by
  simp only [Segment.joinCounts]
  split <;> simp

theorem State.memOk_issueJoin (s : State) (sg c : Nat) (f : IFields) (unc : List Nat) (force : Option (BitVec 4)) :
    (s.issueJoin sg c f unc force).Leaves fun t => t.memOk = s.memOk := by
  simp only [State.issueJoin]
  repeat' split
  all_goals simp

@[simp] theorem State.memOk_stall (s : State) (sg c : Nat) (w : Wait) : (s.stall sg c w).memOk = s.memOk := by
  unfold State.stall State.modCore
  simp

@[simp] theorem Segment.memOk_countStalls (g : Segment) : g.countStalls.memOk = g.memOk := by
  refine memOk_foldl _ _ _ fun g c => ?_
  repeat' split
  all_goals simp

/-! ## Machine/Control -/

@[simp] theorem Segment.memOk_sleepCore (g : Segment) (c : Nat) : (g.sleepCore c).memOk = g.memOk := by
  simp [Segment.sleepCore]

@[simp] theorem same_execIcinv (sg : Fin 8) (c : Fin 18) (ag : Agent) (s : State) : SameMem s (execIcinv sg c ag s) := by
  unfold execIcinv
  refine same_onDoms _ _ _ _ _ fun s => ?_
  dsimp only
  repeat' split
  all_goals simp

@[simp] theorem same_execCurCodeWrite (sg : Fin 8) (c : Fin 18) (ag : Agent) (sz : Sz) (v : Word) (s : State) :
    SameMem s (execCurCodeWrite sg c ag sz v s) := by
  unfold execCurCodeWrite
  refine same_onDoms _ _ _ _ _ fun s => ?_
  dsimp only
  repeat' split
  all_goals simp

@[simp] theorem same_execCoreStop (sg : Fin 8) (c : Fin 18) (s : State) : SameMem s (execCoreStop sg c s) := by
  unfold execCoreStop
  refine same_onSeg _ _ _ ?_
  dsimp only
  simp

/-! ## Machine/Link -/

@[simp] theorem Segment.memOk_bump1024 (g : Segment) (p : Nat) (get : Port → Nat) (set : Port → Nat → Port) (f : Fld) :
    (g.bump1024 p get set f).memOk = g.memOk := by
  simp [Segment.bump1024]

@[simp] theorem Segment.memOk_emit (g : Segment) (cycle p : Nat) (x : SFrame) : (g.emit cycle p x).memOk = g.memOk := by
  simp [Segment.emit]

@[simp] theorem Segment.memOk_emitPlain (g : Segment) (cycle p typ : Nat) (slot0 : List Byte) :
    (g.emitPlain cycle p typ slot0).memOk = g.memOk := by
  simp [Segment.emitPlain]

@[simp] theorem Segment.memOk_startReplay (g : Segment) (tick p : Nat) (from_ : BitVec 12) :
    (g.startReplay tick p from_).memOk = g.memOk := by
  simp [Segment.startReplay]

@[simp] theorem Segment.memOk_discard (g : Segment) (cycle p : Nat) (fs : List BFlit) (doubt : Bool) :
    (g.discard cycle p fs doubt).memOk = g.memOk := by
  refine memOk_foldl _ _ _ fun g b => ?_
  split
  · simp
  · split <;> simp

@[simp] theorem Segment.memOk_dropTraffic (g : Segment) (cycle p : Nat) : (g.dropTraffic cycle p).memOk = g.memOk := by
  simp [Segment.dropTraffic]

@[simp] theorem Segment.memOk_quarantine (g : Segment) (cycle p slot : Nat) (ctx : Option (BitVec 12)) :
    (g.quarantine cycle p slot ctx).memOk = g.memOk := by
  simp [Segment.quarantine]

@[simp] theorem Segment.memOk_retrainStart (g : Segment) (cycle p cause : Nat) : (g.retrainStart cycle p cause).memOk = g.memOk := by
  simp [Segment.retrainStart]

@[simp] theorem Segment.memOk_retrainCause (g : Segment) (cycle p cause : Nat) : (g.retrainCause cycle p cause).memOk = g.memOk := by
  simp [Segment.retrainCause]

@[simp] theorem Segment.memOk_follow (g : Segment) (cycle p : Nat) : (g.follow cycle p).memOk = g.memOk := by
  simp [Segment.follow]

@[simp] theorem Segment.memOk_enterWidth (g : Segment) (cycle p w : Nat) (leads : Bool) (due : List (Nat × Nat)) :
    (g.enterWidth cycle p w leads due).memOk = g.memOk := by
  simp [Segment.enterWidth]

@[simp] theorem Segment.memOk_askWidth (g : Segment) (cycle p w : Nat) : (g.askWidth cycle p w).memOk = g.memOk := by
  simp [Segment.askWidth]

@[simp] theorem Segment.memOk_remakeWidth (g : Segment) (cycle p : Nat) : (g.remakeWidth cycle p).memOk = g.memOk := by
  simp only [Segment.remakeWidth]
  split <;> simp

@[simp] theorem Segment.memOk_dueNak (g : Segment) (tick p : Nat) : (g.dueNak tick p).memOk = g.memOk := by
  simp [Segment.dueNak]

@[simp] theorem Segment.memOk_violation (g : Segment) (cycle p cls : Nat) : (g.violation cycle p cls).memOk = g.memOk := by
  simp [Segment.violation]

@[simp] theorem Segment.memOk_dropFrame (g : Segment) (cycle p cls : Nat) : (g.dropFrame cycle p cls).memOk = g.memOk := by
  simp [Segment.dropFrame]

@[simp] theorem Segment.memOk_dropUnsealed (g : Segment) (cycle p : Nat) : (g.dropUnsealed cycle p).memOk = g.memOk := by
  simp [Segment.dropUnsealed]

@[simp] theorem Segment.memOk_sendSeq (g : Segment) (cycle p : Nat) (x : SFrame) : (g.sendSeq cycle p x).memOk = g.memOk := by
  simp [Segment.sendSeq]

@[simp] theorem Segment.memOk_sendTrailer (g : Segment) (cycle p : Nat) : (g.sendTrailer cycle p).memOk = g.memOk := by
  simp [Segment.sendTrailer]

@[simp] theorem Segment.memOk_sendData (g : Segment) (cycle p : Nat) (fs : List BFlit) : (g.sendData cycle p fs).memOk = g.memOk := by
  simp only [Segment.sendData]
  split <;> simp

@[simp] theorem Segment.memOk_enterDoze (g : Segment) (cycle p : Nat) : (g.enterDoze cycle p).memOk = g.memOk := by
  simp [Segment.enterDoze]

@[simp] theorem Segment.memOk_sendIdle (g : Segment) (cycle p : Nat) : (g.sendIdle cycle p).memOk = g.memOk := by
  simp [Segment.sendIdle]

@[simp] theorem Segment.memOk_sendActive (g : Segment) (cycle p : Nat) : (g.sendActive cycle p).memOk = g.memOk := by
  simp only [Segment.sendActive]
  repeat' split
  all_goals simp

@[simp] theorem Segment.memOk_frameTime (g : Segment) (cycle p : Nat) : (g.frameTime cycle p).memOk = g.memOk := by
  simp only [Segment.frameTime]
  repeat' split
  all_goals simp

@[simp] theorem same_execFrameTransmit (sg : Fin 8) (p : Fin 6) (s : State) : SameMem s (execFrameTransmit sg p s) := by
  simp [execFrameTransmit]

@[simp] theorem Segment.memOk_acceptFlit (g : Segment) (cycle p : Nat) (stamp : BitVec 10) (slotCtx : Option (BitVec 12)) (f : Flit) :
    (g.acceptFlit cycle p stamp slotCtx f).memOk = g.memOk := by
  simp [Segment.acceptFlit]

@[simp] theorem Segment.memOk_acceptData (g : Segment) (cycle p : Nat) (f : Frame) : (g.acceptData cycle p f).memOk = g.memOk := by
  simp only [Segment.acceptData]
  split <;> simp

@[simp] theorem Segment.memOk_acceptTrailer (g : Segment) (cycle p : Nat) (f : Frame) : (g.acceptTrailer cycle p f).memOk = g.memOk := by
  simp only [Segment.acceptTrailer]
  split <;> simp

@[simp] theorem Segment.memOk_takeResume (g : Segment) (cycle p : Nat) (b : List Byte) : (g.takeResume cycle p b).memOk = g.memOk := by
  simp [Segment.takeResume]

@[simp] theorem Segment.memOk_takeCtrl (g : Segment) (cycle p : Nat) (b : List Byte) : (g.takeCtrl cycle p b).memOk = g.memOk := by
  simp only [Segment.takeCtrl]
  repeat' split
  all_goals simp

@[simp] theorem Segment.memOk_bySeq (g : Segment) (cycle p : Nat) (f : Frame) : (g.bySeq cycle p f).memOk = g.memOk := by
  simp [Segment.bySeq]

@[simp] theorem Segment.memOk_receive (g : Segment) (cycle p : Nat) (f : Frame) : (g.receive cycle p f).memOk = g.memOk := by
  simp [Segment.receive]

@[simp] theorem Segment.memOk_takeBad (g : Segment) (p : Nat) : (g.takeBad p).memOk = g.memOk := by
  simp [Segment.takeBad]

@[simp] theorem State.memOk_frameIn (s : State) (sg : Fin 8) (p : Fin 6) (f : Frame) (corr : Fin 5) (mine : Bool) :
    (s.frameIn sg p f corr mine).memOk = s.memOk := by
  simp only [State.frameIn]
  repeat' split
  all_goals simp

@[simp] theorem same_execDataFrame (sg : Fin 8) (p : Fin 6) (f : Frame) (corr : Fin 5) (s : State) :
    SameMem s (execDataFrame sg p f corr s) := by
  simp [execDataFrame]

@[simp] theorem same_execIdleFrame (sg : Fin 8) (p : Fin 6) (f : Frame) (corr : Fin 5) (s : State) :
    SameMem s (execIdleFrame sg p f corr s) := by
  simp [execIdleFrame]

@[simp] theorem same_execNakFrame (sg : Fin 8) (p : Fin 6) (f : Frame) (corr : Fin 5) (s : State) :
    SameMem s (execNakFrame sg p f corr s) := by
  simp [execNakFrame]

@[simp] theorem same_execTrailerFrame (sg : Fin 8) (p : Fin 6) (f : Frame) (corr : Fin 5) (s : State) :
    SameMem s (execTrailerFrame sg p f corr s) := by
  simp [execTrailerFrame]

@[simp] theorem same_execBadFrame (sg : Fin 8) (p : Fin 6) (s : State) : SameMem s (execBadFrame sg p s) := by
  simp [execBadFrame]

@[simp] theorem same_execHushFrame (sg : Fin 8) (p : Fin 6) (s : State) : SameMem s (execHushFrame sg p s) := by
  simp [execHushFrame]

@[simp] theorem same_execRetrainReq (sg : Fin 8) (p : Fin 6) (f : Frame) (corr : Fin 5) (s : State) :
    SameMem s (execRetrainReq sg p f corr s) := by
  simp [execRetrainReq]

@[simp] theorem same_execRetrainAck (sg : Fin 8) (p : Fin 6) (f : Frame) (corr : Fin 5) (s : State) :
    SameMem s (execRetrainAck sg p f corr s) := by
  simp [execRetrainAck]

@[simp] theorem same_execWidthReq (sg : Fin 8) (p : Fin 6) (f : Frame) (corr : Fin 5) (s : State) :
    SameMem s (execWidthReq sg p f corr s) := by
  simp [execWidthReq]

@[simp] theorem same_execWidthAck (sg : Fin 8) (p : Fin 6) (f : Frame) (corr : Fin 5) (s : State) :
    SameMem s (execWidthAck sg p f corr s) := by
  simp [execWidthAck]

@[simp] theorem same_execResume (sg : Fin 8) (p : Fin 6) (f : Frame) (corr : Fin 5) (s : State) : SameMem s (execResume sg p f corr s) := by
  simp [execResume]

@[simp] theorem same_execReplayTimerExpiry (sg : Fin 8) (p : Fin 6) (s : State) : SameMem s (execReplayTimerExpiry sg p s) := by
  simp [execReplayTimerExpiry]

@[simp] theorem same_execNakRepeatExpiry (sg : Fin 8) (p : Fin 6) (s : State) : SameMem s (execNakRepeatExpiry sg p s) := by
  simp [execNakRepeatExpiry]

@[simp] theorem same_execErrorWindowEnd (sg : Fin 8) (p : Fin 6) (s : State) : SameMem s (execErrorWindowEnd sg p s) := by
  simp [execErrorWindowEnd]

@[simp] theorem same_execRequestRepeatLimit (sg : Fin 8) (p : Fin 6) (s : State) : SameMem s (execRequestRepeatLimit sg p s) := by
  unfold execRequestRepeatLimit
  refine same_onSeg _ _ _ ?_
  dsimp only
  repeat' split
  all_goals simp

@[simp] theorem same_execRetrainWaitEnd (sg : Fin 8) (p : Fin 6) (s : State) : SameMem s (execRetrainWaitEnd sg p s) := by
  unfold execRetrainWaitEnd
  refine same_onSeg _ _ _ ?_
  dsimp only
  repeat' split
  all_goals simp

@[simp] theorem same_execWidthLimitExpiry (sg : Fin 8) (p : Fin 6) (s : State) : SameMem s (execWidthLimitExpiry sg p s) := by
  simp [execWidthLimitExpiry]

@[simp] theorem same_execTrailerDue (sg : Fin 8) (p : Fin 6) (s : State) : SameMem s (execTrailerDue sg p s) := by
  unfold execTrailerDue
  refine same_onSeg _ _ _ ?_
  dsimp only
  repeat' split
  all_goals simp

@[simp] theorem State.memOk_refuse394 (s : State) (sg off : Nat) (v : Word) : (s.refuse394 sg off v).memOk = s.memOk := by
  simp [State.refuse394]

@[simp] theorem Segment.memOk_wakePort (g : Segment) (tick p : Nat) : (g.wakePort tick p).memOk = g.memOk := by
  simp [Segment.wakePort]

@[simp] theorem Segment.memOk_portEnable (g : Segment) (tick p : Nat) : (g.portEnable tick p).memOk = g.memOk := by
  simp [Segment.portEnable]

@[simp] theorem same_execLinkEnable (sg : Fin 8) (p : Fin 6) (ag : Agent) (s : State) : SameMem s (execLinkEnable sg p ag s) := by
  simp [execLinkEnable]

@[simp] theorem Segment.memOk_startTraining (g : Segment) (tick p : Nat) : (g.startTraining tick p).memOk = g.memOk := by
  simp only [Segment.startTraining, memOk_ite]
  rw [memOk_foldl _ _ _ (by simp), memOk_modPort, ite_self]

@[simp] theorem Segment.memOk_portRetry (g : Segment) (tick p : Nat) : (g.portRetry tick p).memOk = g.memOk := by
  simp [Segment.portRetry]

@[simp] theorem same_execLinkRetry (sg : Fin 8) (p : Fin 6) (ag : Agent) (s : State) : SameMem s (execLinkRetry sg p ag s) := by
  simp [execLinkRetry]

@[simp] theorem Segment.memOk_portRelease (g : Segment) (tick p : Nat) : (g.portRelease tick p).memOk = g.memOk := by
  simp [Segment.portRelease]

@[simp] theorem same_execLinkRelease (sg : Fin 8) (p : Fin 6) (ag : Agent) (s : State) : SameMem s (execLinkRelease sg p ag s) := by
  simp [execLinkRelease]

@[simp] theorem Segment.memOk_stewardCause (g : Segment) (cycle p cause : Nat) : (g.stewardCause cycle p cause).memOk = g.memOk := by
  simp [Segment.stewardCause]

@[simp] theorem same_execLinkRetrain (sg : Fin 8) (p : Fin 6) (ag : Agent) (s : State) : SameMem s (execLinkRetrain sg p ag s) := by
  simp [execLinkRetrain]

@[simp] theorem Segment.memOk_portWidth (g : Segment) (cycle p width : Nat) : (g.portWidth cycle p width).memOk = g.memOk := by
  simp [Segment.portWidth]

@[simp] theorem same_execLinkWidthRequest (sg : Fin 8) (p : Fin 6) (ag : Agent) (width : BitVec 4) (s : State) :
    SameMem s (execLinkWidthRequest sg p ag width s) := by
  simp [execLinkWidthRequest]

@[simp] theorem Segment.memOk_sealArm (g : Segment) (tick p slot : Nat) (ctx : BitVec 12) :
    (g.sealArm tick p slot ctx).1.memOk = g.memOk := by
  simp only [Segment.sealArm]
  repeat' split
  all_goals simp

@[simp] theorem same_execSealSlotArm (sg : Fin 8) (p : Fin 6) (ag : Agent) (slot : BitVec 6) (ctx : BitVec 12) (s : State) :
    SameMem s (execSealSlotArm sg p ag slot ctx s) := by
  simp [execSealSlotArm]

@[simp] theorem same_execSealSlotDisarm (sg : Fin 8) (p : Fin 6) (ag : Agent) (slot : BitVec 6) (s : State) :
    SameMem s (execSealSlotDisarm sg p ag slot s) := by
  simp [execSealSlotDisarm]

/-! ## Machine/Lanes -/

@[simp] theorem Segment.memOk_restartTraining (g : Segment) (tick p code : Nat) : (g.restartTraining tick p code).memOk = g.memOk := by
  simp [Segment.restartTraining]

@[simp] theorem Segment.memOk_toPhase (g : Segment) (tick p phase : Nat) : (g.toPhase tick p phase).memOk = g.memOk := by
  simp [Segment.toPhase]

@[simp] theorem Segment.memOk_setTaps (g : Segment) (p n pre post : Nat) : (g.setTaps p n pre post).memOk = g.memOk := by
  unfold Segment.setTaps
  split <;> simp

@[simp] theorem Segment.memOk_judge (g : Segment) (p : Nat) (obs : TrainObs) : (g.judge p obs).memOk = g.memOk := by
  simp [Segment.judge]

@[simp] theorem Segment.memOk_trained (g : Segment) (tick p w : Nat) (obs : TrainObs) : (g.trained tick p w obs).memOk = g.memOk := by
  simp [Segment.trained]

@[simp] theorem Segment.memOk_phaseEnd (g : Segment) (tick p : Nat) (obs : TrainObs) : (g.phaseEnd tick p obs).1.memOk = g.memOk := by
  have taps : ((List.range 9).foldl (fun (g : Segment) n =>
      match obs.taps[n]? with
      | some (pre, post) => g.setTaps p n pre.toNat post.toNat
      | none => g) g).memOk = g.memOk := memOk_foldl _ _ _ fun g n => by split <;> simp
  simp only [Segment.phaseEnd]
  repeat' split
  case h_5.isTrue => exact taps
  case h_5.isFalse => exact (memOk_toPhase _ _ _ _).trans taps
  all_goals simp

@[simp] theorem same_execTrainingPhaseLimit (sg : Fin 8) (p : Fin 6) (s : State) : SameMem s (execTrainingPhaseLimit sg p s) := by
  simp [execTrainingPhaseLimit]

@[simp] theorem Segment.memOk_laneFault (g : Segment) (tick p lane : Nat) : (g.laneFault tick p lane).memOk = g.memOk := by
  simp [Segment.laneFault]

@[simp] theorem Segment.memOk_askFlask (g : Segment) (tick p : Nat) : (g.askFlask tick p).memOk = g.memOk := by
  simp [Segment.askFlask]

@[simp] theorem Segment.memOk_handoverOver (g : Segment) (tick p : Nat) : (g.handoverOver tick p).memOk = g.memOk := by
  simp [Segment.handoverOver]

@[simp] theorem Segment.memOk_beginHandover (g : Segment) (tick p k : Nat) : (g.beginHandover tick p k).memOk = g.memOk := by
  simp [Segment.beginHandover]

@[simp] theorem same_execHandoverStart (sg : Fin 8) (p : Fin 6) (s : State) : SameMem s (execHandoverStart sg p s) := by
  unfold execHandoverStart
  refine same_onSeg _ _ _ ?_
  dsimp only
  repeat' split
  all_goals simp

@[simp] theorem same_execShadow (sg : Fin 8) (p : Fin 6) (l : Fin 8) (s : State) : SameMem s (execShadow sg p l s) := by
  simp [execShadow]

@[simp] theorem same_execHandoverSwap (sg : Fin 8) (p : Fin 6) (s : State) : SameMem s (execHandoverSwap sg p s) := by
  simp [execHandoverSwap]

@[simp] theorem same_execSwapped (sg : Fin 8) (p : Fin 6) (l : Fin 8) (s : State) : SameMem s (execSwapped sg p l s) := by
  simp [execSwapped]

@[simp] theorem Segment.memOk_calFailRx (g : Segment) (tick p lane : Nat) : (g.calFailRx tick p lane).memOk = g.memOk := by
  simp [Segment.calFailRx]

@[simp] theorem same_execBlockLockLoss (sg : Fin 8) (p : Fin 6) (x : LaneHeads) (s : State) : SameMem s (execBlockLockLoss sg p x s) := by
  simp [execBlockLockLoss]

@[simp] theorem same_execCalibrationCountEnd (sg : Fin 8) (p : Fin 6) (errs : BitVec 32) (s : State) :
    SameMem s (execCalibrationCountEnd sg p errs s) := by
  simp [execCalibrationCountEnd]

@[simp] theorem same_execCalDone (sg : Fin 8) (p : Fin 6) (s : State) : SameMem s (execCalDone sg p s) := by
  simp [execCalDone]

@[simp] theorem Segment.memOk_calFailTx (g : Segment) (tick p : Nat) : (g.calFailTx tick p).memOk = g.memOk := by
  simp [Segment.calFailTx]

@[simp] theorem same_execCalFail (sg : Fin 8) (p : Fin 6) (s : State) : SameMem s (execCalFail sg p s) := by
  simp [execCalFail]

@[simp] theorem same_execCalLimitExpiry (sg : Fin 8) (p : Fin 6) (s : State) : SameMem s (execCalLimitExpiry sg p s) := by
  simp [execCalLimitExpiry]

@[simp] theorem same_execSyncErrorHandover (sg : Fin 8) (p : Fin 6) (lane : Fin 9) (s : State) :
    SameMem s (execSyncErrorHandover sg p lane s) := by
  simp [execSyncErrorHandover]

@[simp] theorem same_execKettleEntry (sg : Fin 8) (p : Fin 6) (s : State) : SameMem s (execKettleEntry sg p s) := by
  simp [execKettleEntry]

@[simp] theorem Segment.memOk_askDoze (g : Segment) (cycle p : Nat) : (g.askDoze cycle p).memOk = g.memOk := by
  simp [Segment.askDoze]

@[simp] theorem same_execDozeRequest (sg : Fin 8) (p : Fin 6) (ag : Agent) (s : State) : SameMem s (execDozeRequest sg p ag s) := by
  simp [execDozeRequest]

@[simp] theorem same_execDozeWake (sg : Fin 8) (p : Fin 6) (s : State) : SameMem s (execDozeWake sg p s) := by
  simp [execDozeWake]

@[simp] theorem same_execLaneWake (sg : Fin 8) (p : Fin 6) (ag : Agent) (s : State) : SameMem s (execLaneWake sg p ag s) := by
  simp [execLaneWake]

@[simp] theorem same_execFlaskRequest (sg : Fin 8) (p : Fin 6) (ag : Agent) (s : State) : SameMem s (execFlaskRequest sg p ag s) := by
  simp [execFlaskRequest]

@[simp] theorem same_execFlaskReq (sg : Fin 8) (p : Fin 6) (s : State) : SameMem s (execFlaskReq sg p s) := by
  simp [execFlaskReq]

@[simp] theorem same_execFlaskAck (sg : Fin 8) (p : Fin 6) (s : State) : SameMem s (execFlaskAck sg p s) := by
  simp [execFlaskAck]

@[simp] theorem same_execFlaskNak (sg : Fin 8) (p : Fin 6) (s : State) : SameMem s (execFlaskNak sg p s) := by
  simp [execFlaskNak]

@[simp] theorem Segment.memOk_runPending (g : Segment) (cycle p : Nat) : (g.runPending cycle p).memOk = g.memOk := by
  simp only [Segment.runPending]
  split <;> simp

@[simp] theorem same_execFlaskEntry (sg : Fin 8) (p : Fin 6) (s : State) : SameMem s (execFlaskEntry sg p s) := by
  simp [execFlaskEntry]

@[simp] theorem same_execSignalDetect (sg : Fin 8) (p : Fin 6) (s : State) : SameMem s (execSignalDetect sg p s) := by
  simp [execSignalDetect]

@[simp] theorem same_execRelockDone (sg : Fin 8) (p : Fin 6) (seeds : LaneSeeds) (s : State) : SameMem s (execRelockDone sg p seeds s) := by
  simp [execRelockDone]

@[simp] theorem same_execRelockTimeout (sg : Fin 8) (p : Fin 6) (s : State) : SameMem s (execRelockTimeout sg p s) := by
  unfold execRelockTimeout
  refine same_onSeg _ _ _ ?_
  dsimp only
  repeat' split
  all_goals simp

@[simp] theorem same_execPreambleDetect (sg : Fin 8) (p : Fin 6) (s : State) : SameMem s (execPreambleDetect sg p s) := by
  simp [execPreambleDetect]

@[simp] theorem same_execLaneRateWrite (sg : Fin 8) (p : Fin 6) (ag : Agent) (sz : Sz) (v : Word) (s : State) :
    SameMem s (execLaneRateWrite sg p ag sz v s) := by
  simp [execLaneRateWrite]

/-! ## Machine/Faults -/

@[simp] theorem Segment.memOk_refuse492 (g : Segment) (tick off : Nat) (v : Word) : (g.refuse492 tick off v).memOk = g.memOk := by
  simp [Segment.refuse492]

@[simp] theorem Segment.memOk_headWrite (g : Segment) (v : BitVec 16) : (g.headWrite v).memOk = g.memOk := by
  simp [Segment.headWrite]

@[simp] theorem same_execFltHeadWrite (sg : Fin 8) (ag : Agent) (v : Word) (s : State) : SameMem s (execFltHeadWrite sg ag v s) := by
  simp [execFltHeadWrite]

@[simp] theorem Segment.memOk_fltPost (g : Segment) (tick : Nat) (ag : Agent) (v : Word) : (g.fltPost tick ag v).memOk = g.memOk := by
  simp [Segment.fltPost]

@[simp] theorem same_execFltPost (sg : Fin 8) (ag : Agent) (v : Word) (s : State) : SameMem s (execFltPost sg ag v s) := by
  simp [execFltPost]

@[simp] theorem Segment.memOk_ovfClear (g : Segment) (tick : Nat) (v : Word) : (g.ovfClear tick v).memOk = g.memOk := by
  simp [Segment.ovfClear]

@[simp] theorem same_execOvfClear (sg : Fin 8) (ag : Agent) (v : Word) (s : State) : SameMem s (execOvfClear sg ag v s) := by
  simp [execOvfClear]

@[simp] theorem Segment.memOk_suppClear (g : Segment) (tick : Nat) (ag : Agent) : (g.suppClear tick ag).memOk = g.memOk := by
  simp [Segment.suppClear]

@[simp] theorem same_execSuppClear (sg : Fin 8) (ag : Agent) (s : State) : SameMem s (execSuppClear sg ag s) := by
  simp [execSuppClear]

@[simp] theorem Segment.memOk_knownSet (g : Segment) (tick : Nat) (known : List (BitVec 15)) (op : Nat) (node : Option (BitVec 15)) :
    (g.knownSet tick known op node).memOk = g.memOk := by
  simp [Segment.knownSet]

@[simp] theorem State.memOk_knownRemove (s : State) (node : BitVec 15) : (s.knownRemove node).memOk = s.memOk := by
  simp [State.knownRemove]

@[simp] theorem State.memOk_knownClear (s : State) : s.knownClear.memOk = s.memOk := by
  simp [State.knownClear]

@[simp] theorem State.memOk_kdCmd (s : State) (sg : Nat) (ag : Agent) (v : Word) (f : State → State) (kept : (f s).memOk = s.memOk) :
    (s.kdCmd sg ag v f).memOk = s.memOk := by
  simp [State.kdCmd, kept]

@[simp] theorem same_execKdRemove (sg : Fin 8) (ag : Agent) (node : BitVec 15) (s : State) : SameMem s (execKdRemove sg ag node s) := by
  simp [execKdRemove]

@[simp] theorem same_execKdClear (sg : Fin 8) (ag : Agent) (s : State) : SameMem s (execKdClear sg ag s) := by
  simp [execKdClear]

/-! ## Machine/LinkDown -/

@[simp] theorem Segment.memOk_portDown (g : Segment) (cycle p : Nat) : (g.portDown cycle p).memOk = g.memOk := by
  simp [Segment.portDown]

@[simp] theorem Segment.memOk_failRetrain (g : Segment) (cycle p : Nat) : (g.failRetrain cycle p).memOk = g.memOk := by
  simp [Segment.failRetrain]

/-! ## Machine/Target -/

@[simp] theorem State.memOk_onDpt (s : State) (sg : Nat) (ch : Bool) (id : BitVec 12) (f : State → State) (kept : (f s).memOk = s.memOk) :
    (s.onDpt sg ch id f).memOk = s.memOk := by
  simp [State.onDpt, kept]

@[simp] theorem Segment.memOk_dptAccept (g : Segment) (r : DptReq) : (g.dptAccept r).memOk = g.memOk := by
  simp [Segment.dptAccept]

@[simp] theorem Segment.memOk_postSweep (g : Segment) : g.postSweep.memOk = g.memOk := by
  simp [Segment.postSweep]

@[simp] theorem Segment.memOk_sendEntry (g : Segment) (cycle : Nat) (e : MergeEntry) (line : List Byte) :
    (g.sendEntry cycle e line).memOk = g.memOk := by
  simp [Segment.sendEntry]

@[simp] theorem Segment.memOk_flushEntry (g : Segment) (cycle : Nat) (e : MergeEntry) : (g.flushEntry cycle e).memOk = g.memOk := by
  simp [Segment.flushEntry]

@[simp] theorem Segment.memOk_flushWhere (g : Segment) (cycle : Nat) (p : MergeEntry → Bool) : (g.flushWhere cycle p).memOk = g.memOk := by
  simp [Segment.flushWhere]

@[simp] theorem Segment.memOk_openEntry (g : Segment) (cycle line : Nat) (ctx : BitVec 12) :
    (g.openEntry cycle line ctx).memOk = g.memOk := by
  simp only [Segment.openEntry]
  repeat' split
  all_goals simp

@[simp] theorem Segment.memOk_putEntry (g : Segment) (cycle : Nat) (e : MergeEntry) (ch : Bool) (id : Nat) (bytes : List (Nat × Byte)) :
    (g.putEntry cycle e ch id bytes).memOk = g.memOk := by
  simp [Segment.putEntry]

@[simp] theorem Segment.memOk_noteFlush (g : Segment) (cycle line from_ : Nat) (req : Option DptReq) (entries : List
    (MergeEntry × List Byte)) : (g.noteFlush cycle line from_ req entries).memOk = g.memOk := by
  simp [Segment.noteFlush]

@[simp] theorem Segment.memOk_unflush (g : Segment) (r : DptReading) : (g.unflush r).memOk = g.memOk := by
  simp [Segment.unflush]

@[simp] theorem Segment.memOk_readLine (g : Segment) (cycle : Nat) (r : DptReq) : (g.readLine cycle r).memOk = g.memOk := by
  simp [Segment.readLine]

@[simp] theorem Segment.memOk_mergeBytes (g : Segment) (cycle : Nat) (r : DptReq) (n : Nat) : (g.mergeBytes cycle r n).memOk = g.memOk := by
  simp only [Segment.mergeBytes]
  repeat' split
  all_goals simp

@[simp] theorem Segment.memOk_mergeWrite (g : Segment) (cycle : Nat) (r : DptReq) (n : Nat) : (g.mergeWrite cycle r n).memOk = g.memOk := by
  simp only [Segment.mergeWrite]
  repeat' split
  all_goals simp

@[simp] theorem same_execDptWrite (sg : Fin 8) (req : DptReq) (s : State) : SameMem s (execDptWrite sg req s) := by
  refine same_onSeg _ _ _ (State.memOk_onDpt _ _ _ _ _ ?_)
  dsimp only
  repeat' split
  all_goals simp

@[simp] theorem same_execDptRead (sg : Fin 8) (req : DptReq) (s : State) : SameMem s (execDptRead sg req s) := by
  refine same_onSeg _ _ _ (State.memOk_onDpt _ _ _ _ _ ?_)
  dsimp only
  repeat' split
  all_goals simp

@[simp] theorem same_execMergeFlushCmd (sg : Fin 8) (ag : Agent) (s : State) : SameMem s (execMergeFlushCmd sg ag s) := by
  simp [execMergeFlushCmd]

@[simp] theorem Segment.memOk_fenceRead (g : Segment) (cycle : Nat) (ch : Bool) (id ctx : BitVec 12) (sz : Sz) :
    (g.fenceRead cycle ch id ctx sz).memOk = g.memOk := by
  simp [Segment.fenceRead]

@[simp] theorem same_execSegFenceRead (sg : Fin 8) (ch : Bool) (id ctx : BitVec 12) (s : State) :
    SameMem s (execSegFenceRead sg ch id ctx s) := by
  unfold execSegFenceRead
  refine same_onSeg _ _ _ ?_
  dsimp only
  simp

/-! ## Machine/TicketSteps -/

@[simp] theorem same_execTrailSubmit (sg : Fin 8) (ag : Agent) (v : Word) (s : State) : SameMem s (execTrailSubmit sg ag v s) := by
  unfold execTrailSubmit
  refine same_onDoms _ _ _ _ _ fun s => ?_
  dsimp only
  repeat' split
  all_goals simp

@[simp] theorem Segment.memOk_headerRing (g : Segment) (b : List Byte) : (g.headerRing b).1.memOk = g.memOk := by
  simp only [Segment.headerRing]
  split
  · rfl
  · split
    next found => exact memOk_of_localSpan found
    next found =>
      split
      all_goals
        next second => exact (memOk_of_localSpan second).trans (memOk_of_localSpan found)

@[simp] theorem Segment.memOk_wantQuad (g : Segment) (tick : Nat) : (g.wantQuad tick).memOk = g.memOk := by
  simp only [Segment.wantQuad]
  repeat' split
  all_goals simp

@[simp] theorem same_execTicketResume (sg : Fin 8) (n : Fin 4096) (s : State) : SameMem s (execTicketResume sg n s) := by
  unfold execTicketResume
  refine same_onSeg _ _ _ ?_
  dsimp only
  repeat' split
  all_goals simp

@[simp] theorem same_execCqFullTimeout (sg : Fin 8) (ring : Nat) (s : State) : SameMem s (execCqFullTimeout sg ring s) := by
  refine same_onSeg _ _ _ (State.memOk_mod _ _ _ fun g => ?_)
  repeat' split
  all_goals simp

@[simp] theorem Segment.memOk_cancelDenied (g : Segment) (tick mode target : Nat) : (g.cancelDenied tick mode target).memOk = g.memOk := by
  simp [Segment.cancelDenied]

@[simp] theorem same_execTrlSaveBaseWrite (sg : Fin 8) (ag : Agent) (sz : Sz) (v : Word) (s : State) :
    SameMem s (execTrlSaveBaseWrite sg ag sz v s) := by
  simp [execTrlSaveBaseWrite]

/-! ## Machine/Placement -/

@[simp] theorem Segment.memOk_ctxResult (g : Segment) (ctx : BitVec 12) (reason : Nat) : (g.ctxResult ctx reason).memOk = g.memOk := by
  simp [Segment.ctxResult]

@[simp] theorem same_execCtxBaseWrite (sg : Fin 8) (ag : Agent) (sz : Sz) (v : Word) (st : DpmStatus) (s : State) :
    SameMem s (execCtxBaseWrite sg ag sz v st s) := by
  simp [execCtxBaseWrite]

theorem Segment.memOk_ctxCmd {g h : Segment} {tick : Nat} {ag : Agent} {cmd : Nat} {ctx : BitVec 12} {bad : Bool}
    (done : g.ctxCmd tick ag cmd ctx bad = some h) : h.memOk = g.memOk := by
  simp only [Segment.ctxCmd] at done
  split at done
  · cases done
    simp
  · split at done <;> cases done
    simp

@[simp] theorem Segment.memOk_residentFrom (g : Segment) (ctx : BitVec 12) : (g.residentFrom ctx).memOk = g.memOk := by
  simp [Segment.residentFrom]

@[simp] theorem same_execHotDecay (sg : Fin 8) (s : State) : SameMem s (execHotDecay sg s) := by
  simp [execHotDecay]

@[simp] theorem State.memOk_guardWrite (s : State) (sg : Nat) (ag : Agent) (off : Nat) (w : Word) (crit : Nat) (v : Word) :
    (s.guardWrite sg ag off w crit v).memOk = s.memOk := by
  simp [State.guardWrite]

@[simp] theorem same_execGuardBaseWrite (sg : Fin 8) (ag : Agent) (sz : Sz) (v : Word) (s : State) :
    SameMem s (execGuardBaseWrite sg ag sz v s) := by
  simp [execGuardBaseWrite]

@[simp] theorem same_execGuardSizeWrite (sg : Fin 8) (ag : Agent) (sz : Sz) (v : Word) (s : State) :
    SameMem s (execGuardSizeWrite sg ag sz v s) := by
  simp [execGuardSizeWrite]

@[simp] theorem State.memOk_guardDrop (s : State) (sg idx : Nat) : (s.guardDrop sg idx).memOk = s.memOk := by
  simp [State.guardDrop]

@[simp] theorem same_execGuardInval (sg : Fin 8) (ag : Agent) (idx : BitVec 17) (s : State) : SameMem s (execGuardInval sg ag idx s) := by
  simp [execGuardInval]

@[simp] theorem same_execLoadPublish (sg : Fin 8) (s : State) : SameMem s (execLoadPublish sg s) := by
  unfold execLoadPublish
  refine same_onSeg _ _ _ ?_
  dsimp only
  repeat' split
  all_goals simp

@[simp] theorem Segment.memOk_takeFrame (g : Segment) (f : Nat) : (g.takeFrame f).memOk = g.memOk := by
  simp [Segment.takeFrame]

@[simp] theorem Segment.memOk_giveFrame (g : Segment) (f : Nat) : (g.giveFrame f).memOk = g.memOk := by
  simp [Segment.giveFrame]

@[simp] theorem same_execReplicaFrameReturn (sg : Fin 8) (s : State) : SameMem s (execReplicaFrameReturn sg s) := by
  unfold execReplicaFrameReturn
  refine same_onSeg _ _ _ ?_
  dsimp only
  repeat' split
  all_goals simp

@[simp] theorem same_execPlcReplicateOff (sg : Fin 8) (ag : Agent) (s : State) : SameMem s (execPlcReplicateOff sg ag s) := by
  simp [execPlcReplicateOff]

@[simp] theorem same_execFhWindowWrite (sg : Fin 8) (ag : Agent) (sz : Sz) (v : Word) (s : State) :
    SameMem s (execFhWindowWrite sg ag sz v s) := by
  simp [execFhWindowWrite]

@[simp] theorem State.memOk_setHoming (s : State) (f : List (Nat × Homing) → List (Nat × Homing)) : (s.setHoming f).memOk = s.memOk := by
  simp [State.setHoming]

theorem State.memOk_placeRegion {s t : State} {sg : Nat} {x : Nat × Nat} (placed : s.placeRegion sg = some (t, x)) : t.memOk = s.memOk := by
  simp only [State.placeRegion] at placed
  repeat' split at placed
  all_goals cases placed
  all_goals simp

@[simp] theorem Segment.memOk_fhDone (g : Segment) : g.fhDone.memOk = g.memOk := by
  simp [Segment.fhDone]

@[simp] theorem Segment.memOk_settleFrames (g : Segment) : g.settleFrames.memOk = g.memOk := by
  simp [Segment.settleFrames]

@[simp] theorem State.memOk_abandonMove (s : State) (sg : Nat) (m : Move) : (s.abandonMove sg m).memOk = s.memOk := by
  simp [State.abandonMove]

@[simp] theorem State.memOk_moveWatch (s : State) (sg : Nat) : (s.moveWatch sg).memOk = s.memOk := by
  simp only [State.moveWatch]
  repeat' split
  all_goals simp

@[simp] theorem State.memOk_releaseRegion (s : State) (key : Nat) (h : Homing) : (s.releaseRegion key h).memOk = s.memOk := by
  simp only [State.releaseRegion]
  split <;> simp

@[simp] theorem same_execFhRelease (sg : Fin 8) (ag : Agent) (v : Word) (s : State) : SameMem s (execFhRelease sg ag v s) := by
  simp [execFhRelease]

@[simp] theorem State.memOk_publishCounts (s : State) (sg : Nat) : (s.publishCounts sg).memOk = s.memOk := by
  refine (memOk_mod _ _ _ fun g => by simp).trans (memOk_foldl _ _ _ fun t x => ?_)
  dsimp only
  split <;> simp

@[simp] theorem State.memOk_startMove (s : State) (sg key t : Nat) : (s.startMove sg key t).memOk = s.memOk := by
  simp only [State.startMove]
  split <;> simp

@[simp] theorem same_execMovePeriod (sg : Fin 8) (s : State) : SameMem s (execMovePeriod sg s) := by
  unfold execMovePeriod
  refine same_onSeg _ _ _ ?_
  dsimp only
  repeat' split
  all_goals simp

@[simp] theorem Segment.memOk_movedOut (g : Segment) (cycle : Nat) (m : Move) (frame : Nat) :
    (g.movedOut cycle m frame).memOk = g.memOk := by
  simp [Segment.movedOut]

@[simp] theorem same_execMoveFlipDone (sg : Fin 8) (s : State) : SameMem s (execMoveFlipDone sg s) := by
  unfold execMoveFlipDone
  refine same_onSeg _ _ _ ?_
  dsimp only
  repeat' split
  all_goals simp

/-! ## Machine/Images -/

@[simp] theorem Segment.memOk_writeKey (g : Segment) (n : Nat) (k : KeySlot) : (g.writeKey n k).memOk = g.memOk := by
  simp [Segment.writeKey]

@[simp] theorem memOk_modKpr (f : Kpr → Kpr) (g : Segment) : (modKpr f g).memOk = g.memOk := by
  simp [modKpr]

@[simp] theorem Segment.memOk_keeperFault (g : Segment) (tick : Nat) (info : BitVec 32) (ctx : Option (BitVec 12)) :
    (g.keeperFault tick info ctx).memOk = g.memOk := by
  simp [Segment.keeperFault]

@[simp] theorem Segment.memOk_certCheck (g : Segment) (tick : Nat) : (g.certCheck tick).memOk = g.memOk := by
  simp [Segment.certCheck]

@[simp] theorem Segment.memOk_setStage (g : Segment) (n : Nat) : (g.setStage n).memOk = g.memOk := by
  simp [Segment.setStage]

@[simp] theorem Segment.memOk_bootFail (g : Segment) (code : Nat) : (g.bootFail code).memOk = g.memOk := by
  simp [Segment.bootFail]

@[simp] theorem Core.lb_restart (k : Core) (pc : Nat) : (k.restart pc).lb = k.lb := by
  simp [Core.restart]

@[simp] theorem Segment.memOk_startSteward (g : Segment) (tick image : Nat) : (g.startSteward tick image).memOk = g.memOk := by
  simp [Segment.startSteward]

@[simp] theorem Segment.memOk_areaWrite (g : Segment) (sz : Sz) (v : Word) : (g.areaWrite sz v).memOk = g.memOk := by
  unfold Segment.areaWrite
  split <;> simp

@[simp] theorem same_execSegBootAreaWrite (sg : Fin 8) (ag : Agent) (sz : Sz) (v : Word) (s : State) :
    SameMem s (execSegBootAreaWrite sg ag sz v s) := by
  simp [execSegBootAreaWrite]

/-! ## Machine/Spdm -/

@[simp] theorem State.memOk_setSession (s : State) (host : Bool) (ses : Session) (x : SpdmSes) :
    (s.setSession host ses x).memOk = s.memOk := by
  simp [State.setSession]

@[simp] theorem State.memOk_touchSession (s : State) (host : Bool) (ses : Session) : (s.touchSession host ses).memOk = s.memOk := by
  simp only [State.touchSession]
  split <;> simp

@[simp] theorem State.memOk_hostKeys (s : State) (x : SpdmSes) : (s.hostKeys x).memOk = s.memOk := by
  simp [State.hostKeys]

@[simp] theorem State.memOk_setSpdmStage (s : State) (host : Bool) (n : Nat) : (s.setSpdmStage host n).memOk = s.memOk := by
  simp [State.setSpdmStage]

@[simp] theorem State.memOk_spdmKeyExchange (s : State) (host : Bool) (slot : Nat) (pub : List Byte) (ctx : Option (BitVec 12)) :
    (s.spdmKeyExchange host slot pub ctx).1.memOk = s.memOk := by
  simp only [State.spdmKeyExchange]
  repeat' split
  all_goals simp

@[simp] theorem State.memOk_spdmFinish (s : State) (host : Bool) (ses : Session) (mac : List Byte) :
    (s.spdmFinish host ses mac).1.memOk = s.memOk := by
  simp only [State.spdmFinish]
  repeat' split
  all_goals simp

@[simp] theorem State.memOk_spdm (s : State) (host : Bool) (ses : Session) (r : SpdmReq) : (s.spdm host ses r).1.memOk = s.memOk := by
  simp only [State.spdm]
  repeat' split
  all_goals simp

@[simp] theorem same_execSpdmSessionTimeout (ses : Session) (s : State) : SameMem s (execSpdmSessionTimeout ses s) := by
  unfold execSpdmSessionTimeout
  refine same_onSeg _ _ _ ?_
  dsimp only
  repeat' split
  all_goals simp

/-! ## Machine/Seal -/

@[simp] theorem Segment.memOk_keeperAck (g : Segment) (ch code : Nat) : (g.keeperAck ch code).memOk = g.memOk := by
  simp [Segment.keeperAck]

@[simp] theorem State.memOk_serve13 (s : State) (sg ch notice : Nat) (f : State → Agent → Nat → State × Nat)
    (kept : ∀ s ag ptr, (f s ag ptr).1.memOk = s.memOk) : (s.serve13 sg ch notice f).memOk = s.memOk := by
  unfold State.serve13
  split
  · rfl
  next ag ptr _ =>
    have served := kept s ag ptr
    simp [served]

theorem State.memOk_installCtx {s t : State} {ctx : BitVec 12} {key : List Byte} (installed : s.installCtx ctx key = some t) :
    t.memOk = s.memOk := by
  unfold State.installCtx at installed
  split at installed <;> cases installed
  simp

@[simp] theorem Segment.memOk_modKprTear (g : Segment) (f : List (BitVec 12) → List (BitVec 12)) : (g.modKprTear f).memOk = g.memOk := by
  simp [Segment.modKprTear]

@[simp] theorem Segment.memOk_disarmCtx (g : Segment) (ctx : BitVec 12) : (g.disarmCtx ctx).memOk = g.memOk := by
  simp [Segment.disarmCtx]

@[simp] theorem Segment.memOk_forgetCtx (g : Segment) (ctx : BitVec 12) : (g.forgetCtx ctx).memOk = g.memOk := by
  refine memOk_of_same rfl rfl ?_
  simp only [Segment.forgetCtx, List.map_map]
  refine List.map_congr_left fun k _ => ?_
  simp only [Function.comp, apply_ite Core.lb, ite_self]

@[simp] theorem State.memOk_sealSettle (s : State) : s.sealSettle.memOk = s.memOk := by
  refine memOk_modAll _ _ fun g => ?_
  refine (Segment.memOk_foldl _ _ _ fun g x => ?_).trans (by simp)
  split <;> simp

@[simp] theorem State.memOk_stopLoads (s : State) (ctx : BitVec 12) : (s.stopLoads ctx).memOk = s.memOk := by
  simp [State.stopLoads]

@[simp] theorem Segment.memOk_armPorts (g : Segment) (tick slot : Nat) (ctx : BitVec 12) (mask : Nat) :
    (g.armPorts tick slot ctx mask).1.memOk = g.memOk := by
  refine foldl_keeps (p := fun x : Segment × Bool => x.1.memOk = g.memOk) (fun x p kept => ?_) _ rfl
  split <;> simp [kept]

@[simp] theorem Segment.memOk_recordSerial (g : Segment) (ctx : BitVec 12) (serial : Word) :
    (g.recordSerial ctx serial).memOk = g.memOk := by
  simp [Segment.recordSerial]

@[simp] theorem same_execSealArmLinks (sg : Fin 8) (ch : Fin 64) (s : State) : SameMem s (execSealArmLinks sg ch s) := by
  refine same_onSeg _ _ _ (State.memOk_serve13 _ _ _ _ _ fun s ag ptr => ?_)
  have armed : ∀ (s : State) (tick slot : Nat) (ctx : BitVec 12) (mask : Nat → Nat) (l : List Nat),
      (l.foldl (fun (x : State × Nat) k =>
        let (g, bad) := (x.1.seg k).armPorts tick slot ctx (mask k)
        (x.1.setSeg k g, if bad then rcState else x.2)) (s, rcOk)).1.memOk = s.memOk := fun s tick slot ctx mask l =>
    foldl_keeps (p := fun x : State × Nat => x.1.memOk = s.memOk) (fun x k kept => by simp [kept]) l rfl
  dsimp only
  repeat' split
  case h_2.isFalse.isFalse => exact (armed _ _ _ _ _ _).trans (by simp)
  all_goals simp

@[simp] theorem Segment.memOk_keySerial (g : Segment) (n serial : Nat) : (g.keySerial n serial).memOk = g.memOk := by
  simp [Segment.keySerial]

@[simp] theorem same_execFenceLane (sg : Fin 8) (ch : Fin 64) (s : State) : SameMem s (execFenceLane sg ch s) := by
  refine same_onSeg _ _ _ (State.memOk_serve13 _ _ _ _ _ fun s ag ptr => ?_)
  dsimp only
  repeat' split
  all_goals simp

/-! ## Machine/Resets -/

@[simp] theorem map_lb_romCores (l : List Core) : (romCores l).map Core.lb = l.map Core.lb := map_modAt Core.lb l 16 fun _ => rfl

theorem Segment.memOk_cold {g : Segment} (h : g.memOk = true) (st sampled : Straps) (err : Bool) : (g.cold st sampled err).memOk = true := by
  obtain ⟨hbm, sp, -⟩ := g.memOk_iff.mp h
  refine (memOk_iff _).mpr ⟨hbm, sp, ?_⟩
  show ∀ k ∈ romCores (List.replicate 18 {}), memWf k.lb = true
  decide

@[simp] theorem same_execColdResetAssert (s : State) : SameMem s (execColdResetAssert s) := by
  intro t next
  cases next
  simp

@[simp] theorem Segment.memOk_warmHamper (g old : Segment) : (g.warmHamper old).memOk = g.memOk := by
  simp [Segment.warmHamper]

@[simp] theorem Segment.memOk_warm (g : Segment) (tick : Nat) : (g.warm tick).memOk = g.memOk := by
  have lbs : (romCores (g.cores.map fun k => ({ lb := k.lb, lbBad := k.lbBad } : Core))).map Core.lb = g.cores.map Core.lb := by simp
  simp only [Segment.warm, memOk_setFld, memOk_warmHamper]
  exact memOk_of_same rfl rfl lbs

@[simp] theorem Segment.memOk_wakeAll (g : Segment) (tick : Nat) : (g.wakeAll tick).memOk = g.memOk := by
  simp [Segment.wakeAll]

@[simp] theorem Segment.memOk_strapFail (g : Segment) (tick : Nat) : (g.strapFail tick).memOk = g.memOk := by
  simp [Segment.strapFail]

@[simp] theorem Segment.memOk_errorLine (g : Segment) : g.errorLine.memOk = g.memOk := by
  simp [Segment.errorLine]

@[simp] theorem same_execScrubLimitExpiry (sg : Fin 8) (s : State) : SameMem s (execScrubLimitExpiry sg s) := by
  unfold execScrubLimitExpiry
  refine same_onSeg _ _ _ ?_
  dsimp only
  repeat' split
  all_goals simp

@[simp] theorem State.memOk_bridgesLost (s : State) (sg : Nat) : (s.bridgesLost sg).memOk = s.memOk := by
  simp [State.bridgesLost]

@[simp] theorem Segment.memOk_fastHeld (g : Segment) (tick : Nat) : (g.fastHeld tick).memOk = g.memOk := by
  refine Eq.trans (memOk_of_same (g := g.keeperDown tick) rfl rfl ?_) (memOk_keeperDown g tick)
  simp [Segment.fastHeld]

@[simp] theorem Segment.memOk_deriveKeys (g : Segment) : g.deriveKeys.memOk = g.memOk := by
  simp [Segment.deriveKeys]

@[simp] theorem Segment.memOk_bistBank (g : Segment) (tick : Nat) (rows : List (Fin 12 × BitVec 15)) (badCheckers : List (Fin 12))
    (b : Nat) : (g.bistBank tick rows badCheckers b).memOk = g.memOk := by
  simp [Segment.bistBank]

@[simp] theorem Segment.memOk_bist (g : Segment) (time : Nat) (rows : List (Fin 12 × BitVec 15)) (badCheckers : List (Fin 12))
    (voterBad : Bool) : (g.bist time rows badCheckers voterBad).memOk = g.memOk := by
  simp [Segment.bist]

@[simp] theorem State.memOk_mergeLost (s : State) (sg b : Nat) : (s.mergeLost sg b).memOk = s.memOk := by
  unfold State.mergeLost
  dsimp only
  split
  · rfl
  · refine memOk_foldl _ _ _ fun s e => ?_
    split
    · simp
    · exact (memOk_mod _ _ _ fun g => by simp).trans (by simp)

@[simp] theorem Segment.memOk_forgetRegs (g : Segment) (lo hi : Nat) : (g.forgetRegs lo hi).memOk = g.memOk := by
  simp [Segment.forgetRegs]

@[simp] theorem Segment.memOk_forget (g : Segment) (d : Nat) : (g.forget d).memOk = g.memOk := by
  simp [Segment.forget]

@[simp] theorem Segment.memOk_updateEnd (g : Segment) (u : StewardUpd) (code : Nat) : (g.updateEnd u code).memOk = g.memOk := by
  simp [Segment.updateEnd]

@[simp] theorem Segment.memOk_readyWrite (g : Segment) (tick : Nat) (ag : Agent) : (g.readyWrite tick ag).memOk = g.memOk := by
  simp only [Segment.readyWrite]
  repeat' split
  all_goals simp

@[simp] theorem same_execStewardReady (sg : Fin 8) (ag : Agent) (s : State) : SameMem s (execStewardReady sg ag s) := by
  simp [execStewardReady]

@[simp] theorem Segment.memOk_otherSteward (g : Segment) (tick : Nat) : (g.otherSteward tick).memOk = g.memOk := by
  simp [Segment.otherSteward]

@[simp] theorem same_execStewardReadyTimeout (sg : Fin 8) (s : State) : SameMem s (execStewardReadyTimeout sg s) := by
  unfold execStewardReadyTimeout
  refine same_onSeg _ _ _ ?_
  dsimp only
  repeat' split
  all_goals simp

@[simp] theorem same_execStewardUpdate (sg : Fin 8) (ch : Fin 64) (s : State) : SameMem s (execStewardUpdate sg ch s) := by
  unfold execStewardUpdate
  refine same_onSeg _ _ _ ?_
  dsimp only
  repeat' split
  all_goals simp

@[simp] theorem Segment.memOk_prepareStep (g : Segment) (tick : Nat) : (g.prepareStep tick).memOk = g.memOk := by
  simp only [Segment.prepareStep]
  repeat' split
  all_goals simp

@[simp] theorem same_execPrepare (sg : Fin 8) (s : State) : SameMem s (execPrepare sg s) := by
  simp [execPrepare]

@[simp] theorem same_execDispatchResumeLimit (sg : Fin 8) (s : State) : SameMem s (execDispatchResumeLimit sg s) := by
  refine same_onSeg _ _ _ (State.memOk_mod _ _ _ fun g => ?_)
  repeat' split
  all_goals simp

@[simp] theorem same_execMailboxTimeout (sg : Fin 8) (ch : Fin 64) (s : State) : SameMem s (execMailboxTimeout sg ch s) := by
  refine same_onSeg _ _ _ (State.memOk_mod _ _ _ fun g => ?_)
  dsimp only
  repeat' split
  all_goals simp

/-! ## Machine/PowerSteps -/

@[simp] theorem Segment.memOk_setClass (g : Segment) (c : Nat) : (g.setClass c).memOk = g.memOk := by
  simp [Segment.setClass]

@[simp] theorem Segment.memOk_rampWrite (g : Segment) (tick : Nat) (ag : Agent) (sz : Sz) (v : Word) :
    (g.rampWrite tick ag sz v).memOk = g.memOk := by
  simp [Segment.rampWrite]

@[simp] theorem same_execRampClassWrite (sg : Fin 8) (ag : Agent) (sz : Sz) (v : Word) (s : State) :
    SameMem s (execRampClassWrite sg ag sz v s) := by
  simp [execRampClassWrite]

@[simp] theorem State.memOk_bridgeAsleep (s : State) (sg : Nat) : (s.bridgeAsleep sg).memOk = s.memOk := by
  simp [State.bridgeAsleep]

@[simp] theorem State.memOk_sleepDom (s : State) (sg d : Nat) : (s.sleepDom sg d).memOk = s.memOk := by
  simp [State.sleepDom]

@[simp] theorem same_execDomainSleep (sg : Fin 8) (d : Fin 35) (s : State) : SameMem s (execDomainSleep sg d s) := by
  unfold execDomainSleep
  refine same_onSeg _ _ _ ?_
  dsimp only
  repeat' split
  all_goals simp

@[simp] theorem same_execDomainWake (sg : Fin 8) (d : Fin 35) (s : State) : SameMem s (execDomainWake sg d s) := by
  simp [execDomainWake]

@[simp] theorem State.memOk_routerWakes (s : State) (sg : Nat) : (s.routerWakes sg).memOk = s.memOk := by
  simp [State.routerWakes]

@[simp] theorem same_execPwrAckTimeout (sg : Fin 8) (d : Fin 35) (s : State) : SameMem s (execPwrAckTimeout sg d s) := by
  unfold execPwrAckTimeout
  refine same_onSeg _ _ _ ?_
  dsimp only
  repeat' split
  all_goals simp

@[simp] theorem Segment.memOk_holdWrite (g : Segment) (tick : Nat) (ag : Agent) (sz : Sz) (v : Word) :
    (g.holdWrite tick ag sz v).memOk = g.memOk := by
  simp [Segment.holdWrite]

@[simp] theorem same_execPwrHoldWrite (sg : Fin 8) (ag : Agent) (sz : Sz) (v : Word) (s : State) :
    SameMem s (execPwrHoldWrite sg ag sz v s) := by
  simp [execPwrHoldWrite]

@[simp] theorem Segment.memOk_timer (g : Segment) (tick : Nat) (f : Fld) (d : Nat) : (g.timer tick f d).memOk = g.memOk := by
  simp only [Segment.timer]
  split <;> simp

@[simp] theorem same_execKeeperTimer (sg : Fin 8) (s : State) : SameMem s (execKeeperTimer sg s) := by
  simp [execKeeperTimer]

@[simp] theorem same_execStewardTimer (sg : Fin 8) (s : State) : SameMem s (execStewardTimer sg s) := by
  simp [execStewardTimer]

@[simp] theorem Segment.memOk_stepped (g : Segment) (tick : Nat) : (g.stepped tick).memOk = g.memOk := by
  simp [Segment.stepped]

@[simp] theorem same_execKettleHoldExpiry (sg : Fin 8) (p : Fin 6) (s : State) : SameMem s (execKettleHoldExpiry sg p s) := by
  unfold execKettleHoldExpiry
  refine same_onSeg _ _ _ ?_
  dsimp only
  repeat' split
  all_goals simp

@[simp] theorem same_execFlaskAfterExpiry (sg : Fin 8) (p : Fin 6) (s : State) : SameMem s (execFlaskAfterExpiry sg p s) := by
  unfold execFlaskAfterExpiry
  refine same_onSeg _ _ _ ?_
  dsimp only
  repeat' split
  all_goals simp

@[simp] theorem same_execQuietPattern (sg : Fin 8) (p : Fin 6) (s : State) : SameMem s (execQuietPattern sg p s) := by
  simp [execQuietPattern]

@[simp] theorem same_execStilePortWake (sg : Fin 8) (grp : BitVec 12) (s : State) : SameMem s (execStilePortWake sg grp s) := by
  unfold execStilePortWake
  refine same_onSeg _ _ _ ?_
  dsimp only
  repeat' split
  all_goals simp

@[simp] theorem Segment.memOk_sendHint (g : Segment) (tick v : Nat) : (g.sendHint tick v).memOk = g.memOk := by
  simp [Segment.sendHint]

@[simp] theorem Segment.memOk_paceNotice (g : Segment) (tick : Nat) : (g.paceNotice tick).memOk = g.memOk := by
  simp only [Segment.paceNotice]
  repeat' split
  all_goals simp

@[simp] theorem Segment.memOk_msEnd (g : Segment) (waited : Bool) : (g.msEnd waited).memOk = g.memOk := by
  simp [Segment.msEnd]

@[simp] theorem Segment.memOk_tenMsEnd (g : Segment) : g.tenMsEnd.memOk = g.memOk := by
  simp [Segment.tenMsEnd]

@[simp] theorem Segment.memOk_windowEnd (g : Segment) (tick w : Nat) : (g.windowEnd tick w).memOk = g.memOk := by
  simp [Segment.windowEnd]

@[simp] theorem same_execPowerWindowEnd (sg : Fin 8) (s : State) : SameMem s (execPowerWindowEnd sg s) := by
  simp [execPowerWindowEnd]

@[simp] theorem same_execCoarseningEnd (sg : Fin 8) (s : State) : SameMem s (execCoarseningEnd sg s) := by
  refine same_onSeg _ _ _ (State.memOk_mod _ _ _ fun g => ?_)
  repeat' split
  all_goals simp

@[simp] theorem Segment.memOk_recvHint (g : Segment) (ch : Nat) (ag : Agent) : (g.recvHint ch ag).memOk = g.memOk := by
  simp [Segment.recvHint]

@[simp] theorem same_execMbxRecv (sg : Fin 8) (ch : Fin 64) (ag : Agent) (s : State) : SameMem s (execMbxRecv sg ch ag s) := by
  simp [execMbxRecv]

@[simp] theorem State.memOk_trackIdle (s : State) : s.trackIdle.memOk = s.memOk := by
  simp [State.trackIdle]

/-! ## Machine/Manage -/

@[simp] theorem State.memOk_reply (s : State) (a : MgmtAns) : (s.reply a).memOk = s.memOk := by
  simp [State.reply]

@[simp] theorem State.memOk_spdmPort (s : State) (ses : Session) (r : SpdmReq) : (s.spdmPort ses r).memOk = s.memOk := by
  simp [State.spdmPort]

@[simp] theorem same_execGetVersion (ses : Session) (s : State) : SameMem s (execGetVersion ses s) := by
  simp [execGetVersion]

@[simp] theorem same_execGetCapabilities (ses : Session) (s : State) : SameMem s (execGetCapabilities ses s) := by
  simp [execGetCapabilities]

@[simp] theorem same_execNegotiateAlgorithms (ses : Session) (asym hash : BitVec 32) (s : State) :
    SameMem s (execNegotiateAlgorithms ses asym hash s) := by
  simp [execNegotiateAlgorithms]

@[simp] theorem same_execGetDigests (ses : Session) (s : State) : SameMem s (execGetDigests ses s) := by
  simp [execGetDigests]

@[simp] theorem same_execGetCertificate (ses : Session) (slot : BitVec 8) (off len : BitVec 16) (s : State) :
    SameMem s (execGetCertificate ses slot off len s) := by
  simp [execGetCertificate]

@[simp] theorem same_execChallenge (ses : Session) (slot : BitVec 8) (nonce : List Byte) (s : State) :
    SameMem s (execChallenge ses slot nonce s) := by
  simp [execChallenge]

@[simp] theorem same_execGetMeasurements (ses : Session) (idx : BitVec 8) (nonce : Option (List Byte)) (s : State) :
    SameMem s (execGetMeasurements ses idx nonce s) := by
  simp [execGetMeasurements]

@[simp] theorem same_execKeyExchange (ses : Session) (slot : BitVec 8) (pub : List Byte) (s : State) :
    SameMem s (execKeyExchange ses slot pub s) := by
  simp [execKeyExchange]

@[simp] theorem same_execFinish (ses : Session) (mac : List Byte) (s : State) : SameMem s (execFinish ses mac s) := by
  simp [execFinish]

@[simp] theorem same_execUnsupportedRequest (ses : Session) (code : BitVec 8) (s : State) :
    SameMem s (execUnsupportedRequest ses code s) := by
  simp [execUnsupportedRequest]

@[simp] theorem same_execStatus (ses : Session) (s : State) : SameMem s (execStatus ses s) := by
  simp [execStatus]

@[simp] theorem State.memOk_lototum (s : State) (ses : Session) (needs : Bool) (f : State → SpdmSes → State)
    (kept : ∀ s x, (f s x).memOk = s.memOk) : (s.lototum ses needs f).memOk = s.memOk := by
  unfold State.lototum
  repeat' split
  all_goals simp [kept]

@[simp] theorem same_execOperatorAuth (ses : Session) (pub sig : List Byte) (s : State) : SameMem s (execOperatorAuth ses pub sig s) :=
  same_onSeg _ _ _ (State.memOk_lototum _ _ _ _ fun s x => by split <;> simp)

@[simp] theorem same_execOperatorKeyAdd (ses : Session) (digest : List Byte) (s : State) : SameMem s (execOperatorKeyAdd ses digest s) := by
  refine same_onSeg _ _ _ (State.memOk_lototum _ _ _ _ fun s x => ?_)
  dsimp only
  split <;> simp

@[simp] theorem same_execOperatorKeyRemove (ses : Session) (digest : List Byte) (s : State) : SameMem s (execOperatorKeyRemove ses digest s) := by
  refine same_onSeg _ _ _ (State.memOk_lototum _ _ _ _ fun s x => ?_)
  dsimp only
  split <;> simp

@[simp] theorem Segment.memOk_koPut (g : Segment) (off : Nat) (v : Word) : (g.koPut off v).memOk = g.memOk := by
  unfold Segment.koPut
  rfl

@[simp] theorem same_execPowerSet (ses : Session) (cls : BitVec 2) (stile salt kettle gap : Word) (s : State) :
    SameMem s (execPowerSet ses cls stile salt kettle gap s) :=
  same_onSeg _ _ _ (State.memOk_lototum _ _ _ _ fun s x => by simp)

@[simp] theorem same_execDebugUnlock (ses : Session) (s : State) : SameMem s (execDebugUnlock ses s) :=
  same_onSeg _ _ _ (State.memOk_lototum _ _ _ _ fun s x => by split <;> simp)

@[simp] theorem same_execDebugLock (ses : Session) (s : State) : SameMem s (execDebugLock ses s) :=
  same_onSeg _ _ _ (State.memOk_lototum _ _ _ _ fun s x => by simp)

@[simp] theorem same_execDynamicAddressAssignment (addr : BitVec 7) (s : State) : SameMem s (execDynamicAddressAssignment addr s) := by
  simp [execDynamicAddressAssignment]

@[simp] theorem same_execSetEndpointId (op : BitVec 2) (eid : BitVec 8) (s : State) : SameMem s (execSetEndpointId op eid s) := by
  simp [execSetEndpointId]

@[simp] theorem same_execGetEndpointId (s : State) : SameMem s (execGetEndpointId s) := by
  simp [execGetEndpointId]

@[simp] theorem same_execGetMctpVersionSupport (typ : BitVec 8) (s : State) : SameMem s (execGetMctpVersionSupport typ s) := by
  simp [execGetMctpVersionSupport]

@[simp] theorem same_execGetMessageTypeSupport (s : State) : SameMem s (execGetMessageTypeSupport s) := by
  simp [execGetMessageTypeSupport]

/-! ## Machine/RegView -/

@[simp] theorem Segment.memOk_shotLevels (g : Segment) (cycle sg : Nat) : (g.shotLevels cycle sg).memOk = g.memOk := by
  simp [Segment.shotLevels]

@[simp] theorem Segment.memOk_takeField (g : Segment) (off : Nat) (f : FieldRow) (v : Word) : (g.takeField off f v).memOk = g.memOk := by
  simp [Segment.takeField]

@[simp] theorem Segment.memOk_takeRead (g : Segment) (r : RegRow) (off : Nat) (sz : Sz) (v : Word) :
    (g.takeRead r off sz v).memOk = g.memOk := by
  simp [Segment.takeRead]

@[simp] theorem Segment.memOk_plainRead (g : Segment) (cycle sg : Nat) (ag : Agent) (r : RegRow) (off : Nat) (sz : Sz) (cap : Option
    (BitVec 32)) : (g.plainRead cycle sg ag r off sz cap).memOk = g.memOk := by
  simp only [Segment.plainRead]
  split <;> simp

/-! ## Machine/RegWrite -/

@[simp] theorem memOk_after (s : State) (o : Out) (same : SameMem s o) : (after s o).memOk = s.memOk := by
  unfold after
  split
  next t => exact same t rfl
  · rfl

@[simp] theorem Segment.memOk_fieldWrite (g : Segment) (ag : Agent) (off : Nat) (koAll : Bool) (v : Word) (f : FieldRow) :
    (g.fieldWrite ag off koAll v f).memOk = g.memOk := by
  simp only [Segment.fieldWrite]
  split <;> simp

@[simp] theorem Segment.memOk_fieldsWrite (g : Segment) (tick : Nat) (ag : Agent) (r : RegRow) (off : Nat) (koAll : Bool) (sz : Sz)
    (v : Word) : (g.fieldsWrite tick ag r off koAll sz v).memOk = g.memOk := by
  simp [Segment.fieldsWrite]

@[simp] theorem State.memOk_allow (s : State) (sg off : Nat) (ok : Bool) (v : Word) (f : State → State) (kept : (f s).memOk = s.memOk) :
    (s.allow sg off ok v f).memOk = s.memOk := by
  simp [State.allow, kept]

@[simp] theorem State.memOk_plain (s : State) (sg : Nat) (ag : Agent) (r : RegRow) (off : Nat) (sz : Sz) (v : Word) :
    (s.plain sg ag r off sz v).memOk = s.memOk := by
  simp [State.plain]

@[simp] theorem State.memOk_writePwr (s : State) (sg : Fin 8) (ag : Agent) (r : RegRow) (off : Nat) (sz : Sz) (v : Word) :
    (s.writePwr sg ag r off sz v).memOk = s.memOk := by
  simp [State.writePwr]

@[simp] theorem State.memOk_writeMbx (s : State) (sg : Fin 8) (ag : Agent) (off : Nat) (sz : Sz) (v : Word) :
    (s.writeMbx sg ag off sz v).memOk = s.memOk := by
  simp [State.writeMbx]

@[simp] theorem State.memOk_writeSealCtrl (s : State) (sg : Fin 8) (p : Fin 6) (ag : Agent) (off : Nat) (w : Word) :
    (s.writeSealCtrl sg p ag off w).memOk = s.memOk := by
  simp [State.writeSealCtrl]

@[simp] theorem State.memOk_writeLnePwr (s : State) (sg : Fin 8) (p : Fin 6) (ag : Agent) (r : RegRow) (off : Nat) (sz : Sz) (v : Word) :
    (s.writeLnePwr sg p ag r off sz v).memOk = s.memOk := by
  simp [State.writeLnePwr]

@[simp] theorem State.memOk_writeRte (s : State) (sg : Fin 8) (ag : Agent) (r : RegRow) (off : Nat) (sz : Sz) (v : Word) :
    (s.writeRte sg ag r off sz v).memOk = s.memOk := by
  simp [State.writeRte]

@[simp] theorem State.memOk_writeCurCtrl (s : State) (sg : Fin 8) (c : Fin 18) (ag : Agent) (r : RegRow) (off : Nat) (sz : Sz) (v : Word) :
    (s.writeCurCtrl sg c ag r off sz v).memOk = s.memOk := by
  simp [State.writeCurCtrl]

@[simp] theorem Segment.memOk_snapshot (g : Segment) (cycle : Nat) : (g.snapshot cycle).memOk = g.memOk := by
  simp [Segment.snapshot]

@[simp] theorem State.memOk_snapWrite (s : State) (sg : Nat) (ag : Agent) : (State.snapWrite s sg ag).memOk = s.memOk := by
  simp [State.snapWrite]

@[simp] theorem same_execTelSnap (sg : Fin 8) (ag : Agent) (s : State) : SameMem s (execTelSnap sg ag s) := by
  simp [execTelSnap]

@[simp] theorem same_execTelPeriodicSnap (sg : Fin 8) (s : State) : SameMem s (execTelPeriodicSnap sg s) := by
  simp [execTelPeriodicSnap]

@[simp] theorem State.memOk_writeTel (s : State) (sg : Fin 8) (ag : Agent) (r : RegRow) (off : Nat) (sz : Sz) (v : Word) :
    (State.writeTel s sg ag r off sz v).memOk = s.memOk := by
  simp [State.writeTel]

@[simp] theorem State.memOk_wakesOf (s : State) (sg off : Nat) (copy : Bool) : (s.wakesOf sg off copy).memOk = s.memOk := by
  simp [State.wakesOf]

@[simp] theorem Segment.memOk_swNote (g : Segment) (ag : Agent) (r : RegRow) (off : Nat) (sz : Sz) (v old : Word) (rank : Nat) :
    (g.swNote ag r off sz v old rank).memOk = g.memOk := by
  simp [Segment.swNote]

@[simp] theorem State.memOk_reply_ (s : State) (sg : Nat) (status : BitVec 4) (v : Word) : (s.reply_ sg status v).memOk = s.memOk := by
  simp [State.reply_]

/-! ## Machine/CtlAccess -/

@[simp] theorem Segment.memOk_issueCtl (g : Segment) (cycle : Nat) (ctx : BitVec 12) (ag : ReqAgent) (addr n : Nat) (v : Option Word)
    (use : LineUse) : (g.issueCtl cycle ctx ag addr n v use).memOk = g.memOk := by
  simp [Segment.issueCtl]

/-! ## Machine/Jtag -/

@[simp] theorem Segment.memOk_modJtag (g : Segment) (f : Jtag → Jtag) : (g.modJtag f).memOk = g.memOk := by
  simp [Segment.modJtag]

@[simp] theorem same_execExtest (sg : Fin 8) (scan : List Bool) (s : State) : SameMem s (execExtest sg scan s) := by
  simp [execExtest]

@[simp] theorem same_execSamplePreload (sg : Fin 8) (pins scan : List Bool) (s : State) : SameMem s (execSamplePreload sg pins scan s) := by
  simp [execSamplePreload]

@[simp] theorem same_execIdcode (sg : Fin 8) (s : State) : SameMem s (execIdcode sg s) := by
  simp [execIdcode]

@[simp] theorem same_execBypass (sg : Fin 8) (code : BitVec 8) (tdi : Bool) (s : State) : SameMem s (execBypass sg code tdi s) := by
  simp [execBypass]

@[simp] theorem same_ctrlScan (sg : Fin 8) (op : Nat) (v : BitVec 72) (s : State) (act : Jtag → Jtag) : SameMem s (ctrlScan sg op v s act) := by
  simp [ctrlScan]

@[simp] theorem same_execCtrlAccessPoll (sg : Fin 8) (scan : BitVec 72) (s : State) : SameMem s (execCtrlAccessPoll sg scan s) := by
  simp [execCtrlAccessPoll]

@[simp] theorem same_execCtrlAccessAddress (sg : Fin 8) (scan : BitVec 72) (s : State) : SameMem s (execCtrlAccessAddress sg scan s) := by
  simp [execCtrlAccessAddress]

@[simp] theorem same_execCtrlAccessRead (sg : Fin 8) (scan : BitVec 72) (s : State) : SameMem s (execCtrlAccessRead sg scan s) := by
  simp [execCtrlAccessRead]

@[simp] theorem same_execCtrlAccessWrite (sg : Fin 8) (scan : BitVec 72) (s : State) : SameMem s (execCtrlAccessWrite sg scan s) := by
  simp [execCtrlAccessWrite]

@[simp] theorem same_execTrst (sg : Fin 8) (s : State) : SameMem s (execTrst sg s) := by
  simp [execTrst]

/-! ## Machine/Idle -/

@[simp] theorem State.memOk_shot (s : State) : s.shot.memOk = s.memOk := by
  simp [State.shot]

@[simp] theorem Segment.memOk_closeWindows (g : Segment) (tick : Nat) : (g.closeWindows tick).memOk = g.memOk := by
  simp [Segment.closeWindows]

@[simp] theorem Segment.memOk_ringsFull (g : Segment) (cycle : Nat) : (g.ringsFull cycle).memOk = g.memOk := by
  simp [Segment.ringsFull]

end Sys2Proof.Machine

end

section
/-! The functions and the commands that may write a memory keep its canonical form, in the order of the model's files. Memories
change by memPut, memPutMask, memZero and memCopy alone, each of which keeps that form. -/

namespace Sys2Proof.Machine

open Sys2Proof

/-! ## The memories of a segment -/

@[simp] theorem Segment.memWf_mem {g : Segment} (h : g.memOk = true) (space : Nat) : memWf (g.mem space) = true := by
  obtain ⟨hbm, sp, -⟩ := g.memOk_iff.mp h
  unfold Segment.mem
  split
  · exact hbm
  · exact sp

@[simp] theorem Segment.memOk_setMem {g : Segment} {space : Nat} {m : Memory} (h : g.memOk = true) (hm : memWf m = true) :
    (g.setMem space m).memOk = true := by
  obtain ⟨hbm, sp, lbs⟩ := g.memOk_iff.mp h
  unfold Segment.setMem
  split
  · exact (memOk_iff _).mpr ⟨hm, sp, lbs⟩
  · exact (memOk_iff _).mpr ⟨hbm, hm, lbs⟩

@[simp] theorem Segment.memWf_core {g : Segment} (h : g.memOk = true) (c : Nat) : memWf (g.core c).lb = true := by
  obtain ⟨-, -, lbs⟩ := g.memOk_iff.mp h
  rw [Segment.core, List.getD_eq_getElem?_getD]
  cases found : g.cores[c]? with
  | none => rfl
  | some k => exact lbs k (List.mem_of_getElem? found)

theorem mem_modAt {α : Type} {l : List α} {i : Nat} {f : α → α} {y : α} (h : y ∈ modAt l i f) : y ∈ l ∨ ∃ x ∈ l, y = f x := by
  induction l generalizing i with
  | nil => exact absurd h (by simp [modAt])
  | cons x l ih =>
    cases i with
    | zero =>
      rcases List.mem_cons.mp h with rfl | old
      · exact .inr ⟨x, by simp, rfl⟩
      · exact .inl (List.mem_cons_of_mem _ old)
    | succ i =>
      rcases List.mem_cons.mp h with rfl | later
      · exact .inl (by simp)
      · rcases ih later with old | ⟨z, hz, rfl⟩
        · exact .inl (List.mem_cons_of_mem _ old)
        · exact .inr ⟨z, List.mem_cons_of_mem _ hz, rfl⟩

@[simp] theorem Segment.memOk_of_modCore {g : Segment} {c : Nat} {f : Core → Core} (h : g.memOk = true)
    (kept : ∀ k, memWf k.lb = true → memWf (f k).lb = true) : (g.modCore c f).memOk = true := by
  obtain ⟨hbm, sp, lbs⟩ := g.memOk_iff.mp h
  refine (memOk_iff _).mpr ⟨hbm, sp, fun k hk => ?_⟩
  rcases mem_modAt hk with old | ⟨k, old, rfl⟩
  · exact lbs k old
  · exact kept k (lbs k old)

@[simp] theorem Segment.memWf_hbm {g : Segment} (h : g.memOk = true) : memWf g.hbm = true := (g.memOk_iff.mp h).1

@[simp] theorem Segment.memOk_hbm {g : Segment} {m : Memory} (h : g.memOk = true) (hm : memWf m = true) :
    ({ g with hbm := m } : Segment).memOk = true :=
  (memOk_iff _).mpr ⟨hm, (g.memOk_iff.mp h).2⟩

@[simp] theorem Segment.memOk_foldl_of {α : Type} {f : Segment → α → Segment} {l : List α} {g : Segment} (h : g.memOk = true)
    (kept : ∀ g a, g.memOk = true → (f g a).memOk = true) : (l.foldl f g).memOk = true :=
  foldl_keeps (p := fun g : Segment => g.memOk = true) kept l h

/-! ## The memories of the package -/

/-- A segment that the package does not have reads as one whose memories list nothing. -/
@[simp] theorem State.memOk_seg {s : State} (h : s.memOk = true) (i : Nat) : (s.seg i).memOk = true := by
  rw [State.seg, List.getD_eq_getElem?_getD]
  cases found : s.segs[i]? with
  | none => exact Segment.memOk_default
  | some g => exact (memOk_iff s).mp h g (List.mem_of_getElem? found)

@[simp] theorem State.memOk_of_setSeg {s : State} {i : Nat} {g : Segment} (h : s.memOk = true) (hg : g.memOk = true) :
    (s.setSeg i g).memOk = true := by
  refine (memOk_iff _).mpr fun x hx => ?_
  rcases List.mem_or_eq_of_mem_set hx with old | rfl
  · exact (memOk_iff s).mp h x old
  · exact hg

@[simp] theorem State.memOk_of_mod {s : State} {i : Nat} {f : Segment → Segment} (h : s.memOk = true)
    (kept : ∀ g, g.memOk = true → (f g).memOk = true) :
    (s.mod i f).memOk = true :=
  memOk_of_setSeg h (kept _ (memOk_seg h i))

@[simp] theorem State.memOk_of_modAll {s : State} {f : Segment → Segment} (h : s.memOk = true) (kept : ∀ g, g.memOk = true → (f g).memOk = true) :
    (s.modAll f).memOk = true := by
  refine (memOk_iff _).mpr fun x hx => ?_
  obtain ⟨g, hg, rfl⟩ := List.mem_map.mp hx
  exact kept g ((memOk_iff s).mp h g hg)

@[simp] theorem State.memOk_of_modCore {s : State} {sg c : Nat} {f : Core → Core} (h : s.memOk = true)
    (kept : ∀ k, memWf k.lb = true → memWf (f k).lb = true) : (s.modCore sg c f).memOk = true :=
  memOk_of_mod h fun _ hg => Segment.memOk_of_modCore hg kept

@[simp] theorem State.memOk_foldl_of {α : Type} {f : State → α → State} {l : List α} {s : State} (h : s.memOk = true)
    (kept : ∀ s a, s.memOk = true → (f s a).memOk = true) : (l.foldl f s).memOk = true :=
  foldl_keeps (p := fun s : State => s.memOk = true) kept l h

theorem State.memOk_cond {c : Prop} [Decidable c] {s t : State} (hs : s.memOk = true) (ht : t.memOk = true) :
    (if c then s else t).memOk = true := by
  split
  · exact hs
  · exact ht

/-! ## Commands -/

/-- A command that leaves a state leaves its memories in the canonical form. -/
def LeavesOk (o : Out) : Prop := ∀ t, o = .next t → t.memOk = true

theorem ok_of_same {s : State} {o : Out} (h : s.memOk = true) (same : SameMem s o) : LeavesOk o := fun t next => (same t next).trans h

@[simp] theorem ok_onSeg {sg : Fin 8} {s : State} {f : State → State} (h : s.memOk = true) (kept : ∀ s, s.memOk = true → (f s).memOk = true) :
    LeavesOk (onSeg sg s f) := by
  intro t next
  unfold onSeg at next
  split at next
  · cases next
    split
    · exact h
    · exact kept s h
  · cases next

@[simp] theorem ok_onCtl {sg : Fin 8} {ag : Agent} {s : State} {f : State → State} (h : s.memOk = true)
    (kept : ∀ s, s.memOk = true → (f s).memOk = true) : LeavesOk (onCtl sg ag s f) :=
  ok_onSeg h fun s hs => kept _ ((State.memOk_dropCaptures s ag).trans hs)

@[simp] theorem ok_onDoms {sg : Fin 8} {ag : Agent} {ds : List Nat} {s : State} {f : State → State} (h : s.memOk = true)
    (kept : ∀ s, s.memOk = true → (f s).memOk = true) : LeavesOk (onDoms sg ag ds s f) := by
  refine ok_onCtl h fun s hs => ?_
  have woken : (s.wakeFor sg ds).memOk = true := (State.memOk_wakeFor s sg ds).trans hs
  dsimp only
  split
  · exact kept _ woken
  · exact woken

@[simp] theorem memOk_after_of_ok {s : State} {o : Out} (h : s.memOk = true) (ok : LeavesOk o) : (after s o).memOk = true := by
  unfold after
  split
  next t => exact ok t rfl
  · exact h

/-! ## Machine/Ops -/

@[simp] theorem Segment.memOk_put (g : Segment) (space off : Nat) (bs : List Byte) (ok : g.memOk = true) : (g.put space off bs).memOk = true :=
  memOk_setMem ok (memPut_wf _ _ (memWf_mem ok space))

/-! ## Machine/Rings -/

@[simp] theorem Segment.memOk_ringWrite (g : Segment) (tick ph : Nat) (stamp : Bool) (r : Ring) (x : RingRec) (ok : g.memOk = true) :
    (g.ringWrite tick ph stamp r x).1.memOk = true := by
  simp only [Segment.ringWrite]
  split <;> simp [ok]

@[simp] theorem Segment.memOk_ringDrain (g : Segment) (tick ph : Nat) (stamp : Bool) (k : Nat) (r : Ring) (h : g.memOk = true) :
    (g.ringDrain tick ph stamp k r).1.memOk = true := by
  induction k generalizing g r with
  | zero => exact h
  | succ k ih =>
    simp only [Segment.ringDrain]
    split
    · exact h
    · split
      · exact h
      · exact ih _ _ (memOk_ringWrite _ _ _ _ _ _ h)

@[simp] theorem Segment.memOk_ringPush (g : Segment) (tick ph : Nat) (stamp : Bool) (r : Ring) (x : RingRec) (h : g.memOk = true) :
    (g.ringPush tick ph stamp r x).1.memOk = true :=
  memOk_ringDrain _ _ _ _ _ _ h

/-! ## Machine/Requester -/

@[simp] theorem lbOk_lbEngineWrite (k : Core) (off : Nat) (bs : List Byte) (ok : memWf k.lb = true) : memWf (lbEngineWrite k off bs).1.lb = true :=
  memPut_wf _ _ (foldl_keeps (p := fun m => memWf m = true) (fun _ _ hm => memZero_wf _ _ hm) _ ok)

@[simp] theorem Segment.memOk_linearWrite (g : Segment) (cycle : Nat) (d : Desc) (j : Job) (src dst : Side) (off len : Nat) (ok : g.memOk = true) :
    (g.linearWrite cycle d j src dst off len).memOk = true := by
  simp only [Segment.linearWrite]
  split
  · simp [ok]
  split
  · rw [memOk_jobEnd]
    exact memOk_of_modCore ok fun _ _ => lbOk_lbEngineWrite _ _ _ (memWf_core ok _)
  next lb _ _ _ =>
    have lines : ∀ l : List (Nat × List Bool × List Byte), (l.foldl (fun (x : Segment × Nat) y =>
        ((x.1.addWrite cycle d.ctx d.agent y.1 y.2.1 y.2.2 (.dst j.id)).1, x.2 + (x.1.addWrite cycle d.ctx d.agent y.1 y.2.1 y.2.2 (.dst j.id)).2))
        (g, 0)).1.memOk = true := fun l =>
      foldl_keeps (p := fun x : Segment × Nat => x.1.memOk = true) (fun x y hx => by simp [hx]) l ok
    split
    · simp [lines]
    · simp [lines]

@[simp] theorem Segment.memOk_jobProgress (g : Segment) (cycle id : Nat) (ok : g.memOk = true) : (g.jobProgress cycle id).memOk = true := by
  simp only [Segment.jobProgress]
  repeat' split
  all_goals simp [ok]

@[simp] theorem Segment.memOk_settleUse (g : Segment) (cycle : Nat) (u : LineUse) (st : BitVec 4) (data : List Byte) (ok : g.memOk = true) :
    (g.settleUse cycle u st data).memOk = true := by
  simp only [Segment.settleUse]
  repeat' split
  all_goals simp +contextual [ok]

@[simp] theorem Segment.memOk_settle (g : Segment) (cycle : Nat) (r : Req) (idx : Nat) (st : BitVec 4) (data : List Byte)
    (ok : g.memOk = true) : (g.settle cycle r idx st data).memOk = true := by
  simp only [Segment.settle]
  split <;> simp [ok]

@[simp] theorem Segment.memOk_settleAll (g : Segment) (cycle : Nat) (r : Req) (st : BitVec 4) (h : g.memOk = true) :
    (g.settleAll cycle r st).memOk = true := by
  refine foldl_keeps (p := fun g : Segment => g.memOk = true) (fun g i hg => ?_) _ h
  split <;> simp [hg]

@[simp] theorem Segment.memOk_descStop (g : Segment) (cycle : Nat) (d : Desc) (st : BitVec 4) (ok : g.memOk = true) :
    (g.descStop cycle d st).memOk = true := by
  unfold Segment.descStop
  extract_lets mine begun sigs k g1 g2 g3 unsent g4 g5
  have h1 : g1.memOk = true := by
    unfold g1
    split
    · split
      · exact ok
      · exact memOk_of_modCore ok fun k hk => lbOk_lbEngineWrite k _ _ hk
    · exact ok
  have h3 : g3.memOk = true := by
    rw [memOk_modDesc]
    unfold g2
    split <;> simp [h1]
  rw [memOk_wake, memOk_descCheck]
  refine memOk_foldl_of (memOk_foldl_of h3 fun g j hg => ?_) fun g r hg => by simp [hg]
  split <;> simp [hg]

@[simp] theorem Segment.memOk_issueDirect (g : Segment) (cycle : Nat) (r : Req) (ok : g.memOk = true) :
    (g.issueDirect cycle r).memOk = true := by
  simp only [Segment.issueDirect]
  split <;> simp [ok]

@[simp] theorem Segment.memOk_issueReq (g : Segment) (cycle : Nat) (r : Req) (ok : g.memOk = true) : (g.issueReq cycle r).memOk = true := by
  simp only [Segment.issueReq]
  repeat' split
  all_goals simp [ok]

/-! ## Machine/Groups -/

@[simp] theorem Segment.memOk_grpPush (g : Segment) (n : BitVec 12) (tick : Nat) (rec_ : RingRec) (ok : g.memOk = true) :
    (g.grpPush n tick rec_).memOk = true := by
  simp only [Segment.grpPush]
  split <;> simp [ok]

@[simp] theorem Segment.memOk_leftDrain (g : Segment) (n : BitVec 12) (tick : Nat) (ok : g.memOk = true) : (g.leftDrain n tick).memOk = true := by
  simp only [Segment.leftDrain, memOk_with]
  refine foldl_keeps (p := fun x : Segment × List (BitVec 12 × Ring) => x.1.memOk = true) (fun x y hx => ?_) _ ok
  split <;> simp [hx]

@[simp] theorem Segment.memOk_leftPush (g : Segment) (n : BitVec 12) (tick : Nat) (ring : Ring) (rec_ : RingRec) (ok : g.memOk = true) :
    (g.leftPush n tick ring rec_).memOk = true := by
  simp only [Segment.leftPush]
  split <;> simp [ok]

@[simp] theorem Segment.memOk_stampFlush (g : Segment) (n : BitVec 12) (tick : Nat) (ok : g.memOk = true) :
    (g.stampFlush n tick).memOk = true := by
  grind [Segment.stampFlush, Segment.memOk_leftDrain, Segment.memOk_ringDrain, Segment.memOk_modGrp, Segment.memOk_grpPush]

@[simp] theorem Segment.memOk_groupPoll (g : Segment) (cycle : Nat) (n : BitVec 12) (ok : g.memOk = true) :
    (g.groupPoll cycle n).memOk = true := by
  simp [Segment.groupPoll, ok]

@[simp] theorem Segment.memOk_stampChunk (g : Segment) (n : BitVec 12) (tick tree c : Nat) (ok : g.memOk = true) :
    (g.stampChunk n tick tree c).memOk = true := by
  simp only [Segment.stampChunk]
  repeat' split
  all_goals simp [ok]

@[simp] theorem Segment.memOk_stampSettle (g : Segment) (n : BitVec 12) (tick : Nat) (ok : g.memOk = true) :
    (g.stampSettle n tick).memOk = true := by
  simp only [Segment.stampSettle]
  split <;> simp [ok]

@[simp] theorem Segment.memOk_grpEvent (g : Segment) (n : BitVec 12) (tick kind : Nat) (status : BitVec 4) (who : Nat × Nat)
    (ok : g.memOk = true) : (g.grpEvent n tick kind status who).memOk = true := by
  simp only [Segment.grpEvent]
  split <;> simp [ok]

@[simp] theorem Segment.memOk_opRelease (g : Segment) (tick : Nat) (f : Formed) (ok : g.memOk = true) :
    (g.opRelease tick f).memOk = true := by
  simp [Segment.opRelease, ok]

@[simp] theorem Segment.memOk_opForm (g : Segment) (tick : Nat) (x : Grp) (op : COp) (chunks : Nat) (status : BitVec 4) (result : Word)
    (norm : BitVec 32) (spoil lines : Nat) (ok : g.memOk = true) :
    (g.opForm tick x op chunks status result norm spoil lines).memOk = true := by
  simp [Segment.opForm, ok]

@[simp] theorem Segment.memOk_headDone (g : Segment) (n : BitVec 12) (tick : Nat) (status : BitVec 4) (result : Word) (keep : Bool)
    (ok : g.memOk = true) : (g.headDone n tick status result keep).memOk = true := by
  simp only [Segment.headDone]
  repeat' split
  all_goals simp [ok]

@[simp] theorem Segment.memOk_freeBytes (g : Segment) (ctr : Nat) (gas : List Nat) (ok : g.memOk = true) :
    (g.freeBytes ctr gas).memOk = true := by
  simp +contextual [Segment.freeBytes, ok]

@[simp] theorem Segment.memOk_freeDst (g : Segment) (ctr : Nat) (x : Grp) (h : Head) (status : BitVec 4) (ok : g.memOk = true) :
    (g.freeDst ctr x h status).1.memOk = true := by
  simp only [Segment.freeDst]
  split <;> simp [ok]

@[simp] theorem State.memOk_groupFail (s : State) (sg : Nat) (n : BitVec 12) (status : BitVec 4) (ok : s.memOk = true) :
    (s.groupFail sg n status).memOk = true := by
  simp only [State.groupFail]
  split
  · exact ok
  split
  · rw [memOk_with]
    refine memOk_of_setSeg ok ?_
    split
    · refine Segment.memOk_headDone _ _ _ _ _ _ ?_
      split
      · exact Segment.memOk_freeDst _ _ _ _ _ (by simp [ok])
      · simp [ok]
    · simp only [Segment.memOk_modGrp, Segment.memOk_queueEnd]
      refine Segment.memOk_headDone _ _ _ _ _ _ ?_
      split
      · exact Segment.memOk_freeDst _ _ _ _ _ (by simp [ok])
      · simp [ok]
  · exact ok

@[simp] theorem State.memOk_failDown (s : State) (sg : Nat) (node : BitVec 15) (ok : s.memOk = true) :
    (s.failDown sg node).memOk = true := by
  simp +contextual [State.failDown, ok]

@[simp] theorem State.memOk_failRoutes (s : State) (ok : s.memOk = true) : s.failRoutes.memOk = true := by
  grind [State.failRoutes, State.memOk_groupFail, State.memOk_foldl_of]

@[simp] theorem State.memOk_abortApply (s : State) (sg : Nat) (n : BitVec 12) (status : BitVec 4) (moved : Bool) (ok : s.memOk = true) :
    (s.abortApply sg n status moved).memOk = true := by
  simp only [State.abortApply]
  split
  · exact ok
  next x _ =>
  split
  · exact ok
  next h _ =>
  rw [memOk_with]
  have freed := Segment.memOk_freeDst (s.seg sg) s.freeCtr x h status (memOk_seg ok sg)
  refine memOk_of_setSeg ok (Segment.memOk_headDone _ _ _ _ _ _ ?_)
  split <;> simp [freed, ok]

@[simp] theorem Segment.memOk_saveGrp (g : Segment) (n : BitVec 12) (ok : g.memOk = true) : (g.saveGrp n).memOk = true := by
  simp only [Segment.saveGrp]
  repeat' split
  all_goals simp [ok]

@[simp] theorem Segment.memOk_holdDecision (g : Segment) (n : BitVec 12) (status : BitVec 4) (ok : g.memOk = true) :
    (g.holdDecision n status).memOk = true := by
  simp [Segment.holdDecision, ok]

@[simp] theorem State.memOk_abortTake (s : State) (sg : Nat) (n : BitVec 12) (status : BitVec 4) (ok : s.memOk = true) :
    (s.abortTake sg n status).memOk = true := by
  simp only [State.abortTake]
  repeat' split
  all_goals simp +contextual [ok]

@[simp] theorem State.memOk_abortStart (s : State) (sg : Nat) (n : BitVec 12) (status : BitVec 4) (ok : s.memOk = true) :
    (s.abortStart sg n status).memOk = true := by
  simp only [State.abortStart]
  split <;> simp [ok]

@[simp] theorem State.memOk_collSend (s : State) (sg : Nat) (n : BitVec 12) (h : Held) (ok : s.memOk = true) :
    (s.collSend sg n h).memOk = true := by
  simp only [State.collSend]
  split <;> simp [ok]

@[simp] theorem State.memOk_answerSend (s : State) (sg : Nat) (n : BitVec 12) (h : Held) (ok : s.memOk = true) :
    (s.answerSend sg n h).memOk = true := by
  simp only [State.answerSend]
  split <;> simp [ok]

@[simp] theorem State.memOk_abortHead (s : State) (sg : Nat) (n : BitVec 12) (status : BitVec 4) (ok : s.memOk = true) :
    (s.abortHead sg n status).memOk = true := by
  grind [State.abortHead, State.memOk_of_mod, Segment.memOk_saveGrp, Segment.memOk_modGrp, State.memOk_abortTake, State.memOk_abortStart]

@[simp] theorem State.memOk_closeGroup (s : State) (sg : Nat) (n : BitVec 12) (ok : s.memOk = true) : (s.closeGroup sg n).memOk = true := by
  simp only [State.closeGroup]
  repeat' split
  all_goals simp [ok]

/-! ## Machine/Hamper -/

@[simp] theorem State.memOk_fenceFit (s : State) (sg b fuel : Nat) (ok : s.memOk = true) : (s.fenceFit sg b fuel).memOk = true := by
  induction fuel generalizing s with
  | zero => exact ok
  | succ fuel ih =>
    simp only [State.fenceFit]
    split
    · exact ok
    split
    · exact ok
    · exact ih _ (memOk_of_mod (memOk_groupFail _ _ _ _ ok) fun g hg => by simp [hg])

@[simp] theorem State.memOk_fenceBank (s : State) (sg b reason : Nat) (ok : s.memOk = true) : (s.fenceBank sg b reason).memOk = true := by
  simp [State.fenceBank, ok]

@[simp] theorem State.memOk_remapRow (s : State) (sg b row : Nat) (ok : s.memOk = true) : (s.remapRow sg b row).memOk = true := by
  simp [State.remapRow, ok]

@[simp] theorem State.memOk_crcFail (s : State) (sg : Nat) (l : BadLine) (recovered : Bool) (ok : s.memOk = true) :
    (s.crcFail sg l recovered).memOk = true := by
  simp [State.crcFail, ok]

@[simp] theorem ok_execBankFence (sg : Fin 8) (ag : Agent) (bank : BitVec 4) (s : State) (ok : s.memOk = true) :
    LeavesOk (execBankFence sg ag bank s) := by
  refine ok_onCtl ok fun s ok => ?_
  dsimp only
  repeat' split
  all_goals simp +contextual [ok]

/-! ## Machine/Chunks -/

@[simp] theorem ok_execGroupClose (sg : Fin 8) (ag : Agent) (grp : BitVec 12) (s : State) (ok : s.memOk = true) :
    LeavesOk (execGroupClose sg ag grp s) := by
  refine ok_onDoms ok fun s ok => ?_
  dsimp only
  repeat' split
  all_goals simp +contextual [ok]

@[simp] theorem ok_execGroupCloseDone (sg : Fin 8) (grp : BitVec 12) (s : State) (ok : s.memOk = true) :
    LeavesOk (execGroupCloseDone sg grp s) := by
  grind [execGroupCloseDone, ok_onSeg, State.memOk_seg, Segment.memOk_hmpRelease, Segment.memOk_stampSettle, State.memOk_of_setSeg,
    Segment.memOk_with]

@[simp] theorem ok_execGroupAbortCommand (sg : Fin 8) (ag : Agent) (grp : BitVec 12) (s : State) (ok : s.memOk = true) :
    LeavesOk (execGroupAbortCommand sg ag grp s) := by
  refine ok_onDoms ok fun s ok => ?_
  dsimp only
  repeat' split
  all_goals simp +contextual [ok]

@[simp] theorem Segment.memOk_settleChk (g : Segment) (n : BitVec 12) (tick tree c : Nat) (ok : g.memOk = true) :
    (g.settleChk n tick tree c).memOk = true := by
  simp only [Segment.settleChk]
  repeat' split
  all_goals simp [ok]

@[simp] theorem State.memOk_sendUp (s : State) (sg : Nat) (n : BitVec 12) (tree c : Nat) (status : BitVec 4) (elems : Nat) (data : List Byte)
    (ok : s.memOk = true) : (s.sendUp sg n tree c status elems data).memOk = true := by
  simp only [State.sendUp]
  repeat' split
  all_goals simp [ok]

@[simp] theorem State.memOk_smallEnd (s : State) (sg : Nat) (n : BitVec 12) (ok : s.memOk = true) : (s.smallEnd sg n).memOk = true := by
  simp only [State.smallEnd]
  split
  · exact ok
  split
  · exact ok
  split
  · exact ok
  split
  · exact ok
  · refine memOk_of_mod ok fun g hg => Segment.memOk_headDone _ _ _ _ _ _ ?_
    split
    · exact hg
    · exact Segment.memOk_stampChunk _ _ _ _ _ hg

@[simp] theorem State.memOk_holdResult (s : State) (sg : Nat) (n : BitVec 12) (tree c : Nat) (frm : Option Nat) (status : BitVec 4)
    (elems norm spoil : Nat) (data : List Byte) (pres : List Bool) (ok : s.memOk = true) :
    (s.holdResult sg n tree c frm status elems norm spoil data pres).memOk = true := by
  simp only [State.holdResult]
  split
  · exact ok
  split
  · exact ok
  refine memOk_smallEnd _ _ _ (memOk_of_mod ?_ fun g hg => by simp [hg])
  split
  · refine memOk_foldl_of (memOk_of_setSeg ok ?_) fun _ _ hs => memOk_collSend _ _ _ _ hs
    simp [ok]
  · refine memOk_of_setSeg ok ?_
    simp [ok]

@[simp] theorem State.memOk_spread (s : State) (sg : Nat) (n : BitVec 12) (tree c : Nat) (parts : List (Nat × Formation)) (norm spoil : Nat)
    (ok : s.memOk = true) : (s.spread sg n tree c parts norm spoil).memOk = true := by
  simp only [State.spread]
  split
  · exact ok
  split
  · exact ok
  have begun := memOk_of_mod (i := sg) (f := fun g => g.modChk n tree c fun k => { k with formed := true }) ok fun g hg => by simp [hg]
  split
  · simp [ok]
  split
  · split
    · simp [ok]
    · exact memOk_of_mod (memOk_collSend _ _ _ _ begun) fun g hg => by simp [hg]
  · refine memOk_of_mod (memOk_foldl_of begun fun s p hs => ?_) fun g hg => by simp [hg]
    split <;> simp [hs]

@[simp] theorem State.memOk_gatherTry (s : State) (sg : Nat) (n : BitVec 12) (tree c : Nat) (ok : s.memOk = true) :
    (s.gatherTry sg n tree c).memOk = true := by
  unfold State.gatherTry
  split
  · exact ok
  split
  · exact ok
  dsimp only
  split
  · exact ok
  split
  · exact ok
  next x _ h _ _ _ _ rs _ =>
  have released : ∀ s : State, s.memOk = true →
      (rs.foldl (fun (s : State) r => s.mod sg fun g => g.releaseTo s.time x (some r.frm) tree c) s).memOk = true :=
    fun s ok => memOk_foldl_of ok fun s r hs => by simp [hs]
  split
  · refine memOk_holdResult _ _ _ _ _ _ _ _ _ _ _ _ (memOk_of_mod ?_ fun g hg => by simp [hg])
    split
    · exact released _ (by simp [ok])
    · simp [ok]
  split
  · exact memOk_sendUp _ _ _ _ _ _ _ _ (memOk_of_mod (released _ ok) fun g hg => by simp [hg])
  · exact ok

@[simp] theorem State.memOk_smallTry (s : State) (sg : Nat) (n : BitVec 12) (ok : s.memOk = true) : (s.smallTry sg n).memOk = true := by
  simp only [State.smallTry]
  repeat' split
  all_goals simp [ok]

@[simp] theorem State.memOk_ownReady (s : State) (sg : Nat) (n : BitVec 12) (tree c : Nat) (ok : s.memOk = true) :
    (s.ownReady sg n tree c).memOk = true := by
  simp only [State.ownReady]
  repeat' split
  all_goals simp [ok]

@[simp] theorem State.memOk_contribLand (s : State) (sg : Nat) (n : BitVec 12) (serial : BitVec 32) (c line : Nat) (st : BitVec 4)
    (data : List Byte) (ok : s.memOk = true) : (s.contribLand sg n serial c line st data).memOk = true := by
  simp only [State.contribLand]
  repeat' split
  all_goals simp [ok]

@[simp] theorem State.memOk_chunkBegin (s : State) (sg : Nat) (n : BitVec 12) (tree c : Nat) (ok : s.memOk = true) :
    (s.chunkBegin sg n tree c).memOk = true := by
  grind [State.chunkBegin, State.memOk_seg, Segment.memOk_modChk, Segment.memOk_ensureChk, Segment.memOk_dpmIssue, State.memOk_of_setSeg,
    State.memOk_ownReady, Segment.memOk_foldl_of]

@[simp] theorem ok_execChunkStart (sg : Fin 8) (grp : BitVec 12) (tree : Fin 64) (s : State) (ok : s.memOk = true) :
    LeavesOk (execChunkStart sg grp tree s) := by
  refine ok_onSeg ok fun s ok => ?_
  dsimp only
  repeat' split
  all_goals simp +contextual [ok]

@[simp] theorem State.memOk_roundDown (s : State) (sg : Nat) (n : BitVec 12) (x : Grp) (kind c : Nat) (payload : List Byte) (ok : s.memOk = true) :
    (s.roundDown sg n x kind c payload).memOk = true :=
  memOk_foldl_of ok fun _ _ hs => memOk_answerSend _ _ _ _ hs

@[simp] theorem State.memOk_goTake (s : State) (sg : Nat) (n : BitVec 12) (ok : s.memOk = true) : (s.goTake sg n).memOk = true := by
  grind [State.goTake, State.memOk_of_mod, Segment.memOk_modGrp, Segment.memOk_progressed, Segment.memOk_modHead,
    Segment.memOk_stampChunk, State.memOk_roundDown, Segment.memOk_foldl_of]

@[simp] theorem State.memOk_launchTry (s : State) (sg : Nat) (n : BitVec 12) (ok : s.memOk = true) : (s.launchTry sg n).memOk = true := by
  simp only [State.launchTry]
  repeat' split
  all_goals simp [ok]

@[simp] theorem State.memOk_headEnd (s : State) (sg : Nat) (n : BitVec 12) (e : HeadEnd) (ok : s.memOk = true) :
    (s.headEnd sg n e).memOk = true := by
  simp only [State.headEnd]
  repeat' split
  all_goals simp +contextual [ok]

@[simp] theorem State.memOk_closeTake (s : State) (sg : Nat) (n : BitVec 12) (st : BitVec 4) (norm spoil : Nat) (ok : s.memOk = true) :
    (s.closeTake sg n st norm spoil).memOk = true := by
  grind [State.closeTake, State.memOk_of_mod, Segment.memOk_modGrp, State.memOk_roundDown, State.memOk_headEnd]

@[simp] theorem ok_execClosingPartSend (sg : Fin 8) (grp : BitVec 12) (s : State) (ok : s.memOk = true) :
    LeavesOk (execClosingPartSend sg grp s) := by
  refine ok_onSeg ok fun s ok => ?_
  dsimp only
  repeat' split
  all_goals simp +contextual [ok]

@[simp] theorem State.memOk_campTake (s : State) (sg : Nat) (n : BitVec 12) (st : BitVec 4) (arrived : Nat) (v : Word)
    (ok : s.memOk = true) : (s.campTake sg n st arrived v).memOk = true := by
  grind [State.campTake, State.memOk_of_mod, Segment.memOk_modGrp, State.memOk_roundDown, State.memOk_headEnd]

@[simp] theorem State.memOk_campTry (s : State) (sg : Nat) (n : BitVec 12) (ok : s.memOk = true) : (s.campTry sg n).memOk = true := by
  unfold State.campTry
  split
  · exact ok
  split
  · exact ok
  have sent : (s.mod sg fun g => (g.modHead n fun h => { h with sentUp := true }).progressed n s.tick).memOk = true := by simp [ok]
  generalize (s.mod sg fun g => (g.modHead n fun h => { h with sentUp := true }).progressed n s.tick) = t at sent
  dsimp only
  split
  · exact ok
  split
  · exact ok
  split
  · split <;> simp [sent]
  · simp [sent]

@[simp] theorem ok_execReductionStep (sg : Fin 8) (grp : BitVec 12) (serial : BitVec 16) (bad : List (Nat × BadLine)) (s : State)
    (ok : s.memOk = true) : LeavesOk (execReductionStep sg grp serial bad s) := by
  refine ok_onSeg ok fun s ok => ?_
  split
  · exact ok
  split
  · exact ok
  split
  · exact ok
  split
  split
  · exact ok
  extract_lets d lines g
  have hg : g.memOk = true := State.memOk_seg ok sg
  refine State.memOk_cond ok ?_
  refine State.memOk_cond (by simp [ok]) ?_
  refine State.memOk_cond ok ?_
  refine State.memOk_cond (by simp [ok, hg]) ?_
  refine State.memOk_cond (by simp [ok, hg]) ?_
  refine State.memOk_cond ?_ (State.memOk_cond ?_ ?_)
  · exact State.memOk_abortStart _ _ _ _ (State.memOk_foldl_of ok fun s p hs => State.memOk_crcFail _ _ _ _ hs)
  · refine State.memOk_foldl_of ok fun s p hs => ?_
    have failed := State.memOk_crcFail s sg p.2 true hs
    dsimp only
    generalize s.crcFail sg p.2 true = t at failed
    exact State.memOk_cond (State.memOk_chunkBegin _ _ _ _ _ (by simp [failed]))
      (State.memOk_cond (State.memOk_of_mod failed fun g hg => by simp [hg]) failed)
  · simp [ok, hg]

@[simp] theorem State.memOk_stepLeaves (s : State) (sg : Nat) (grp : BitVec 12) (x : Grp) (h : Head) (k : Chk) (ok : s.memOk = true) :
    (s.stepLeaves sg grp x h k).memOk = true := by
  simp [State.stepLeaves, ok]

@[simp] theorem ok_execReductionStepDone (sg : Fin 8) (grp : BitVec 12) (e : StepEnd) (s : State) (ok : s.memOk = true) :
    LeavesOk (execReductionStepDone sg grp e s) := by
  refine ok_onSeg ok fun s ok => ?_
  split
  · exact ok
  split
  · exact ok
  split
  · exact ok
  split
  · exact ok
  split
  · exact State.memOk_of_mod (State.memOk_crcFail _ _ _ _ ok) fun g hg => by simp [hg]
  · exact State.memOk_stepLeaves _ _ _ _ _ _ ok

@[simp] theorem State.memOk_resultWritten (s : State) (sg : Nat) (grp : BitVec 12) (x : Grp) (h : Head) (k : Chk) (st : DpmStatus)
    (ok : s.memOk = true) : (s.resultWritten sg grp x h k st).memOk = true := by
  unfold State.resultWritten
  extract_lets
  split
  split
  extract_lets cells g1 g2 g3 g4 g5 g6 s1
  have h1 : g1.memOk = true := by
    unfold g1
    split
    · exact Segment.memOk_foldl_of (memOk_seg ok sg) fun g a hg => Segment.memOk_put _ _ _ _ hg
    · exact Segment.memOk_freeBytes _ _ _ (memOk_seg ok sg)
  have h6 : g6.memOk = true := by
    unfold g6 g5 g4 g3 g2
    split <;> split <;> split <;> simp [h1]
  refine memOk_smallEnd _ _ _ ((memOk_with _ _ _ _ _).trans (memOk_of_setSeg ok (Segment.memOk_settleChk _ _ _ _ _ h6)))

@[simp] theorem ok_execChunkResultWrite (sg : Fin 8) (grp : BitVec 12) (serial : BitVec 16) (st : DpmStatus) (bad : Option BadLine) (s : State)
    (ok : s.memOk = true) : LeavesOk (execChunkResultWrite sg grp serial st bad s) := by
  refine ok_onSeg ok fun s ok => ?_
  split
  · exact ok
  split
  · exact ok
  split
  · exact ok
  split
  · exact ok
  split
  · exact State.memOk_of_mod (State.memOk_crcFail _ _ _ _ ok) fun g hg => by simp [hg]
  · exact State.memOk_resultWritten _ _ _ _ _ _ _ ok

@[simp] theorem State.memOk_staged (s : State) (sg : Nat) (n : BitVec 12) (r : Rx) (ok : s.memOk = true) :
    (s.staged sg n r).memOk = true := by
  simp only [State.staged]
  repeat' split
  all_goals simp [ok]

@[simp] theorem State.memOk_replayRx (s : State) (sg : Nat) (n : BitVec 12) (ok : s.memOk = true) : (s.replayRx sg n).memOk = true := by
  simp only [State.replayRx]
  repeat' split
  all_goals simp +contextual [ok]

@[simp] theorem ok_execOperationStart (sg : Fin 8) (grp : BitVec 12) (s : State) (ok : s.memOk = true) : LeavesOk (execOperationStart sg grp s) := by
  refine ok_onSeg ok fun s ok => ?_
  split
  · exact ok
  next x _ =>
  split
  · exact ok
  split
  · exact ok
  have started : (s.mod sg fun g => g.modGrp grp fun x => { (x.startNext s.time) with st := .active }).memOk = true := by simp [ok]
  dsimp only
  split
  · exact State.memOk_abortApply _ _ _ _ _ started
  split
  · split
    · exact State.memOk_replayRx _ _ _ (State.memOk_launchTry _ _ _ started)
    split
    · exact State.memOk_smallTry _ _ _ (State.memOk_replayRx _ _ _ (State.memOk_of_mod started fun g hg => by simp [hg]))
    · exact State.memOk_replayRx _ _ _ started
  · exact State.memOk_replayRx _ _ _ (State.memOk_campTry _ _ _ started)

@[simp] theorem State.memOk_headGoOn (s : State) (sg : Nat) (n : BitVec 12) (ok : s.memOk = true) : (s.headGoOn sg n).memOk = true := by
  grind [State.headGoOn, State.memOk_headEnd, State.memOk_campTry, State.memOk_smallEnd, State.memOk_smallTry, State.memOk_launchTry]

@[simp] theorem State.memOk_reportAhead (s : State) (sg : Nat) (n : BitVec 12) (ok : s.memOk = true) : (s.reportAhead sg n).memOk = true := by
  simp only [State.reportAhead]
  repeat' split
  all_goals simp [ok]

@[simp] theorem State.memOk_rxPut (s : State) (sg : Nat) (n : BitVec 12) (serial : BitVec 32) (tree c : Nat) (down : Bool) (frm idx : Nat)
    (p : List Byte) (ok : s.memOk = true) : (s.rxPut sg n serial tree c down frm idx p).memOk = true := by
  simp only [State.rxPut]
  split <;> simp [ok]

@[simp] theorem State.memOk_roundUp (s : State) (sg : Nat) (n : BitVec 12) (x : Grp) (serial : BitVec 32) (kind c frm : Nat)
    (p : List Byte) (ok : s.memOk = true) : (s.roundUp sg n x serial kind c frm p).memOk = true := by
  simp only [State.roundUp]
  repeat' split
  all_goals simp [ok]

@[simp] theorem State.memOk_landChunk (s : State) (sg : Nat) (f : Flit) (down : Bool) (ok : s.memOk = true) :
    (s.landChunk sg f down).memOk = true := by
  simp only [State.landChunk]
  repeat' split
  all_goals simp [ok]

@[simp] theorem ok_execChunkUp (sg : Fin 8) (s : State) (ok : s.memOk = true) : LeavesOk (execChunkUp sg s) := by
  grind [execChunkUp, ok_onSeg, Segment.memOk_takeX, State.memOk_seg, State.memOk_landChunk, State.memOk_of_setSeg]

@[simp] theorem ok_execChunkDown (sg : Fin 8) (s : State) (ok : s.memOk = true) : LeavesOk (execChunkDown sg s) := by
  grind [execChunkDown, ok_onSeg, State.memOk_seg, Segment.memOk_takeAt, State.memOk_of_setSeg, Segment.memOk_stale, State.memOk_landChunk]

@[simp] theorem ok_execChunkRel (sg : Fin 8) (s : State) (ok : s.memOk = true) : LeavesOk (execChunkRel sg s) := by
  refine ok_onSeg ok fun s ok => ?_
  split
  · exact ok
  next f g taken =>
  have hg : g.memOk = true := (Segment.memOk_takeX taken).trans (State.memOk_seg ok sg)
  dsimp only
  repeat' split
  all_goals simp [ok, hg]

@[simp] theorem State.memOk_repeatHeld (s : State) (sg : Nat) (n : BitVec 12) (q q' : Held) (ok : s.memOk = true) :
    (s.repeatHeld sg n q q').memOk = true := by
  simp only [State.repeatHeld]
  split <;> simp [ok]

@[simp] theorem ok_execChunkNak (sg : Fin 8) (s : State) (ok : s.memOk = true) : LeavesOk (execChunkNak sg s) := by
  refine ok_onSeg ok fun s ok => ?_
  split
  · exact ok
  next f g taken =>
  have hg : g.memOk = true := (Segment.memOk_takeX taken).trans (State.memOk_seg ok sg)
  have hs : (s.setSeg sg g).memOk = true := State.memOk_of_setSeg ok hg
  dsimp only
  repeat' split
  all_goals simp [ok, hs, hg]

@[simp] theorem ok_execNotReadyRepeat (sg : Fin 8) (grp : BitVec 12) (s : State) (ok : s.memOk = true) :
    LeavesOk (execNotReadyRepeat sg grp s) := by
  grind [execNotReadyRepeat, ok_onSeg, State.memOk_repeatHeld, State.memOk_foldl_of]

@[simp] theorem ok_execCollectiveRepeat (sg : Fin 8) (grp : BitVec 12) (tree : Fin 64) (s : State) (ok : s.memOk = true) :
    LeavesOk (execCollectiveRepeat sg grp tree s) := by
  grind [execCollectiveRepeat, ok_onSeg, State.memOk_repeatHeld, State.memOk_foldl_of]

@[simp] theorem State.memOk_landCamp (s : State) (sg : Nat) (f : Flit) (ok : s.memOk = true) : (s.landCamp sg f).memOk = true := by
  simp only [State.landCamp]
  repeat' split
  all_goals simp [ok]

@[simp] theorem ok_execCampFlit (sg : Fin 8) (s : State) (ok : s.memOk = true) : LeavesOk (execCampFlit sg s) := by
  grind [execCampFlit, ok_onSeg, Segment.memOk_takeX, State.memOk_seg, State.memOk_landCamp, State.memOk_of_setSeg]

@[simp] theorem ok_execVoteFlit (sg : Fin 8) (s : State) (ok : s.memOk = true) : LeavesOk (execVoteFlit sg s) := by
  grind [execVoteFlit, ok_onSeg, Segment.memOk_takeX, State.memOk_seg, State.memOk_landCamp, State.memOk_of_setSeg]

@[simp] theorem ok_execGroupAbort (sg : Fin 8) (s : State) (ok : s.memOk = true) : LeavesOk (execGroupAbort sg s) := by
  refine ok_onSeg ok fun s ok => ?_
  split
  · exact ok
  next f g taken =>
  have hs : (s.setSeg sg g).memOk = true := (State.memOk_setSeg _ _ _ (Segment.memOk_takeAbort taken)).trans ok
  dsimp only
  split
  · exact hs
  split
  · exact hs
  split
  · exact hs
  · split
    · exact hs
    · exact State.memOk_abortTake _ _ _ _ (by simp [hs])
  · split <;> simp [hs]

@[simp] theorem ok_execStragglerEvent (sg : Fin 8) (grp : BitVec 12) (s : State) (ok : s.memOk = true) :
    LeavesOk (execStragglerEvent sg grp s) := by
  grind [execStragglerEvent, ok_onSeg, State.memOk_seg, Segment.memOk_modHead, Segment.memOk_bump, State.memOk_of_setSeg,
    Segment.memOk_grpEvent]

@[simp] theorem ok_execHardTimeout (sg : Fin 8) (grp : BitVec 12) (s : State) (ok : s.memOk = true) :
    LeavesOk (execHardTimeout sg grp s) := by
  refine ok_onSeg ok fun s ok => ?_
  dsimp only
  repeat' split
  all_goals simp +contextual [ok]

@[simp] theorem ok_execAbortDecisionTimeout (sg : Fin 8) (grp : BitVec 12) (s : State) (ok : s.memOk = true) :
    LeavesOk (execAbortDecisionTimeout sg grp s) := by
  grind [execAbortDecisionTimeout, ok_onSeg, State.memOk_groupFail]

@[simp] theorem ok_execStileRelease (sg : Fin 8) (grp : BitVec 12) (s : State) (ok : s.memOk = true) :
    LeavesOk (execStileRelease sg grp s) := by
  grind [execStileRelease, ok_onSeg, State.memOk_seg, State.memOk_of_setSeg, Segment.memOk_wake, Segment.memOk_opRelease,
    Segment.memOk_with]

/-! ## Machine/Home -/

theorem State.memOk_homeRun_of {s : State} {sg idx : Nat} {kinds : List Nat} {act : State → Flit → HomeAt → State} (ok : s.memOk = true)
    (kept : ∀ s f at_, s.memOk = true → (act s f at_).memOk = true) : (s.homeRun sg idx kinds act).memOk = true := by
  simp only [State.homeRun]
  split
  · exact ok
  split
  · exact ok
  split
  · simp [ok]
  split
  · simp [ok]
  split
  · simp [ok]
  split
  · simp [ok]
  split
  · split <;> simp [ok]
  · exact ok
  · exact kept _ _ _ (by simp [ok])

@[simp] theorem ok_execCpyExecute (sg : Fin 8) (idx : Nat) (bad : List (Fin 16 × BadLine × Bool)) (s : State) (ok : s.memOk = true) :
    LeavesOk (execCpyExecute sg idx bad s) := by
  refine ok_onSeg ok fun s ok => State.memOk_homeRun_of ok fun s f a ok => State.memOk_foldl_of (by simp [ok]) fun s i hs => ?_
  dsimp only
  split
  · exact State.memOk_of_mod (State.memOk_crcFail _ _ _ _ hs) fun g hg => by simp [hg]
  · simp [hs]

@[simp] theorem Segment.memOk_guardFailed (g : Segment) (cycle i : Nat) (ok : g.memOk = true) : (g.guardFailed cycle i).memOk = true := by
  simp only [Segment.guardFailed]
  split <;> simp [ok]

@[simp] theorem ok_execGuardFill (sg : Fin 8) (region : BitVec 17) (st : DpmStatus) (s : State) (ok : s.memOk = true) :
    LeavesOk (execGuardFill sg region st s) := by
  grind [execGuardFill, ok_onSeg, State.memOk_seg, Segment.memOk_raise, State.memOk_of_setSeg, Segment.memOk_issueDirect,
    Segment.memOk_guardFailed, Segment.memOk_foldl_of, Segment.memOk_with]

/-! ## Machine/Transact -/

@[simp] theorem Segment.memOk_tagDone (g : Segment) (cycle t : Nat) (byHome : Bool) (st : BitVec 4) (data : List Byte)
    (ok : g.memOk = true) : (g.tagDone cycle t byHome st data).memOk = true := by
  simp only [Segment.tagDone]
  repeat' split
  all_goals simp [ok]

@[simp] theorem Segment.memOk_turnedBusy (g : Segment) (cycle id : Nat) (tags : List Nat) (ok : g.memOk = true) :
    (g.turnedBusy cycle id tags).memOk = true := by
  simp only [Segment.turnedBusy]
  repeat' split
  all_goals simp +contextual [ok]

@[simp] theorem ok_execReplyLand (sg : Fin 8) (bad : Option BadLine) (s : State) (ok : s.memOk = true) : LeavesOk (execReplyLand sg bad s) := by
  refine ok_onSeg ok fun s ok => ?_
  extract_lets g g1
  have hg : g.memOk = true := State.memOk_seg ok sg
  split
  · exact ok
  extract_lets g2 named tags
  have h2 : g2.memOk = true := by
    unfold g2 g1
    split
    · simp [hg]
    split <;> simp [hg]
  clear_value g2 tags
  split
  · simp [ok, h2]
  · simp [ok, h2]
  split
  · simp [ok, h2]
  split
  · split
    · simp [ok, h2]
    · simp [ok, h2]
  extract_lets _ _ g3 _ g4
  have h3 : g3.memOk = true := by
    unfold g3
    split <;> simp [h2]
  clear_value g3
  split
  · refine State.memOk_of_setSeg ok (Segment.memOk_foldl_of h3 fun g t hg => ?_)
    split <;> simp [hg]
  have set := State.memOk_of_setSeg (i := sg) ok h3
  split
  · split
    · exact State.memOk_of_mod (State.memOk_crcFail _ _ _ _ set) fun g hg => Segment.memOk_tagDone _ _ _ _ _ _ hg
    · exact State.memOk_of_mod (State.memOk_crcFail _ _ _ _ set) fun g hg => by simp [hg]
  · refine State.memOk_of_setSeg ok (Segment.memOk_foldl_of ?_ fun g t hg => Segment.memOk_tagDone _ _ _ _ _ _ hg)
    unfold g4
    split <;> simp [h3]

@[simp] theorem ok_execTagTimeout (sg : Fin 8) (tag : BitVec 16) (s : State) (ok : s.memOk = true) :
    LeavesOk (execTagTimeout sg tag s) := by
  grind [execTagTimeout, ok_onSeg, State.memOk_seg, Segment.memOk_raise, Segment.memOk_bump, State.memOk_of_setSeg, Segment.memOk_tagDone]

@[simp] theorem ok_execBusyRetry (sg : Fin 8) (req : Nat) (s : State) (ok : s.memOk = true) : LeavesOk (execBusyRetry sg req s) := by
  grind [execBusyRetry, ok_onSeg, State.memOk_seg, State.memOk_of_setSeg, Segment.memOk_tagDone, Segment.memOk_injectL,
    Segment.memOk_modReq, Segment.memOk_foldl_of]

/-! ## Machine/Dpm -/

@[simp] theorem Segment.memOk_dpmStore (g : Segment) (cycle ctr : Nat) (d : DpmReq) (st : BitVec 4) (ok : g.memOk = true) :
    (g.dpmStore cycle ctr d st).1.memOk = true := by
  have stored : ∀ space m, memWf m = true → ((g.setMem space m).gateTouch cycle d.space.toNat d.addr).memOk = true :=
    fun space m hm => by rw [memOk_gateTouch]; exact memOk_setMem ok hm
  unfold Segment.dpmStore
  split
  · exact ok
  extract_lets
  split
  · exact stored _ _ (memPutMask_wf _ _ _ (memWf_mem ok _))
  split
  · exact ok
  · exact stored _ _ (memPutMask_wf _ _ _ (memWf_mem ok _))

@[simp] theorem State.memOk_dpmDone (s : State) (sg : Nat) (d : DpmReq) (st : BitVec 4) (ok : s.memOk = true) :
    (s.dpmDone sg d st).memOk = true := by
  grind [State.dpmDone, State.memOk_seg, Segment.memOk_dpmStore, State.memOk_of_setSeg, State.memOk_of_mod, Segment.memOk_injectPart,
    Segment.memOk_injectL, Segment.memOk_modAtom, State.memOk_crcFail, Segment.memOk_dropAtom, Segment.memOk_homeRefuse,
    Segment.memOk_dequeue, Segment.memOk_bump, Segment.memOk_atomRedo, Segment.memOk_fwdFree, Segment.memOk_settle, State.memOk_contribLand,
    Segment.memOk_with, State.memOk_with]

@[simp] theorem ok_execDpmResponse (sg : Fin 8) (ch : Fin 6) (id : BitVec 12) (status : BitVec 4) (s : State) (ok : s.memOk = true) :
    LeavesOk (execDpmResponse sg ch id status s) := by
  refine ok_onSeg ok fun s ok => ?_
  dsimp only
  repeat' split
  all_goals simp +contextual [ok]

@[simp] theorem ok_execDpmTimeout (sg : Fin 8) (ch : Fin 6) (id : BitVec 12) (s : State) (ok : s.memOk = true) :
    LeavesOk (execDpmTimeout sg ch id s) := by
  refine ok_onSeg ok fun s ok => ?_
  dsimp only
  repeat' split
  all_goals simp +contextual [ok]

/-! ## Machine/Cores -/

@[simp] theorem Segment.memOk_endTicket (g : Segment) (cycle n : Nat) (status : BitVec 4) (reason exc : Nat) (ok : g.memOk = true) :
    (g.endTicket cycle n status reason exc).memOk = true := by
  simp +contextual [Segment.endTicket, ok]

@[simp] theorem Segment.memOk_courierExc (g : Segment) (cycle c : Nat) (op : BitVec 8) (code : BitVec 4) (info : Word)
    (ok : g.memOk = true) : (g.courierExc cycle c op code info).memOk = true := by
  simp only [Segment.courierExc]
  split <;> simp [ok]

@[simp] theorem Segment.memOk_raiseExc (g : Segment) (cycle c : Nat) (op : BitVec 8) (code : BitVec 4) (info : Word) (ok : g.memOk = true) :
    (g.raiseExc cycle c op code info).memOk = true := by
  simp [Segment.raiseExc, ok]

@[simp] theorem Segment.memOk_putSave (g : Segment) (ctx : BitVec 12) (n : Nat) (rec_ : List Byte) (ok : g.memOk = true) :
    (g.putSave ctx n rec_).memOk = true := by
  simp only [Segment.putSave]
  repeat' split
  all_goals simp [ok]

@[simp] theorem Segment.memOk_saveTicket (g : Segment) (cycle c n : Nat) (op : BitVec 8) (pc : BitVec 32) (mask : BitVec 16) (any : Bool)
    (ok : g.memOk = true) : (g.saveTicket cycle c n op pc mask any).memOk = true := by
  unfold Segment.saveTicket
  dsimp only
  split
  · exact memOk_courierExc _ _ _ _ _ _ ok
  · simp [ok]

@[simp] theorem Segment.memOk_suspend (g : Segment) (cycle c : Nat) (ok : g.memOk = true) : (g.suspend cycle c).memOk = true := by
  simp only [Segment.suspend]
  split <;> simp [ok]

@[simp] theorem Segment.memOk_cancelRunning (g : Segment) (cycle c n reason : Nat) (ok : g.memOk = true) :
    (g.cancelRunning cycle c n reason).memOk = true := by
  simp [Segment.cancelRunning, ok]

@[simp] theorem Segment.memOk_boundary (g : Segment) (cycle c : Nat) (ok : g.memOk = true) : (g.boundary cycle c).memOk = true := by
  simp only [Segment.boundary]
  repeat' split
  all_goals simp [ok]

/-- What holds of every state that an instruction leaves. -/
def Res.Leaves (p : State → Prop) : Res → Prop
  | .go t => p t
  | .jump t _ => p t
  | .off t => p t
  | .wait t => p t
  | .exc _ _ => True

@[simp] theorem Res.leaves_go (p : State → Prop) (t : State) : (Res.go t).Leaves p ↔ p t := Iff.rfl
@[simp] theorem Res.leaves_jump (p : State → Prop) (t : State) (pc : BitVec 32) : (Res.jump t pc).Leaves p ↔ p t := Iff.rfl
@[simp] theorem Res.leaves_off (p : State → Prop) (t : State) : (Res.off t).Leaves p ↔ p t := Iff.rfl
@[simp] theorem Res.leaves_wait (p : State → Prop) (t : State) : (Res.wait t).Leaves p ↔ p t := Iff.rfl
@[simp] theorem Res.leaves_exc (p : State → Prop) (code : BitVec 4) (info : Word) : (Res.exc code info).Leaves p := trivial

theorem Res.memOk_apply (x : Res) (sg c : Nat) (op : BitVec 8) (s : State) (ok : s.memOk = true) (left : x.Leaves fun t => t.memOk = true) :
    (x.apply sg c op s).memOk = true := by
  cases x with
  | go t => exact State.memOk_of_mod left fun g hg => Segment.memOk_boundary _ _ _ (by simp [hg])
  | jump t pc => exact State.memOk_of_mod left fun g hg => Segment.memOk_boundary _ _ _ (by simp [hg])
  | off t => exact State.memOk_of_mod left fun g hg => by simp [hg]
  | wait t => exact left
  | exc code info => exact State.memOk_of_mod ok fun g hg => Segment.memOk_raiseExc _ _ _ _ _ _ hg

theorem ok_runCore (sg : Fin 8) (c : Fin 18) (op : BitVec 8) (level : Nat) (f : IFields) (ill : Bool) (body : State → Core → Res) (s : State)
    (ok : s.memOk = true) (left : ∀ s k, s.memOk = true → (body s k).Leaves fun t => t.memOk = true) :
    LeavesOk (runCore sg c op level f ill body s) := by
  refine ok_onSeg ok fun s ok => ?_
  dsimp only
  split
  · exact ok
  split
  · exact Res.memOk_apply _ _ _ _ _ ok trivial
  split
  · simp [ok]
  split
  · exact Res.memOk_apply _ _ _ _ _ ok trivial
  split
  · exact Res.memOk_apply _ _ _ _ _ ok trivial
  · exact Res.memOk_apply _ _ _ _ _ ok (left s _ ok)

/-! ## Machine/Alu -/

@[simp] theorem ok_aluOp (sg : Fin 8) (c : Fin 18) (op : BitVec 8) (f : IFields) (v : Core → Word) (s : State) (ok : s.memOk = true) :
    LeavesOk (aluOp sg c op f v s) :=
  ok_runCore _ _ _ _ _ _ _ _ ok fun s k ok => by simp [ok]

@[simp] theorem ok_cmpOp (sg : Fin 8) (c : Fin 18) (op : BitVec 8) (f : IFields) (t : Word → Word → Bool) (s : State)
    (ok : s.memOk = true) : LeavesOk (cmpOp sg c op f t s) := by
  refine ok_runCore _ _ _ _ _ _ _ _ ok fun s k ok => ?_
  simp [ok]

@[simp] theorem ok_predOp (sg : Fin 8) (c : Fin 18) (op : BitVec 8) (f : IFields) (t : Bool → Bool → Bool) (s : State)
    (ok : s.memOk = true) : LeavesOk (predOp sg c op f t s) := by
  refine ok_runCore _ _ _ _ _ _ _ _ ok fun s k ok => ?_
  simp [ok]

@[simp] theorem ok_execPset (sg : Fin 8) (c : Fin 18) (f : IFields) (s : State) (ok : s.memOk = true) : LeavesOk (execPset sg c f s) := by
  refine ok_runCore _ _ _ _ _ _ _ _ ok fun s k ok => ?_
  simp [ok]

@[simp] theorem ok_execMovs (sg : Fin 8) (c : Fin 18) (f : IFields) (s : State) (ok : s.memOk = true) : LeavesOk (execMovs sg c f s) := by
  refine ok_runCore _ _ _ _ _ _ _ _ ok fun s k ok => ?_
  dsimp only
  repeat' split
  all_goals simp [ok]

@[simp] theorem ok_execSets (sg : Fin 8) (c : Fin 18) (f : IFields) (s : State) (ok : s.memOk = true) : LeavesOk (execSets sg c f s) := by
  refine ok_runCore _ _ _ _ _ _ _ _ ok fun s k ok => ?_
  simp [ok]

/-! ## Machine/Bridge -/

@[simp] theorem State.memOk_startReset (s : State) (sg b : Nat) (isFault : Bool) (ok : s.memOk = true) :
    (s.startReset sg b isFault).memOk = true := by
  simp [State.startReset, ok]

@[simp] theorem ok_execBridgeParityError (sg : Fin 8) (b : Fin 2) (lane : Fin 128) (s : State) (ok : s.memOk = true) :
    LeavesOk (execBridgeParityError sg b lane s) := by
  refine ok_onSeg ok fun s ok => ?_
  dsimp only
  repeat' split
  all_goals simp +contextual [ok]

@[simp] theorem ok_execBridgeResetMessage (sg : Fin 8) (b : Fin 2) (s : State) (ok : s.memOk = true) :
    LeavesOk (execBridgeResetMessage sg b s) := by
  refine ok_onSeg ok fun s ok => ?_
  dsimp only
  repeat' split
  all_goals simp +contextual [ok]

@[simp] theorem ok_execBridgeLinkUp (sg : Fin 8) (x : BridgeUp) (s : State) (ok : s.memOk = true) : LeavesOk (execBridgeLinkUp sg x s) := by
  refine ok_onSeg ok fun s ok => ?_
  dsimp only
  repeat' split
  all_goals simp +contextual [ok]

@[simp] theorem State.memOk_bridgeRetry (s : State) (sg b : Nat) (ok : s.memOk = true) : (s.bridgeRetry sg b).memOk = true := by
  simp [State.bridgeRetry, ok]

@[simp] theorem ok_execBridgeRetry (sg : Fin 8) (b : Fin 2) (ag : Agent) (s : State) (ok : s.memOk = true) :
    LeavesOk (execBridgeRetry sg b ag s) := by
  simp +contextual [execBridgeRetry, ok]

/-! ## Machine/Scoreboard -/

@[simp] theorem Segment.memOk_trailPush (g : Segment) (tick slot : Nat) (r : RingRec) (ok : g.memOk = true) :
    (g.trailPush tick slot r).memOk = true := by
  simp only [Segment.trailPush]
  split <;> simp [ok]

@[simp] theorem Segment.memOk_trailDrain (g : Segment) (tick slot : Nat) (ok : g.memOk = true) : (g.trailDrain tick slot).memOk = true := by
  simp only [Segment.trailDrain]
  split <;> simp [ok]

@[simp] theorem Segment.memOk_trailEnd (g : Segment) (tick slot : Nat) (ok : g.memOk = true) : (g.trailEnd tick slot).memOk = true := by
  simp only [Segment.trailEnd]
  split <;> simp [ok]

@[simp] theorem Segment.memOk_complete (cycle fuel : Nat) (g : Segment) (n : Nat) (status : BitVec 4) (reason exc failed : Nat)
    (ok : g.memOk = true) :
    (Segment.complete cycle fuel g n status reason exc failed).memOk = true := by
  induction fuel generalizing g n status reason exc failed with
  | zero => exact ok
  | succ fuel ih =>
    simp only [Segment.complete]
    split
    · exact ok
    refine memOk_trailEnd _ _ _ (memOk_foldl_of ?_ fun g y hg => ?_)
    · simp [ok]
    · split
      · simp [hg]
      split
      · simp [hg]
      split
      · simp [hg]
      · simp [hg]
      · exact ih _ _ _ _ _ _ (by simp [hg])
      · exact ih _ _ _ _ _ _ (by simp [hg])

@[simp] theorem Segment.memOk_finish (g : Segment) (cycle n : Nat) (status : BitVec 4) (reason exc failed : Nat) (h : g.memOk = true) :
    (g.finish cycle n status reason exc failed).memOk = true :=
  memOk_complete _ _ _ _ _ _ _ _ h

@[simp] theorem Segment.memOk_weigh (g : Segment) (cycle n : Nat) (ok : g.memOk = true) : (g.weigh cycle n).memOk = true := by
  simp only [Segment.weigh]
  repeat' split
  all_goals simp [ok]

@[simp] theorem Segment.memOk_takeTicket (g : Segment) (cycle n slot index : Nat) (spawned : Bool) (parent : Option Nat) (ctx : BitVec 12)
    (b : List Byte) (reads : Option DpmStatus) (ok : g.memOk = true) :
    (g.takeTicket cycle n slot index spawned parent ctx b reads).memOk = true := by
  unfold Segment.takeTicket
  extract_lets r bad
  have placed : (if bad then (g, none) else g.ticketPlaces ctx r).1.memOk = true := by split <;> simp [ok]
  generalize (if bad then (g, none) else g.ticketPlaces ctx r) = x at placed
  split
  next g1 places =>
  extract_lets window preds gate word g2 gateOpen t _ g3
  have h2 : g2.memOk = true := by
    unfold g2
    clear_value gate
    split <;> simp [placed]
  have h3 : g3.memOk = true := (memOk_with ..).trans h2
  split
  · exact memOk_finish _ _ _ _ _ _ _ h3
  split
  · exact memOk_finish _ _ _ _ _ _ _ h3
  · exact memOk_weigh _ _ _ h3

@[simp] theorem Segment.memOk_doom (g : Segment) (cycle reason n : Nat) (ok : g.memOk = true) : (g.doom cycle reason n).memOk = true := by
  simp only [Segment.doom]
  repeat' split
  all_goals simp [ok]

@[simp] theorem Segment.memOk_doomAll (g : Segment) (cycle reason : Nat) (p : Ticket → Bool) (ok : g.memOk = true) :
    (g.doomAll cycle reason p).memOk = true := by
  simp +contextual [Segment.doomAll, ok]

@[simp] theorem Segment.memOk_cancelContext (g : Segment) (cycle reason : Nat) (ctx : BitVec 12) (h : g.memOk = true) :
    (g.cancelContext cycle reason ctx).memOk = true := by
  refine memOk_foldl_of (memOk_doomAll _ _ _ _ ?_) fun g sl hg => memOk_trailEnd _ _ _ hg
  split <;> simp [h]

/-! ## Machine/Lines -/

@[simp] theorem Segment.memOk_migPush (g : Segment) (tick : Nat) (r : Resident) (hot : Bool) (bytes : List Byte) (ok : g.memOk = true) :
    (g.migPush tick r hot bytes).memOk = true := by
  simp [Segment.migPush, ok]

@[simp] theorem Segment.memOk_countLine (g : Segment) (tick : Nat) (c : BitVec 12) (ga : Nat) (ok : g.memOk = true) :
    (g.countLine tick c ga).memOk = true := by
  simp only [Segment.countLine]
  repeat' split
  all_goals simp [ok]

@[simp] theorem Segment.memOk_countSide (g : Segment) (tick : Nat) (c : BitVec 12) (side : Side) (m : Nat) (ok : g.memOk = true) :
    (g.countSide tick c side m).memOk = true := by
  simp only [Segment.countSide]
  repeat' split
  all_goals simp [ok]

@[simp] theorem Segment.memOk_countLines (g : Segment) (tick : Nat) (c : BitVec 12) (ps : List Piece) (ls : List Nat)
    (ok : g.memOk = true) : (g.countLines tick c ps ls).memOk = true := by
  grind [Segment.countLines, Segment.memOk_countLine, Segment.memOk_foldl_of]

theorem Segment.memOk_issueNew {g h : Segment} {cycle from_ : Nat} (ok : g.memOk = true) (issued : g.issueNew cycle from_ = some h) :
    h.memOk = true := by
  refine foldl_keeps (p := fun o : Option Segment => ∀ g, o = some g → g.memOk = true) (fun o id kept h next => ?_) _ (fun h same => ?_) h issued
  · cases o with
    | none => cases next
    | some g =>
      have hg := kept g rfl
      dsimp only at next
      split at next
      · split at next <;> cases next
        exact memOk_issueReq _ _ _ hg
      · cases next
        exact hg
  · cases same
    exact ok

@[simp] theorem Segment.memOk_makeUnit (g : Segment) (cycle : Nat) (d : Desc) (src dst : Side) (kind : Nat) (ls : List (Nat × Nat))
    (ok : g.memOk = true) : (g.makeUnit cycle d src dst kind ls).memOk = true := by
  simp only [Segment.makeUnit]
  repeat' split
  all_goals simp [ok]

theorem Segment.memOk_nextLine {g h : Segment} {cycle : Nat} {d : Desc} (ok : g.memOk = true) (next : g.nextLine cycle d = some h) :
    h.memOk = true := by
  simp only [Segment.nextLine] at next
  split at next
  · cases next
  split at next
  · split at next
    · cases next
    obtain ⟨g', issued, rfl⟩ := Option.map_eq_some_iff.mp next
    refine (memOk_wake _).trans (memOk_issueNew (memOk_makeUnit _ _ _ _ _ _ _ ?_) issued)
    exact memOk_foldl_of (by simp [ok]) fun g x hg => by simp [hg]
  · split at next
    · cases next
    split at next
    · cases next
    refine memOk_issueNew ?_ next
    split <;> simp [ok]
  · split at next
    · split at next <;> cases next
      split <;> split <;> simp [ok]
    · cases next

@[simp] theorem ok_execLineIssue (sg : Fin 8) (desc : Fin 1024) (s : State) (ok : s.memOk = true) : LeavesOk (execLineIssue sg desc s) := by
  grind [execLineIssue, ok_onSeg, State.memOk_seg, Segment.memOk_nextLine, State.memOk_of_setSeg]

@[simp] theorem ok_execRequestIssue (sg : Fin 8) (req : Nat) (s : State) (ok : s.memOk = true) : LeavesOk (execRequestIssue sg req s) := by
  grind [execRequestIssue, ok_onSeg, State.memOk_seg, State.memOk_of_setSeg, Segment.memOk_issueDirect, Segment.memOk_issueReq]

@[simp] theorem Segment.memOk_tileRead (g : Segment) (cycle : Nat) (d : Desc) (s : Shape) (src : List Piece) (ok : g.memOk = true) :
    (g.tileRead cycle d s src).memOk = true := by
  simp [Segment.tileRead, ok]

@[simp] theorem Segment.memOk_tileStep (g : Segment) (cycle : Nat) (d : Desc) (sh : Shape) (src dst : List Piece) (ok : g.memOk = true) :
    (g.tileStep cycle d sh src dst).memOk = true := by
  grind [Segment.tileStep, Segment.memOk_tileRead, Segment.memOk_tileWrite, Segment.memOk_countLines, Segment.memOk_wake,
    Segment.memOk_descCheck, Segment.memOk_tileSignals, Segment.memOk_foldl_of]

@[simp] theorem ok_execMovtTileStart (sg : Fin 8) (desc : Fin 1024) (s : State) (ok : s.memOk = true) :
    LeavesOk (execMovtTileStart sg desc s) := by
  grind [execMovtTileStart, ok_onSeg, State.memOk_seg, State.memOk_of_setSeg, Segment.memOk_tileStep]

/-! ## Machine/Recall -/

@[simp] theorem Segment.memOk_recallMap (g : Segment) (cycle key : Nat) (ctx : BitVec 12) (start len : Nat) (ok : g.memOk = true) :
    (g.recallMap cycle key ctx start len).memOk = true := by
  simp +contextual [Segment.recallMap, ok]

@[simp] theorem State.memOk_startRecall (s : State) (sg : Nat) (b : List Byte) (submitted : Bool) (owner : Option (Owner × Option Nat))
    (ok : s.memOk = true) : (s.startRecall sg b submitted owner).memOk = true := by
  grind [State.startRecall, State.memOk_seg, State.memOk_of_setSeg, State.memOk_of_modAll, Segment.memOk_withdraw, State.memOk_of_mod,
    Segment.memOk_recallMap, State.memOk_foldl_of, Segment.memOk_with]

@[simp] theorem ok_execRecallSubmit (sg : Fin 8) (ag : Agent) (v : Word) (s : State) (ok : s.memOk = true) :
    LeavesOk (execRecallSubmit sg ag v s) := by
  refine ok_onDoms ok fun s ok => ?_
  dsimp only
  repeat' split
  all_goals simp +contextual [ok]

/-! ## Machine/Issue -/

@[simp] theorem Segment.memOk_newDesc (g : Segment) (cycle c : Nat) (slot : Option Nat) (body : Body) (total bytes : Nat)
    (used : List RangeEntry) (ok : g.memOk = true) : (g.newDesc cycle c slot body total bytes used).memOk = true := by
  simp only [Segment.newDesc]
  repeat' split
  all_goals simp [ok]

@[simp] theorem State.memOk_issueMove (s : State) (sg c op : Nat) (f : IFields) (unc : List Nat) (force : Option (BitVec 4))
    (ok : s.memOk = true) : (s.issueMove sg c op f unc force).Leaves fun t => t.memOk = true := by
  simp only [State.issueMove]
  repeat' split
  all_goals simp +contextual [ok]

@[simp] theorem State.memOk_issueShape (s : State) (sg c : Nat) (f : IFields) (unc : List Nat) (force : Option (BitVec 4))
    (ok : s.memOk = true) : (s.issueShape sg c f unc force).Leaves fun t => t.memOk = true := by
  simp only [State.issueShape]
  repeat' split
  all_goals simp +contextual [ok]

@[simp] theorem Segment.memOk_zeroResult (g : Segment) (c at_ : Nat) (ok : g.memOk = true) : (g.zeroResult c at_).memOk = true := by
  simp +contextual [Segment.zeroResult, ok]

@[simp] theorem State.memOk_issueAtom (s : State) (sg c : Nat) (isF : Bool) (f : IFields) (unc : List Nat) (force : Option (BitVec 4))
    (ok : s.memOk = true) : (s.issueAtom sg c isF f unc force).Leaves fun t => t.memOk = true := by
  simp only [State.issueAtom]
  repeat' split
  all_goals simp +contextual [ok]

@[simp] theorem State.memOk_issueSig (s : State) (sg c : Nat) (f : IFields) (unc : List Nat) (force : Option (BitVec 4))
    (ok : s.memOk = true) : (s.issueSig sg c f unc force).Leaves fun t => t.memOk = true := by
  simp only [State.issueSig]
  repeat' split
  all_goals simp +contextual [ok]

@[simp] theorem State.memOk_issueRecall (s : State) (sg c : Nat) (f : IFields) (ok : s.memOk = true) :
    (s.issueRecall sg c f).Leaves fun t => t.memOk = true := by
  simp only [State.issueRecall]
  repeat' split
  all_goals simp [ok]

@[simp] theorem State.memOk_issue (s : State) (sg c : Nat) (op : BitVec 8) (f : IFields) (unc : List Nat) (force : Option (BitVec 4))
    (ok : s.memOk = true) : (s.issue sg c op f unc force).Leaves fun t => t.memOk = true := by
  grind [State.issue, State.memOk_issueMove, State.memOk_issueShape, State.memOk_issueAtom, State.memOk_issueJoin, State.memOk_issueRound,
    State.memOk_issueRecall, State.memOk_issueSig]

theorem Iss.leaves_res {x : Iss} {sg c : Nat} {op : BitVec 8} {f : IFields} {s : State} (ok : s.memOk = true)
    (left : x.Leaves fun t => t.memOk = true) : (x.res sg c op f s).Leaves fun t => t.memOk = true := by
  cases x with
  | ok t => exact left
  | exc code info => trivial
  | hold => simp [Iss.res, ok]
  | miss va => simp [Iss.res, ok]

@[simp] theorem ok_issueOp (sg : Fin 8) (c : Fin 18) (op : BitVec 8) (f : IFields) (ill : Bool) (s : State) (ok : s.memOk = true) :
    LeavesOk (issueOp sg c op f ill s) :=
  ok_runCore _ _ _ _ _ _ _ _ ok fun _ _ ok => Iss.leaves_res ok (State.memOk_issue _ _ _ _ _ _ _ ok)

@[simp] theorem ok_execSig (sg : Fin 8) (c : Fin 18) (f : IFields) (s : State) (ok : s.memOk = true) : LeavesOk (execSig sg c f s) := by
  refine ok_runCore _ _ _ _ _ _ _ _ ok fun s k ok => ?_
  dsimp only
  split <;> split
  · exact Iss.leaves_res ok (State.memOk_issue _ _ _ _ _ _ _ ok)
  · simp [ok]
  · exact Iss.leaves_res ok (State.memOk_issue _ _ _ _ _ _ _ ok)
  · simp [ok]

@[simp] theorem ok_execRecall (sg : Fin 8) (c : Fin 18) (f : IFields) (s : State) (ok : s.memOk = true) :
    LeavesOk (execRecall sg c f s) := by
  simp [execRecall, ok]

@[simp] theorem ok_execChunk (sg : Fin 8) (c : Fin 18) (f : IFields) (s : State) (ok : s.memOk = true) : LeavesOk (execChunk sg c f s) := by
  refine ok_runCore _ _ _ _ _ _ _ _ ok fun s k ok => ?_
  dsimp only
  repeat' split
  all_goals simp [ok]

@[simp] theorem State.memOk_resumed (s : State) (sg c : Nat) (ok : s.memOk = true) : (s.resumed sg c).memOk = true := by
  grind [State.resumed, State.memOk_of_mod, Segment.memOk_modTicket, Segment.memOk_freeCourier, Segment.memOk_endTicket,
    Segment.memOk_board, Segment.memOk_boundary, Segment.memOk_bump, Segment.memOk_of_modCore]

@[simp] theorem State.memOk_reissue (s : State) (sg c : Nat) (x : Stall) (ok : s.memOk = true) : (s.reissue sg c x).memOk = true := by
  have kept := memOk_issue s sg c x.op x.f x.unc x.force ok
  unfold State.reissue
  split
  next t found =>
    rw [found] at kept
    exact memOk_resumed _ _ _ kept
  · exact memOk_of_mod ok fun g hg => Segment.memOk_raiseExc _ _ _ _ _ _ (by simp [hg])
  · simp [ok]
  · simp [ok]

@[simp] theorem State.memOk_rewaits (s : State) (sg c : Nat) (x : Stall) (ok : s.memOk = true) : (s.rewaits sg c x).memOk = true := by
  have stopped : ∀ info,
      (s.mod sg fun g => (g.modCore c fun k => { k with st := .running, wait := none }).raiseExc s.time c 0x61 0x8 info).memOk = true :=
    fun info => memOk_of_mod ok fun g hg => Segment.memOk_raiseExc _ _ _ _ _ _ (by simp [hg])
  unfold State.rewaits
  dsimp only
  split
  · simp [ok]
  · exact stopped _
  · split
    · exact stopped _
    · simp [ok]

@[simp] theorem State.memOk_goAgain (s : State) (sg c : Nat) (x : Stall) (ok : s.memOk = true) : (s.goAgain sg c x).memOk = true := by
  simp [State.goAgain, ok]

@[simp] theorem State.memOk_askPage (s : State) (sg c : Nat) (x : Stall) (page : Nat) (ok : s.memOk = true) :
    (s.askPage sg c x page).memOk = true := by
  grind [State.askPage, State.memOk_seg, Segment.memOk_migPush, State.memOk_stall, State.memOk_of_setSeg, Segment.memOk_with]

@[simp] theorem ok_execRangeMissFill (sg : Fin 8) (c : Fin 18) (st : DpmStatus) (s : State) (ok : s.memOk = true) :
    LeavesOk (execRangeMissFill sg c st s) := by
  refine ok_onSeg ok fun s ok => ?_
  dsimp only
  repeat' split
  all_goals simp +contextual [ok]

@[simp] theorem State.memOk_giveReq (s : State) (sg : Nat) (ok : s.memOk = true) : (s.giveReq sg).memOk = true := by
  simp only [State.giveReq]
  split <;> simp [ok]

@[simp] theorem State.memOk_answerMig (s : State) (sg : Nat) (m : MigReq) (status : BitVec 4) (ok : s.memOk = true) :
    (s.answerMig sg m status).memOk = true := by
  grind [State.answerMig, State.memOk_of_mod, State.memOk_reissue, State.memOk_stall, State.memOk_giveReq, Segment.memOk_with]

@[simp] theorem State.memOk_retryStalls (s : State) (sg : Nat) (ok : s.memOk = true) : (s.retryStalls sg).memOk = true := by
  grind [State.retryStalls, State.memOk_goAgain, State.memOk_foldl_of]

@[simp] theorem ok_execMigrateDone (sg : Fin 8) (ag : Agent) (v : Word) (s : State) (ok : s.memOk = true) :
    LeavesOk (execMigrateDone sg ag v s) := by
  refine ok_onDoms ok fun s ok => ?_
  dsimp only
  repeat' split
  all_goals simp +contextual [ok]

@[simp] theorem ok_execMigrateTimeout (sg : Fin 8) (req : Fin 16) (s : State) (ok : s.memOk = true) :
    LeavesOk (execMigrateTimeout sg req s) := by
  refine ok_onSeg ok fun s ok => ?_
  dsimp only
  repeat' split
  all_goals simp +contextual [ok]

/-! ## Machine/Control -/

@[simp] theorem ok_execBr (sg : Fin 8) (c : Fin 18) (f : IFields) (s : State) (ok : s.memOk = true) : LeavesOk (execBr sg c f s) := by
  refine ok_runCore _ _ _ _ _ _ _ _ ok fun s k ok => ?_
  dsimp only
  repeat' split
  all_goals simp [ok]

@[simp] theorem ok_execCall (sg : Fin 8) (c : Fin 18) (f : IFields) (s : State) (ok : s.memOk = true) : LeavesOk (execCall sg c f s) := by
  refine ok_runCore _ _ _ _ _ _ _ _ ok fun s k ok => ?_
  dsimp only
  repeat' split
  all_goals simp [ok]

@[simp] theorem ok_execRet (sg : Fin 8) (c : Fin 18) (f : IFields) (s : State) (ok : s.memOk = true) : LeavesOk (execRet sg c f s) := by
  refine ok_runCore _ _ _ _ _ _ _ _ ok fun s k ok => ?_
  repeat' split
  all_goals simp [ok]

@[simp] theorem ok_execHalt (sg : Fin 8) (c : Fin 18) (f : IFields) (s : State) (ok : s.memOk = true) : LeavesOk (execHalt sg c f s) := by
  refine ok_runCore _ _ _ _ _ _ _ _ ok fun s k ok => ?_
  dsimp only
  repeat' split
  all_goals simp [ok]

@[simp] theorem ok_execYield (sg : Fin 8) (c : Fin 18) (f : IFields) (s : State) (ok : s.memOk = true) : LeavesOk (execYield sg c f s) := by
  refine ok_runCore _ _ _ _ _ _ _ _ ok fun s k ok => ?_
  split
  · exact ok
  split
  · trivial
  · exact State.memOk_of_mod ok fun g hg => (Segment.memOk_board _ _).trans (Segment.memOk_saveTicket _ _ _ _ _ _ _ _ hg)

@[simp] theorem ok_execEret (sg : Fin 8) (c : Fin 18) (f : IFields) (s : State) (ok : s.memOk = true) : LeavesOk (execEret sg c f s) := by
  refine ok_runCore _ _ _ _ _ _ _ _ ok fun s k ok => ?_
  simp [ok]

@[simp] theorem ok_execWaits (sg : Fin 8) (c : Fin 18) (f : IFields) (st : DpmStatus) (s : State) (ok : s.memOk = true) :
    LeavesOk (execWaits sg c f st s) := by
  refine ok_runCore _ _ _ _ _ _ _ _ ok fun s k ok => ?_
  dsimp only
  repeat' split
  all_goals simp [ok, State.waitIn]

@[simp] theorem ok_execWaite (sg : Fin 8) (c : Fin 18) (f : IFields) (s : State) (ok : s.memOk = true) : LeavesOk (execWaite sg c f s) := by
  refine ok_runCore _ _ _ _ _ _ _ _ ok fun s k ok => ?_
  dsimp only
  repeat' split
  all_goals simp [ok, State.waitIn]

@[simp] theorem ok_execFence (sg : Fin 8) (c : Fin 18) (f : IFields) (s : State) (ok : s.memOk = true) : LeavesOk (execFence sg c f s) := by
  refine ok_runCore _ _ _ _ _ _ _ _ ok fun s k ok => ?_
  dsimp only
  repeat' split
  all_goals simp [ok, State.waitIn]

@[simp] theorem Segment.memOk_endWait (g : Segment) (cycle c : Nat) (pd : Option (BitVec 5 × Bool)) (ok : g.memOk = true) :
    (g.endWait cycle c pd).memOk = true := by
  simp [Segment.endWait, ok]

@[simp] theorem ok_execWaitsPoll (sg : Fin 8) (c : Fin 18) (st : DpmStatus) (s : State) (ok : s.memOk = true) :
    LeavesOk (execWaitsPoll sg c st s) := by
  grind [execWaitsPoll, ok_onSeg, State.memOk_seg, Segment.memOk_dpmLate, State.memOk_of_setSeg, Segment.memOk_raiseExc,
    Segment.memOk_endWait, Segment.memOk_of_modCore]

@[simp] theorem ok_execWaitsTimeout (sg : Fin 8) (c : Fin 18) (s : State) (ok : s.memOk = true) : LeavesOk (execWaitsTimeout sg c s) := by
  grind [execWaitsTimeout, ok_onSeg, State.memOk_of_mod, Segment.memOk_endWait]

@[simp] theorem ok_execWaiteTimeout (sg : Fin 8) (c : Fin 18) (s : State) (ok : s.memOk = true) : LeavesOk (execWaiteTimeout sg c s) := by
  grind [execWaiteTimeout, ok_onSeg, State.memOk_of_mod, Segment.memOk_endWait]

@[simp] theorem ok_execRdt (sg : Fin 8) (c : Fin 18) (f : IFields) (s : State) (ok : s.memOk = true) : LeavesOk (execRdt sg c f s) := by
  refine ok_runCore _ _ _ _ _ _ _ _ ok fun s k ok => ?_
  simp [ok]

@[simp] theorem Segment.memOk_admitDead (g : Segment) (cycle n slot : Nat) (ctx : BitVec 12) (b : List Byte) (ok : g.memOk = true) :
    (g.admitDead cycle n slot ctx b).memOk = true := by
  simp [Segment.admitDead, ok]

@[simp] theorem ok_execTkt (sg : Fin 8) (c : Fin 18) (f : IFields) (s : State) (ok : s.memOk = true) : LeavesOk (execTkt sg c f s) := by
  refine ok_runCore _ _ _ _ _ _ _ _ ok fun s k ok => ?_
  dsimp only
  split
  · trivial
  split
  · split
    · simp [ok]
    · refine State.memOk_of_mod (by simp [ok]) fun g hg => (Segment.memOk_board _ _).trans ?_
      split <;> split <;> simp [hg]
  · simp [ok]

@[simp] theorem ok_execExWatchdog (sg : Fin 8) (c : Fin 18) (s : State) (ok : s.memOk = true) : LeavesOk (execExWatchdog sg c s) := by
  grind [execExWatchdog, ok_onSeg, State.memOk_seg, State.memOk_of_setSeg, Segment.memOk_board, Segment.memOk_courierExc]

@[simp] theorem ok_execInstructionFetchMiss (sg : Fin 8) (c : Fin 18) (st : DpmStatus) (s : State) (ok : s.memOk = true) :
    LeavesOk (execInstructionFetchMiss sg c st s) := by
  grind [execInstructionFetchMiss, ok_onSeg, State.memOk_seg, Segment.memOk_dpmLate, State.memOk_of_setSeg, Segment.memOk_of_modCore,
    State.memOk_fresh, Segment.memOk_raiseExc]

@[simp] theorem ok_execCurLbDataAccess (sg : Fin 8) (c : Fin 18) (ag : Agent) (v : Option Word) (s : State) (ok : s.memOk = true) :
    LeavesOk (execCurLbDataAccess sg c ag v s) := by
  refine ok_onDoms ok fun s ok => ?_
  dsimp only
  split
  · repeat' split
    all_goals simp [ok]
  · split
    · simp [ok]
    split
    · simp [ok]
    · refine State.memOk_of_setSeg ok ((Segment.memOk_answer _ _ _).trans (Segment.memOk_of_modCore (by simp [ok]) fun k hk => memPut_wf _ _ hk))

/-! ## Machine/Faults -/

@[simp] theorem Segment.memOk_knownTie (g : Segment) (cycle : Nat) (node : BitVec 15) (ok : g.memOk = true) :
    (g.knownTie cycle node).memOk = true := by
  simp +contextual [Segment.knownTie, ok]

@[simp] theorem State.memOk_knownAdd (s : State) (node : BitVec 15) (ok : s.memOk = true) : (s.knownAdd node).memOk = true := by
  grind [State.knownAdd, State.memOk_seg, State.memOk_failDown, State.memOk_of_setSeg, Segment.memOk_knownTie, Segment.memOk_knownSet,
    State.memOk_foldl_of]

@[simp] theorem ok_execKdAdd (sg : Fin 8) (ag : Agent) (node : BitVec 15) (s : State) (ok : s.memOk = true) :
    LeavesOk (execKdAdd sg ag node s) := by
  grind [execKdAdd, ok_onCtl, State.memOk_of_mod, State.memOk_kdCmd, State.memOk_knownAdd, Segment.memOk_answer]

/-! ## Machine/LinkDown -/

@[simp] theorem ok_execRetrainLimitExpiry (sg : Fin 8) (p : Fin 6) (s : State) (ok : s.memOk = true) :
    LeavesOk (execRetrainLimitExpiry sg p s) := by
  refine ok_onSeg ok fun s ok => ?_
  dsimp only
  repeat' split
  all_goals simp +contextual [ok]

@[simp] theorem State.memOk_portDisable (s : State) (sg p : Nat) (ok : s.memOk = true) : (s.portDisable sg p).memOk = true := by
  simp [State.portDisable, ok]

@[simp] theorem ok_execLinkDisable (sg : Fin 8) (p : Fin 6) (ag : Agent) (s : State) (ok : s.memOk = true) :
    LeavesOk (execLinkDisable sg p ag s) := by
  simp +contextual [execLinkDisable, ok]

@[simp] theorem ok_execTrainingPhaseEnd (sg : Fin 8) (p : Fin 6) (obs : TrainObs) (s : State) (ok : s.memOk = true) :
    LeavesOk (execTrainingPhaseEnd sg p obs s) := by
  refine ok_onSeg ok fun s ok => ?_
  dsimp only
  repeat' split
  all_goals simp +contextual [ok]

/-! ## Machine/Target -/

@[simp] theorem ok_execMergeFlushAge (sg : Fin 8) (idx : Nat) (bad : Option BadLine) (s : State) (ok : s.memOk = true) :
    LeavesOk (execMergeFlushAge sg idx bad s) := by
  refine ok_onSeg ok fun s ok => ?_
  dsimp only
  repeat' split
  all_goals simp +contextual [ok]

/-! ## Machine/TicketSteps -/

@[simp] theorem Segment.memOk_refuseTrail (g : Segment) (tick slot : Nat) (ctx : Option (BitVec 12)) (st : BitVec 4) (ring : Option Ring)
    (ok : g.memOk = true) : (g.refuseTrail tick slot ctx st ring).memOk = true := by
  simp only [Segment.refuseTrail]
  split <;> simp [ok]

@[simp] theorem ok_execTrailAdmit (sg : Fin 8) (st : DpmStatus) (s : State) (ok : s.memOk = true) : LeavesOk (execTrailAdmit sg st s) := by
  grind [execTrailAdmit, ok_onSeg, State.memOk_seg, State.memOk_of_setSeg, Segment.memOk_refuseTrail, Segment.memOk_dpmLate,
    Segment.memOk_headerRing, Segment.memOk_localSpan, Segment.memOk_board, Segment.memOk_with]

@[simp] theorem Segment.memOk_admitNext (g : Segment) (cycle : Nat) (x : Trail) (n : Nat) (st gateSt : DpmStatus) (ok : g.memOk = true) :
    (g.admitNext cycle x n st gateSt).memOk = true := by
  simp [Segment.admitNext, ok]

@[simp] theorem ok_execTicketAdmit (sg : Fin 8) (slot : Fin 32) (st gateSt : DpmStatus) (s : State) (ok : s.memOk = true) :
    LeavesOk (execTicketAdmit sg slot st gateSt s) := by
  grind [execTicketAdmit, ok_onSeg, State.memOk_seg, State.memOk_of_setSeg, Segment.memOk_admitNext]

@[simp] theorem ok_execGatePoll (sg : Fin 8) (n : Fin 4096) (st : DpmStatus) (s : State) (ok : s.memOk = true) :
    LeavesOk (execGatePoll sg n st s) := by
  grind [execGatePoll, ok_onSeg, State.memOk_seg, Segment.memOk_dpmLate, Segment.memOk_finish, Segment.memOk_weigh,
    Segment.memOk_modTicket, State.memOk_of_setSeg, Segment.memOk_board]

@[simp] theorem Core.lbOk_take (k : Core) (n : Nat) (ctx : BitVec 12) (tick : Nat) (ok : memWf k.lb = true) :
    memWf (k.take n ctx tick).lb = true := by
  unfold Core.take
  split
  · exact ok
  · rfl

@[simp] theorem Core.lbOk_begin (k : Core) (t : Ticket) (preload head : List Byte) (ok : memWf k.lb = true) :
    memWf (k.begin t preload head).lb = true := by
  simp [Core.begin, ok]

@[simp] theorem Core.lbOk_restore (k : Core) (b : List Byte) (ok : memWf k.lb = true) : memWf (k.restore b).lb = true := by
  simp [Core.restore, ok]

@[simp] theorem Segment.memOk_resumeTicket (g : Segment) (cycle c : Nat) (t : Ticket) (st : BitVec 4) (ok : g.memOk = true) :
    (g.resumeTicket cycle c t st).memOk = true := by
  have taken : (g.modCore c fun k => k.take t.n t.ctx (tickOf cycle)).memOk = true := memOk_of_modCore ok fun k hk => Core.lbOk_take k _ _ _ hk
  simp only [Segment.resumeTicket]
  split
  · exact (memOk_modTicket _ _ _).trans (memOk_of_modCore taken fun k hk => Core.lbOk_restore _ _ hk)
  · exact memOk_endTicket _ _ _ _ _ _ (by simp [taken])
  · exact memOk_endTicket _ _ _ _ _ _ (by simp [taken])

@[simp] theorem State.memOk_startTicket (s : State) (sg c : Nat) (t : Ticket) (st : BitVec 4) (ok : s.memOk = true) :
    (s.startTicket sg c t st).memOk = true := by
  have taken : ((s.seg sg).modCore c fun k => k.take t.n t.ctx s.tick).memOk = true :=
    Segment.memOk_of_modCore (memOk_seg ok sg) fun k hk => Core.lbOk_take k _ _ _ hk
  unfold State.startTicket
  extract_lets g head preload g1 g2 s2 f
  split
  · exact memOk_of_setSeg ok (Segment.memOk_finish _ _ _ _ _ _ _ (by simp [g1, g, taken]))
  have begun : s2.memOk = true :=
    memOk_of_setSeg ok ((Segment.memOk_modTicket _ _ _).trans (Segment.memOk_of_modCore taken fun k hk => Core.lbOk_begin k _ _ _ hk))
  clear_value s2
  have issued := memOk_issue s2 sg c t.rec_.mop f [] none begun
  split
  · exact begun
  split
  next u found =>
    rw [found] at issued
    exact memOk_resumed _ _ _ issued
  · exact memOk_of_mod begun fun g hg => Segment.memOk_courierExc _ _ _ _ _ _ hg
  · simp [begun]
  · simp [begun]

@[simp] theorem State.memOk_dispatchTo (s : State) (sg c : Nat) (t : Ticket) (st : DpmStatus) (ok : s.memOk = true) :
    (s.dispatchTo sg c t st).memOk = true := by
  simp +contextual [State.dispatchTo, ok]

@[simp] theorem ok_execTicketDispatch (sg : Fin 8) (st : DpmStatus) (s : State) (ok : s.memOk = true) :
    LeavesOk (execTicketDispatch sg st s) := by
  refine ok_onSeg ok fun s ok => ?_
  dsimp only
  repeat' split
  all_goals simp +contextual [ok]

@[simp] theorem ok_execTicketComplete (sg : Fin 8) (n : Fin 4096) (s : State) (ok : s.memOk = true) :
    LeavesOk (execTicketComplete sg n s) := by
  grind [execTicketComplete, ok_onSeg, State.memOk_seg, State.memOk_of_setSeg, Segment.memOk_board, Segment.memOk_finish]

@[simp] theorem Segment.memOk_migPoll (g : Segment) (cycle : Nat) (r : Resident) (ok : g.memOk = true) :
    (g.migPoll cycle r).memOk = true := by
  simp only [Segment.migPoll]
  split <;> simp [ok]

@[simp] theorem ok_execCqHeadPoll (sg : Fin 8) (ring : Nat) (s : State) (ok : s.memOk = true) : LeavesOk (execCqHeadPoll sg ring s) := by
  grind [execCqHeadPoll, ok_onSeg, State.memOk_of_mod, Segment.memOk_board, Segment.memOk_trailDrain, Segment.memOk_modTrail,
    Segment.memOk_groupPoll, Segment.memOk_migPoll]

@[simp] theorem ok_execTrlCancelTicket (sg : Fin 8) (ag : Agent) (n : Fin 4096) (s : State) (ok : s.memOk = true) :
    LeavesOk (execTrlCancelTicket sg ag n s) := by
  grind [execTrlCancelTicket, ok_onDoms, Segment.memOk_answer, State.memOk_seg, State.memOk_of_setSeg, Segment.memOk_cancelDenied,
    Segment.memOk_board, Segment.memOk_doom]

@[simp] theorem ok_execTrlCancelTrail (sg : Fin 8) (ag : Agent) (slot : BitVec 12) (s : State) (ok : s.memOk = true) :
    LeavesOk (execTrlCancelTrail sg ag slot s) := by
  grind [execTrlCancelTrail, ok_onDoms, Segment.memOk_answer, State.memOk_seg, State.memOk_of_setSeg, Segment.memOk_cancelDenied,
    Segment.memOk_modTrail, Segment.memOk_doomAll, Segment.memOk_board, Segment.memOk_trailEnd]

@[simp] theorem ok_execTrlCancelContext (sg : Fin 8) (ag : Agent) (ctx : BitVec 12) (s : State) (ok : s.memOk = true) :
    LeavesOk (execTrlCancelContext sg ag ctx s) := by
  grind [execTrlCancelContext, ok_onDoms, Segment.memOk_answer, State.memOk_seg, State.memOk_of_setSeg, Segment.memOk_cancelDenied,
    Segment.memOk_board, Segment.memOk_cancelContext]

/-! ## Machine/Placement -/

@[simp] theorem Segment.memOk_putRecords (g : Segment) (at_ : Nat) (l : List Grp) (ok : g.memOk = true) : (g.putRecords at_ l).memOk = true := by
  induction l generalizing g at_ with
  | nil => exact ok
  | cons x l ih => exact ih _ _ (memOk_saveGrp _ _ (by simp [ok]))

@[simp] theorem Segment.memOk_putRucksack (g : Segment) (tick : Nat) (r : Resident) (records : Nat) (ok : g.memOk = true) :
    (g.putRucksack tick r records).memOk = true := by
  simp [Segment.putRucksack, ok]

@[simp] theorem State.memOk_resumeGroup (s : State) (sg : Nat) (n : BitVec 12) (ok : s.memOk = true) :
    (s.resumeGroup sg n).memOk = true := by
  simp only [State.resumeGroup]
  repeat' split
  all_goals simp [ok]

@[simp] theorem State.memOk_contextIn (s : State) (sg : Nat) (ctx : BitVec 12) (ok : s.memOk = true) :
    (s.contextIn sg ctx).memOk = true := by
  simp +contextual [State.contextIn, ok]

@[simp] theorem ok_execContextLoad (sg : Fin 8) (ag : Agent) (ctx : BitVec 12) (st : DpmStatus) (s : State) (ok : s.memOk = true) :
    LeavesOk (execContextLoad sg ag ctx st s) := by
  grind [execContextLoad, ok_onDoms, State.memOk_seg, Segment.memOk_ctxCmd, State.memOk_of_setSeg, Segment.memOk_ctxResult,
    Segment.memOk_dpmLate, Segment.memOk_answer, State.memOk_contextIn]

@[simp] theorem Segment.memOk_evictStart (g : Segment) (cycle : Nat) (ctx : BitVec 12) (torn : Bool) (ok : g.memOk = true) :
    (g.evictStart cycle ctx torn).memOk = true := by
  simp +contextual [Segment.evictStart, ok]

@[simp] theorem Segment.memOk_suspendGroups (g : Segment) (ctx : BitVec 12) (ok : g.memOk = true) :
    (g.suspendGroups ctx).1.memOk = true := by
  simp only [Segment.suspendGroups]
  split <;> simp [ok]

@[simp] theorem ok_execContextEvict (sg : Fin 8) (ag : Agent) (ctx : BitVec 12) (s : State) (ok : s.memOk = true) :
    LeavesOk (execContextEvict sg ag ctx s) := by
  grind [execContextEvict, ok_onDoms, State.memOk_seg, Segment.memOk_ctxCmd, State.memOk_of_setSeg, Segment.memOk_suspendGroups,
    Segment.memOk_evictStart, Segment.memOk_answer]

@[simp] theorem State.memOk_evictEnd (s : State) (sg : Nat) (ok : s.memOk = true) : (s.evictEnd sg).1.memOk = true := by
  grind [State.evictEnd, State.memOk_seg, Segment.memOk_putRucksack, State.memOk_of_setSeg, Segment.memOk_board, Segment.memOk_ctxResult,
    Segment.memOk_with]

@[simp] theorem Segment.memOk_abortTags (g : Segment) (cycle : Nat) (ctx : BitVec 12) (ok : g.memOk = true) :
    (g.abortTags cycle ctx).memOk = true := by
  simp +contextual [Segment.abortTags, ok]

@[simp] theorem State.memOk_teardown (s : State) (sg : Nat) (ctx : BitVec 12) (ok : s.memOk = true) : (s.teardown sg ctx).memOk = true := by
  grind [State.teardown, State.memOk_of_mod, Segment.memOk_cancelContext, State.memOk_closeGroup, Segment.memOk_evictStart,
    Segment.memOk_abortTags, State.memOk_foldl_of]

@[simp] theorem ok_execContextTeardown (sg : Fin 8) (ag : Agent) (ctx : BitVec 12) (s : State) (ok : s.memOk = true) :
    LeavesOk (execContextTeardown sg ag ctx s) := by
  grind [execContextTeardown, ok_onDoms, State.memOk_seg, Segment.memOk_ctxCmd, State.memOk_of_setSeg, State.memOk_teardown,
    Segment.memOk_answer]

@[simp] theorem ok_execReplicaInstall (sg : Fin 8) (s : State) (ok : s.memOk = true) : LeavesOk (execReplicaInstall sg s) := by
  refine ok_onSeg ok fun s ok => ?_
  dsimp only
  split
  · exact ok
  · refine State.memOk_of_setSeg ok ((Segment.memOk_bump _ _).trans ?_)
    have copied := fun i a b n => memCopy_wf a b n (Segment.memWf_hbm (State.memOk_seg ok sg)) (Segment.memWf_hbm (State.memOk_seg ok i))
    exact (Segment.memOk_iff _).mpr ⟨copied _ _ _ _, ((Segment.memOk_iff _).mp (State.memOk_seg ok sg)).2⟩

@[simp] theorem State.memOk_setRegion (s : State) (key : Nat) (x : Homing) (h : s.memOk = true) : (s.setRegion key x).memOk = true := by
  rw [State.setRegion, memOk_setHoming]
  exact memOk_of_mod h fun g hg => Segment.memOk_hbm hg (memZero_wf _ _ (Segment.memWf_hbm hg))

theorem State.memOk_declareAll {s t : State} {sg : Nat} {guard : BitVec 32} {regions : List Nat} (ok : s.memOk = true)
    (declared : s.declareAll sg guard regions = some t) : t.memOk = true := by
  induction regions generalizing s with
  | nil => cases declared; exact ok
  | cons r regions ih =>
    simp only [State.declareAll] at declared
    split at declared
    · cases declared
    next u place frame placed =>
    have hu : u.memOk = true := (memOk_placeRegion placed).trans ok
    refine ih ?_ declared
    split <;> simp [hu]

@[simp] theorem State.memOk_fhCycle (s : State) (sg : Nat) (ok : s.memOk = true) : (s.fhCycle sg).memOk = true := by
  simp +contextual [State.fhCycle, ok]

@[simp] theorem ok_execFhDeclare (sg : Fin 8) (ag : Agent) (v : Word) (s : State) (ok : s.memOk = true) : LeavesOk (execFhDeclare sg ag v s) := by
  refine ok_onDoms ok fun s ok => ?_
  dsimp only
  split
  · simp [ok]
  have answered : (s.setSeg sg ((s.seg sg).answer csOk 0)).memOk = true := by simp [ok]
  split
  next t declared => exact (State.memOk_mod _ _ _ fun g => by simp).trans (State.memOk_declareAll answered declared)
  · simp [ok]

@[simp] theorem State.memOk_copyBlocks (s : State) (sg : Nat) (m : Move) (src : Nat) (ok : s.memOk = true) : (s.copyBlocks sg m src).memOk = true :=
  memOk_of_mod ok fun _ hg => Segment.memOk_hbm hg (foldl_keeps (p := fun m => memWf m = true)
    (fun _ _ hm => memCopy_wf _ _ _ hm (Segment.memWf_hbm (memOk_seg ok sg))) _ (Segment.memWf_hbm hg))

@[simp] theorem ok_execMovePassDone (sg : Fin 8) (s : State) (ok : s.memOk = true) : LeavesOk (execMovePassDone sg s) := by
  refine ok_onSeg ok fun s ok => ?_
  dsimp only
  repeat' split
  all_goals simp +contextual [ok]

/-! ## Machine/Images -/

@[simp] theorem Segment.memOk_startKeeper (g : Segment) (tick at_ : Nat) (ok : g.memOk = true) : (g.startKeeper tick at_).memOk = true := by
  simp +contextual [Segment.startKeeper, ok]

@[simp] theorem Segment.memOk_loadImages (g : Segment) (tick : Nat) (ok : g.memOk = true) : (g.loadImages tick).memOk = true := by
  have started : ((g.startKeeper tick g.bootBase).setStage 6).memOk = true := (memOk_setStage _ _).trans (memOk_startKeeper _ _ _ ok)
  unfold Segment.loadImages
  split
  · simp [ok]
  · extract_lets k
    split
    · rw [memOk_with, memOk_startSteward]
      exact started
    · exact (memOk_bootFail _ _).trans started

@[simp] theorem State.memOk_copyBootArea (s : State) (sg : Nat) (ok : s.memOk = true) : (s.copyBootArea sg).memOk = true := by
  unfold State.copyBootArea
  split
  · exact ok
  · exact memOk_of_mod ok fun g hg => Segment.memOk_setMem (by simp [hg])
      (memCopy_wf _ _ _ (Segment.memWf_hbm hg) (Segment.memWf_hbm (memOk_seg ok 0)))

@[simp] theorem State.memOk_bootImages (s : State) (sg : Nat) (ok : s.memOk = true) : (s.bootImages sg).memOk = true := by
  simp +contextual [State.bootImages, ok]

@[simp] theorem State.memOk_go (s : State) (sg : Nat) (ok : s.memOk = true) : (s.go sg).memOk = true := by
  simp +contextual [State.go, ok]

@[simp] theorem State.memOk_goWrite (s : State) (sg : Nat) (ag : Agent) (ok : s.memOk = true) : (s.goWrite sg ag).memOk = true := by
  simp [State.goWrite, ok]

@[simp] theorem ok_execBootGo (sg : Fin 8) (ag : Agent) (s : State) (ok : s.memOk = true) : LeavesOk (execBootGo sg ag s) := by
  simp +contextual [execBootGo, ok]

@[simp] theorem State.memOk_imageBytes (s : State) (sg source : Nat) (off : BitVec 32) (data : List Byte) (ok : s.memOk = true) :
    (s.imageBytes sg source off data).memOk = true := by
  grind [State.imageBytes, State.memOk_seg, State.memOk_of_setSeg, Segment.memOk_put]

@[simp] theorem ok_execImageWrite (off : BitVec 32) (data : List Byte) (s : State) (ok : s.memOk = true) :
    LeavesOk (execImageWrite off data s) := by
  simp +contextual [execImageWrite, ok]

@[simp] theorem ok_execImageGo (s : State) (ok : s.memOk = true) : LeavesOk (execImageGo s) := by
  simp +contextual [execImageGo, ok]

@[simp] theorem ok_execImageLoad (sg : Fin 8) (off : BitVec 32) (data : List Byte) (last : Bool) (s : State) (ok : s.memOk = true) :
    LeavesOk (execImageLoad sg off data last s) := by
  refine ok_onSeg ok fun s ok => ?_
  dsimp only
  repeat' split
  all_goals simp +contextual [ok]

/-! ## Machine/Seal -/

theorem State.memOk_serve13_of {s : State} {sg ch notice : Nat} {f : State → Agent → Nat → State × Nat} (ok : s.memOk = true)
    (kept : ∀ s ag ptr, s.memOk = true → (f s ag ptr).1.memOk = true) : (s.serve13 sg ch notice f).memOk = true := by
  unfold State.serve13
  split
  · exact ok
  next ag ptr _ =>
    have served := kept s ag ptr ok
    exact memOk_of_mod served fun g hg => by simp [hg]

@[simp] theorem State.memOk_guardPut (s : State) (sg idx : Nat) (w : BitVec 32) (ok : s.memOk = true) :
    (s.guardPut sg idx w).memOk = true := by
  grind [State.guardPut, State.memOk_seg, State.memOk_guardDrop, State.memOk_of_setSeg, Segment.memOk_put]

@[simp] theorem Segment.memOk_zeroRegion (g : Segment) (idx : Nat) (ok : g.memOk = true) : (g.zeroRegion idx).memOk = true :=
  memOk_setMem ok (memZero_wf _ _ (memWf_mem ok _))

@[simp] theorem ok_execQuote (sg : Fin 8) (ch : Fin 64) (s : State) (ok : s.memOk = true) : LeavesOk (execQuote sg ch s) := by
  refine ok_onSeg ok fun s ok => State.memOk_serve13_of ok fun s ag ptr ok => ?_
  dsimp only
  split
  · exact ok
  split
  · exact ok
  split
  · exact ok
  · exact State.memOk_of_setSeg ok ((Segment.memOk_bump _ _).trans (Segment.memOk_put _ _ _ _ (State.memOk_seg ok sg)))

@[simp] theorem ok_execHostSpdm (sg : Fin 8) (ch : Fin 64) (s : State) (ok : s.memOk = true) : LeavesOk (execHostSpdm sg ch s) := by
  refine ok_onSeg ok fun s ok => State.memOk_serve13_of ok fun s ag ptr ok => ?_
  dsimp only
  split
  · exact ok
  split
  · exact ok
  split
  · exact ok
  · exact State.memOk_of_mod (by simp [ok]) fun g hg => Segment.memOk_put _ _ _ _ hg

theorem State.memOk_claimAll {s t : State} {ctx : BitVec 12} {l : List (Nat × Option Nat)} (ok : s.memOk = true)
    (claimed : s.claimAll ctx l = .ok t) : t.memOk = true := by
  induction l generalizing s with
  | nil => cases claimed; exact ok
  | cons p l ih =>
    simp only [State.claimAll] at claimed
    repeat' split at claimed
    · cases claimed
    · cases claimed
    · cases claimed
    · exact ih (memOk_guardPut _ _ _ _ ok) claimed

theorem State.memOk_sealChunk {s t : State} {r : SealReq} {key : List Byte} {i : Nat} (ok : s.memOk = true) (put : s.sealChunk r key i = .ok t) :
    t.memOk = true := by
  simp only [State.sealChunk] at put
  split at put <;> cases put
  exact memOk_of_mod ok fun g hg => Segment.memOk_put _ _ _ _ hg

theorem State.memOk_sealChunks {s t : State} {r : SealReq} {key : List Byte} {l : List Nat} (ok : s.memOk = true)
    (put : s.sealChunks r key l = .ok t) : t.memOk = true := by
  induction l generalizing s with
  | nil => cases put; exact ok
  | cons i l ih =>
    simp only [State.sealChunks] at put
    split at put
    next u chunk => exact ih (memOk_sealChunk ok chunk) put
    · cases put

@[simp] theorem State.memOk_zeroTail (s : State) (places : List SealPlace) (left : Nat) (ok : s.memOk = true) :
    (s.zeroTail places left).memOk = true := by
  induction places generalizing s left with
  | nil => exact ok
  | cons p places ih => exact ih _ _ (memOk_of_mod ok fun g hg => Segment.memOk_hbm hg (memZero_wf _ _ (Segment.memWf_hbm hg)))

theorem State.memOk_sealPart {s t : State} {r : SealReq} {key : List Byte} {regions : List (Nat × Option Nat)} {chunks : Nat} (ok : s.memOk = true)
    (loaded : s.sealPart r key regions chunks = .ok t) : t.memOk = true := by
  simp only [State.sealPart] at loaded
  split at loaded
  · cases loaded
  next s1 installed =>
  split at loaded
  · cases loaded
  next s2 claimed =>
  split at loaded
  · cases loaded
  next s3 put =>
  cases loaded
  exact memOk_sealChunks (memOk_claimAll ((memOk_installCtx installed).trans ok) claimed) put

theorem State.memOk_sealSteps {s t : State} {r : SealReq} {key : List Byte} (ok : s.memOk = true) (loaded : s.sealSteps r key = .ok t) :
    t.memOk = true := by
  simp only [State.sealSteps] at loaded
  split at loaded
  · cases loaded
  next s3 part =>
  split at loaded <;> cases loaded
  exact (memOk_mod _ _ _ fun g => by simp).trans (memOk_zeroTail _ _ _ (memOk_sealPart ok part))

@[simp] theorem State.memOk_breakLoad (s : State) (ch : Nat) (ok : s.memOk = true) : (s.breakLoad ch).memOk = true := by
  have fresh : s.fresh.memOk = true := by simp [ok]
  simp only [State.breakLoad]
  split
  · exact fresh
  split
  · exact fresh
  split
  · exact fresh
  split
  · exact fresh
  next u loaded => exact memOk_sealPart fresh loaded

@[simp] theorem State.memOk_breakLoads (s : State) (ok : s.memOk = true) : s.breakLoads.memOk = true := by
  simp +contextual [State.breakLoads, ok]

@[simp] theorem ok_execSealLoad (sg : Fin 8) (ch : Fin 64) (s : State) (ok : s.memOk = true) : LeavesOk (execSealLoad sg ch s) := by
  refine ok_onSeg ok fun s ok => State.memOk_serve13_of ok fun s ag ptr ok => ?_
  have refused : ∀ (info : BitVec 32) (ctx : BitVec 12),
      (if info == 0 then s else s.mod sg fun g => g.keeperFault s.tick info (some ctx)).memOk = true := fun info ctx => by
    split <;> simp [ok]
  dsimp only
  split
  · exact ok
  split
  · exact ok
  split
  · exact ok
  split
  · exact ok
  split
  · exact refused _ _
  split
  · exact refused _ _
  split
  · exact refused _ _
  next t loaded => exact (State.memOk_mod _ _ _ fun g => by simp).trans (State.memOk_sealSteps ok loaded)

@[simp] theorem State.memOk_sealFinish (s : State) (sg : Nat) (ctx : BitVec 12) (ok : s.memOk = true) :
    (s.sealFinish sg ctx).memOk = true := by
  grind [State.sealFinish, State.memOk_of_mod, Segment.memOk_disarmCtx, Segment.memOk_zeroRegion, State.memOk_guardPut,
    Segment.memOk_writeKey, Segment.memOk_modKprTear, Segment.memOk_forgetCtx, Segment.memOk_foldl_of, State.memOk_foldl_of,
    Segment.memOk_with]

@[simp] theorem State.memOk_sealTeardown (s : State) (ctx : BitVec 12) (ok : s.memOk = true) : (s.sealTeardown ctx).memOk = true := by
  grind [State.sealTeardown, State.memOk_sealFinish, State.memOk_teardown, State.memOk_of_mod, Segment.memOk_modKprTear,
    State.memOk_sealSettle, State.memOk_foldl_of]

theorem State.memOk_askTeardown {s t : State} {sg : Nat} {ctx : BitVec 12} {ch : Option Nat} (ok : s.memOk = true)
    (asked : s.askTeardown sg ctx ch = some t) : t.memOk = true := by
  simp only [State.askTeardown] at asked
  split at asked <;> cases asked
  exact memOk_sealTeardown _ _ (by simp [ok])

theorem State.memOk_askTeardown_getD (s u : State) (sg : Nat) (ctx : BitVec 12) (ch : Option Nat) (ok : s.memOk = true) (hu : u.memOk = true) :
    ((s.askTeardown sg ctx ch).getD u).memOk = true := by
  cases asked : s.askTeardown sg ctx ch with
  | none => exact hu
  | some t => exact memOk_askTeardown ok asked

@[simp] theorem ok_execSealTeardown (sg : Fin 8) (ch : Fin 64) (s : State) (ok : s.memOk = true) : LeavesOk (execSealTeardown sg ch s) := by
  refine ok_onSeg ok fun s ok => ?_
  dsimp only
  split
  · exact ok
  split
  · simp [ok]
  split
  · simp [ok]
  split
  · simp [ok]
  · exact State.memOk_askTeardown_getD _ _ _ _ _ ok (by simp [ok])

@[simp] theorem State.memOk_guardApply (s : State) (sg : Nat) (ag : Agent) (e : Nat) (ok : s.memOk = true) :
    (s.guardApply sg ag e).memOk = true := by
  grind [State.guardApply, State.memOk_guardPut, State.memOk_of_mod, Segment.memOk_zeroRegion]

@[simp] theorem ok_execGuardSet (sg : Fin 8) (ch : Fin 64) (s : State) (ok : s.memOk = true) : LeavesOk (execGuardSet sg ch s) := by
  refine ok_onSeg ok fun s ok => State.memOk_serve13_of ok fun s ag ptr ok => ?_
  dsimp only
  split
  · simp [ok]
  split
  · simp [ok]
  · exact State.memOk_foldl_of (by simp [ok]) fun s e hs => State.memOk_guardApply _ _ _ _ hs

@[simp] theorem Segment.memOk_hostPages (g : Segment) (material data tags : List Byte) (seq addr left i : Nat) (ok : g.memOk = true) :
    (g.hostPages material data tags seq addr left i).1.memOk = true := by
  induction left generalizing g i with
  | zero => exact ok
  | succ left ih =>
    simp only [Segment.hostPages]
    split
    · exact ok
    · exact ih _ _ (memOk_put _ _ _ _ ok)

@[simp] theorem ok_execHostCopy (sg : Fin 8) (ch : Fin 64) (data tags : List Byte) (s : State) (ok : s.memOk = true) :
    LeavesOk (execHostCopy sg ch data tags s) := by
  refine ok_onSeg ok fun s ok => State.memOk_serve13_of ok fun s ag ptr ok => ?_
  extract_lets g b addr len dir n _ _ _
  have hg : g.memOk = true := State.memOk_seg ok sg
  clear_value g
  split
  · exact ok
  split
  · exact ok
  split
  · exact ok
  split
  · exact ok
  split
  · exact ok
  split
  · exact ok
  split
  · exact ok
  split
  · split
    · exact ok
    · have paged := fun m seq => Segment.memOk_hostPages g m data tags seq addr n 0 hg
      dsimp only
      split <;> refine State.memOk_of_setSeg ok ?_ <;> split <;> simp [paged]
  · exact State.memOk_of_setSeg ok ((Segment.memOk_keySerial _ _ _).trans (Segment.memOk_put _ _ _ _ (by simp [hg])))

/-! ## Machine/Resets -/

@[simp] theorem Segment.memOk_warmBoot (g : Segment) (tick : Nat) (ok : g.memOk = true) : (g.warmBoot tick).memOk = true := by
  simp [Segment.warmBoot, ok]

@[simp] theorem State.memOk_warmNow (s : State) (p : Segment → Bool) (ok : s.memOk = true) : (s.warmNow p).memOk = true := by
  refine memOk_of_modAll ok fun g hg => ?_
  dsimp only
  repeat' split
  all_goals simp [hg]

@[simp] theorem State.memOk_scrubEnd (s : State) (ok : s.memOk = true) : s.scrubEnd.memOk = true := by
  unfold State.scrubEnd
  split <;> simp [ok]

@[simp] theorem State.memOk_warmReset (s : State) (ok : s.memOk = true) : s.warmReset.memOk = true := by
  unfold State.warmReset
  split
  · exact memOk_scrubEnd _ (memOk_foldl_of (memOk_of_modAll ok fun g hg => by simp [hg]) fun _ _ hs => by simp [hs])
  · simp [ok]

@[simp] theorem ok_execWarmResetRequest (sg : Fin 8) (s : State) (ok : s.memOk = true) : LeavesOk (execWarmResetRequest sg s) := by
  simp +contextual [execWarmResetRequest, ok]

@[simp] theorem State.memOk_warmWrite (s : State) (sg : Nat) (ag : Agent) (v : Word) (ok : s.memOk = true) :
    (s.warmWrite sg ag v).memOk = true := by
  simp [State.warmWrite, ok]

@[simp] theorem ok_execSegResetWarm (sg : Fin 8) (ag : Agent) (s : State) (ok : s.memOk = true) : LeavesOk (execSegResetWarm sg ag s) := by
  simp +contextual [execSegResetWarm, ok]

@[simp] theorem ok_execContextEvictDone (sg : Fin 8) (s : State) (ok : s.memOk = true) : LeavesOk (execContextEvictDone sg s) := by
  grind [execContextEvictDone, ok_onSeg, State.memOk_evictEnd, State.memOk_sealSettle, State.memOk_sealFinish, State.memOk_scrubEnd]

@[simp] theorem ok_execPllLock (sg : Fin 8) (s : State) (ok : s.memOk = true) : LeavesOk (execPllLock sg s) := by
  grind [execPllLock, ok_onSeg, State.memOk_seg, State.memOk_of_setSeg, Segment.memOk_warmBoot, Segment.memOk_wakeAll,
    Segment.memOk_setStage, Segment.memOk_with]

@[simp] theorem ok_execPllLossOfLock (sg : Fin 8) (s : State) (ok : s.memOk = true) : LeavesOk (execPllLossOfLock sg s) := by
  refine ok_onSeg ok fun s ok => ?_
  dsimp only
  repeat' split
  all_goals simp +contextual [ok]

@[simp] theorem State.memOk_romTakes (s : State) (sg : Nat) (ok : s.memOk = true) : (s.romTakes sg).memOk = true := by
  simp [State.romTakes, ok]

@[simp] theorem ok_execSelfTestDone (sg : Fin 8) (rows : List (Fin 12 × BitVec 15)) (badCheckers : List (Fin 12)) (voterBad : Bool)
    (s : State) (ok : s.memOk = true) : LeavesOk (execSelfTestDone sg rows badCheckers voterBad s) := by
  refine ok_onSeg ok fun s ok => ?_
  dsimp only
  repeat' split
  all_goals simp +contextual [ok]

@[simp] theorem ok_execMemoryClearDone (sg : Fin 8) (s : State) (ok : s.memOk = true) : LeavesOk (execMemoryClearDone sg s) := by
  refine ok_onSeg ok fun s ok => ?_
  split
  · exact ok
  · refine State.memOk_romTakes _ _ (State.memOk_of_mod ok fun g hg => ?_)
    obtain ⟨hbm, sp, lbs⟩ := g.memOk_iff.mp hg
    exact (Segment.memOk_iff _).mpr ⟨memZero_wf _ _ hbm, memZero_wf _ _ sp, lbs⟩

theorem memWf_memPut_nil (a : Nat) (bs : List Byte) : memWf (memPut [] a bs) = true := memPut_wf _ _ (show memWf [] = true from rfl)

theorem Core.lb_loseLb (k : Core) (ctr : Nat) : (k.loseLb ctr).lb = memPut [] 0 ((List.range 65536).map fun i => Config.freeByte (ctr + i)) := by
  rw [Core.loseLb]

@[simp] theorem Core.lbOk_loseLb (k : Core) (ctr : Nat) : memWf (k.loseLb ctr).lb = true := by
  rw [lb_loseLb]
  exact memWf_memPut_nil _ _

@[simp] theorem State.memOk_loseLb (s : State) (sg c : Nat) (ok : s.memOk = true) : (s.loseLb sg c).memOk = true := by
  simp +contextual [State.loseLb, ok]

@[simp] theorem Segment.memOk_quadDown (g : Segment) (cycle q : Nat) (ok : g.memOk = true) : (g.quadDown cycle q).memOk = true := by
  grind [Segment.quadDown, Segment.memOk_endTicket, Segment.memOk_freeCourier, Segment.memOk_of_modCore, Segment.memOk_board,
    Segment.memOk_foldl_of]

@[simp] theorem State.memOk_bankLost (s : State) (sg b : Nat) (ok : s.memOk = true) : (s.bankLost sg b).memOk = true := by
  simp [State.bankLost, ok]

@[simp] theorem State.memOk_domainDown (s : State) (sg d : Nat) (lost : Bool) (ok : s.memOk = true) :
    (s.domainDown sg d lost).memOk = true := by
  grind [State.domainDown, State.memOk_of_mod, Segment.memOk_keeperDown, Segment.memOk_of_modCore, Core.lb_resetState, State.memOk_loseLb,
    Segment.memOk_forget, Segment.memOk_quadDown, State.memOk_bankLost, State.memOk_failRoutes, Segment.memOk_portDown,
    State.memOk_foldl_of, Segment.memOk_with]

@[simp] theorem Segment.memOk_keeperUp (g : Segment) (tick : Nat) (ok : g.memOk = true) : (g.keeperUp tick).memOk = true := by
  have started : ∀ k : Segment, k.memOk = true → (if k.imgOk 1 k.bootBase then k.startKeeper tick k.bootBase else k.bootFail 2).memOk = true :=
    fun k hk => by split <;> simp [hk]
  have cleared : (g.setFld F.SEG_BOOT_KEEPER_NEXT 0).memOk = true := (memOk_setFld _ _ _).trans ok
  refine started _ ?_
  split
  · extract_lets k
    split
    · exact memOk_hbm cleared (memCopy_wf _ _ _ (memWf_hbm cleared) (memWf_hbm cleared))
    · exact (memOk_keeperFault _ _ _ _).trans cleared
  · exact ok

@[simp] theorem Segment.memOk_domainUp (g : Segment) (tick d : Nat) (ok : g.memOk = true) : (g.domainUp tick d).memOk = true := by
  simp [Segment.domainUp, ok]

@[simp] theorem State.memOk_partialReset (s : State) (sg d : Nat) (ok : s.memOk = true) : (s.partialReset sg d).memOk = true := by
  simp [State.partialReset, ok]

@[simp] theorem State.memOk_partialWrite (s : State) (sg : Nat) (ag : Agent) (d : Nat) (v : Word) (ok : s.memOk = true) :
    (s.partialWrite sg ag d v).memOk = true := by
  simp [State.partialWrite, ok]

@[simp] theorem ok_execPartialReset (sg : Fin 8) (ag : Agent) (domain : BitVec 6) (s : State) (ok : s.memOk = true) :
    LeavesOk (execPartialReset sg ag domain s) := by
  simp +contextual [execPartialReset, ok]

@[simp] theorem ok_execKeeperUpdate (sg : Fin 8) (ch : Fin 64) (s : State) (ok : s.memOk = true) : LeavesOk (execKeeperUpdate sg ch s) := by
  refine ok_onSeg ok fun s ok => ?_
  dsimp only
  repeat' split
  all_goals simp +contextual [ok]

/-! ## Machine/PowerSteps -/

@[simp] theorem State.memOk_sleepLoss (s : State) (sg d : Nat) (ok : s.memOk = true) : (s.sleepLoss sg d).memOk = true := by
  grind [State.sleepLoss, State.memOk_of_mod, Segment.memOk_forget, State.memOk_loseLb, Segment.memOk_of_modCore,
    State.memOk_bridgeAsleep, State.memOk_foldl_of, Segment.memOk_with]

@[simp] theorem State.memOk_sleepsEnd (s : State) (sg : Nat) (ok : s.memOk = true) : (s.sleepsEnd sg).memOk = true := by
  simp +contextual [State.sleepsEnd, ok]

@[simp] theorem ok_execPwrAckRise (sg : Fin 8) (d : Fin 35) (s : State) (ok : s.memOk = true) : LeavesOk (execPwrAckRise sg d s) := by
  grind [execPwrAckRise, ok_onSeg, State.memOk_seg, Segment.memOk_setBitOf, State.memOk_of_setSeg, Segment.memOk_domainUp,
    Segment.memOk_wakeOne, Segment.memOk_wakePending, State.memOk_routerWakes, Segment.memOk_with]

@[simp] theorem State.memOk_domainLost (s : State) (sg d : Nat) (ok : s.memOk = true) : (s.domainLost sg d).memOk = true := by
  simp [State.domainLost, ok]

@[simp] theorem ok_execPwrAckFall (sg : Fin 8) (d : Fin 35) (s : State) (ok : s.memOk = true) : LeavesOk (execPwrAckFall sg d s) := by
  simp +contextual [execPwrAckFall, ok]

@[simp] theorem ok_execDomainLost (sg : Fin 8) (d : Fin 35) (s : State) (ok : s.memOk = true) : LeavesOk (execDomainLost sg d s) := by
  simp +contextual [execDomainLost, ok]

/-! ## Machine/Manage -/

theorem State.memOk_lototum_of {s : State} {ses : Session} {needs : Bool} {f : State → SpdmSes → State} (ok : s.memOk = true)
    (kept : ∀ s x, s.memOk = true → (f s x).memOk = true) : (s.lototum ses needs f).memOk = true := by
  unfold State.lototum
  split
  · simp [ok]
  split
  · simp [ok]
  split
  · simp [ok]
  split
  · simp [ok]
  dsimp only
  split
  · simp [ok]
  · exact kept _ _ (by simp [ok])

@[simp] theorem ok_execTeardown (ses : Session) (ctx : BitVec 12) (s : State) (ok : s.memOk = true) : LeavesOk (execTeardown ses ctx s) :=
  ok_onSeg ok fun _ ok => State.memOk_lototum_of ok fun s _ ok => State.memOk_askTeardown_getD _ _ _ _ _ (by simp [ok]) (by simp [ok])

/-! ## Machine/RegWrite -/

@[simp] theorem State.memOk_writeSeg (s : State) (sg : Fin 8) (ag : Agent) (r : RegRow) (off : Nat) (sz : Sz) (v : Word)
    (ok : s.memOk = true) : (s.writeSeg sg ag r off sz v).memOk = true := by
  grind [State.writeSeg, memOk_after_of_ok, ok_of_same, same_execSegNodeidWrite, ok_execBridgeRetry, State.memOk_of_mod,
    Segment.memOk_modBend, State.memOk_plain, same_execMergeFlushCmd, same_execStewardReady, State.memOk_goWrite, same_execSegBootAreaWrite,
    State.memOk_warmWrite, State.memOk_partialWrite]

@[simp] theorem State.memOk_writeFlt (s : State) (sg : Fin 8) (ag : Agent) (r : RegRow) (off : Nat) (sz : Sz) (v : Word)
    (ok : s.memOk = true) : (s.writeFlt sg ag r off sz v).memOk = true := by
  simp [State.writeFlt, ok]

@[simp] theorem State.memOk_writeLnkCtrl (s : State) (sg : Fin 8) (p : Fin 6) (ag : Agent) (w : Word) (ok : s.memOk = true) :
    (s.writeLnkCtrl sg p ag w).memOk = true := by
  simp [State.writeLnkCtrl, ok]

@[simp] theorem State.memOk_writePort (s : State) (sg : Fin 8) (ag : Agent) (r : RegRow) (off : Nat) (sz : Sz) (v : Word)
    (ok : s.memOk = true) : (s.writePort sg ag r off sz v).memOk = true := by
  simp [State.writePort, ok]

@[simp] theorem State.memOk_writeClv (s : State) (sg : Fin 8) (ag : Agent) (r : RegRow) (off : Nat) (sz : Sz) (v : Word)
    (ok : s.memOk = true) : (s.writeClv sg ag r off sz v).memOk = true := by
  simp [State.writeClv, ok]

@[simp] theorem State.memOk_writeHmp (s : State) (sg : Fin 8) (ag : Agent) (r : RegRow) (off : Nat) (sz : Sz) (v : Word)
    (ok : s.memOk = true) : (s.writeHmp sg ag r off sz v).memOk = true := by
  simp [State.writeHmp, ok]

@[simp] theorem State.memOk_writeXlt (s : State) (sg : Fin 8) (ag : Agent) (r : RegRow) (off : Nat) (sz : Sz) (v : Word)
    (ok : s.memOk = true) : (s.writeXlt sg ag r off sz v).memOk = true := by
  simp [State.writeXlt, ok]

@[simp] theorem State.memOk_writePlc (s : State) (sg : Fin 8) (ag : Agent) (r : RegRow) (off : Nat) (sz : Sz) (v : Word)
    (ok : s.memOk = true) : (s.writePlc sg ag r off sz v).memOk = true := by
  simp [State.writePlc, ok]

@[simp] theorem State.memOk_writeTrl (s : State) (sg : Fin 8) (ag : Agent) (r : RegRow) (off : Nat) (sz : Sz) (v : Word)
    (ok : s.memOk = true) : (s.writeTrl sg ag r off sz v).memOk = true := by
  simp [State.writeTrl, ok]

@[simp] theorem State.memOk_writeCur (s : State) (sg : Fin 8) (ag : Agent) (r : RegRow) (off : Nat) (sz : Sz) (v : Word)
    (ok : s.memOk = true) : (s.writeCur sg ag r off sz v).memOk = true := by
  simp [State.writeCur, ok]

@[simp] theorem State.memOk_writeReg (s : State) (sg : Fin 8) (ag : Agent) (r : RegRow) (off : Nat) (sz : Sz) (v : Word)
    (ok : s.memOk = true) : (s.writeReg sg ag r off sz v).memOk = true := by
  simp [State.writeReg, ok]

@[simp] theorem State.memOk_ctlWrite (s : State) (sg : Fin 8) (ag : Agent) (off : Nat) (sz : Sz) (v : Word) (rank : Nat)
    (ok : s.memOk = true) : (s.ctlWrite sg ag off sz v rank).memOk = true := by
  simp only [State.ctlWrite]
  repeat' split
  all_goals simp [ok]

@[simp] theorem State.memOk_ctlRead (s : State) (sg : Fin 8) (ag : Agent) (off : Nat) (sz : Sz) (ok : s.memOk = true) :
    (s.ctlRead sg ag off sz).memOk = true := by
  simp only [State.ctlRead]
  repeat' split
  all_goals simp [ok]

@[simp] theorem ok_execRegisterWrite (sg : Fin 8) (ag : Agent) (off : BitVec 21) (sz : Sz) (v : Word) (s : State) (ok : s.memOk = true) :
    LeavesOk (execRegisterWrite sg ag off sz v s) := by
  simp +contextual [execRegisterWrite, ok]

@[simp] theorem ok_execRegisterRead (sg : Fin 8) (ag : Agent) (off : BitVec 21) (sz : Sz) (s : State) (ok : s.memOk = true) :
    LeavesOk (execRegisterRead sg ag off sz s) := by
  simp +contextual [execRegisterRead, ok]

/-! ## Machine/CtlAccess -/

@[simp] theorem ok_execCld (sg : Fin 8) (c : Fin 18) (f : IFields) (s : State) (ok : s.memOk = true) : LeavesOk (execCld sg c f s) := by
  refine ok_runCore _ _ _ _ _ _ _ _ ok fun s k ok => ?_
  have read := State.memOk_ctlRead s sg ((s.seg sg).coreAgent c k) (gaOff (k.ea f).toNat) .w64 ok
  dsimp only
  split
  · trivial
  split
  · split
    · simp [read]
    · exact State.memOk_of_mod read fun g hg => Segment.memOk_raiseExc _ _ _ _ _ _ hg
  · simp [ok, State.waitIn]

@[simp] theorem ok_execCst (sg : Fin 8) (c : Fin 18) (f : IFields) (s : State) (ok : s.memOk = true) : LeavesOk (execCst sg c f s) := by
  refine ok_runCore _ _ _ _ _ _ _ _ ok fun s k ok => ?_
  dsimp only
  split
  · trivial
  split
  · split
    · exact State.memOk_ctlWrite _ _ _ _ _ _ _ (Res.memOk_apply _ _ _ _ _ ok ok)
    · exact State.memOk_of_mod (by simp [ok]) fun g hg => Segment.memOk_raiseExc _ _ _ _ _ _ hg
  · simp [ok, State.waitIn]

@[simp] theorem ok_execDptControlAccess (sg : Fin 8) (write : Bool) (req : DptReq) (s : State) (ok : s.memOk = true) :
    LeavesOk (execDptControlAccess sg write req s) := by
  grind [execDptControlAccess, ok_onSeg, State.memOk_onDpt, State.memOk_seg, State.memOk_of_setSeg, Segment.memOk_dptRespond,
    Segment.memOk_fenceRead, State.memOk_ctlWrite, State.memOk_ctlRead, State.memOk_of_mod, Segment.memOk_issueCtl, Segment.memOk_dptAccept]

@[simp] theorem State.memOk_atomCtl (s : State) (sg : Fin 8) (f : Flit) (ok : s.memOk = true) : (s.atomCtl sg f).1.memOk = true := by
  simp only [State.atomCtl]
  repeat' split
  all_goals simp [ok]

@[simp] theorem ok_execControlAtomAccess (sg : Fin 8) (idx : Nat) (s : State) (ok : s.memOk = true) :
    LeavesOk (execControlAtomAccess sg idx s) := by
  refine ok_onSeg ok fun s ok => ?_
  dsimp only
  repeat' split
  all_goals simp +contextual [ok]

/-! ## Machine/Jtag -/

@[simp] theorem ok_execCtrlAccessDone (sg : Fin 8) (s : State) (ok : s.memOk = true) : LeavesOk (execCtrlAccessDone sg s) := by
  refine ok_onSeg ok fun s ok => ?_
  dsimp only
  repeat' split
  all_goals simp +contextual [ok]

/-! ## Machine/LoadStore -/

@[simp] theorem ok_loadOp (sg : Fin 8) (c : Fin 18) (op : BitVec 8) (f : IFields) (n : Nat) (isSigned : Bool) (s : State)
    (ok : s.memOk = true) : LeavesOk (loadOp sg c op f n isSigned s) := by
  refine ok_runCore _ _ _ _ _ _ _ _ ok fun s k ok => ?_
  dsimp only
  repeat' split
  all_goals simp [ok]

@[simp] theorem Core.lbOk_store (k : Core) (a n : Nat) (v : Word) (ok : memWf k.lb = true) : memWf (k.store a n v).lb = true :=
  memPut_wf _ _ ok

@[simp] theorem ok_storeOp (sg : Fin 8) (c : Fin 18) (op : BitVec 8) (f : IFields) (n : Nat) (s : State) (ok : s.memOk = true) :
    LeavesOk (storeOp sg c op f n s) := by
  refine ok_runCore _ _ _ _ _ _ _ _ ok fun s k ok => ?_
  split
  · trivial
  · exact State.memOk_of_modCore ok fun k hk => Core.lbOk_store _ _ _ _ hk

/-! ## Machine/Idle -/

@[simp] theorem State.memOk_errorCopy (s : State) (sg : Nat) (r : FaultRec) (ok : s.memOk = true) : (s.errorCopy sg r).memOk = true := by
  simp only [State.errorCopy]
  repeat' split
  all_goals simp +contextual [ok]

@[simp] theorem State.memOk_faultTick (s : State) (sg : Nat) (ok : s.memOk = true) : (s.faultTick sg).memOk = true := by
  simp +contextual [State.faultTick, ok]

@[simp] theorem State.memOk_tickStep (s : State) (ok : s.memOk = true) : s.tickStep.memOk = true := by
  simp +contextual [State.tickStep, ok]

@[simp] theorem Segment.memOk_illegalOpcode (g : Segment) (cycle c : Nat) (ok : g.memOk = true) :
    (g.illegalOpcode cycle c).memOk = true := by
  simp only [Segment.illegalOpcode]
  split <;> simp [ok]

@[simp] theorem Segment.memOk_cycleStep (g : Segment) (cycle : Nat) (ok : g.memOk = true) : (g.cycleStep cycle).memOk = true := by
  simp +contextual [Segment.cycleStep, ok]

@[simp] theorem State.memOk_segCycle (s : State) (sg : Nat) (ok : s.memOk = true) : (s.segCycle sg).memOk = true := by
  grind [State.segCycle, State.memOk_sleepsEnd, State.memOk_fhCycle, State.memOk_of_mod, Segment.memOk_settleFrames,
    Segment.memOk_cycleStep, State.memOk_retryStalls, State.memOk_moveWatch, Segment.memOk_countStalls]

@[simp] theorem State.memOk_idle (s : State) (ok : s.memOk = true) : s.idle.memOk = true := by
  grind [State.idle, State.memOk_breakLoads, State.memOk_segCycle, State.memOk_tickStep, State.memOk_foldl_of, State.memOk_with]

end Sys2Proof.Machine

end

section
/-! Every step keeps every memory in the canonical form. -/

namespace Sys2Proof.Machine

open Sys2Proof

theorem ok_execColdReset (straps : List Straps) (s : State) (ok : s.memOk = true) : LeavesOk (execColdReset straps s) := by
  intro t next
  unfold execColdReset at next
  split at next <;> cases next
  · exact ok
  · refine (State.memOk_iff _).mpr fun g hg => ?_
    obtain ⟨k, -, rfl⟩ := List.mem_map.mp hg
    refine Segment.memOk_cold ?_ _ _ _
    split
    · exact State.memOk_seg ok k
    · exact (Segment.memOk_with {} _ ..).trans Segment.memOk_default

/-- The listed commands and RECALL may write a memory, or run code that may; the others leave every memory as it is. -/
theorem ok_exec (i : Instr) (s : State) (ok : s.memOk = true) : LeavesOk (exec i s) := by
  cases i
  case coldReset straps => exact ok_execColdReset straps s ok
  case add | sub | and | or | xor | shl | shr | sra | mul | mulh | mulhu | div | divu | rem | remu | min | max | minu | maxu | movh
    | popc | clz | ctz | extu =>
    unfold exec
    exact ok_aluOp _ _ _ _ _ _ ok
  case ceq | cne | clt | cltu | cge | cgeu =>
    unfold exec
    exact ok_cmpOp _ _ _ _ _ _ ok
  case pand | por | pxor =>
    unfold exec
    exact ok_predOp _ _ _ _ _ _ ok
  case ld8 | ld16 | ld32 | ld64 | lds8 | lds16 | lds32 =>
    unfold exec
    exact ok_loadOp _ _ _ _ _ _ _ ok
  case st8 | st16 | st32 | st64 =>
    unfold exec
    exact ok_storeOp _ _ _ _ _ _ ok
  case get | put | copy | movt | atom | atomf | cjoin | camp | vote | ride =>
    unfold exec
    exact ok_issueOp _ _ _ _ _ _ ok
  case pllLock | pllLossOfLock | selfTestDone | memoryClearDone | bootGo | imageWrite | imageGo | imageLoad | warmResetRequest
    | segResetWarm | partialReset | keeperUpdate | bridgeParityError | bridgeResetMessage | bridgeLinkUp | bridgeRetry
    | dptControlAccess | dpmResponse | dpmTimeout | requestIssue | guardFill | controlAtomAccess | cpyExecute | replyLand | tagTimeout
    | busyRetry | mergeFlushAge | pset | movs | sets | cld | cst | br | call | ret | yield | halt | eret | chunk | sig | waits | waite
    | fence | rdt | tkt | exWatchdog | waitsPoll | waitsTimeout | waiteTimeout | lineIssue | instructionFetchMiss | curLbDataAccess
    | trailAdmit | ticketAdmit | gatePoll | ticketDispatch | ticketComplete | cqHeadPoll | trlCancelTicket | trlCancelTrail
    | trlCancelContext | movtTileStart | groupClose | groupCloseDone | groupAbortCommand | operationStart | chunkStart | chunkUp
    | chunkDown | chunkRel | chunkNak | notReadyRepeat | collectiveRepeat | reductionStep | reductionStepDone | chunkResultWrite
    | closingPartSend | stragglerEvent | hardTimeout | groupAbort | abortDecisionTimeout | campFlit | voteFlit | stileRelease
    | contextLoad | contextEvict | contextEvictDone | contextTeardown | rangeMissFill | recallSubmit | migrateDone | migrateTimeout
    | replicaInstall | fhDeclare | movePassDone | retrainLimitExpiry | linkDisable | trainingPhaseEnd | pwrAckRise | pwrAckFall
    | domainLost | bankFence | kdAdd | quote | sealLoad | sealTeardown | guardSet | hostSpdm | hostCopy | teardown | ctrlAccessDone
    | registerWrite | registerRead =>
    unfold exec
    simp [ok]
  -- RECALL is among these, since its name is a word of Lean's own
  all_goals
    unfold exec
    simp [ok, ok_of_same ok]

/-- Settles O59: no function that a command or a cycle runs breaks the canonical form, as the lemma of each says. -/
theorem memoriesStayCanonical : Obligations.MemoriesStayCanonical := by
  intro s t ok next
  unfold step at next
  split at next
  · cases next
    exact State.memOk_idle s ok
  next c rest _ => exact ok_exec c _ ((State.memOk_with s ..).trans ok) t next

end Sys2Proof.Machine

end
